-- ==== Sys2Proof/Word.lean ====
section
/-!
DEFINITION. The word types of the block (R7, R8): register words are 32 bits, bytes are 8 bits,
and bit 0 is always the least significant bit.
-/

namespace Sys2Proof

/-- A 32-bit register or table word (R7). -/
abbrev Word := BitVec 32

/-- One byte of a frame, record, segment or trace (R8). -/
abbrev Byte := BitVec 8

/-- Time and stamps are counted in 2.5 ns steps unless a name says otherwise (R18). -/
abbrev Steps := Nat

end Sys2Proof
end

