-- ==== Sys2Proof/Syntax.lean ====
section
/-!
DEFINITION. The commands of the block: one constructor of `Instr` for each row of
spec/opcode_table.json. The rows give no fields, so the operands are what the world outside the
device supplies with that happening (log entry 2): a lane number, what the TDC and the ADC measured,
the bytes of a frame, the value of a sensor. `dt` is the time since the previous command, in 2.5 ns
steps (log entry 3).
-/

namespace Sys2Proof

/-- A lane number, flat 0 to 511 (R1). -/
abbrev Lane := Fin 512
/-- A cluster number, flat 0 to 63 (R2). -/
abbrev Cluster := Fin 64
/-- A region number (R20). -/
abbrev Region := Fin 8
/-- A position of an endpoint on its lane (R5). -/
abbrev Pos := Fin 16
/-- A table index within the package (R6). -/
abbrev Idx := Fin 8192

/-- The control ports (R276). -/
inductive Port where
  | h | m | u
  deriving DecidableEq, Repr

/-- The uplink ports (R245). -/
inductive Ul where
  | ul0 | ul1
  deriving DecidableEq, Repr

/-- One low pulse as the TDC stamped it: fine stamps of the falling and the rising edge in
0.3125 ns units relative to the grid instant of the frame's snapshot (R18, R199). `rise = none`
is a line still low at push start (R78). -/
structure Pulse where
  fall : Int
  rise : Option Int
  deriving DecidableEq, Repr

/-- What the lane measured in one answer: the level ADC's low sample in the tempo pip (R191), the
struck pips in slot order, and the pacing strike where the lane drove one (R107). -/
structure AnswerWire where
  low : Nat
  pips : List Pulse
  pace : Option Pulse
  deriving DecidableEq, Repr

/-- What the lane measured in one HARVEST or HARVEST_PARTIAL frame: the high sample and the
master-low sample (R191), the frame mark, the six header pips, the sample strike and one answer for
each position that was struck (R105). `missed` names the places on the chain whose endpoint abandoned
the frame for a failed check or an error class of R72, and whether it was the header (R102, R110). -/
structure HarvestWire where
  hi : Nat
  markLow : Nat
  mark : Pulse
  header : List Pulse
  strike : Pulse
  answers : List AnswerWire
  missed : List (Fin 16 × Bool) := []
  deriving DecidableEq, Repr

/-- What the lane measured in one register-access frame (R101): frame mark, header, body and the
answer, if the command has one; `missed` as in a harvest. -/
structure FrameWire where
  hi : Nat
  markLow : Nat
  mark : Pulse
  header : List Pulse
  body : List Pulse
  answer : AnswerWire
  missed : List (Fin 16 × Bool) := []
  deriving DecidableEq, Repr

/-- What the lane measured of one SENT frame: the level samples of R191 and the falling edges, as
fine stamps relative to the grid instant, from the edge that begins the calibration pulse (R143), and the
rising edges between them (R472). -/
structure SentWire where
  hi : Nat
  low : Nat
  edges : List Int
  rises : List Int
  deriving DecidableEq, Repr

/-- What the receiver measured of one PSI5 frame (R153, R201): the first start-bit edge after the
sync start in 2.5 ns steps, the stamp of that edge relative to the grid instant, the bit time in
1/16 of a 2.5 ns step, whether the Manchester coding was without violation, the bits after the two
start bits in the order received, the two currents in 0.25 mA, and
every transition of the frame as a fine stamp (R472). -/
structure Psi5Wire where
  edge : Int
  stamp : Int
  bitTime : Nat
  codingOk : Bool
  bits : List Bool
  iLo : Int
  iHi : Int
  edges : List Int
  deriving DecidableEq, Repr

/-- What the lane saw in one LIN frame slot (R160): the stamp of the break, the response bytes with
their stop bits, the checksum byte, whether it completed in the slot, whether the transmitted bits
read back, whether the break read back as recessive (R163), and every transition as a fine stamp
(R472). -/
structure LinWire where
  brk : Int
  bytes : List (Byte × Bool)
  check : Option Byte
  inSlot : Bool
  readbackOk : Bool
  breakRecessive : Bool
  edges : List Int
  deriving DecidableEq, Repr

/-- A word of a burst with the CRC-8 that travelled with it (R290). -/
structure CrcWord where
  data : Word
  crc : Byte
  deriving DecidableEq, Repr

/-- Which part of a transaction a command is (R277, R290, R294): all of it; its beginning, with CSN low
afterwards; a further part with CSN low before and after; its end. What happens within the transaction comes
between its parts. -/
inductive Piece where
  | whole | first | next | last
  deriving DecidableEq, Repr

/-- The part goes on with a transaction that is open. -/
def Piece.goesOn : Piece → Bool
  | .next | .last => true
  | _ => false

/-- CSN stays low after the part. -/
def Piece.stays : Piece → Bool
  | .first | .next => true
  | _ => false

/-- How a burst or a part of one is clocked: at the fast SCLK rate or the slow one (R284), and which part it is. -/
structure Clocking where
  fast : Bool
  piece : Piece := .whole
  deriving DecidableEq, Repr

/-- How a stall read or a part of one is clocked, and the filler bytes that the part lasts (R294). -/
structure StallPart where
  fast : Bool
  piece : Piece := .whole
  fillers : Nat := 0
  deriving DecidableEq, Repr

/-- How far a transaction got before CSN rose (R301). -/
inductive Partial where
  /-- A READ before its last cycle. -/
  | read (cmd : Byte) (addr : BitVec 16) (crc : Byte)
  /-- A WRITE before its last cycle: its fields, where the frame CRC had arrived and was checked. -/
  | write (frame : Option (Byte × BitVec 16 × Word × Byte))
  /-- A burst read with this many words completed. -/
  | burstRead (cmd : Byte) (addr : BitVec 16) (crc : Byte) (words : Nat)
  /-- A burst write with these words completed. -/
  | burstWrite (cmd : Byte) (addr : BitVec 16) (crc : Byte) (words : List CrcWord)
  /-- A stall read before the last cycle of the item's CRC byte (R295). -/
  | stall (cmd : Byte) (crc : Byte)
  /-- A SECURE_WRITE before its last cycle: CMD, ADDR, DATA, CTR, TAG and CRC, where the frame CRC had
  arrived and the tag was checked. -/
  | secureWrite (frame : Option (Byte × BitVec 16 × Word × Word × BitVec 64 × Byte))
  /-- A SECURE_BURST before the final STAT: the header, and the tag where it had already been
  checked. -/
  | secureBurst (cmd : Byte) (addr : BitVec 16) (len : Byte) (ctr : Word) (crc : Byte)
      (words : List CrcWord) (tag : Option (List Byte × Byte))
  deriving DecidableEq, Repr

/-- A transaction that CSN cut short: its SCLK rate and how far it got (R301). -/
structure CutShort where
  fast : Bool
  got : Partial
  deriving DecidableEq, Repr

/-- A Sync message as the time engine takes it: its domain, whether BMCA selected its sender, and its time as TAI
(R41, R44). -/
structure SyncMsg where
  domain : BitVec 8
  selected : Bool
  tai : Nat
  deriving DecidableEq, Repr

/-- The single-bit errors of a snapshot: how many the assembler found and corrected, and the records in which its
later readers will meet one (R243). -/
structure EccFound where
  fixed : Nat
  flips : List Idx
  deriving DecidableEq, Repr

/-- The monitored rails (R430), with the region LDO of R434 left to its own commands. -/
inductive Rail where
  | vlink (g : Region) | vbat | vio | vddLane | vddCore
  deriving DecidableEq, Repr

/-- The rails that reset the device (R430). -/
inductive ResetRail where
  | vio | vddLane | vddCore | vdda18
  deriving DecidableEq, Repr

/-- The threshold a recovering rail returns above (R430). -/
inductive Threshold where
  | warning | second | reset
  deriving DecidableEq, Repr

/-- Why an uplink port goes down (R249). -/
inductive DownCause where
  | syncLost | autoNeg
  deriving DecidableEq, Repr

/-- The two queue banks of a region (R223). -/
inductive Bank where
  | a | b
  deriving DecidableEq, Repr

/-- The three ways of TEST_ACCESS (R312, R521). -/
inductive TestTry where
  | testEn | instruction | register
  deriving DecidableEq, Repr

/-- What a region's two loops measured at a grid tick: the phase error in 0.125 ns units (R198) and
the error of the calibration stamp in 0.3125 ns units (R199). -/
structure RegionErr where
  phase : Int
  tdc : Int
  deriving DecidableEq, Repr

/-- What the migration of the stores wrote: whether the write of the configuration store, and that of the
calibration store, passed its read-back at the first or second try (R509). -/
structure MigWrite where
  cfgOk : Bool
  calOk : Bool
  deriving DecidableEq, Repr

/-- What the shell test of BOOT finds: a trace measured open, and traces bridged or shorted (R411, R419). -/
structure ShellTest where
  opened : Bool
  shorted : Bool
  deriving DecidableEq, Repr

/-- Whether the KEK rebuild of BOOT and the health tests of the random number generator pass (R393, R410). -/
structure SelfTest where
  puf : Bool
  rng : Bool
  deriving DecidableEq, Repr

/-- Whether BOOT finds the reference, and the level of the LEAD strap (R59, R521). -/
structure BootPins where
  ref : Bool
  lead : Bool
  deriving DecidableEq, Repr

/-- The completion of a vault operation on a port; `puf` tells whether a KEK rebuild within it passes (R399,
R410, R417). -/
structure VaultEnd where
  port : Port
  puf : Bool
  deriving DecidableEq, Repr

/-- The commands. One constructor for each row of spec/opcode_table.json, in the table's order. -/
inductive Instr where
  | powerOnReset (lead : Bool)
  | rstN (lowNs : Nat) (lead : Bool)
  | boot (shellTest : ShellTest) (pufOk : SelfTest) (refPresent : BootPins) (bad : List (Fin 32 × Fin 6)) (corrected : List (Fin 32))
  | discoveryEnd
  | followerStartTimeout
  | stageAdmit (g : Region)
  | laneStep (g : Region) (m : Fin 32)
  | stageChargeRelease (g : Region)
  | enumWaveAdmit
  | gridTick (errs : List RegionErr)
  | freeRunAdvance
  | syncRx (dt : Nat) (port : Ul) (msg : SyncMsg) (logInterval : Int)
  | acquisitionComplete (dt : Nat) (offset : Int)
  | lockAcquired (dt : Nat)
  | syncTimeout (dt : Nat) (otherPortOk : Bool)
  | holdMax (dt : Nat)
  | rephase (dt : Nat) (p : Port)
  | rephaseStep
  | peerDelay (dt : Nat) (port : Ul) (delayNs : Nat)
  | downstreamMessage (dt : Nat) (arrival : Int) (msg : List Byte)
  | upstreamMessage (dt : Nat) (msg : List Byte)
  | echoMark (dt : Nat) (arrival : Nat)
  | followLost
  | followerLost (hop : Fin 4)
  | referenceLoss (dt : Nat)
  | referenceReturn
  | corePll (dt : Nat)
  | lanePll (dt : Nat)
  | lanePllRelock (dt : Nat)
  | harvest (dt : Nat) (n : Lane) (w : HarvestWire)
  | harvestPartial (dt : Nat) (n : Lane) (top : Pos) (w : HarvestWire)
  | sproutOnSilence (idx : Idx)
  | lineSlow (n : Lane)
  | read (dt : Nat) (n : Lane) (w : FrameWire)
  | write (dt : Nat) (n : Lane) (w : FrameWire)
  | enum (dt : Nat) (n : Lane) (w : FrameWire)
  | ident (dt : Nat) (n : Lane) (w : FrameWire)
  | convert (dt : Nat) (n : Lane) (p : Pos) (all : Bool) (code : BitVec 6) (w : FrameWire)
  | commitNv (dt : Nat) (n : Lane) (p : Pos) (all : Bool) (code : BitVec 6) (w : FrameWire)
  | sleep (dt : Nat) (n : Lane) (p : Pos) (all : Bool) (w : FrameWire)
  | wakePing (dt : Nat) (n : Lane) (p : Pos) (wake : Bool) (w : FrameWire)
  | closePass (dt : Nat) (n : Lane) (w : FrameWire)
  | openPass (dt : Nat) (n : Lane) (p : Pos) (w : FrameWire)
  | attest (dt : Nat) (n : Lane) (p : Pos) (w : FrameWire)
  | attestTagCheck (dt : Nat) (n : Lane) (p : Pos) (hi lo : FrameWire)
  | enumerationStart (dt : Nat) (n : Lane)
  | enumRetry (dt : Nat) (n : Lane)
  | enumRepoll (n : Lane)
  | spuAdmit (n : Lane)
  | spuWindowEnd (dt : Nat) (n : Lane)
  | spuOverload (dt : Nat) (n : Lane)
  | stuckLow (dt : Nat) (n : Lane)
  | busClear (dt : Nat) (n : Lane)
  | busClearLineHigh (dt : Nat) (n : Lane)
  | shortToGround (dt : Nat) (n : Lane)
  | shortHigh (dt : Nat) (n : Lane)
  | lineSwing (n : Lane)
  | isolationRetry (n : Lane) (free : Bool)
  | seqParity (dt : Nat) (c : Cluster)
  | seqReload (c : Cluster)
  | laneModeStart (n : Lane)
  | spcTrigger (dt : Nat) (n : Lane) (stamp : Int)
  | sentFrame (dt : Nat) (n : Lane) (w : SentWire)
  | sentStuck (dt : Nat) (n : Lane)
  | sentSilent (dt : Nat) (n : Lane)
  | syncPulse (dt : Nat) (n : Lane) (stamp : Int)
  | psi5Frame (dt : Nat) (n : Lane) (slot : Fin 4) (w : Psi5Wire)
  | psi5Silent (dt : Nat) (n : Lane)
  | psi5Overcurrent (dt : Nat) (n : Lane)
  | linFrameSlot (dt : Nat) (n : Lane) (fid : BitVec 6) (w : LinWire)
  | linDiagPair (dt : Nat) (n : Lane) (w : LinWire)
  | linWakeUp (dt : Nat) (n : Lane)
  | linScheduleStart (n : Lane)
  | linWake (dt : Nat) (n : Lane) (lowUs : Nat)
  | linStuck (dt : Nat) (n : Lane) (toVbat : Bool)
  | linStuckClear (dt : Nat) (n : Lane)
  | harvestCutoff (dt : Nat)
  | queueTimeout (dt : Nat) (g : Region)
  | queuePtr (dt : Nat) (g : Region) (k : Bank)
  | linkRetry (dt : Nat) (g : Region) (lanes : List Lane) (twice : Bool)
  | snapshotDone (dt : Nat) (single : EccFound) (badEcc decayed : List Idx)
  | keyLimit (k : Fin 32)
  | uplinkDown (dt : Nat) (port : Ul) (cause : DownCause)
  | uplinkUp (dt : Nat) (port : Ul)
  | revert (k : Fin 32)
  | uplinkRx (dt : Nat) (port : Ul) (frame : List Byte)
  | wakeOutRelease (dt : Nat)
  | rememberedDelivery (dt : Nat) (c : Fin 32)
  | spuDeferEnd (dt : Nat) (g : Region)
  | portRead (dt : Nat) (p : Port) (fast : Bool) (cmd : Byte) (addr : BitVec 16) (crc : Byte)
  | portWrite (dt : Nat) (p : Port) (fast : Bool) (cmd : Byte) (addr : BitVec 16) (data : Word) (crc : Byte)
  | burstRead (dt : Nat) (p : Port) (how : Clocking) (cmd : Byte) (addr : BitVec 16) (crc : Byte) (words : Nat)
  | burstWrite (dt : Nat) (p : Port) (how : Clocking) (cmd : Byte) (addr : BitVec 16) (crc : Byte) (words : List CrcWord)
  | stallRead (dt : Nat) (p : Port) (how : StallPart) (cmd : Byte) (addr : BitVec 16) (crc : Byte)
  | secureWrite (dt : Nat) (p : Port) (fast : Bool) (cmd : Byte) (addr : BitVec 16) (data ctr : Word) (tag : BitVec 64) (crc : Byte)
  | secureBurst (dt : Nat) (p : Port) (fast : Bool) (cmd : Byte) (addr : BitVec 16) (len : Byte) (ctr : Word) (crc : Byte) (words : List CrcWord) (tag : BitVec 64) (tagCrc : Byte)
  | transactionAbort (dt : Nat) (p : Port) (at_ : CutShort)
  | seqWriteBack (dt : Nat) (p : Port) (off : BitVec 9) (data : Word)
  | registerWrite (dt : Nat) (p : Port) (indirect : Bool) (addr : BitVec 24) (data : Word)
  | commit (dt : Nat) (p : Port) (groups : BitVec 16)
  | commitTake
  | sowingComplete
  | commitEffective
  | lockSet (dt : Nat) (p : Port) (bits : BitVec 6)
  | captureReq (dt : Nat) (p : Port) (restart : Bool)
  | captureSample
  | captureDone (dt : Nat)
  | discard (dt : Nat) (p : Port) (groups : BitVec 16)
  | flush (dt : Nat) (p : Port) (g : Region)
  | evqFlush (dt : Nat) (p : Port)
  | calSave (dt : Nat) (p : Port)
  | goRead (dt : Nat) (p : Port) (n : Lane) (pos : Pos) (addr : Byte)
  | goWrite (dt : Nat) (p : Port) (n : Lane) (pos : Pos) (addr : Byte)
  | goIdent (dt : Nat) (p : Port) (n : Lane) (pos : Pos)
  | goLinDiag (dt : Nat) (p : Port) (n : Lane)
  | expired (n : Lane)
  | preset (dt : Nat) (p : Port)
  | reclaim (dt : Nat) (p : Port)
  | open_ (dt : Nat) (p : Port)
  | close (dt : Nat) (p : Port)
  | sessionResponse (dt : Nat) (p : Port) (r : BitVec 64)
  | challengeTimeout (dt : Nat) (p : Port)
  | heartbeatMissed (dt : Nat) (p : Port)
  | leaseExpiry (dt : Nat) (p : Port)
  | loadPart (dt : Nat) (p : Port) (ctr : Word) (part : Byte) (enc : List Byte)
  | installMaster (dt : Nat) (p : Port) (ctr : Word) (gen : Byte)
  | installStreamKey (dt : Nat) (p : Port) (ctr : Word) (stream keyId : Byte) (actSnap : BitVec 48) (gen : Byte) (keyNonce : Word)
  | installPairingRoot (dt : Nat) (p : Port) (ctr : Word) (slot : Byte) (maker : BitVec 16)
  | installHoardKey (dt : Nat) (p : Port) (ctr : Word)
  | rotatePortKey (dt : Nat) (p : Port) (ctr : Word) (code : Byte)
  | clearSlot (dt : Nat) (p : Port) (ctr : Word) (slot : Byte)
  | setPolicy (dt : Nat) (p : Port) (ctr : Word) (policy : Byte)
  | readSlotAttr (dt : Nat) (p : Port) (ctr : Word) (slot : Byte)
  | readLog (dt : Nat) (p : Port) (ctr : Word) (index : Byte)
  | sign (dt : Nat) (p : Port) (ctr : Word) (challenge : List Byte)
  | readOut (dt : Nat) (p : Port) (ctr : Word) (buffer part : Byte)
  | saveConfig (dt : Nat) (p : Port) (ctr : Word)
  | provPart (dt : Nat) (p : Port) (ctr : Word) (part : Byte) (bytes : List Byte)
  | provCommit (dt : Nat) (p : Port) (ctr : Word)
  | vaultResult (dt : Nat) (p : VaultEnd)
  | shellOpen (dt : Nat)
  | shellShort (dt : Nat)
  | light (dt : Nat)
  | voltGlitch (dt : Nat)
  | clockGlitch (dt : Nat)
  | tempHigh (dt : Nat)
  | tempLow (dt : Nat)
  | testAccess (dt : Nat) (how : TestTry)
  | idcode
  | bypass (tdi : Bool)
  | railWarning (dt : Nat) (r : Rail)
  | railReset (r : ResetRail) (lead : Bool)
  | railRecovery (dt : Nat) (r : Rail) (th : Threshold)
  | vlinkSecond (dt : Nat) (g : Region)
  | vlinkRecovery (dt : Nat) (g : Region)
  | regionIsolated (dt : Nat) (g : Region)
  | regionIsolationEnd (dt : Nat) (g : Region)
  | vbatSecond (dt : Nat)
  | vbatRecovery (dt : Nat)
  | regionCal (g : Region)
  | modeReqOff (dt : Nat) (p : Port)
  | modeReqSentinel (dt : Nat) (p : Port)
  | modeReqRun (dt : Nat) (p : Port)
  | modeReqRecover (dt : Nat) (p : Port)
  | modeReqTest (dt : Nat) (p : Port) (secure : Bool)
  | modeReqReplay (dt : Nat) (p : Port) (secure : Bool)
  | modeChange
  | offEntry (dt : Nat)
  | sentinelEntry (dt : Nat)
  | sentinelPoll (dt : Nat) (n : Lane) (w : HarvestWire) (pings : List (Pos × FrameWire)) (sent : Option SentWire) (lin : List (BitVec 6 × LinWire))
  | sentinelExit (dt : Nat)
  | lockstepMismatch (dt : Nat)
  | wardenRestart (dt : Nat)
  | hoardArm
  | hoardFreeze (dt : Nat) (p : Port)
  | hoardExport
  | hoardFrozen (dt : Nat)
  | replayInject (dt : Nat) (offset : Nat) (data : Word)
  | traceStart
  | replayTick
  | replayEnd (dt : Nat)
  | takeBlock (dt : Nat) (block : Byte)
  | verify (dt : Nat)
  | abort (dt : Nat) (p : Port)
  | activate (dt : Nat) (p : Port)
  | activationPause (dt : Nat)
  | activationPauseEnd (dt : Nat)
  | migrationComplete (dt : Nat) (w : MigWrite)
  | confirm (dt : Nat) (p : Port)
  | rollback (dt : Nat) (p : Port)
  | corePllRelock (dt : Nat)
  | psi5ShortHigh (dt : Nat) (n : Lane)
  | verifyComplete (dt : Nat)
  | takeComplete (dt : Nat) (readBackOk : Bool)
  deriving DecidableEq, Repr

end Sys2Proof
end

