-- ==== Sys2Proof/Machine/Operands.lean ====
section
/-!
DEFINITION. Bit fields (R7), byte order (R8), and the check sums that frames, tables and files
carry: the CRC-8 of the control ports (R282), the CRC-4 and CRC-8 of the Aknun link (R98), the SENT
nibble CRC (R144), and the CRC-32 of IEEE 802.3.
-/

namespace Sys2Proof.Machine

/-- Bits `hi:lo` of a word, as a number (R7). -/
def fld (w : Word) (hi lo : Nat) : Nat := w.toNat / 2 ^ lo % 2 ^ (hi + 1 - lo)

/-- Bit `i` of a word. -/
def bit (w : Word) (i : Nat) : Bool := w.toNat / 2 ^ i % 2 == 1

/-- A number as bits. -/
def b2n (b : Bool) : Nat := if b then 1 else 0

/-- A word from fields given as (low bit, width, value). -/
def pack (fs : List (Nat × Nat × Nat)) : Word :=
  BitVec.ofNat 32 (fs.foldl (fun a f => a + f.2.2 % 2 ^ f.2.1 * 2 ^ f.1) 0)

/-- A word with the bits of `m` taken from `d` and the others from `w`. -/
def merge (w d m : Word) : Word := (w &&& ~~~m) ||| (d &&& m)

/-- The mask of bits `hi:lo`. -/
def ones (hi lo : Nat) : Word := BitVec.ofNat 32 (2 ^ (hi + 1) - 2 ^ lo)

/-- A number of `n` bits read as two's complement. -/
def sgn (n v : Nat) : Int := if v % 2 ^ n < 2 ^ (n - 1) then (v % 2 ^ n : Nat) else (v % 2 ^ n : Nat) - (2 ^ n : Nat)

/-- An integer as `n` bits of two's complement. -/
def uns (n : Nat) (v : Int) : Nat := (v % (2 ^ n : Nat)).toNat

/-- Arithmetic right shift, rounding towards minus infinity (R190). -/
def asr (x : Int) (n : Nat) : Int := x / (2 ^ n : Nat)

/-- The nearest integer to `a / b` for positive `b`, halves rounding up (R199). -/
def rnd (a b : Int) : Int := (2 * a + b) / (2 * b)

/-- A number limited to a range. -/
def clampI (lo hi x : Int) : Int := if x < lo then lo else if hi < x then hi else x

/-- A number limited to a range. -/
def clampN (lo hi x : Nat) : Nat := if x < lo then lo else if hi < x then hi else x

/-- A count that saturates. -/
def satAdd (top x : Nat) (n : Nat := 1) : Nat := min top (x + n)

/-- A counter word that saturates at its widest value. -/
def satInc {n : Nat} (x : BitVec n) : BitVec n := if x = BitVec.allOnes n then x else x + 1

/-- The `n` bytes of a number, most significant first (R8). -/
def beBytes : Nat → Nat → List Byte
  | 0, _ => []
  | n + 1, v => BitVec.ofNat 8 (v / 256 ^ n) :: beBytes n v

/-- The number that bytes spell, most significant first (R8). -/
def beNat (bs : List Byte) : Nat := bs.foldl (fun a b => a * 256 + b.toNat) 0

/-- The bits of the `n`-bit number `v`, most significant first. -/
def msb : Nat → Nat → List Bool
  | 0, _ => []
  | n + 1, v => (v / 2 ^ n % 2 == 1) :: msb n v

/-- The number that bits spell, most significant first. -/
def bitsNat (bs : List Bool) : Nat := bs.foldl (fun a b => 2 * a + b2n b) 0

/-- Bytes cut into groups of `n`, the last one as it is left. -/
def chunks (n : Nat) : Nat → List α → List (List α)
  | 0, _ => []
  | _, [] => []
  | fuel + 1, xs => xs.take n :: chunks n fuel (xs.drop n)

/-- A list lengthened with `x` to `n` entries, or cut to `n`. -/
def fit (n : Nat) (x : α) (xs : List α) : List α := (xs ++ List.replicate (n - xs.length) x).take n

/-- The list with entry `i` replaced. -/
def putAt (xs : List α) (i : Nat) (x : α) : List α := xs.set i x

/-- One bit into a CRC register of `n` bits with polynomial `poly`. -/
def crcBit (n poly : Nat) (crc : Nat) (b : Bool) : Nat :=
  let fb := xor (crc / 2 ^ (n - 1) % 2 == 1) b
  let sh := crc * 2 % 2 ^ n
  if fb then Nat.xor sh poly else sh

/-- The CRC-4 of the Aknun link over bits in order (R98). -/
def crc4 (bs : List Bool) : Nat := bs.foldl (crcBit 4 0x3) 0xA

/-- The CRC-8 of the Aknun link over bits in order (R98). -/
def crc8 (bs : List Bool) : Nat := bs.foldl (crcBit 8 0x1D) 0xFF

/-- The CRC-8 of the control ports over bytes in order (R282). -/
def portCrc (bs : List Byte) : Byte :=
  BitVec.ofNat 8 (bs.foldl (fun c b => (msb 8 b.toNat).foldl (crcBit 8 0x2F) c) 0xFF)

/-- One bit of the reflected CRC-32. -/
def crc32Bit (c : Nat) : Nat := if c % 2 = 1 then Nat.xor (c / 2) 0xEDB88320 else c / 2

/-- One byte into the reflected CRC-32. -/
def crc32Byte (c : Nat) (b : Byte) : Nat :=
  let x := Nat.xor c b.toNat
  crc32Bit (crc32Bit (crc32Bit (crc32Bit (crc32Bit (crc32Bit (crc32Bit (crc32Bit x)))))))

/-- The CRC-32 of IEEE 802.3 over bytes in order (R48, R240, R478). -/
def crc32 (bs : List Byte) : Word :=
  BitVec.ofNat 32 (Nat.xor (bs.foldl crc32Byte 0xFFFFFFFF) 0xFFFFFFFF)

/-- Multiplication by x^4 in the field of R144. -/
def mul16 (c : Nat) : Nat :=
  let f := fun c => let d := c * 2; if d / 16 % 2 = 1 then Nat.xor d 0x1D else d
  f (f (f (f c)))

/-- The SENT fast-channel CRC over the data nibbles (R144). -/
def sentCrc (recommended : Bool) (ds : List Nat) : Nat :=
  let c := ds.foldl (fun c d => Nat.xor (mul16 c) d) 0x5
  if recommended then mul16 c else c

/-- The CRC-4 and CRC-6 of SENT serial messages (SAE J2716, R146), over bits in order. -/
def serialCrc (n poly init : Nat) (bs : List Bool) : Nat :=
  (bs ++ List.replicate n false).foldl
    (fun c b =>
      let sh := c * 2 + b2n b
      if sh / 2 ^ n % 2 = 1 then Nat.xor (sh % 2 ^ n) poly else sh % 2 ^ n) init

/-- PSI5 CRC-3 over bits in order: polynomial x^3 + x + 1, initial value 111 (R153). -/
def crc3 (bs : List Bool) : Nat :=
  (bs ++ [false, false, false]).foldl
    (fun c b =>
      let sh := c * 2 + b2n b
      if sh / 8 % 2 = 1 then Nat.xor (sh % 8) 0x3 else sh % 8) 0x7

/-- The LIN checksum over bytes: the inverted sum with carry (R160). -/
def linSum (bs : List Byte) : Byte :=
  let s := bs.foldl (fun a b => let t := a + b.toNat; if t > 255 then t - 255 else t) 0
  BitVec.ofNat 8 (255 - s)

/-- The protected identifier of a LIN frame: the FID with its parity bits (R158). -/
def linPid (fid : Nat) : Byte :=
  let b := fun i => fid / 2 ^ i % 2
  let p0 := (b 0 + b 1 + b 2 + b 4) % 2
  let p1 := (1 + b 1 + b 3 + b 4 + b 5) % 2
  BitVec.ofNat 8 (fid % 64 + p0 * 64 + p1 * 128)

end Sys2Proof.Machine
end

