-- ==== Sys2Proof/Machine/State.lean ====
section
/-!
DEFINITION. Everything the spec gives the block to hold, as plain data. Every field's comment names
its width, the rule of spec/ that gives it and its reset value; "DC" marks a reset value
that the spec does not give and the assumption log names (log entries 20 to 23). INVENTORY.md lists
the same fields. Fields marked "NV" are non-volatile: a device reset keeps them.
-/

namespace Sys2Proof.Machine

/-- A sparse table in canonical form: keys strictly rising, and no entry equal to what an unlisted
key reads as (`Tbl.get`, `Tbl.set`). -/
abbrev Tbl (α : Type) := List (Nat × α)

/-- Bytes in the order they travel. -/
abbrev Bytes := List Byte

/-- What can stop the block with a fault: nothing. Every row of the table has its effect (log entry
1). -/
inductive Fault where
  /-- Raised by nobody: every command ends in a next state. Safe. -/
  | never
  deriving DecidableEq, Repr

/-- Why a command has no meaning. -/
inductive Refusal where
  /-- Raised by an arm of `exec` whose command has no meaning yet; no arm does. Safe: the machine
  stops. -/
  | notModelled (mnemonic : String)
  deriving DecidableEq, Repr

/-! ### Names of modes and states -/

/-- The lane modes (R133). -/
inductive LaneMode where
  | off | aknun | sent | psi5 | lin
  deriving DecidableEq, Repr

/-- The lane states (R131, R356). -/
inductive LState where
  | unpowered | clearing | isolated | enumerating | run
  deriving DecidableEq, Repr

/-- The device states (R324, R436). -/
inductive DevState where
  | off | boot | sow | run | sentinel | recover | test | replay | lockdown
  deriving DecidableEq, Repr

/-- The time states (R39, R337). -/
inductive TState where
  | free | acquiring | locked | holdover | rephaseWait | follow | followLost
  deriving DecidableEq, Repr

/-- The supervision states of a port (R303). -/
inductive PState where
  | unsupervised | active | lost | reverted
  deriving DecidableEq, Repr

/-- The session states of a port (R339). -/
inductive Sess where
  | closed | challenged | opened
  deriving DecidableEq, Repr

/-- A region's power state (R342). -/
inductive RPower where
  | powered | staging | suspended | isolated
  deriving DecidableEq, Repr

/-- COMMIT_STATUS.STATE (R319). -/
inductive CommitState where
  | idle | pending | sowing | applied | refused | notApplied
  deriving DecidableEq, Repr

/-- CAPTURE_STATUS.CSTATE (R334). -/
inductive CState where
  | idle | pending | copying | done
  deriving DecidableEq, Repr

/-- UPDATE_STATUS.USTATE (R346). -/
inductive UState where
  | idle | receiving | verifying | ready | activating | unconfirmed | failed
  deriving DecidableEq, Repr

/-- HOARD_STATUS.HSTATE (R347). -/
inductive HState where
  | idle | armed | post | frozen | exporting | exportStopped
  deriving DecidableEq, Repr

/-- MODE_REQ.RESULT (R348). -/
inductive ModeResult where
  | none | pending | done | refused
  deriving DecidableEq, Repr

/-- SSTATE of a stream (R268, R360). -/
inductive SState where
  | off | noKey | keyExpired | seqStop | waitLock | linkDown | sealing | lockdown
  deriving DecidableEq, Repr

/-- The vault states (R413). -/
inductive VaultState where
  | unprovisioned | provisioned | kekFail
  deriving DecidableEq, Repr

/-- What clocks core-die logic (R56, R57, R58). -/
inductive CoreClk where
  | pll | reference
  deriving DecidableEq, Repr

/-- The eight record states (R236). -/
inductive RecState where
  | valid | stale | late | missing | sprout | fault | range | gap
  deriving DecidableEq, Repr

/-- A lane packet's condition (R222). -/
inductive LaneCond where
  | none | fault | gap
  deriving DecidableEq, Repr

/-- Why an endpoint is held (R208). -/
inductive Hold where
  | none | jump | ident
  deriving DecidableEq, Repr

/-- EA_REQ.RSTATE (R363). -/
inductive AccState where
  | idle | pending | done | refused | busy | unsupported | noResponse | checksum | expired
  deriving DecidableEq, Repr

/-- Cluster sequencer states (R357). -/
inductive SeqState where
  | running | stopped | reloading
  deriving DecidableEq, Repr

/-- Where a replay stands (R498, RSTATE). -/
inductive ReplayState where
  | waiting | loading | running | done | refused | abandoned
  deriving DecidableEq, Repr

/-! ### Control ports -/

/-- SQ fields and their SEQ, one copy of one port (R315). -/
structure SqReg where
  /-- 24 bits; R315; reset 0: the SQ fields, bits 23:0. -/
  bits : BitVec 24 := 0
  /-- 8 bits; R315; reset 0: SEQ. -/
  seq : BitVec 8 := 0
  /-- 24 bits; R287; reset 0: the SQ fields set since the port's view was last refreshed for a burst. -/
  again : BitVec 24 := 0
  deriving DecidableEq, Repr

/-- One event of the router (R374, R380). -/
structure Event where
  src : BitVec 6
  origin : BitVec 16
  data : Word
  tick : BitVec 48
  sub : BitVec 16
  deriving DecidableEq, Repr

/-- An event item as a queue or a segment holds it (R381). -/
structure Item where
  ev : Event
  remembered : Bool
  chan : BitVec 5
  deriving DecidableEq, Repr

/-- IND_STATUS (R335). -/
structure IndStatus where
  torn : Bool := false
  busy : Bool := false
  burstCrc : Bool := false
  denied : Bool := false
  addr : Bool := false
  first : BitVec 22 := 0
  count : BitVec 5 := 0
  deriving DecidableEq, Repr

/-- The rules that an access check fixes for its whole access (R289): the LOCK bits, the states of the two
supervised ports, the device state, and OWNER and SEC of the streams and event channels. -/
structure Rules where
  lock : BitVec 6
  h : PState
  m : PState
  dev : DevState
  owners : List (Nat × Word)
  deriving DecidableEq, Repr

/-- A burst between its header and the rise of CSN (R289 to R293). -/
structure BurstRun where
  write : Bool
  /-- The header's CRC was good: the burst's end counts for supervision (R302). -/
  good : Bool
  /-- The header's RESULT was OK. -/
  ok : Bool
  ind : Bool
  base : Nat
  /-- Words completed. -/
  words : Nat
  /-- A word's CRC has failed: no later word is written (R293). -/
  failed : Bool
  /-- A warden restart began within an indirect burst (R301). -/
  busy : Bool
  rules : Rules
  /-- The direct registers by number, as of the view's refresh (R285). -/
  view : List Word
  /-- The snapshot and the capture that were latest at the header (R242, R322). -/
  snap : Option (BitVec 48)
  cap : Option (BitVec 48)
  /-- The calibration entry that the burst is reading, by its address, with its words as of the first one read
  (R368, R369, R373). -/
  cal : Option (Nat × List Word)
  deriving DecidableEq, Repr

/-- A vault request taken on a port and not yet completed (R397 to R399). -/
structure VaultReq where
  op : Byte
  sel : Byte
  arg : Byte
  operand : Bytes
  /-- CTR of the request's frame; `none` for an open request. -/
  ctr : Option Word
  /-- LOCK KEY_POL when the request was taken (R400, R425). -/
  keyPol : Bool
  /-- STREAM_ID in force when the request was taken (R402). -/
  streamId : BitVec 64
  /-- When the request was taken: operations run one at a time in the order taken (R410). -/
  at_ : Nat
  deriving DecidableEq, Repr

/-- What one control port holds (R286). -/
structure PortState where
  /-- 24 + 8 bits; R326; reset 0: CRC_ERR_CNT. -/
  crcErr : SqReg := {}
  /-- 24 + 8 bits; R327; reset 0: GLB_STATUS. -/
  glb : SqReg := {}
  /-- 24 + 8 bits; R329; reset 0: this port's copy of ALARM_STATUS. -/
  alarm : SqReg := {}
  /-- 24 + 8 bits; R331; reset 0: this port's copy of SUPPLY_STATUS. -/
  supply : SqReg := {}
  /-- 24 + 8 bits; R343; reset 0: this port's copy of QUEUE_STATUS. -/
  queue : SqReg := {}
  /-- 8 × (24 + 8) bits; R342; reset 0: this port's copies of REGION_STATUS0 to 7, by region. -/
  region : Tbl SqReg := []
  /-- 32 bits, 23:3 used; R328; reset 0: GLB_IRQ_EN. -/
  irqEn : Word := 0
  /-- 24 bits; R335; reset 0: IND_ADDR. -/
  indAddr : BitVec 24 := 0
  /-- 1 bit; R335; reset 1: VIEW of IND_CTL. -/
  view : Bool := true
  /-- 32 bits; R335; reset 0: IND_STATUS. -/
  indStat : IndStatus := {}
  /-- 2 bits; R339; reset CLOSED: SESS. -/
  sess : Sess := .closed
  /-- 7 × 32 bits; R340; reset 0: CHAL0 to CHAL2, PEER0 to PEER1, RESP0 to RESP1. -/
  words : List Word := [0, 0, 0, 0, 0, 0, 0]
  /-- 10 bits; R339; reset 20: LEASE. -/
  lease : BitVec 10 := 20
  /-- 10 bits; R339; reset 100: HB. -/
  hb : BitVec 10 := 100
  /-- Times of the session failures of the last 1 s; R339, R396; reset none: FAILS counts them. -/
  fails : List Nat := []
  /-- 256 bits; R394, R406; reset none: K_f of the open session. -/
  kF : Bytes := []
  /-- 256 bits; R394, R406; reset none: K_t of the open session. -/
  kT : Bytes := []
  /-- 64 bits; R394; reset none: the session nonce. -/
  nonce : Bytes := []
  /-- 32 bits; R299; reset 0: the last counter accepted in the session. -/
  lastCtr : Word := 0
  /-- 4 × 8 bytes by part; R401; reset empty: the key load buffer with its mask. -/
  load : Tbl Bytes := []
  /-- R397; reset none: the vault request pending on this port. -/
  pend : Option VaultReq := none
  /-- Time; R393; reset 0: when the port became CHALLENGED. -/
  chalAt : Nat := 0
  /-- Time; R393; reset none: when an opening last failed on this port. -/
  openFail : Option Nat := none
  /-- 2 bits; R303, R325; reset UNSUPERVISED: PSTATE. -/
  pstate : PState := .unsupervised
  /-- Time; R302; reset 0: the end of the last transaction with a good header. -/
  lastGood : Nat := 0
  /-- Time; R303; reset 0: when the port was deemed lost. -/
  lostAt : Nat := 0
  /-- 256 items; R382; reset empty: the event queue, head first. -/
  evq : List Item := []
  /-- 8 bits; R344; reset 0: DROPPED of EVQ_CTL. -/
  dropped : BitVec 8 := 0
  /-- 8 bits; R344; reset 32: STALL of EVQ_CTL. -/
  stall : BitVec 8 := 32
  /-- R295; reset none: the item last taken, which AGAIN resends. -/
  lastItem : Option Item := none
  /-- R277; reset empty: the bytes the device drove on SDO in the port's latest transaction, or in the part
  of it that ran last. -/
  sdo : Bytes := []
  /-- R290; reset none: the burst that CSN keeps open. -/
  burst : Option BurstRun := none
  /-- Filler bytes sent; R294; reset none: the stall read that CSN keeps open. -/
  stallSent : Option Nat := none
  deriving DecidableEq, Repr

/-! ### Configuration, commits and capture -/

/-- The configuration words of R350 and the staged direct registers (R313, R352). -/
structure CfgState where
  /-- Words by byte address; R352; reset each word's Reset column (`cfgReset`): values in force. -/
  live : Tbl Word := []
  /-- Words by byte address; R313; reset the values in force: Port H's staging copy. -/
  stgH : Tbl Word := []
  /-- Words by byte address; R313; reset the values in force: Port M's staging copy. -/
  stgM : Tbl Word := []
  /-- Address and mask pairs; R300; reset empty: staged bits written in Port H's session. -/
  secH : List (Nat × Word) := []
  /-- Address and mask pairs; R300; reset empty: staged bits written in Port M's session. -/
  secM : List (Nat × Word) := []
  /-- Times of effective ticks, newest first, with the values in force before; R28, R259; reset empty:
  what frames and snapshots of earlier grid instants still run under. -/
  hist : List (Nat × Tbl Word) := []
  deriving DecidableEq, Repr

/-- A COMMIT write waiting for its commit tick (R317). -/
structure CommitReq where
  port : Port
  groups : BitVec 16
  /-- The earliest time at which the commit tick may begin. -/
  due : Nat
  deriving DecidableEq, Repr

/-- A commit taken at T_c that has not yet taken effect or been refused (R317, R318). -/
structure CommitRun where
  cseq : BitVec 8
  ports : BitVec 2
  groups : BitVec 16
  /-- The words that the commit puts in force, with their values taken at T_c. -/
  diff : List (Nat × Word)
  tc : BitVec 48
  /-- Regions that the commit's sowing covers; 0 where it triggers none (R178). -/
  sow : BitVec 8
  /-- Calibration values that the commit's LOAD bits load, taken at T_c (R211). -/
  loads : List (Nat × Word)
  /-- k once the commit is in force (R33). -/
  kNew : BitVec 3
  /-- The effective tick, once known. -/
  eff : Option (BitVec 48)
  /-- Whether sowing has passed and the programs are loaded (R183). -/
  sown : Bool
  deriving DecidableEq, Repr

/-- COMMIT_STATUS (R319). -/
structure CommitStatus where
  /-- 3 bits; R319; reset IDLE: STATE. -/
  state : CommitState := .idle
  /-- 5 bits; R319; reset 0: REASON. -/
  reason : BitVec 5 := 0
  /-- 2 bits; R319; reset 0: PORT. -/
  port : BitVec 2 := 0
  /-- 13 bits; R319; reset 0: ITEM. -/
  item : BitVec 13 := 0
  /-- 8 bits; R319; reset 0: CSEQ. -/
  cseq : BitVec 8 := 0
  deriving DecidableEq, Repr

/-- A lane's monitors (R371, R383, R385). -/
structure LaneMon where
  /-- 16 bits signed; R371; reset 0x7FFF: least pip-length deviation. -/
  devMin : Int := 32767
  /-- 16 bits signed; R371; reset 0x8000: greatest pip-length deviation. -/
  devMax : Int := -32768
  /-- 16 × 16 bits; R371; reset 0: deviation histogram by bin. -/
  devHist : Tbl Nat := []
  /-- 8 bits; R371; reset 255: least high level. -/
  hiMin : Nat := 255
  /-- 8 bits; R371; reset 0: greatest high level. -/
  hiMax : Nat := 0
  /-- 8 bits; R371; reset 255: least low level. -/
  loMin : Nat := 255
  /-- 8 bits; R371; reset 0: greatest low level. -/
  loMax : Nat := 0
  /-- 16 × 16 bits; R371; reset 0: low-level histogram by bin. -/
  loHist : Tbl Nat := []
  /-- 32 bits; R371; reset 0: timing errors. -/
  timing : Nat := 0
  /-- 32 bits; R371; reset 0: CRC failures. -/
  crc : Nat := 0
  /-- 16 bits; R371; reset 0: counter slips. -/
  slips : Nat := 0
  /-- 16 bits; R371; reset 0: frozen answers. -/
  frozen : Nat := 0
  /-- 16 bits; R371; reset 0: husk CRC errors. -/
  huskCrc : Nat := 0
  /-- 16 bits; R371; reset 0: husk slips. -/
  huskSlip : Nat := 0
  /-- 16 bits; R371; reset 0: shed answers. -/
  shed : Nat := 0
  /-- 16 bits; R371; reset 0: deferred commands. -/
  deferred : Nat := 0
  /-- 32 bits; R371; reset 0: frames discarded. -/
  discarded : Nat := 0
  /-- 32 bits; R371; reset 0: frames run. -/
  frames : Nat := 0
  deriving DecidableEq, Repr

/-- A region's monitors (R371, R383). -/
structure RegionMon where
  /-- 16 bits; R371; reset 0xFFFF: least queue fill. -/
  fillMin : Nat := 65535
  /-- 16 bits; R371; reset 0: greatest queue fill. -/
  fillMax : Nat := 0
  /-- 32 bits; R371; reset 0xFFFF_FFFF: least completion time. -/
  ctMin : Nat := 4294967295
  /-- 32 bits; R371; reset 0: greatest completion time. -/
  ctMax : Nat := 0
  /-- 16 × 32 bits; R371; reset 0: completion-time histogram by bin. -/
  ctHist : Tbl Nat := []
  deriving DecidableEq, Repr

/-- An uplink port's monitors (R371, R383). -/
structure UplinkMon where
  /-- 32 bits; R371; reset 0xFFFF_FFFF: least departure latency. -/
  latMin : Nat := 4294967295
  /-- 32 bits; R371; reset 0: greatest departure latency. -/
  latMax : Nat := 0
  /-- 32 × 32 bits; R371; reset 0: latency histogram by bin. -/
  latHist : Tbl Nat := []
  /-- 32 bits; R371; reset 0: transitions to DOWN. -/
  downs : Nat := 0
  deriving DecidableEq, Repr

/-- The device counters of the holding area (R370). -/
structure DevCounters where
  /-- 32 bits; R370; reset 0: die-to-die retries. -/
  linkRetries : Nat := 0
  /-- 32 bits; R370; reset 0: die-to-die transfers lost. -/
  linkLost : Nat := 0
  /-- 32 bits; R370; reset 0: snapshot-bank single-bit corrections. -/
  eccFixed : Nat := 0
  /-- 32 bits; R370; reset 0: snapshot-bank substitutions. -/
  eccSubst : Nat := 0
  /-- 32 bits; R370; reset 0: late values dropped. -/
  lateDropped : Nat := 0
  /-- 32 bits; R370; reset 0: snapshots completed. -/
  snapshots : Nat := 0
  /-- 32 bits; R370; reset 0: grid-link CRC errors. -/
  glCrc : Nat := 0
  /-- 32 bits; R370; reset 0: session failures. -/
  sessFails : Nat := 0
  deriving DecidableEq, Repr

/-- One capture, as sampled (R322, R370). -/
structure Capture where
  ccount : BitVec 6 := 0
  tick : BitVec 48 := 0
  restarted : Bool := false
  epoch : BitVec 16 := 0
  digest : Word := 0
  dev : DevCounters := {}
  lanes : Tbl LaneMon := []
  regions : Tbl (RegionMon × Word) := []
  uplinks : Tbl (UplinkMon × List Word) := []
  streams : Tbl (List Word) := []
  routes : Tbl Word := []
  channels : Tbl (Word × Word) := []
  deriving DecidableEq, Repr

/-- The capture engine (R322, R334). -/
structure CaptureState where
  /-- 2 bits; R334; reset IDLE: CSTATE. -/
  cstate : CState := .idle
  /-- 6 bits; R334; reset 0: CCOUNT. -/
  ccount : BitVec 6 := 0
  /-- 48 bits; R334; reset 0: the sampling tick. -/
  tick : BitVec 48 := 0
  /-- Time; R322; reset none: earliest sampling time of a request, and whether monitors restart. -/
  req : Option (Nat × Bool) := none
  /-- R322; reset none: the samples being copied. -/
  copying : Option Capture := none
  /-- Two captures; R322; reset empty (DC): the holding area, latest first. -/
  held : List Capture := []
  deriving DecidableEq, Repr

/-- One event channel's live state (R378, R380). -/
structure ChanState where
  /-- R378, R380; reset none: the remembered event (HELD). -/
  held : Option Event := none
  /-- 2.5 ns steps; R380; reset 0: the router cycle it was remembered in, by its start. -/
  heldAt : Nat := 0
  /-- 32 bits; R378; reset 0: DELIVERED. -/
  delivered : Word := 0
  /-- 32 bits; R378; reset 0: OVERFLOW. -/
  overflow : Word := 0
  /-- Count; R271; reset 0: events that reached a ROUTE_ENABLE channel. -/
  gate : Nat := 0
  deriving DecidableEq, Repr

/-! ### Lanes and endpoints -/

/-- One PSI5 slot's loop values (R201, R202, R368). -/
structure SlotCal where
  /-- 10 bits; R368; reset 0: DI16. -/
  di16 : Int := 0
  /-- 16 bits; R368; reset 0: BT16. -/
  bt16 : Int := 0
  /-- 10 bits; R368; reset 0: THR. -/
  thr : Int := 0
  /-- 16 bits; R368; reset 0: BT_REF. -/
  btRef : Int := 0
  /-- R201; reset 0: whether the current values are seeded. -/
  iSeeded : Bool := false
  /-- R201; reset 0: whether the bit time is seeded. -/
  btSeeded : Bool := false
  deriving DecidableEq, Repr

/-- A lane's loops (R188, R368). -/
structure LaneCal where
  /-- 12 bits; R368; reset 0: H16. -/
  h16 : Int := 0
  /-- 12 bits; R368; reset 0: L16. -/
  l16 : Int := 0
  /-- 8 bits; R368; reset 100: D, the applied DAC code. -/
  d : Int := 100
  /-- R193, R194; reset 1: the next frame seeds the loop (the first frame after a bus clear). -/
  seedNext : Bool := true
  /-- 8 bits; R368; reset 0: DE. -/
  dE : Int := 0
  /-- 8 values; R74, R482; reset empty: the last d_E differences, oldest first. -/
  dEHist : List Int := []
  /-- Count; R74; reset 0: consecutive frame boundaries with d_E above its limit. -/
  slowCnt : Nat := 0
  /-- Count; R89; reset 0: consecutive frame boundaries with too small a swing. -/
  swingCnt : Nat := 0
  /-- 8 bits; R368; reset 0: OG_LATCHED. -/
  og : Int := 0
  /-- 32 bits; R368; reset 0: TC16. -/
  tc16 : Int := 0
  /-- 32 bits; R368; reset 0: AT16. -/
  at16 : Int := 0
  /-- R200; reset 0: whether TC16 is seeded. -/
  tcSeeded : Bool := false
  /-- Steps; R143, R482; reset 0: last accepted L_cal. -/
  lcal : Int := 0
  /-- 16 bits; R368; reset 0: IB16. -/
  ib16 : Int := 0
  /-- R201; reset 0: whether IB16 is seeded. -/
  ibSeeded : Bool := false
  /-- 4 slots; R368; reset 0: the per-slot values, slot 1 first. -/
  slots : List SlotCal := [{}, {}, {}, {}]
  /-- 8 bits; R368; reset 0: STEPS_LEFT. -/
  steps : Nat := 0
  /-- R189; reset 0: a lane step took place, so the records of the next frame carry bit 4. -/
  stepped : Bool := false
  /-- Words by address; R211; reset none: a LOAD waiting for the lane's next frame boundary. -/
  load : List (Nat × Word) := []
  deriving DecidableEq, Repr

/-- A strong pull-up request or window (R82, R85, R86). -/
structure SpuState where
  /-- R86; the tick of the request. -/
  reqTick : BitVec 48
  /-- COMMIT_NV rather than CONVERT. -/
  nv : Bool
  pos : Pos
  all : Bool
  code : BitVec 6
  /-- R85: the tick of admission, once admitted. -/
  admitted : Option (BitVec 48)
  /-- R82: E and the end of the window, once the command has been sent. -/
  window : Option (Nat × Nat)
  deriving DecidableEq, Repr

/-- The endpoint access group of a lane (R363). -/
structure AccGroup where
  /-- 3 bits; R363; reset 0: OP. -/
  op : BitVec 3 := 0
  /-- 4 bits; R363; reset 0: POS. -/
  pos : BitVec 4 := 0
  /-- 8 bits; R363; reset 0: ADDR. -/
  addr : BitVec 8 := 0
  /-- 4 bits; R363; reset IDLE: RSTATE. -/
  rstate : AccState := .idle
  /-- 1 bit; R363; reset 0: GO_BUSY. -/
  goBusy : Bool := false
  /-- 2 bits; R363; reset 0: PORT. -/
  port : BitVec 2 := 0
  /-- 32 bits; R363; reset 0: DATA0. -/
  data0 : Word := 0
  /-- 32 bits; R363; reset 0: DATA1. -/
  data1 : Word := 0
  /-- Time; R364; reset 0: when GO was taken. -/
  at_ : Nat := 0
  /-- R364, R161; reset 0: the request's frame has begun. -/
  begun : Bool := false
  deriving DecidableEq, Repr

/-- A record entry of a lane packet (R221). -/
structure Entry where
  pos : Nat
  value : Word
  /-- The sample instant S, in absolute steps. -/
  inst : Int
  hasValue : Bool
  husk : Bool
  calStep : Bool
  prov : RecState
  deriving DecidableEq, Repr

/-- A lane packet (R221). -/
structure Packet where
  lane : Nat
  tag : BitVec 48
  /-- Time of the snapshot's grid instant, in absolute steps. -/
  inst : Int
  cond : LaneCond
  base : Int
  entries : List Entry
  /-- On a LIN lane, the frame identifier of the packet's slot (R220, R224). -/
  slot : Option Nat := none
  deriving DecidableEq, Repr

/-- A SENT trigger or PSI5 sync pulse with the frame or cycle that it starts (R142, R151). -/
structure Trig where
  /-- The stamp of its start, in absolute steps. -/
  at_ : Int
  num : BitVec 48
  /-- Time of its snapshot's grid instant, in absolute steps. -/
  inst : Int
  /-- The entries of a sync cycle's accepted frames so far (R220). -/
  entries : List Entry := []
  /-- Slots whose frames are discarded with one that overlapped their windows (R153). -/
  drop : List Nat := []
  /-- The frame, or the cycle with its packet, is over. -/
  done : Bool := false
  /-- A probe's trigger, whose frame belongs to no snapshot (R456). -/
  probe : Bool := false
  deriving DecidableEq, Repr

/-- What one lane holds beside its configuration. -/
structure LaneState where
  /-- 3 bits; R356, R131; reset UNPOWERED: LSTATE. -/
  lstate : LState := .unpowered
  /-- R133, R135; reset OFF: the mode the lane runs. -/
  mode : LaneMode := .off
  /-- Time; R135; reset none: when the 2 ms after a mode change end. -/
  modeAt : Option Nat := none
  /-- Time; R135; reset none: when the frames of earlier snapshots have ended, after which a lane whose
  MODE a commit has changed releases its line. -/
  leaveAt : Option Nat := none
  /-- 1 bit; R522; reset 1 (LIN_RATE resets to 19,200 bit/s): the 20 kbit/s slope rather than the slow
  one. -/
  fastSlope : Bool := true
  /-- 1 bit; R356; reset 0: SHORT. -/
  short : Bool := false
  /-- 1 bit; R356; reset 0: STUCK. -/
  stuck : Bool := false
  /-- 1 bit; R356; reset 0: SWING. -/
  swing : Bool := false
  /-- R74; reset 0: LINE_SLOW raised and not ended. -/
  slowLine : Bool := false
  /-- 1 bit; R356; reset 0: SUSPENDED. -/
  suspended : Bool := false
  /-- R433, R435; reset 0: records are GAP until the lane runs a frame again. -/
  gapUntilFrame : Bool := false
  /-- R222; reset 0: a FAULT condition stood at some time of the present period. -/
  faultSeen : Bool := false
  /-- Steps; R82, R222; reset none: the latest strong window, from E to the end of its return phase. -/
  spuSpan : Option (Nat × Nat) := none
  /-- 8 bits; R356, R91; reset 0: RETRIES. -/
  retries : BitVec 8 := 0
  /-- Time; R91; reset 0: the isolation or the previous attempt. -/
  isoAt : Nat := 0
  /-- Count; R91; reset 0: attempts since the isolation, which choose the next interval. -/
  isoTry : Nat := 0
  /-- 5 bits; R356; reset 0: ENUM_N, enumerated positions. -/
  enumN : Nat := 0
  /-- R121; reset none: the position being enumerated. -/
  enumPos : Option Nat := none
  /-- Count; R123; reset 0: failed attempts of the present step. -/
  enumTry : Nat := 0
  /-- Step; R121; reset 0: 0 ENUM, 1 IDENT, 2 CLOSE_PASS of the position being enumerated. -/
  enumStep : Nat := 0
  /-- Time; R121; reset 0: when the line went high or the last CLOSE_PASS ended. -/
  enumAt : Nat := 0
  /-- 1 bit; R356; reset 0: ENUM_FAIL. -/
  enumFail : Bool := false
  /-- 4 bits; R356; reset 0: FAIL_POS. -/
  failPos : BitVec 4 := 0
  /-- R458; reset 0: the chain ended with an empty tempo pip. -/
  chainEnd : Bool := false
  /-- Time; R458; reset 0: when ENUM was last sent to the end of the chain. -/
  repollAt : Nat := 0
  /-- R124, R187; reset none: the position OPEN_PASS was sent to, and when. -/
  opened : Option (Nat × Nat) := none
  /-- R187; reset none: an OPEN_PASS owed to this position after a commit. -/
  openOwed : Option Nat := none
  /-- R131; reset 0: the device entered RUN before the lane's enumeration began. -/
  enumOwed : Bool := false
  /-- R457; reset 0: the lane is cold and its wave is not yet admitted. -/
  coldWait : Bool := false
  /-- R455; reset 0: the lane is warm. -/
  warm : Bool := false
  /-- Time; R90; reset none: t0 of a bus clear in progress. -/
  clearAt : Option Nat := none
  /-- R90, R131; reset 0: positions are known, so the lane resumes without enumeration. -/
  keepPos : Bool := false
  /-- Time; R456; reset none: when the lane was powered, for its probe. -/
  poweredAt : Option Nat := none
  /-- R456; reset 0: the probe of a SENT lane with SPC still owes its trigger. -/
  probeOwed : Bool := false
  /-- Time; R70, R79, R90, R100; reset 0: no frame mark falls earlier: the end of the latest frame, or of
  the high time after a line reset; a bus lane receives no frame that began before it (R21). -/
  readyAt : Nat := 0
  /-- Time; R119, R120; reset 0, as the source is off: since when the lane's source has been off; none
  while it is on. -/
  offAt : Option Nat := some 0
  /-- R120; reset 0: the source was off for at least 1 ms immediately before, so enumeration needs no
  chain reset. -/
  rested : Bool := false
  /-- R368; reset as LaneCal: the lane's loops. -/
  cal : LaneCal := {}
  /-- R371; reset as LaneMon: the lane's monitors. -/
  mon : LaneMon := {}
  /-- R86; reset none: the lane's strong pull-up request or window. -/
  spu : Option SpuState := none
  /-- R432; reset 0: the request waits for VLINK_g, so the addressed answers are STALE. -/
  spuStale : Bool := false
  /-- R363; reset as AccGroup: the endpoint access group. -/
  acc : AccGroup := {}
  /-- Snapshot number; R176; reset none: the period whose register-access slot has been used. -/
  slotUsed : Option (BitVec 48) := none
  /-- Time in 10 ns; R177; reset 0: low time measured in the present window. -/
  lowTime : Nat := 0
  /-- 2 packets; R223; reset empty: the staging buffer. -/
  staged : List Packet := []
  /-- Snapshot number; R220; reset none: the snapshot of the lane's latest frame. -/
  lastTag : Option (BitVec 48) := none
  /-- Time; R148, R154; reset 0: the last falling edge or accepted frame. -/
  lastEdge : Nat := 0
  /-- R148, R154; reset 0: the line is silent. -/
  silent : Bool := false
  /-- R142, R151, R220; reset none: the latest trigger or sync pulse, with its frame or cycle. -/
  trig : Option Trig := none
  /-- R156; reset 0: the next sync pulse waits until this time. -/
  syncFrom : Nat := 0
  /-- R162; reset 0: the LIN schedule runs. -/
  linRun : Bool := false
  /-- Time; R162; reset none: when the wake-up pulse ended. -/
  linWoke : Option Nat := none
  /-- Fine stamps, absolute, in 0.3125 ns; R472, R489; reset empty: the transitions of the present
  period, kept in raw-edge mode. -/
  raw : List Int := []
  /-- R489; reset empty: the level pairs of the frames of the present period. -/
  rawLev : List (Int × Int) := []
  /-- Count; R163; reset 0: consecutive breaks that read back recessive. -/
  linBreaks : Nat := 0
  /-- R163; reset 0: LINE_STUCK was declared for a short to VBAT. -/
  linVbat : Bool := false
  /-- R489; reset 0: the first edge of the present period ends a pulse that began before it. -/
  rawFlip : Bool := false
  /-- R489; reset empty: the edges, level pairs and first line state of the RAW_EDGES block last written. -/
  rawPrev : List Int × List (Int × Int) × Bool := ([], [], false)
  /-- R495; reset 0: the lane is disconnected for a replay. -/
  replayed : Bool := false
  /-- Grid instant; R479; reset none: the last for which the lane's checkpoint was considered. -/
  cpAt : Option (BitVec 48) := none
  /-- 4 × 32 bits; R356; reset 0: SOWN_START, SOWN_LONGEST, SOWN_RAS, SOWN_FREE. -/
  sown : List Word := [0, 0, 0, 0]
  /-- Slots (FID or 0x3C, 0x3D; interval; start; length, in ticks); R159, R181; reset empty: the
  LIN schedule as sown. -/
  linSched : List (Nat × Nat × Nat × Nat) := []
  /-- FID (0x3C for the pair) and time; R159; reset empty: when each identifier's latest slot whose frame
  is over began. -/
  linServed : List (Nat × Nat) := []
  /-- FID (0x3C for the pair in its second slot, 0x3D for the pair in its first), begin of the slot or pair,
  and end of the slot; R164, R187; reset empty: the slots in flight when the schedule or the ticks moved. -/
  linFlight : List (Nat × Nat × Nat) := []
  /-- Identifier, and data with checksum; R160 to R162; reset none: the latest frame whose data the LIN lane
  itself has sent. -/
  linTx : Option (Nat × Bytes) := none
  deriving DecidableEq, Repr

/-- What one endpoint's table index holds beside its descriptor. -/
structure EpState where
  /-- 1 bit; R369; reset 1: SPROUT. -/
  sprout : Bool := true
  /-- 2 bits; R369; reset none: HOLD. -/
  hold : Hold := .none
  /-- 1 bit; R369; reset 0: STRETCH. -/
  stretch : Bool := false
  /-- 1 bit; R369; reset 0: SLOW. -/
  slow : Bool := false
  /-- 1 bit; R369; reset 0: ATTESTED. -/
  attested : Bool := false
  /-- 4 bits saturating; R369; reset 0: CLEAN. -/
  clean : Nat := 0
  /-- 17 bits; R369; reset 65536: TS. -/
  ts : Int := 65536
  /-- 17 bits; R369; reset 65536: AS. -/
  asc : Int := 65536
  /-- R196, R207; reset 0: TS is seeded since sprout entry. -/
  seeded : Bool := false
  /-- R189; reset 0: a step of the endpoint's own loop marks its next record. -/
  stepped : Bool := false
  /-- 64 bits; R369; reset 0: LAST_ID. -/
  lastId : BitVec 64 := 0
  /-- Count; R108; reset 0: sample strikes since the last accepted answer. -/
  k : Nat := 0
  /-- 4 bits; R108, R482; reset 0: rolling counter of the last accepted answer. -/
  ctr : Nat := 0
  /-- R108; reset 0: an answer was accepted since the endpoint became a sprout. -/
  ctrKnown : Bool := false
  /-- Count; R203; reset 0: consecutive due periods without an accepted answer. -/
  quiet : Nat := 0
  /-- Bits, newest first; R184; reset empty: late releases of the last 64 answers. -/
  lateHist : List Bool := []
  /-- Bits, newest first; R185; reset empty: late releases of the last 8 stretched answers. -/
  stretchHist : List Bool := []
  /-- Count; R129; reset 0: husk bits assembled. -/
  huskN : Nat := 0
  /-- 32 bits; R129; reset 0: the partial husk message. -/
  husk : Word := 0
  /-- 4 bits; R129; reset none: the last husk SEQ. -/
  huskSeq : Option Nat := none
  /-- R129; reset empty: the identity group assembled so far, ID0 first. -/
  idGroup : List (BitVec 16) := []
  /-- 32 bits; R366; reset 0: the endpoint message table word. -/
  msg : Word := 0
  /-- Count mod 16; R146; reset 0: serial messages stored. -/
  msgCount : Nat := 0
  /-- Status bits 3:2 by frame, oldest first; R146; reset empty: the serial message in progress. -/
  serial : List (Bool × Bool) := []
  /-- Count mod 16; R136; reset 0: accepted frames. -/
  accepted : Nat := 0
  /-- R171; reset 0: the last record was RANGE. -/
  inRange : Bool := false
  /-- Steps; R234; reset none: the latest effective tick that changed PROTO, SIGN or the slice, of those
  that a snapshot has reached. -/
  changedAt : Option Nat := none
  /-- Effective ticks of such changes that no snapshot has reached yet, in steps, each with whether PROTO
  changed; R171, R235; reset empty: from the snapshot at G_e on the store holds no value. -/
  clears : List (Nat × Bool) := []
  /-- Time; R203; reset none: a sprout entry that waits for the next frame boundary. -/
  sproutAt : Option Nat := none
  /-- R113; reset 0: the lane put the endpoint to sleep. -/
  asleep : Bool := false
  /-- R445; reset 0: the last WAKE_PING answer showed a pending wake request. -/
  wakeReq : Bool := false
  /-- R445; reset 0: the exit from SENTINEL owes a WAKE_PING with WAKE = 1. -/
  wakeOwed : Bool := false
  /-- VALUE and S; R235; reset none: the last-value store. -/
  store : Option (Word × Int) := none
  /-- 2 bits; R237; reset 0: the error count. -/
  err : Nat := 0
  /-- 64 bits and time; R405; reset none: the ATTEST challenge sent and when. -/
  chal : Option (BitVec 64 × Nat) := none
  /-- 32 bits; R117, R176; reset none: ATT_TAG_HI read in an earlier period's slot. -/
  tagHi : Option Word := none
  /-- R405; reset 0: the ATTEST of the present sprout entry has had its outcome. -/
  attDone : Bool := false
  /-- R209; reset 0: the IDENT of a JUMP hold is owed. -/
  identOwed : Bool := false
  /-- Route, address, data; R272; reset none: the pending route write of this destination. -/
  rtWrite : Option (Nat × BitVec 8 × Word) := none
  /-- 32 bits; R365; reset 0: the LIN output word of this node-list entry. -/
  out : Word := 0
  /-- R485; reset 0: no slot has sent the output word since it was set. -/
  outNew : Bool := false
  /-- Steps; R365; reset none: when a route last set the output word. -/
  routedAt : Option Nat := none
  deriving DecidableEq, Repr

/-- A cluster's sequencer (R167, R357). -/
structure ClusterState where
  /-- 2 bits; R357; reset RUNNING: SEQ_STATE. -/
  seq : SeqState := .running
  /-- 8 bits; R357; reset 0: PARITY_ERRS. -/
  parity : BitVec 8 := 0
  /-- 13 bits; R357, R167; reset 0: PROG_BYTES (an unspecified value after a sowing). -/
  prog : BitVec 13 := 0
  /-- 48 bits; R357; reset 0: SOW_TICK. -/
  sowTick : BitVec 48 := 0
  /-- R19, R234; reset 0: the sequencer stopped in the present period. -/
  lost : Bool := false
  deriving DecidableEq, Repr

/-- One queue bank (R223, R229). -/
structure BankState where
  /-- 48 bits; R223; reset 0: the snapshot the bank serves. -/
  snap : BitVec 48 := 0
  /-- Steps; R223; reset 0: the time of that snapshot's grid instant. -/
  at_ : Nat := 0
  /-- Up to 16 KB; R223; reset empty: the packets in the order written. -/
  pkts : List Packet := []
  /-- 1 bit; R230; reset 0: lost for its snapshot. -/
  lost : Bool := false
  /-- Time; R227; reset none: when it closed with packets undrained. -/
  closedAt : Option Nat := none
  deriving DecidableEq, Repr

/-- What one region holds beside its configuration. -/
structure RegionState where
  /-- 2 bits; R342; reset POWERED: PSTATE. -/
  power : RPower := .powered
  /-- 1 bit; R342; reset 0: VLINK_WARN_NOW. -/
  warn : Bool := false
  /-- R433; reset 0: VLINK_g stands below its second threshold. -/
  second : Bool := false
  /-- R434; reset 0: the region is isolated. -/
  iso : Bool := false
  /-- R20, R342; reset 0: sowing of the region is in progress (SOWING). -/
  sowing : Bool := false
  /-- Bank A or B; R231; reset A: OPEN, the open bank. -/
  openB : Bool := false
  /-- R223; reset empty: bank A. -/
  bankA : BankState := {}
  /-- R223; reset empty: bank B. -/
  bankB : BankState := {}
  /-- 8 bits; R231; reset 0: PTR_RESETS. -/
  ptrResets : BitVec 8 := 0
  /-- 8 bits; R231; reset 0: FLUSHES. -/
  flushes : BitVec 8 := 0
  /-- 8 bits; R231; reset 0: OVERFLOWS. -/
  overflows : BitVec 8 := 0
  /-- 8 bits; R369; reset 128: DLL. -/
  dll : Int := 128
  /-- Errors since the last code change, newest first; R198; reset empty: E8 is their sum. -/
  eHist : List Int := []
  /-- Count; R198; reset 0: ticks at a limit with an error of one sign; 65 once raised. -/
  dllStuck : Nat := 0
  /-- 8 bits; R369; reset 0: OG. -/
  og : Int := 0
  /-- Up to 64 errors, newest first; R199; reset empty: what m is the mean of. -/
  tdcHist : List Int := []
  /-- Count; R199; reset 0: 1 while m lies beyond the range of o_g, 2 once that has been raised. -/
  ogLimit : Nat := 0
  /-- 8 bits; R369; reset 0: STEPS_LEFT. -/
  steps : Nat := 0
  /-- R371; reset as RegionMon: the region's monitors. -/
  mon : RegionMon := {}
  /-- Steps; R383; reset none: end of the last on-time write of the open snapshot. -/
  lastWrite : Option Nat := none
  /-- R446, R447; reset 0: the region's stage is requested. -/
  stageReq : Bool := false
  /-- Steps; R86; reset 0: when it was requested. -/
  stageAsked : Nat := 0
  /-- R462; reset 0: lanes of the region started warm, and their stage's charge has not ended. -/
  warmStage : Bool := false
  /-- Time; R446; reset none: A, the tick at which its stage was admitted. -/
  stageAt : Option Nat := none
  /-- Lane step; R446; reset 0: the next lane step. -/
  stageStep : Nat := 0
  /-- 1 bit; R446; reset 0: the stage's 422.4 mA stand in the die charge. -/
  charged : Bool := false
  /-- Time; R376; reset 0: class-1 admission is deferred until then. -/
  deferTo : Nat := 0
  /-- 7 × 32 bits; R182; reset 0: the sowing report, first word first. -/
  report : List Word := [0, 0, 0, 0, 0, 0, 0, 0]
  /-- 32 bits; R359; reset 0: ADMIT as evaluated at the latest grid tick. -/
  admits : Word := 0
  deriving DecidableEq, Repr

/-! ### Snapshots, streams and uplinks -/

/-- A record (R238) with its table index. -/
structure Rec where
  idx : Nat
  value : Word
  age : BitVec 24
  status : Byte
  deriving DecidableEq, Repr

/-- A snapshot (R239). -/
structure Snap where
  num : BitVec 48
  flags : Byte
  pkg : BitVec 2
  pexp : BitVec 3
  /-- Absolute time of the grid instant, in steps. -/
  at_ : Nat
  recs : List Rec
  configDigest : Word
  recordDigest : Word
  regionLost : Byte
  lateDropped : Nat
  doneTime : Nat
  eccSubst : Nat
  /-- Record numbers with an uncorrectable error that a later reader finds (R243). -/
  decayed : List Nat
  /-- Record numbers whose later ECC failure has been raised (R243). -/
  eccRaised : List Nat
  /-- Record numbers with a single-bit error that a later reader finds, until it is corrected (R243). -/
  flips : List Nat := []
  deriving DecidableEq, Repr

/-- A snapshot under way between its grid instant and its completion. -/
structure Build where
  num : BitVec 48
  at_ : Nat
  pexp : BitVec 3
  flags : Byte
  /-- Regions whose bank is lost or was emptied on opening. -/
  lostRegions : List Nat
  /-- Lanes whose records are lost for a transfer, a sequencer or the lane PLL (R234, rule 2). -/
  lostLanes : List Nat
  deriving DecidableEq, Repr

/-- The snapshot assembler (R232 to R243). -/
structure AsmState where
  /-- R233, R242; reset none: the latest complete snapshot. -/
  latest : Option Snap := none
  /-- R233; reset none: the complete snapshot before it. -/
  prev : Option Snap := none
  /-- R232; reset empty: the snapshots at or past their cutoff and not yet complete, oldest first. -/
  build : List Build := []
  /-- Snapshot and flag bits; R45, R507; reset none: snapshots that are GAP under rule 1. -/
  gapSnaps : List (BitVec 48 × Byte) := []
  /-- R46, R234; reset empty: late entries that a GAP snapshot passes on, each with the time of its packet's
  grid instant. -/
  keptLate : List (Nat × Entry × Int) := []
  /-- R21; reset 0: the lane PLL was unlocked in the present period. -/
  pllLost : Bool := false
  /-- 48 bits; R439, R445, R459; reset 0: no snapshot is built from this grid instant on; `none` while
  snapshots are built. -/
  stopped : Option (BitVec 48) := some 0
  /-- R370; reset 0: the device counters. -/
  cnt : DevCounters := {}
  deriving DecidableEq, Repr

/-- A stream key in the vault's volatile storage (R266, R406). -/
structure StreamKey where
  key : Bytes
  id : Byte
  gen : Nat
  actSnap : BitVec 48
  deriving DecidableEq, Repr

/-- A segment waiting to be sealed (R258). -/
structure SegJob where
  snap : BitVec 48
  seg : Nat
  last : Bool
  resync : Bool
  /-- The port on which sealing of the snapshot began (R249). -/
  via : Option Ul
  deriving DecidableEq, Repr

/-- One stream's live state (R250, R360). -/
structure StreamState where
  /-- 3 bits; R360; reset OFF: SSTATE. -/
  sstate : SState := .off
  /-- 256 bits and KEY_ID; R266; reset none: the current key. -/
  key : Option StreamKey := none
  /-- R266; reset none: the pending key. -/
  pend : Option StreamKey := none
  /-- 31 bits; R360, R267; reset 0: SEG_USED. -/
  segUsed : Nat := 0
  /-- 30 bits; R360, R267; reset 0: KEY_TICKS. -/
  keyTicks : Nat := 0
  /-- R267; reset 0: KEY_WARN has been raised for the current key. -/
  warned : Bool := false
  /-- 32 bits; R360; reset 0: SEALED. -/
  sealed : Word := 0
  /-- 32 bits; R360; reset 0: DROPPED. -/
  dropped : Word := 0
  /-- 48 bits; R360, R34; reset none: HIGH_SNAP, the highest number sealed under the key. -/
  high : Option (BitVec 48) := none
  /-- Bytes; R256; reset 0: the tokens T. -/
  tokens : Nat := 0
  /-- 1 bit; R34, R268; reset 0: the stream has stopped for its numbering. -/
  seqStop : Bool := false
  /-- 8 bits; R260; reset 0: the AVTP sequence counter. -/
  seqNum : BitVec 8 := 0
  /-- R255; reset 1: the next snapshot sealed is a resync. -/
  resync : Bool := true
  /-- Steps; R255, R259; reset empty: the first snapshot sealed with a grid instant from one of these on is a
  resync. -/
  resyncAt : List Nat := []
  /-- R252, R303; reset none: the port whose reversion sets ENABLE to 0 at the next snapshot boundary. -/
  stopping : Option Port := none
  /-- VALUE, STATE and segments since sent, by ordinal's table index; R255; reset empty: the last
  sent values. -/
  sent : Tbl (Option (Word × BitVec 3 × Nat)) := []
  /-- R258; reset empty: segments not yet sealed. -/
  jobs : List SegJob := []
  /-- 1,408 bytes; R269; reset empty: the waiting body of an event stream. -/
  body : List Item := []
  /-- R249; reset none: the port that carries the stream when it is not its own. -/
  moved : Bool := false
  deriving DecidableEq, Repr

/-- A frame handed to a MAC (R245): the bytes before the FCS, which the MAC appends as it sends the frame. -/
structure TxFrame where
  pcp : BitVec 3
  /-- The stream of a stream frame; `none` for a trace frame. -/
  stream : Option Nat
  /-- When it was handed to the MAC, in steps. -/
  at_ : Nat
  /-- Absolute G of a RECORDS segment, for the latency monitor (R383). -/
  g : Option Nat
  bytes : Bytes
  deriving DecidableEq, Repr

/-- An IEEE 802.1AS message that a port sends (R44); its bytes are left out (log entry 18). -/
inductive TimeMsg where
  /-- Pdelay_Req, which starts an exchange. -/
  | request
  /-- Pdelay_Resp with its follow-up to the request that arrived at this time, in steps. -/
  | response (arrival : Nat)
  deriving DecidableEq, Repr

/-- One uplink port (R245 to R249, R361). -/
structure UplinkState where
  /-- 1 bit; R361; reset DOWN: LINK. -/
  up : Bool := false
  /-- Time; R249; reset 0: since when the port is up. -/
  upAt : Nat := 0
  /-- R439, R443; reset 0: powered down by OFF or SENTINEL. -/
  parked : Bool := false
  /-- 32 bits; R361; reset 0: RX_DISCARD. -/
  rxDiscard : Word := 0
  /-- 32 bits; R361; reset 0: PAUSE_RX. -/
  pauseRx : Word := 0
  /-- 32 bits; R361; reset 0: TX_FRAMES. -/
  txFrames : Word := 0
  /-- R245, R249; reset empty: frames handed to the MAC and not yet sent, in their order. -/
  queue : List TxFrame := []
  /-- R245; reset none: the last frame that left the port. -/
  lastTx : Option TxFrame := none
  /-- Steps; R245; reset 0: when the line is free for the next frame. -/
  lineFree : Nat := 0
  /-- ns; R44; reset none: the measured peer delay (asCapable). -/
  pdelay : Option Nat := none
  /-- Time; R44; reset 0: when peer delay was last initiated. -/
  pdelayAt : Nat := 0
  /-- R44; reset none: the last IEEE 802.1AS message sent. -/
  timeTx : Option TimeMsg := none
  /-- R383; reset as UplinkMon: the port's monitors. -/
  mon : UplinkMon := {}
  deriving DecidableEq, Repr

/-- One route's live state (R271, R362). -/
structure RouteState where
  /-- R271; reset 0: the condition's truth. -/
  cond : Bool := false
  /-- R271; reset none: VALUE at the previous evaluation. -/
  value : Option Word := none
  /-- 16 bits; R362; reset 0: FIRES. -/
  fires : BitVec 16 := 0
  /-- 16 bits; R362; reset 0: DROPS. -/
  drops : BitVec 16 := 0
  /-- R271; reset 0: the gating channel's count at the last evaluation. -/
  gate : Nat := 0
  deriving DecidableEq, Repr

/-! ### Vault, alarm and non-volatile stores -/

/-- One vault slot (R406, R407). NV. -/
structure SlotState where
  /-- 256 bits; R406; reset empty (NV): the key. -/
  key : Bytes := []
  /-- 4 bits; R407; reset 0 (NV): TYPE. -/
  typ : BitVec 4 := 0
  /-- 8 bits; R407; reset 0 (NV): GEN. -/
  gen : BitVec 8 := 0
  /-- 16 bits; R407; reset 0 (NV): INFO. -/
  info : BitVec 16 := 0
  /-- 4 bits; R407; reset GOOD: HEALTH. -/
  health : BitVec 4 := 0
  /-- 32 bits; R407; reset 0 (NV): CHECK. -/
  check : Word := 0
  deriving DecidableEq, Repr

/-- The key vault (R406 to R418). -/
structure VaultMem where
  /-- 32 slots; R406; reset empty (NV): the slots. -/
  slots : Tbl SlotState := []
  /-- 2 bits; R413; reset UNPROVISIONED (DC, NV): the vault state. -/
  state : VaultState := .unprovisioned
  /-- 64 × 32 bits by 2 × stream + generation; R403; reset 0 (NV): the stored KEY_NONCE values. -/
  nonces : Tbl Word := []
  /-- 8 bits; R408; reset 0 (DC, NV): the key policy byte. -/
  policy : Byte := 0
  /-- 8 KB; R410; reset 0 (DC, NV): which enrolment the PUF helper data holds; 0 none or
  invalidated. -/
  helper : Nat := 0
  /-- 32 bits; R417; reset 0 (NV): the provisioning counter, outside the vault. -/
  provCount : Word := 0
  /-- 35 × 8 bytes by part; R416; reset empty: the provisioning package buffer. -/
  prov : Tbl Bytes := []
  /-- 96 bytes; R414; reset 0: buffer 2, the last signature. -/
  sig : Bytes := []
  /-- 96 bytes; R414; reset 0 (NV): buffer 1, the identity public key. -/
  idPub : Bytes := []
  /-- 1 bit; R414; reset pass: random number generator health. -/
  rngFail : Bool := false
  /-- 256 bits; R406, R410; reset empty: KEK, in volatile storage; empty where none has been rebuilt. -/
  kek : Bytes := []
  /-- 4 × 9 positions by bank; R410; reset 0 to 8 (DC, NV): the map word, the position of each of the bank's
  eight slots and then the spare position; its complement copy is the same. -/
  map : Tbl (List Nat) := []
  deriving DecidableEq, Repr

/-- One alarm log entry (R424). NV. -/
structure LogEntry where
  number : BitVec 16
  tick : BitVec 48
  source : Byte
  stateResp : Byte
  /-- Time of the entry after the latest device reset, negative before it (log entry 139). -/
  at_ : Int
  deriving DecidableEq, Repr

/-- The alarm (R419 to R424). -/
structure AlarmState where
  /-- R421; reset 0: the LOCKDOWN response is in force. -/
  lockdown : Bool := false
  /-- 256 entries; R424; reset empty (NV): the log, newest first. -/
  log : List LogEntry := []
  /-- 16 bits; R424; reset 0 (NV): entries since manufacture. -/
  count : BitVec 16 := 0
  /-- Times by source; R424; reset none: the source's last entry, negative before the device reset. -/
  lastAt : Tbl (Option Int) := []
  /-- Times; R396; reset empty: joint session failures of the last 1 s. -/
  joint : List Nat := []
  deriving DecidableEq, Repr

/-- One copy of the configuration store (R452). NV. -/
structure CfgCopy where
  format : BitVec 16
  tick : BitVec 48
  /-- The values in force at the save, by address. -/
  words : Tbl Word
  hop : BitVec 2
  followers : BitVec 2
  /-- R510, R512: written by a migration. -/
  converted : Bool
  valid : Bool
  deriving DecidableEq, Repr

/-- The calibration items of one lane in the store (R213). -/
structure LaneSaved where
  d : Int
  h16 : Int
  l16 : Int
  dE : Int
  at16 : Int
  ib16 : Int
  slots : List SlotCal
  top : Nat
  crc : Word
  deriving DecidableEq, Repr

/-- One copy of the calibration store (R213). NV. -/
structure CalCopy where
  format : BitVec 16
  tick : BitVec 48
  lanes : List (Nat × LaneSaved)
  /-- TS, last ID and stretch need by table index. -/
  eps : List (Nat × Int × BitVec 64 × Bool)
  /-- DLL code and o_g by region. -/
  regions : List (Int × Int)
  converted : Bool
  valid : Bool
  deriving DecidableEq, Repr

/-- An image bank (R500, R501). NV. -/
structure ImgBank where
  /-- Up to 1 MB in blocks of 4 KB by index; R501; reset empty (NV). -/
  blocks : Tbl Bytes := []
  /-- 384 bits; R501; reset none (NV): the boot-digest record. -/
  digest : Option Bytes := none
  deriving DecidableEq, Repr

/-- The eMRAM areas outside the vault (R412, R501). -/
structure NvState where
  /-- R452; reset none (DC, NV): configuration copies A and B. -/
  cfgA : Option CfgCopy := none
  /-- R452; reset none (DC, NV): configuration copy B. -/
  cfgB : Option CfgCopy := none
  /-- R213; reset none (DC, NV): calibration copy A. -/
  calA : Option CalCopy := none
  /-- R213; reset none (DC, NV): calibration copy B. -/
  calB : Option CalCopy := none
  /-- 1 MB; R501; reset empty (DC, NV): image bank A. -/
  bankA : ImgBank := {}
  /-- 1 MB; R501; reset empty (DC, NV): image bank B. -/
  bankB : ImgBank := {}
  /-- Bank A or B; R501; reset A (DC, NV): the boot pointer. -/
  bootB : Bool := false
  /-- 1 bit; R501; reset 0 (DC, NV): the boot pointer's UNCONFIRMED flag. -/
  unconfirmed : Bool := false
  /-- 32 bits; R501; reset 0 (DC, NV): the rollback counter. -/
  rollback : Word := 0
  /-- 1 bit; R346, R510; reset 0 (DC, NV): OLD_CFG. -/
  oldCfg : Bool := false
  /-- 21 bits; R31; reset 0 (DC, NV): the free-run counter. -/
  frc : BitVec 21 := 0
  deriving DecidableEq, Repr

/-! ### Firmware update, hoard and replay -/

/-- The update engine (R345, R346, R500 to R514). -/
structure UpdState where
  /-- 3 bits; R346; reset IDLE: USTATE. -/
  ustate : UState := .idle
  /-- 5 bits; R346; reset 0: ERROR. -/
  error : BitVec 5 := 0
  /-- R346; reset none: blocks taken, by index; BLOCKS counts them. -/
  taken : List Nat := []
  /-- 8 bits; R346; reset 0: LAST_BLOCK. -/
  lastBlock : Byte := 0
  /-- 8 bits; R345; reset 0: BLOCK. -/
  block : Byte := 0
  /-- 1 bit; R345; reset 1: U_ENABLE. -/
  uEnable : Bool := true
  /-- 1 bit; R345; reset 1: RUN_ACTIVATE. -/
  runActivate : Bool := true
  /-- 1,025 words by offset; R502, R307; reset 0 (DC): the block buffer and its trailer. -/
  buffer : Tbl Word := []
  /-- R503; reset none: the block being taken. -/
  taking : Option Byte := none
  /-- Bank A or B; R346; reset bank (DC): the running bank. -/
  bankB : Bool := false
  /-- 16 bits; R324; reset image (DC): FW_VERSION. -/
  fwVersion : BitVec 16 := 0
  /-- 16 bits; R500; reset image (DC): CFG_FORMAT of the running image. -/
  cfgFormat : BitVec 16 := 0
  /-- Time; R506, R507; reset none: the earliest time of A after an accepted ACTIVATE. -/
  activateAt : Option Nat := none
  /-- R512; reset 0: the activation in progress is a rollback. -/
  rolling : Bool := false
  /-- Time; R507; reset none: A, once the pause has begun. -/
  pauseA : Option Nat := none
  /-- Steps; R507; reset none: the latest pause, from its start to its end. -/
  pauseSpan : Option (Nat × Nat) := none
  /-- 48 bits; R509; reset 0: the tick of the latest pause's end. -/
  pauseTick : BitVec 48 := 0
  /-- R509; reset 0: migration is running. -/
  migrating : Bool := false
  /-- R505; reset 0: neither bank passes and the boot ROM answers Port U. -/
  romOnly : Bool := false
  deriving DecidableEq, Repr

/-- The hoard (R471 to R491). -/
structure HoardState where
  /-- 3 bits; R347; reset IDLE: HSTATE. -/
  hstate : HState := .idle
  /-- 1 bit; R347; reset 0: ARM. -/
  arm : Bool := false
  /-- 1 bit; R347; reset 0: EXPORT. -/
  expo : Bool := false
  /-- 1 bit; R347; reset UL0: EXPORT_PORT. -/
  expoPort : Bool := false
  /-- 2 bits; R347; reset 00: HMODE as written. -/
  hmode : BitVec 2 := 0
  /-- 8 bits; R347; reset 0x80: PRE as written. -/
  pre : Byte := 0x80
  /-- 2 bits; R347, R471; reset 00: HMODE in effect since the last arming. -/
  hmodeNow : BitVec 2 := 0
  /-- 8 bits; R347, R471; reset 0x80: PRE in effect since the last arming. -/
  preNow : Byte := 0x80
  /-- R347; reset none: HOARD_CTL as it acts at the next grid tick. -/
  ctlNext : Option Word := none
  /-- R474; reset 0: FREEZE waits for the next grid tick, with its event if it has one. -/
  freezeNext : Option (Option Item) := none
  /-- 1 bit; R347; reset 0: GAP. -/
  gap : Bool := false
  /-- 16 bits; R347; reset 0: DROPS. -/
  drops : BitVec 16 := 0
  /-- R471; reset empty: the lanes selected at the last arming. -/
  sel : List Nat := []
  /-- R471, R472; reset empty: the lanes recorded. -/
  lanes : List Nat := []
  /-- 16 bits; R478; reset 0: SEQ of the next block. -/
  seq : BitVec 16 := 0
  /-- R478; reset 0: the next block carries FLAGS bit 0. -/
  gapNext : Bool := false
  /-- Up to 2 MB; R474; reset empty: the ring's blocks, oldest first. -/
  ring : List Bytes := []
  /-- Bytes; R474; reset 0: still to be recorded in POST. -/
  postLeft : Nat := 0
  /-- Tick; R480; reset 0: when recording started. -/
  startTick : BitVec 48 := 0
  /-- Tick; R480; reset 0: when the freeze took place. -/
  freezeTick : BitVec 48 := 0
  /-- R475, R480; reset empty: the TRACE_START body fields fixed at the start: k, GRID_CTL, digest, FW_VERSION,
  package number. -/
  startInfo : List Word := []
  /-- R475; reset 0: a frozen trace is held. -/
  held : Bool := false
  /-- Up to 64 KB; R477; reset empty: the export byte stream not yet sealed. -/
  stream : Bytes := []
  /-- R476; reset 0: segments sealed in the present tick. -/
  segIdx : Nat := 0
  /-- R476; reset 0: the next segment carries a TRACE_START block. -/
  startNext : Bool := false
  /-- 31 bits; R476, R267; reset 0: segments sealed under the export key. -/
  keySegs : Nat := 0
  /-- 30 bits; R476, R267; reset 0: grid ticks of use of the export key. -/
  keyTicks : Nat := 0
  /-- Lanes; R477; reset empty: lanes that owe a checkpoint. -/
  owe : List Nat := []
  /-- R473, R479; reset 0: recording, with its first blocks, waits for a grid tick in a state that records. -/
  startOwed : Bool := false
  /-- R491; reset empty: DIGEST bodies that wait for the RAW_EDGES blocks of their period. -/
  digests : List Bytes := []
  deriving DecidableEq, Repr

/-- One result entry of a replay (R498). -/
structure ReplayResult where
  num : BitVec 48
  matchByte : Byte
  records : BitVec 16
  laneDigest : Word
  digest : Word
  counts : Bytes
  deriving DecidableEq, Repr

/-! ### Grid, time, supplies and device state -/

/-- A re-phase between its decision and its step tick (R45). -/
structure Rephase where
  stepTick : BitVec 48
  /-- c, signed, in 2.5 ns steps. -/
  c : Int
  /-- The acquisition re-phase sets the correction to this offset, in 0.01 ppm (R41). -/
  offset : Option Int
  /-- The package is a follower that relays the step (R45). -/
  relayed : Bool
  deriving DecidableEq, Repr

/-- The grid, its time states and the grid link (R30 to R61). -/
structure GridState where
  /-- 2.5 ns steps; R18; reset 0: time since the device reset. -/
  now : Nat := 0
  /-- 1 bit; R31; reset 0: the grid is running. -/
  on : Bool := false
  /-- 48 bits; R30, R31; reset 0 (DC): number of the latest grid tick. -/
  tick : BitVec 48 := 0
  /-- Steps; R32; reset 0: when the latest tick fell. -/
  tickAt : Nat := 0
  /-- Steps; R45; reset 50,000: from the latest tick to the next. -/
  gap : Nat := 50000
  /-- 48 bits; R31, R45; reset none: the number that the tick after a re-phase takes. -/
  nextNum : Option (BitVec 48) := none
  /-- 48 bits; R32; reset 0: number of the latest grid instant. -/
  gridNum : BitVec 48 := 0
  /-- Steps; R32; reset 0: when the latest grid instant fell. -/
  gridAt : Nat := 0
  /-- 48 bits; R32, R176; reset 0: number of the grid instant before the latest. -/
  prevNum : BitVec 48 := 0
  /-- Steps; R32, R176; reset 0: when the grid instant before the latest fell. -/
  prevAt : Nat := 0
  /-- Steps; R45; reset 0: no grid instant falls before this time. -/
  instFrom : Nat := 0
  /-- 3 bits; R337; reset FREE: TSTATE. -/
  tstate : TState := .free
  /-- UL0 or UL1; R43; reset UL0: the time port in use. -/
  timePort : Ul := .ul0
  /-- 0.01 ppm; R41; reset 0: the frequency correction. -/
  corr : Int := 0
  /-- Steps; R39; reset none: when the last valid Sync arrived. -/
  syncAt : Option Nat := none
  /-- −5 to 0; R39; reset 0: the last logSyncInterval. -/
  logSync : Int := 0
  /-- Count; R40; reset 0: Sync intervals of the frequency measurement. -/
  acqCnt : Nat := 0
  /-- R40; reset 0: the acquisition re-phase has stepped. -/
  acqDone : Bool := false
  /-- Count; R40; reset 0: consecutive Sync messages with a small error. -/
  okCnt : Nat := 0
  /-- R533; reset 0: the lock test applies in REPHASE_WAIT. -/
  waitTest : Bool := false
  /-- Steps; R39; reset 0: when HOLDOVER was entered. -/
  holdAt : Nat := 0
  /-- R39; reset 0: HOLD_MAX has passed since the entry to HOLDOVER. -/
  holdOver : Bool := false
  /-- R42; reset 0: no Sync has arrived since the loss. -/
  syncLost : Bool := false
  /-- 16 bits signed, ns; R337; reset 0: PHASE_ERR. -/
  phaseErr : Int := 0
  /-- 48 bits; R30, R48; reset 0: the number that the latest tick has in the locked numbering, or in
  the lead's for a follower. -/
  trueNum : BitVec 48 := 0
  /-- Steps; R45; reset 0: the shift that would move the ticks onto true multiples, as of the last
  Sync. -/
  shift : Int := 0
  /-- 1 bit; R31; reset 1: ticks carry the package's own free-run numbering. -/
  ownNum : Bool := true
  /-- 24 bits; R31; reset 0: ticks since the free-run counter last advanced. -/
  frcTicks : Nat := 0
  /-- 1 bit; R31; reset 0: the counter has already advanced for what comes next. -/
  frcDone : Bool := false
  /-- R45; reset none: the re-phase under way. -/
  rephase : Option Rephase := none
  /-- 1 bit; R337, R59; reset 0: TIME_DEGRADED. -/
  degraded : Bool := false
  /-- 1 bit; R337; reset 1: TIME_UNLOCKED as of the latest grid instant. -/
  unlocked : Bool := true
  /-- R56; reset pll: what clocks core-die logic. -/
  clk : CoreClk := .pll
  /-- R58; reset 0: the two PLLs have exchanged roles, so that the core PLL is the one that was the standby. -/
  swapped : Bool := false
  /-- R58; reset 1: the standby PLL is locked. -/
  standbyOk : Bool := true
  /-- Steps; R57; reset none: when the logic switches back from the reference after a change of the core
  PLL's frequency. -/
  clkBack : Option Nat := none
  /-- R57; reset 400: the core PLL's target in MHz. -/
  coreMhz : Nat := 400
  /-- R21; reset 1: the lane PLL is locked. -/
  lanePll : Bool := true
  /-- R21; reset 0: lanes wait for the next tick after a relock. -/
  lanePllWait : Bool := false
  /-- Strap; R324; reset strap (DC 1): LEAD. -/
  lead : Bool := true
  /-- 2 bits; R324; reset 0: PKG. -/
  pkg : BitVec 2 := 0
  /-- 2 bits; R51; reset 0: hop count of a follower. -/
  hop : BitVec 2 := 0
  /-- R51; reset 0: a follower is JOINED. -/
  joined : Bool := false
  /-- 2 bits; R337; reset 0: joined followers, at the lead. -/
  joinedCnt : BitVec 2 := 0
  /-- 3 bits; R337; reset 0: ABSENT. -/
  absent : BitVec 3 := 0
  /-- 1 bit; R337; reset 0: GL_LONG. -/
  glLong : Bool := false
  /-- 5 bits; R337; reset 0: GL_CRC_ERR. -/
  glCrcErr : BitVec 5 := 0
  /-- Frames; R51, R52; reset 0: tick marks accepted in the joining procedure; a follower that rejoins repeats
  it from its third frame on. -/
  marks : Nat := 0
  /-- Count; R51; reset 0: echo marks sent in the present measurement. -/
  echoSent : Nat := 0
  /-- Steps; R47, R51; reset none: when the latest echo mark is driven. -/
  echoAt : Option Int := none
  /-- Steps; R52; reset 50,000: the length of a tick as last tracked. -/
  rate : Nat := 50000
  /-- Steps; R47; reset 0: the upstream package's latest tick, as a follower knows it. -/
  upTick : Int := 0
  /-- R51; reset 0: the package below has been JOINED since its segment was last measured. -/
  belowJoined : Bool := false
  /-- Steps; R52; reset 0: when the last tick mark was accepted. -/
  markAt : Nat := 0
  /-- 16 bits; R48; reset 0xFFFF: SEG_DELAY last received from upstream. -/
  segIn : BitVec 16 := 0xFFFF
  /-- Up to 8 arrivals; R51; reset empty: echo marks stamped, 0.25 ns. -/
  echoes : List Nat := []
  /-- 16 bits; R51; reset 0xFFFF: d measured for the segment below. -/
  segOut : BitVec 16 := 0xFFFF
  /-- R49; reset empty: the last good upstream message. -/
  upIn : Bytes := []
  /-- Steps by hop; R52; reset 0: when each follower was last heard. -/
  upAt : Tbl Nat := []
  /-- Hops; R51; reset empty: followers joined, at the lead. -/
  members : List Nat := []
  /-- ALARM_PKG and ALARM_SRC; R48; reset empty: alarms from above to be relayed, oldest first. -/
  relayDown : List (Byte × Byte) := []
  /-- ALARM_PKG and ALARM_SRC; R49; reset empty: alarms from below to be relayed, oldest first. -/
  relayUp : List (Byte × Byte) := []
  /-- R48, R53; reset 0: the lead's downstream messages carry TIME_UNLOCKED. -/
  leadUnlocked : Bool := false
  /-- R53; reset 0: the lead's downstream messages carry TIME_DEGRADED. -/
  leadDegraded : Bool := false
  /-- 48 bits; R48; reset 0: TICK last received. -/
  leadTick : BitVec 48 := 0
  /-- R50; reset empty, kept through a device reset: own alarms to be sent in the next messages, oldest
  first. -/
  alarmOut : List Byte := []
  /-- 40 bytes; R48; reset empty: the last downstream message sent. -/
  downMsg : Bytes := []
  /-- 40 bytes; R49; reset empty: the last upstream message sent. -/
  upMsg : Bytes := []
  /-- Steps; R463; reset 0: when discovery began. -/
  discAt : Nat := 0
  /-- 2 bits; R463; reset 0: FOLLOWERS of the saved configuration. -/
  followers : BitVec 2 := 0
  /-- 2 bits; R464; reset 0: the saved hop count. -/
  savedHop : BitVec 2 := 0
  deriving DecidableEq, Repr

/-- The replay (R492 to R499): its input, its result area, and the lanes it replays with the grid, the
configuration and the assembler of the trace. -/
structure ReplayRun where
  /-- R498; reset WAITING: RSTATE. -/
  rstate : ReplayState := .waiting
  /-- 8 bits; R498; reset 0: REASON. -/
  reason : Byte := 0
  /-- Bytes; R494; reset 0: file bytes taken, which is the next expected offset. -/
  taken : Nat := 0
  /-- Up to 1 MB; R494; reset empty: the input buffer. -/
  buffer : Bytes := []
  /-- 16 bits; R478, R497; reset none: the SEQ expected next. -/
  seq : Option (BitVec 16) := none
  /-- R495; reset empty: the lanes replayed. -/
  lanes : List Nat := []
  /-- R495; reset 0: the device check has passed. -/
  checked : Bool := false
  /-- R495; reset 0: a device check has passed and the lanes wait for the next grid tick to
  disconnect. -/
  starting : Bool := false
  /-- Steps; R496; reset none: the grid tick at which the replay last advanced. -/
  lastAt : Option Nat := none
  /-- Lane and grid instant; R495, R497; reset empty: lanes that have met their starting CHECKPOINT. -/
  started : List (Nat × BitVec 48) := []
  /-- 48 bits; R495; reset 0: the latest grid instant of a lane block met so far. -/
  seen : BitVec 48 := 0
  /-- 48 bits; R495, R497; reset none: the grid instant from which snapshots are compared. -/
  cmpFrom : Option (BitVec 48) := none
  /-- 48 bits; R498; reset 0: the current trace tick. -/
  tick : BitVec 48 := 0
  /-- 48 bits; R498; reset 0: G_s. -/
  gs : BitVec 48 := 0
  /-- 1 bit; R480; reset 0: HMODE of the trace is raw-edge. -/
  raw : Bool := false
  /-- 32 bits; R480, R498; reset 0: CONFIG_DIGEST of the trace. -/
  digest : Word := 0
  /-- R481, R483; reset as CfgState: the configuration of the replayed lanes. -/
  cfg : CfgState := {}
  /-- R496; reset as LaneState: the replayed lanes' state by lane. -/
  lstates : Tbl LaneState := []
  /-- R496; reset as EpState: the replayed endpoints' state by table index. -/
  eps : Tbl EpState := []
  /-- R485; reset as ClusterState: the replayed lanes' clusters. -/
  clusters : Tbl ClusterState := []
  /-- R492; reset as RegionState: the replayed lanes' regions, with the trace's DLL code and o_g. -/
  regions : Tbl RegionState := []
  /-- R493; reset as AsmState: the assembler of the replay snapshots. -/
  asmR : AsmState := {}
  /-- R484; reset as GridState: the trace's grid. -/
  grid : GridState := {}
  /-- Lane and grid instant; R485; reset empty: records lost under rule 2 of R234 (LOST). -/
  lost : List (Nat × BitVec 48) := []
  /-- Lanes; R79, R487; reset empty: lanes whose latest frame was abandoned. -/
  cut : List Nat := []
  /-- 32 bits; R498; reset 0: snapshots compared. -/
  compared : Nat := 0
  /-- 32 bits; R498; reset 0: mismatches. -/
  mismatches : Nat := 0
  /-- 48 bits; R498; reset 0: the first mismatching SNAP_NUM. -/
  firstBad : BitVec 48 := 0
  /-- Up to 4,096; R498; reset empty: results by entry. -/
  results : Tbl (Option ReplayResult) := []
  /-- R498; reset none: the latest replay snapshot. -/
  snap : Option Snap := none
  deriving DecidableEq, Repr

/-- The device state and its requests (R436 to R445). -/
structure ModeState where
  /-- 4 bits; R324; reset BOOT: STATE of DEV_STATE. -/
  dev : DevState := .boot
  /-- 4 bits; R324; reset 0 power-on: RST_CAUSE. -/
  cause : BitVec 4 := 0
  /-- 2 bits; R348; reset none: RESULT of MODE_REQ. -/
  result : ModeResult := .none
  /-- 4 bits; R348; reset 0: TARGET of MODE_REQ. -/
  target : BitVec 4 := 0
  /-- R438; reset none: the pending request and its earliest tick. -/
  req : Option (DevState × Nat) := none
  /-- R439, R444; reset 0: the entry steps have begun. -/
  entering : Bool := false
  /-- R445; reset none: the exit steps run, with G_r's earliest time and the target. -/
  leaving : Option (Nat × DevState) := none
  /-- R440; reset empty: the poll set, with the poll interval in ticks. -/
  polls : List (Nat × Nat) := []
  /-- Steps; R440, R444; reset 0: the latest entry to SENTINEL, before which no poll tick counts. -/
  pollFrom : Nat := 0
  /-- Snapshot number; R445; reset none: G_r. -/
  resume : Option Nat := none
  /-- 1 bit; R274; reset 0: WAKE_OUT. -/
  wakeOut : Bool := false
  /-- Steps; R274; reset 0: the latest wake condition. -/
  wakeAt : Nat := 0
  /-- R444; reset 0: a wake condition was found during the entry steps. -/
  wakeOwed : Bool := false
  /-- R22, R466; reset 0: the warden is restarting. -/
  restarting : Bool := false
  /-- Times; R467; reset empty: warden restarts of the last 60 s. -/
  restarts : List Nat := []
  /-- R453, R467; reset 0: the boot commit fell back to reset values. -/
  fallback : Bool := false
  /-- R430; reset 0: a device rail below its reset threshold holds the device in reset. -/
  inReset : Bool := false
  /-- R430; reset empty: the device rails below their reset thresholds. -/
  lowRails : List ResetRail := []
  /-- R455; reset 0: BOOT has completed. -/
  booted : Bool := false
  /-- R521; reset 0: a device reset of the device's own has not read LEAD yet; BOOT reads it. -/
  leadOwed : Bool := false
  /-- R463, R464; reset 0: the image check has ended and SOW has not begun. -/
  inDisc : Bool := false
  /-- R455; reset 0: the start is warm. -/
  warm : Bool := false
  /-- R219; reset 0: a calibration save is due after the restart. -/
  saveDue : Bool := false
  /-- R214; reset none: while an entry to OFF or SENTINEL runs, what its save takes, as at the latest grid
  tick. -/
  entryCal : Option CalCopy := none
  /-- Steps; R215; reset none: when the latest save was made. -/
  savedAt : Option Nat := none
  /-- 1 bit; R367; reset 0: SAVE_REFUSED. -/
  saveRefused : Bool := false
  /-- Lanes and charge; R457; reset none: the wave admitted and not ended. -/
  wave : Option (List Nat) := none
  /-- R459; reset 0: G_1 has been reached. -/
  firstDone : Bool := false
  /-- Steps; R447; reset none: the latest stage admission. -/
  stageLast : Option Nat := none
  /-- 1 bit; R331; reset 0: VBAT_WARN_NOW. -/
  vbatWarn : Bool := false
  /-- 1 bit; R331; reset 0: VBAT_SUSP_NOW. -/
  vbatSusp : Bool := false
  /-- 32 bits; R312; reset 0 (DC): the WB registers at 0x180 to 0x1FC, by offset. -/
  wb : Tbl Word := []
  /-- The model's own; reset 0: the device resets so far, by which a frame that resets the device finds
  itself cut short (log entry 51). -/
  resets : Nat := 0
  deriving DecidableEq, Repr

/-- A conforming endpoint on the harness (R130). -/
structure Endpoint where
  /-- R130; reset 0 (DC): powered up. -/
  powered : Bool := false
  /-- R122; reset none: the assigned position. -/
  pos : Option Nat := none
  /-- R115; reset open: the pass switch is closed. -/
  pass : Bool := false
  /-- R113; reset 0: asleep. -/
  asleep : Bool := false
  /-- 4 bits; R106; reset maker (DC 0): the rolling counter. -/
  ctr : BitVec 4 := 0
  /-- R117; reset 0: ATT_READY. -/
  attReady : Bool := false
  /-- 64 bits; R117; reset 0: ATT_TAG. -/
  attTag : BitVec 64 := 0
  /-- R114; reset 0: a wake request is pending. -/
  wake : Bool := false
  /-- Words by address; R109; reset maker (DC 0): the maker registers 0x20 to 0xFF. -/
  regs : Tbl Word := []
  /-- Words by address; R112; reset maker (DC 0): the maker registers in the endpoint's non-volatile
  storage. -/
  nvRegs : Tbl Word := []
  /-- 64 bits; R110, R116; reset 0 without power, then the maker's: ID_HI and ID_LO. -/
  ident : BitVec 64 := 0
  /-- 32 bits; R110; reset 0 without power, then the maker's with VERSION 0x1: CAPS. -/
  caps : Word := 0
  /-- Time and 64 bits; R117; reset none: when the tag of the ATTEST in progress stands in ATT_TAG. -/
  attNew : Option (Nat × BitVec 64) := none
  /-- 8 bits; R110; reset 0: HDR_ERR. -/
  hdrErr : BitVec 8 := 0
  /-- 8 bits; R110; reset 0: FRAME_ERR. -/
  frameErr : BitVec 8 := 0
  /-- Time; R80, R130; reset 0: STARTING until then. -/
  startAt : Nat := 0
  /-- Time, before 0 where a device reset came between; R119; reset none: since when its IN is not
  high. -/
  lowAt : Option Int := none
  /-- Time; R110, R112, R117; reset 0: a conversion, a commit or an attestation is in progress until
  then (BUSY). -/
  busyTo : Nat := 0
  /-- 0 to 31; R105, R125; reset 0: bits of its husk message that the endpoint has taken. -/
  huskAt : Nat := 0
  deriving DecidableEq, Repr

/-- The whole block. -/
structure State where
  /-- Commands that wait, first in, first out; reset empty. -/
  pending : List Instr := []
  /-- Model's own counter that free values are drawn with (log entry 4); reset 0 (DC). -/
  fresh : Nat := 0
  /-- Port H; R276. -/
  h : PortState := {}
  /-- Port M; R276. -/
  m : PortState := {}
  /-- Port U; R276. -/
  u : PortState := {}
  /-- R350; the configuration. -/
  cfg : CfgState := {}
  /-- 6 bits; R320; reset 0: LOCK. -/
  lock : BitVec 6 := 0
  /-- 16 bits; R321; reset 0: the rule epoch. -/
  epoch : BitVec 16 := 0
  /-- Steps; R321; reset none: the instant of the latest rule change. -/
  epochAt : Option Nat := none
  /-- R317; reset empty: COMMIT writes waiting for their tick. -/
  creqs : List CommitReq := []
  /-- R318; reset empty: commits taken and not settled. -/
  commits : List CommitRun := []
  /-- R319; COMMIT_STATUS. -/
  cstat : CommitStatus := {}
  /-- 8 bits; R319; reset 0: the number of the latest commit. -/
  cseq : BitVec 8 := 0
  /-- R322; capture. -/
  cap : CaptureState := {}
  /-- R380; reset empty: events of the present router cycle, in the order raised. -/
  cycle : List Event := []
  /-- 32 channels; R378; reset as ChanState: the channels by number. -/
  chans : Tbl ChanState := []
  /-- 512 lanes; reset as LaneState. -/
  lanes : Tbl LaneState := []
  /-- 8,192 table indices; reset as EpState. -/
  eps : Tbl EpState := []
  /-- 64 clusters; reset as ClusterState. -/
  clusters : Tbl ClusterState := []
  /-- 8 regions; reset as RegionState. -/
  regions : Tbl RegionState := []
  /-- R232; the snapshot assembler. -/
  asm_ : AsmState := {}
  /-- 32 streams; reset as StreamState. -/
  streams : Tbl StreamState := []
  /-- R245; uplink port UL0. -/
  ul0 : UplinkState := {}
  /-- R245; uplink port UL1. -/
  ul1 : UplinkState := {}
  /-- 1,024 routes; reset as RouteState. -/
  routes : Tbl RouteState := []
  /-- R406; the key vault. -/
  vault : VaultMem := {}
  /-- R419; the alarm. -/
  alarm : AlarmState := {}
  /-- R412; eMRAM outside the vault. -/
  nv : NvState := {}
  /-- R345; firmware update. -/
  upd : UpdState := {}
  /-- R471; the hoard. -/
  hoard : HoardState := {}
  /-- R492; replay. -/
  replay : ReplayRun := {}
  /-- R30; grid and time. -/
  grid : GridState := {}
  /-- R436; device state. -/
  mode : ModeState := {}
  /-- Test access port output; R521; reset none: what TDO last answered. -/
  tdo : Option Word := none
  /-- Harness; R130; reset as Endpoint: conforming endpoints by lane × 16 + place. -/
  chain : Tbl Endpoint := []
  deriving DecidableEq, Repr

/-- The block right after reset: every field at the value its comment names. -/
def State.reset : State := {}

end Sys2Proof.Machine
end

