-- ==== Sys2Proof/Machine/Ops.lean ====
section
/-!
DEFINITION. The named operations over the state: reading and writing a sparse table, a port, a lane,
an endpoint, a region, and the running of time. Every read or write of a table goes through
`Tbl.get` and `Tbl.set`, which keep its canonical form.
-/

namespace Sys2Proof

/-- The other of Ports H and M. -/
def Port.other : Port → Port
  | .h => .m
  | .m => .h
  | .u => .u

/-- The port code of R392; 0 on Port U. -/
def Port.code : Port → Nat
  | .h => 0x48
  | .m => 0x4D
  | .u => 0

/-- The port's bits in COMMIT_STATUS and EA_REQ: 01 H, 10 M (R319, R363). -/
def Port.bits : Port → Nat
  | .h => 1
  | .m => 2
  | .u => 0

/-- The OWNER code of a port (R360). -/
def Port.owner : Port → Nat
  | .h => 1
  | .m => 2
  | .u => 3

/-- The number of an uplink port. -/
def Ul.num : Ul → Nat
  | .ul0 => 0
  | .ul1 => 1
/-- The other uplink port. -/
def Ul.other : Ul → Ul
  | .ul0 => .ul1
  | .ul1 => .ul0
end Sys2Proof

namespace Sys2Proof.Machine

/-- What a command's meaning answers. -/
abbrev Out := Host.Outcome State Fault Refusal

/-! ### Sparse tables -/

/-- What key `k` holds; an unlisted key holds `d k`. -/
def Tbl.get {α : Type} (d : Nat → α) : Tbl α → Nat → α
  | [], k => d k
  | (i, v) :: r, k => if k = i then v else Tbl.get d r k

/-- The table without key `k`. -/
def Tbl.del {α : Type} (k : Nat) (t : Tbl α) : Tbl α := t.filter (fun e => e.1 != k)

/-- A table that does not list `k`, with `v` listed at it in its place. -/
def Tbl.put {α : Type} (k : Nat) (v : α) : Tbl α → Tbl α
  | [] => [(k, v)]
  | (i, w) :: r => if k < i then (k, v) :: (i, w) :: r else (i, w) :: Tbl.put k v r

/-- The table with key `k` holding `v`: a key that holds what an unlisted key reads as is not
listed. -/
def Tbl.set {α : Type} [DecidableEq α] (d : Nat → α) (t : Tbl α) (k : Nat) (v : α) : Tbl α :=
  if v = d k then Tbl.del k t else Tbl.put k v (Tbl.del k t)

/-- The canonical form: keys strictly rising above `lo`, and no entry equal to its default. -/
def Tbl.wfAbove {α : Type} [DecidableEq α] (d : Nat → α) : Nat → Tbl α → Bool
  | _, [] => true
  | lo, (i, v) :: r => decide (lo ≤ i) && !decide (v = d i) && Tbl.wfAbove d (i + 1) r

/-- The canonical form of a table. -/
def Tbl.wf {α : Type} [DecidableEq α] (d : Nat → α) (t : Tbl α) : Bool := Tbl.wfAbove d 0 t

/-! ### Parts of the state by name -/

/-- A port's part of the state (R286). -/
def State.port (s : State) : Port → PortState
  | .h => s.h
  | .m => s.m
  | .u => s.u

/-- The state with a port's part replaced. -/
def State.setPort (s : State) (p : Port) (x : PortState) : State :=
  match p with
  | .h => { s with h := x }
  | .m => { s with m := x }
  | .u => { s with u := x }

/-- The state with a port's part changed. -/
def State.onPort (s : State) (p : Port) (f : PortState → PortState) : State := s.setPort p (f (s.port p))

/-- Ports H and M changed alike. -/
def State.onHM (s : State) (f : PortState → PortState) : State := { s with h := f s.h, m := f s.m }

def State.lane (s : State) (n : Nat) : LaneState := Tbl.get (fun _ => {}) s.lanes n
def State.setLane (s : State) (n : Nat) (x : LaneState) : State :=
  { s with lanes := Tbl.set (fun _ => {}) s.lanes n x }
def State.onLane (s : State) (n : Nat) (f : LaneState → LaneState) : State := s.setLane n (f (s.lane n))

def State.ep (s : State) (i : Nat) : EpState := Tbl.get (fun _ => {}) s.eps i
def State.setEp (s : State) (i : Nat) (x : EpState) : State :=
  { s with eps := Tbl.set (fun _ => {}) s.eps i x }
def State.onEp (s : State) (i : Nat) (f : EpState → EpState) : State := s.setEp i (f (s.ep i))

def State.region (s : State) (g : Nat) : RegionState := Tbl.get (fun _ => {}) s.regions g
def State.setRegion (s : State) (g : Nat) (x : RegionState) : State :=
  { s with regions := Tbl.set (fun _ => {}) s.regions g x }
def State.onRegion (s : State) (g : Nat) (f : RegionState → RegionState) : State :=
  s.setRegion g (f (s.region g))

def State.cluster (s : State) (c : Nat) : ClusterState := Tbl.get (fun _ => {}) s.clusters c
def State.setCluster (s : State) (c : Nat) (x : ClusterState) : State :=
  { s with clusters := Tbl.set (fun _ => {}) s.clusters c x }
def State.onCluster (s : State) (c : Nat) (f : ClusterState → ClusterState) : State :=
  s.setCluster c (f (s.cluster c))

def State.chan (s : State) (c : Nat) : ChanState := Tbl.get (fun _ => {}) s.chans c
def State.setChan (s : State) (c : Nat) (x : ChanState) : State :=
  { s with chans := Tbl.set (fun _ => {}) s.chans c x }
def State.onChan (s : State) (c : Nat) (f : ChanState → ChanState) : State := s.setChan c (f (s.chan c))

def State.stream (s : State) (k : Nat) : StreamState := Tbl.get (fun _ => {}) s.streams k
def State.setStream (s : State) (k : Nat) (x : StreamState) : State :=
  { s with streams := Tbl.set (fun _ => {}) s.streams k x }
def State.onStream (s : State) (k : Nat) (f : StreamState → StreamState) : State :=
  s.setStream k (f (s.stream k))

def State.route (s : State) (r : Nat) : RouteState := Tbl.get (fun _ => {}) s.routes r
def State.setRoute (s : State) (r : Nat) (x : RouteState) : State :=
  { s with routes := Tbl.set (fun _ => {}) s.routes r x }
def State.onRoute (s : State) (r : Nat) (f : RouteState → RouteState) : State :=
  s.setRoute r (f (s.route r))

def State.endpoint (s : State) (i : Nat) : Endpoint := Tbl.get (fun _ => {}) s.chain i
def State.setEndpoint (s : State) (i : Nat) (x : Endpoint) : State :=
  { s with chain := Tbl.set (fun _ => {}) s.chain i x }

def State.slot (s : State) (i : Nat) : SlotState := Tbl.get (fun _ => {}) s.vault.slots i

def State.uplink (s : State) : Ul → UplinkState
  | .ul0 => s.ul0
  | .ul1 => s.ul1
def State.setUplink (s : State) (u : Ul) (x : UplinkState) : State :=
  match u with
  | .ul0 => { s with ul0 := x }
  | .ul1 => { s with ul1 := x }
def State.onUplink (s : State) (u : Ul) (f : UplinkState → UplinkState) : State :=
  s.setUplink u (f (s.uplink u))
def ulOf (b : Bool) : Ul := if b then .ul1 else .ul0

def State.onGrid (s : State) (f : GridState → GridState) : State := { s with grid := f s.grid }
def State.onMode (s : State) (f : ModeState → ModeState) : State := { s with mode := f s.mode }
def State.onHoard (s : State) (f : HoardState → HoardState) : State := { s with hoard := f s.hoard }
def State.onUpd (s : State) (f : UpdState → UpdState) : State := { s with upd := f s.upd }
def State.onAsm (s : State) (f : AsmState → AsmState) : State := { s with asm_ := f s.asm_ }
def State.onReplay (s : State) (f : ReplayRun → ReplayRun) : State := { s with replay := f s.replay }
def State.onVault (s : State) (f : VaultMem → VaultMem) : State := { s with vault := f s.vault }

/-! ### Numbers of units (R1, R2, R4, R6) -/

def laneRegion (n : Nat) : Nat := n / 64
def laneCluster (n : Nat) : Nat := n / 8
def lanePlace (n : Nat) : Nat := n % 8
def epIdx (lane pos : Nat) : Nat := lane * 16 + pos
/-- The handle of a table index in this package (R4). -/
def handle (s : State) (i : Nat) : Nat := s.grid.pkg.toNat * 8192 + i

/-! ### Codes -/

def DevState.code : DevState → Nat
  | .off => 0 | .boot => 1 | .sow => 2 | .run => 3 | .sentinel => 4 | .recover => 5 | .test => 6
  | .replay => 7 | .lockdown => 8
def TState.code : TState → Nat
  | .free => 0 | .acquiring => 1 | .locked => 2 | .holdover => 3 | .rephaseWait => 4 | .follow => 5
  | .followLost => 6
def PState.code : PState → Nat
  | .unsupervised => 0 | .active => 1 | .lost => 2 | .reverted => 3
def Sess.code : Sess → Nat
  | .closed => 0 | .challenged => 1 | .opened => 2
def CommitState.code : CommitState → Nat
  | .idle => 0 | .pending => 1 | .sowing => 2 | .applied => 3 | .refused => 4 | .notApplied => 5
def CState.code : CState → Nat
  | .idle => 0 | .pending => 1 | .copying => 2 | .done => 3
def RPower.code : RPower → Nat
  | .powered => 0 | .staging => 1 | .suspended => 2 | .isolated => 3
def UState.code : UState → Nat
  | .idle => 0 | .receiving => 1 | .verifying => 2 | .ready => 3 | .activating => 4
  | .unconfirmed => 5 | .failed => 6
def HState.code : HState → Nat
  | .idle => 0 | .armed => 1 | .post => 2 | .frozen => 3 | .exporting => 4 | .exportStopped => 5
def ModeResult.code : ModeResult → Nat
  | .none => 0 | .pending => 1 | .done => 2 | .refused => 3
def SState.code : SState → Nat
  | .off => 0 | .noKey => 1 | .keyExpired => 2 | .seqStop => 3 | .waitLock => 4 | .linkDown => 5
  | .sealing => 6 | .lockdown => 7
def RecState.code : RecState → Nat
  | .valid => 0 | .stale => 1 | .late => 2 | .missing => 3 | .sprout => 4 | .fault => 5 | .range => 6
  | .gap => 7
def LState.code : LState → Nat
  | .unpowered => 0 | .clearing => 1 | .isolated => 2 | .enumerating => 3 | .run => 4
def AccState.code : AccState → Nat
  | .idle => 0 | .pending => 1 | .done => 2 | .refused => 3 | .busy => 4 | .unsupported => 5
  | .noResponse => 6 | .checksum => 7 | .expired => 8
def SeqState.code : SeqState → Nat
  | .running => 0 | .stopped => 1 | .reloading => 2
def Hold.code : Hold → Nat
  | .none => 0 | .jump => 1 | .ident => 2
def VaultState.code : VaultState → Nat
  | .unprovisioned => 0 | .provisioned => 1 | .kekFail => 2
def ReplayState.code : ReplayState → Nat
  | .waiting => 0 | .loading => 1 | .running => 2 | .done => 3 | .refused => 4 | .abandoned => 5
def laneModeOf : Nat → LaneMode
  | 1 => .aknun | 2 => .sent | 3 => .psi5 | 4 => .lin | _ => .off
def LaneMode.code : LaneMode → Nat
  | .off => 0 | .aknun => 1 | .sent => 2 | .psi5 => 3 | .lin => 4

/-! ### Time -/

/-- SUBTICK: 10 ns units since the latest grid tick (R381). -/
def State.subtick (s : State) : Nat := (s.grid.now - s.grid.tickAt) / 4

/-- The last step before the next grid tick. -/
def State.lastStep (s : State) : Nat := s.grid.tickAt + s.grid.gap - 1

/-- A fresh number for a free value (log entry 4). -/
def State.draw (s : State) : Nat × State := (s.fresh, { s with fresh := s.fresh + 1 })

/-- Times of a list that lie within the last `span` steps. -/
def recent (now span : Nat) (ts : List Nat) : List Nat := ts.filter (fun t => now < t + span)

/-- Whether status clears on read (R314). -/
def DevState.readClears : DevState → Bool
  | .run | .sentinel | .lockdown => true
  | _ => false

/-- Whether the data path runs (R436): snapshots are built. -/
def DevState.dataPath : DevState → Bool
  | .sow | .run | .recover | .test | .replay | .lockdown => true
  | _ => false

/-- An endpoint whose IN is no longer high from time `t` on (R119). -/
def Endpoint.cut (t : Int) (e : Endpoint) : Endpoint :=
  if e.powered ∧ e.lowAt = none then { e with lowAt := some t } else e

/-- The segments that wait in a stream which has left SEALING are not sealed, and count in DROPPED (R268,
R275). -/
def StreamState.dropWaiting (x : StreamState) : StreamState :=
  { x with jobs := [], dropped := BitVec.ofNat 32 (satAdd 4294967295 x.dropped.toNat x.jobs.length) }

/-- Whether a slot acts as empty: it holds nothing, it is BAD, or no KEK unwraps it (R407, R410, R411). -/
def slotEmpty (s : State) (i : Nat) : Bool := (s.slot i).typ == 0 || (s.slot i).health == 2 || s.vault.kek.isEmpty

/-- Whether the vault serves: BOOT has tested the shell, rebuilt KEK and checked the slots (R411). -/
def vaultOpen (s : State) : Bool := s.mode.booted || s.upd.romOnly

/-- Whether a request waits behind one that was taken earlier on the other port (R410, level 5). -/
def vaultWaits (s : State) (p : Port) (r : VaultReq) : Bool :=
  match (s.port p.other).pend with
  | some q => p != .u && decide (q.at_ < r.at_)
  | none => false

/-- Whether copy A is the one that a save overwrites: the converted copy's place while OLD_CFG is 1
(R510), otherwise an absent or invalid copy, otherwise the older one. -/
def saveToA (old : Bool) (conv : α → Bool) (tick : α → BitVec 48) (valid : α → Bool)
    (a b : Option α) : Bool :=
  match a, b with
  | none, _ => true
  | some _, none => false
  | some x, some y =>
    if old && conv x != conv y then conv x
    else if !valid x then true
    else if !valid y then false
    else decide ((tick x).toNat ≤ (tick y).toNat)

/-- Whether a SAVE_CONFIG taken on a port is writing its copy (R452, R509). -/
def saveRunning (s : State) (p : Port) : Bool :=
  match (s.port p).pend with
  | some r => r.op == 0x0D && r.ctr.isSome && vaultOpen s && !vaultWaits s p r && !s.upd.migrating && !s.mode.restarting
  | none => false

/-- The non-volatile areas after a device reset: the copy that an interrupted SAVE_CONFIG was writing fails its
CRC-32 (R470). -/
def resetNv (s : State) : NvState :=
  if saveRunning s .h || saveRunning s .m then
    if saveToA s.nv.oldCfg CfgCopy.converted CfgCopy.tick CfgCopy.valid s.nv.cfgA s.nv.cfgB then
      { s.nv with cfgA := s.nv.cfgA.map (fun c => { c with valid := false }) }
    else { s.nv with cfgB := s.nv.cfgB.map (fun c => { c with valid := false }) }
  else s.nv

/-- The alarm after a device reset: the log stays, with the times of its entries counted from the reset. At
power-on the time without supply is unknown, and no entry counts as of the last second (R424, log entry 139). -/
def resetAlarm (s : State) (cause : Nat) : AlarmState :=
  let back : Int := s.grid.now + (if cause = 0 then 400000000 else 0)
  { log := s.alarm.log.map (fun e => { e with at_ := e.at_ - back })
    count := s.alarm.count
    lastAt := s.alarm.lastAt.map (fun e => (e.1, e.2.map (fun t => t - back))) }

/-- The hoard after a device reset: IDLE with the last frozen trace, and the use of the export key, which stays in
its slot (R418, R474, log entry 134). -/
def resetHoard (h : HoardState) : HoardState :=
  let x : HoardState := { keySegs := h.keySegs, keyTicks := h.keyTicks }
  if h.held then
    { x with held := true, ring := h.ring, lanes := h.lanes, hmodeNow := h.hmodeNow, seq := h.seq
             startTick := h.startTick, freezeTick := h.freezeTick, startInfo := h.startInfo }
  else x

/-- The state that a device reset leaves (R12), with what the block keeps: the non-volatile areas,
the queue of commands, the model's counter and the harness, whose IN terminals go low. An unjoined follower
reports FOLLOW_LOST (R39). An alarm that resets the device is still to be sent on the grid link (R50). -/
def deviceReset (s : State) (cause : Nat) (lead : Bool) : State :=
  { pending := s.pending
    fresh := s.fresh
    vault := { s.vault with prov := [], sig := [], rngFail := false, kek := [] }
    alarm := resetAlarm s cause
    nv := resetNv s
    hoard := resetHoard s.hoard
    upd := { bankB := s.upd.bankB, fwVersion := s.upd.fwVersion, cfgFormat := s.upd.cfgFormat }
    grid := { lead := lead, tstate := if lead then .free else .followLost
              alarmOut := if cause = 2 then s.grid.alarmOut else [] }
    mode := { cause := BitVec.ofNat 4 cause, resets := s.mode.resets + 1 }
    chain := s.chain.filterMap (fun e =>
      let x := Endpoint.cut 0 { e.2 with
        lowAt := match e.2.lowAt with
          | some t => some (t - (s.grid.now : Int))
          | none => none
        startAt := 0, busyTo := 0 }
      if x = {} then none else some (e.1, x)) }

end Sys2Proof.Machine
end

