-- ==== Sys2Proof/Machine/Cfg.lean ====
section
/-!
DEFINITION. The configuration space: the staged words of the indirect map (R350 to R372) and of the
direct map (R310), with each word's reset value, its writable, secure and lockable bits, its commit
group and its owner. A word is keyed by its indirect byte address; the three staged direct registers
are keyed by `dirKey` plus their offset.
-/

namespace Sys2Proof.Machine

/-- The key of a staged direct register: outside the 24-bit indirect space. -/
def dirKey (off : Nat) : Nat := 0x1000000 + off
def kAlarmPolicy : Nat := dirKey 0x01C
def kSupplyThresh : Nat := dirKey 0x024
def kGridCtl : Nat := dirKey 0x050

/-! ### Addresses of the tables (R350) -/

def aDesc (i off : Nat) : Nat := 32 * i + off
def aLane (n off : Nat) : Nat := 0x040000 + 64 * n + off
def aCluster (c off : Nat) : Nat := 0x048000 + 256 * c + off
def aRegion (g off : Nat) : Nat := 0x04C000 + 1024 * g + off
def aMatrix (c off : Nat) : Nat := 0x050000 + 8 * c + off
def aChan (c off : Nat) : Nat := 0x050100 + 16 * c + off
def aSrc (x : Nat) : Nat := 0x050400 + 4 * x
def aMonRegion (g off : Nat) : Nat := 0x058000 + 32 * g + off
def aMonUplink (u off : Nat) : Nat := 0x058100 + 16 * u + off
def aStream (k off : Nat) : Nat := 0x060000 + 256 * k + off
def aMember (m : Nat) : Nat := 0x062000 + 4 * m
def aDeadband (m : Nat) : Nat := 0x062400 + 4 * m
def aUplink (u off : Nat) : Nat := 0x062800 + 64 * u + off
def aRoute (r off : Nat) : Nat := 0x070000 + 16 * r + off
def aCalLane (n : Nat) : Nat := 0x0C0000 + 4 * n
def aCalRegion (g : Nat) : Nat := 0x0C0800 + 4 * g
def aCalGlobal : Nat := 0x0C0820
def aHoardSel (n : Nat) : Nat := 0x0C0900 + 4 * n
def aLaneCal (n off : Nat) : Nat := 0x0C1000 + 64 * n + off
def aRegionCal (g off : Nat) : Nat := 0x0C9000 + 16 * g + off
def aEpCal (i off : Nat) : Nat := 0x0CA000 + 16 * i + off

/-- The kinds of configuration word, with the number of the unit and the offset within its entry. -/
inductive Word4 where
  | desc (i off : Nat)
  | lane (n off : Nat)
  | cluster (c off : Nat)
  | region (g off : Nat)
  | matrix (c off : Nat)
  | chan (c off : Nat)
  | src (x : Nat)
  | monRegion (g off : Nat)
  | monUplink (u off : Nat)
  | stream (k off : Nat)
  | member (m : Nat)
  | deadband (m : Nat)
  | uplink (u off : Nat)
  | route (r off : Nat)
  | calLane (n : Nat)
  | calRegion (g : Nat)
  | calGlobal
  | hoardSel (n : Nat)
  | laneCal (n off : Nat)
  | regionCal (g off : Nat)
  | epCal (i off : Nat)
  | alarmPolicy
  | supplyThresh
  | gridCtl
  | other
  deriving DecidableEq, Repr

/-- Which word stands at a key (R350, R367). -/
def word4 (a : Nat) : Word4 :=
  if a < 0x040000 then .desc (a / 32) (a % 32)
  else if a < 0x048000 then .lane ((a - 0x040000) / 64) (a % 64)
  else if a < 0x04C000 then .cluster ((a - 0x048000) / 256) (a % 256)
  else if a < 0x04E000 then .region ((a - 0x04C000) / 1024) (a % 1024)
  else if a < 0x050000 then .other
  else if a < 0x050100 then .matrix ((a - 0x050000) / 8) (a % 8)
  else if a < 0x050300 then .chan ((a - 0x050100) / 16) (a % 16)
  else if a < 0x050400 then .other
  else if a < 0x050500 then .src ((a - 0x050400) / 4)
  else if a < 0x058000 then .other
  else if a < 0x058100 then .monRegion ((a - 0x058000) / 32) (a % 32)
  else if a < 0x058120 then .monUplink ((a - 0x058100) / 16) (a % 16)
  else if a < 0x060000 then .other
  else if a < 0x062000 then .stream ((a - 0x060000) / 256) (a % 256)
  else if a < 0x062400 then .member ((a - 0x062000) / 4)
  else if a < 0x062800 then .deadband ((a - 0x062400) / 4)
  else if a < 0x062880 then .uplink ((a - 0x062800) / 64) (a % 64)
  else if a < 0x070000 then .other
  else if a < 0x074000 then .route ((a - 0x070000) / 16) (a % 16)
  else if a < 0x0C0000 then .other
  else if a < 0x0C0800 then .calLane ((a - 0x0C0000) / 4)
  else if a < 0x0C0820 then .calRegion ((a - 0x0C0800) / 4)
  else if a = 0x0C0820 then .calGlobal
  else if a < 0x0C0900 then .other
  else if a < 0x0C0940 then .hoardSel ((a - 0x0C0900) / 4)
  else if a < 0x0C1000 then .other
  else if a < 0x0C9000 then .laneCal ((a - 0x0C1000) / 64) (a % 64)
  else if a < 0x0C9080 then .regionCal ((a - 0x0C9000) / 16) (a % 16)
  else if a < 0x0CA000 then .other
  else if a < 0x0EA000 then .epCal ((a - 0x0CA000) / 16) (a % 16)
  else if a = kAlarmPolicy then .alarmPolicy
  else if a = kSupplyThresh then .supplyThresh
  else if a = kGridCtl then .gridCtl
  else .other

/-- The Reset column of a word's writable fields (R330, R332, R336, R353 to R369, R375, R378, R384,
R210, R231). -/
def word4Reset : Word4 → Word
  | .lane _ 0x00 => pack [(27, 2, 1), (25, 2, 1)]
  | .lane _ 0x04 => pack [(21, 10, 30), (19, 2, 1), (16, 3, 6), (15, 1, 1), (6, 3, 1)]
  | .lane _ 0x08 => pack [(22, 10, 300), (14, 8, 12)]
  | .lane _ 0x0C => pack [(24, 6, 15), (19, 5, 25), (13, 6, 20)]
  | .lane _ 0x10 => pack [(21, 11, 1920), (18, 3, 7)]
  | .cluster _ off =>
    if 0x10 ≤ off ∧ off < 0x20 then pack [(15, 5, 16)]
    else if 0x20 ≤ off ∧ off < 0x60 then pack [(21, 4, 1)] else 0
  | .region _ 0x3C0 => 0x064
  | .chan _ 0x4 => pack [(8, 8, 1), (0, 8, 0xFF)]
  | .src _ => pack [(24, 8, 0xFF)]
  | .monRegion _ 0x0 => pack [(16, 16, 0x10000 - 40), (8, 8, 5)]
  | .monRegion _ 0x4 => pack [(16, 8, 4)]
  | .monRegion _ 0x8 => 50000
  | .monRegion _ 0xC => 3500
  | .monUplink _ 0x0 => 100000
  | .monUplink _ 0x4 => 500
  | .stream _ 0x00 => pack [(15, 4, 4), (0, 12, 1)]
  | .stream _ 0x1C => 16384
  | .uplink 0 0x00 => pack [(28, 2, 2), (25, 1, 1)]
  | .uplink _ 0x00 => pack [(25, 1, 1)]
  | .route _ 0x0 => pack [(27, 2, 3)]
  | .route _ 0x8 => pack [(8, 8, 0x20)]
  | .calLane _ => pack [(16, 8, 0xFF)]
  | .calRegion _ => pack [(16, 8, 0xFF)]
  | .laneCal _ 0x00 => 100
  | .regionCal _ 0x0 => 128
  | .epCal _ 0x0 => 65536
  | .epCal _ 0x4 => 65536
  | .alarmPolicy => pack [(20, 2, 1), (16, 2, 1), (10, 2, 1), (8, 2, 1), (6, 2, 1), (4, 2, 2), (2, 2, 2)]
  | .gridCtl => pack [(30, 1, 1), (24, 3, 3), (14, 10, 250), (0, 3, 3)]
  | _ => 0

/-- The writable staged bits of a word. -/
def word4Mask : Word4 → Word
  | .desc _ _ => 0xFFFFFFFF
  | .lane _ 0x00 => 0xFF000000
  | .lane _ 0x04 => 0xFFFFFFC0
  | .lane _ 0x08 => 0xFFFFC000
  | .lane _ 0x0C => 0xFFFFF000
  | .lane _ 0x10 => 0xFFFC0000
  | .cluster _ off =>
    if 0x10 ≤ off ∧ off < 0x20 then 0xFFFFC000
    else if 0x20 ≤ off ∧ off < 0x60 then 0xFFFF0000 else 0
  | .region _ 0x3C0 => 0x7FFFFFFF
  | .matrix _ _ => 0xFFFFFFFF
  | .chan _ 0x0 => 0xFF000000
  | .chan _ 0x4 => 0x0000FFFF
  | .src _ => 0xFF000007
  | .monRegion _ 0x0 => 0xFFFFFF00
  | .monRegion _ 0x4 => 0xFFFF0000
  | .monRegion _ 0x8 => 0xFFFFFFFF
  | .monRegion _ 0xC => 0x0000FFFF
  | .monUplink _ 0x0 => 0xFFFFFFFF
  | .monUplink _ 0x4 => 0x0000FFFF
  | .stream _ 0x00 => 0xFFFFFFFF
  | .stream _ 0x04 => 0x0000FFFF
  | .stream _ 0x08 => 0xFFFFFFFF
  | .stream _ 0x0C => 0xFFFFFFFF
  | .stream _ 0x10 => 0xFFFFFFFF
  | .stream _ 0x14 => 0xFFFFFFFF
  | .stream _ 0x18 => 0x0000FFFF
  | .stream _ 0x1C => 0x000FFFFF
  | .member _ => 0xFFFFFFFF
  | .deadband _ => 0xFFFFFFFF
  | .uplink 0 0x00 => 0xFE000000
  | .uplink _ 0x00 => 0xC2000000
  | .uplink _ 0x04 => 0x0000FFFF
  | .uplink _ 0x08 => 0xFFFFFFFF
  | .route _ 0x0 => 0xFFFFFFFE
  | .route _ 0x4 => 0xFFFFFFFF
  | .route _ 0x8 => 0xFFFFFFFC
  | .route _ 0xC => 0xFFFFFFFF
  | .calLane _ => 0xFFFFFFFF
  | .calRegion _ => 0xFFFFFFFF
  | .calGlobal => 0x00000001
  | .hoardSel _ => 0xFFFFFFFF
  | .laneCal _ 0x00 => 0xFFFFFFFF
  | .laneCal _ 0x04 => 0xFF000000
  | .laneCal _ 0x08 => 0xFFFFFFFF
  | .laneCal _ 0x0C => 0xFFFFFFFF
  | .laneCal _ 0x10 => 0xFFFF0000
  | .laneCal _ off =>
    if 0x14 ≤ off ∧ off < 0x24 then 0xFFFFF000
    else if 0x24 ≤ off ∧ off < 0x34 then 0xFFFFFFFF else 0
  | .regionCal _ 0x0 => 0x00FF00FF
  | .epCal _ 0x0 => 0x0001FFFF
  | .epCal _ 0x4 => 0x0001FFFF
  | .alarmPolicy => 0x003FFFFC
  | .supplyThresh => 0x3FFFFFFF
  | .gridCtl => 0x7FFFFFE7
  | _ => 0

/-- The bits of a word that are secure whatever SEC holds (R391). -/
def word4Secure : Word4 → Word
  | .desc _ 0x00 => 0x00000EFF
  | .desc _ 0x10 => 0xFFFFFFFF
  | .desc _ 0x14 => 0xFFFFFFFF
  | .chan _ 0x0 => 0x70000000
  | .stream _ 0x00 => 0x7F807FFF
  | .stream _ 0x04 => 0x0000FFFF
  | .stream _ 0x08 => 0xFFFFFFFF
  | .stream _ 0x0C => 0xFFFFFFFF
  | .stream _ 0x10 => 0xFFFFFFFF
  | .stream _ 0x14 => 0xFFFFFFFF
  | .member _ => 0xFFFFFFFF
  | .uplink 0 0x00 => 0x3C000000
  | .uplink _ 0x04 => 0x0000FFFF
  | .uplink _ 0x08 => 0xFFFFFFFF
  | .route _ 0x0 => 0xFFFFFFFE
  | .route _ 0x4 => 0xFFFFFFFF
  | .route _ 0x8 => 0xFFFFFFFC
  | .route _ 0xC => 0xFFFFFFFF
  | .alarmPolicy => 0x003FFFFC
  | _ => 0

/-- The LK bits of a word, with the number of the LOCK bit that guards them (R320). -/
def word4Lock : Word4 → Word × Nat
  | .lane _ 0x00 => (0x07000000, 4)
  | .stream _ 0x00 => (0x0F807FFF, 3)
  | .stream _ 0x04 => (0x0000FFFF, 3)
  | .stream _ 0x08 => (0xFFFFFFFF, 3)
  | .stream _ 0x0C => (0xFFFFFFFF, 3)
  | .stream _ 0x10 => (0xFFFFFFFF, 3)
  | .stream _ 0x14 => (0xFFFFFFFF, 3)
  | .member _ => (0xFFFFFFFF, 3)
  | .uplink 0 0x00 => (0x3C000000, 3)
  | .uplink _ 0x04 => (0x0000FFFF, 3)
  | .uplink _ 0x08 => (0xFFFFFFFF, 3)
  | .supplyThresh => (0x3FFFFFFF, 1)
  | .alarmPolicy => (0x003FFFFC, 0)
  | _ => (0, 0)

/-- The commit group that applies a word (R350). -/
def word4Group : Word4 → Option Nat
  | .desc _ _ => some 8
  | .lane n _ => some (n / 64)
  | .cluster c _ => some (c / 8)
  | .region g _ => some g
  | .matrix _ _ => some 11
  | .chan _ _ => some 11
  | .src _ => some 11
  | .monRegion _ _ => some 13
  | .monUplink _ _ => some 13
  | .stream _ _ => some 9
  | .member _ => some 9
  | .deadband _ => some 9
  | .uplink _ _ => some 9
  | .route _ _ => some 10
  | .calLane _ => some 14
  | .calRegion _ => some 14
  | .calGlobal => some 14
  | .hoardSel _ => some 14
  | .laneCal _ _ => some 14
  | .regionCal _ _ => some 14
  | .epCal _ _ => some 14
  | .alarmPolicy => some 15
  | .supplyThresh => some 15
  | .gridCtl => some 12
  | .other => none

/-- The reset value of a word by its key. -/
def cfgReset (a : Nat) : Word := word4Reset (word4 a)
/-- The writable staged bits by key. -/
def cfgMask (a : Nat) : Word := word4Mask (word4 a)
/-- The commit group by key. -/
def cfgGroup (a : Nat) : Option Nat := word4Group (word4 a)

/-- A configuration word of a table, unlisted words at their reset value. -/
def cfgGet (t : Tbl Word) (a : Nat) : Word := Tbl.get cfgReset t a
/-- The table with a word replaced. -/
def cfgSet (t : Tbl Word) (a : Nat) (w : Word) : Tbl Word := Tbl.set cfgReset t a w

/-- The word in force at a key (R313). -/
def State.inForce (s : State) (a : Nat) : Word := cfgGet s.cfg.live a
/-- The state with a word in force replaced. -/
def State.setInForce (s : State) (a : Nat) (w : Word) : State :=
  { s with cfg := { s.cfg with live := cfgSet s.cfg.live a w } }

/-- A port's staging copy of a word (R313); Port U stages nothing and sees the values in force. -/
def State.staged (s : State) (p : Port) (a : Nat) : Word :=
  match p with
  | .h => cfgGet s.cfg.stgH a
  | .m => cfgGet s.cfg.stgM a
  | .u => s.inForce a

/-- The state with a port's staged word replaced. -/
def State.setStaged (s : State) (p : Port) (a : Nat) (w : Word) : State :=
  match p with
  | .h => { s with cfg := { s.cfg with stgH := cfgSet s.cfg.stgH a w } }
  | .m => { s with cfg := { s.cfg with stgM := cfgSet s.cfg.stgM a w } }
  | .u => s

/-- The bits that a port staged in its secure session and no commit has taken (R300). -/
def State.secStaged (s : State) : Port → List (Nat × Word)
  | .h => s.cfg.secH
  | .m => s.cfg.secM
  | .u => []

/-- The state with a port's record of bits staged in its session replaced. -/
def State.setSecStaged (s : State) (p : Port) (l : List (Nat × Word)) : State :=
  match p with
  | .h => { s with cfg := { s.cfg with secH := l } }
  | .m => { s with cfg := { s.cfg with secM := l } }
  | .u => s

/-- Whether a word acts by snapshot: the tables, streams and routes, and k (R28, R259). Event, monitor
and calibration words act at once. -/
def bySnapshot (a : Nat) : Bool :=
  decide (a < 0x050000 ∨ 0x060000 ≤ a ∧ a < 0x0C0000) || a == kGridCtl

/-- When a commit whose effective tick is known takes effect (R183, R317). -/
def commitTime (s : State) (c : CommitRun) : Option Int :=
  if c.sown then
    match c.eff with
    | some e =>
      if e.toNat ≤ s.grid.tick.toNat then some s.grid.tickAt
      else some ((s.grid.tickAt : Int) + s.grid.gap + 50000 * ((e.toNat : Int) - s.grid.tick.toNat - 1))
    | none => none
  else none

/-- Whether a commit still to take effect does so at or before a grid instant. -/
def commitBefore (s : State) (G : Int) (c : CommitRun) : Bool :=
  match commitTime s c with
  | some t => decide (t ≤ G)
  | none => false

/-- The words by snapshot of the commits that take effect at or before a grid instant to come (R28). -/
def pendingWords (s : State) (G : Int) : List (Nat × Word) :=
  (s.commits.filter (commitBefore s G)).flatMap (fun c => c.diff.filter (fun e => bySnapshot e.1))

/-- A table of words with a commit's values. -/
def applyDiff (t : Tbl Word) (d : List (Nat × Word)) : Tbl Word := d.foldl (fun t e => cfgSet t e.1 e.2) t

/-- The words in force for a frame or snapshot whose grid instant lies at `G` (R28): those that the
first effective tick after `G` replaced, where there is one, and with those of the commits that take
effect by then. -/
def State.cfgAt (s : State) (G : Int) : Tbl Word :=
  match (s.cfg.hist.filter (fun x => decide (G < (x.1 : Int)))).getLast? with
  | none => applyDiff s.cfg.live (pendingWords s G)
  | some x =>
    let old := fun (f : Nat → Bool) => x.2.filter (fun e => f e.1)
    let new := fun (f : Nat → Bool) => s.cfg.live.filter (fun e => f e.1)
    old (fun a => decide (a < 0x050000)) ++ new (fun a => decide (0x050000 ≤ a ∧ a < 0x060000)) ++
      old (fun a => decide (0x060000 ≤ a ∧ a < 0x0C0000)) ++
      new (fun a => decide (0x0C0000 ≤ a ∧ a < kGridCtl)) ++ old (fun a => decide (kGridCtl ≤ a))

/-- The state as read under the words in force for a grid instant (R28). -/
def State.seenAt (s : State) (G : Int) : State := { s with cfg := { s.cfg with live := s.cfgAt G } }

/-- An operation run under the words in force for a grid instant (R28). -/
def State.under (s : State) (G : Int) (f : State → State) : State :=
  let live := s.cfg.live
  let s' := f (s.seenAt G)
  { s' with cfg := { s'.cfg with live := live } }

/-! ### Fields that several units read -/

/-- k of the snapshot period (R32). -/
def pexp (s : State) : Nat := fld (s.inForce kGridCtl) 2 0
/-- The snapshot period in steps of 2.5 ns (R32). -/
def period (s : State) : Nat := 50000 * 2 ^ pexp s
/-- A lane's MODE in force (R354); a reserved code acts as the reset value OFF (R351). -/
def cfgMode (s : State) (n : Nat) : LaneMode := laneModeOf (fld (s.inForce (aLane n 0)) 31 29)
/-- A lane's grade: 0 short, 1 standard, 2 long; a reserved code acts as standard (R351, R354). -/
def cfgGrade (s : State) (n : Nat) : Nat :=
  let g := fld (s.inForce (aLane n 0)) 28 27
  if g = 3 then 1 else g
/-- PROTO of a descriptor (R168). -/
def descProto (s : State) (i : Nat) : Nat := fld (s.inForce (aDesc i 0)) 31 29
/-- RATE of a descriptor (R168). -/
def descRate (s : State) (i : Nat) : Nat := fld (s.inForce (aDesc i 0)) 28 26
/-- OFFSET of a descriptor, in steps (R168). -/
def descOffset (s : State) (i : Nat) : Int := sgn 24 (fld (s.inForce (aDesc i 4)) 31 8)
/-- LATENCY of a descriptor, in steps (R35, R168). -/
def descLatency (s : State) (i : Nat) : Int := 4 * fld (s.inForce (aDesc i 8)) 31 16
/-- EXPECT_ID of a descriptor (R168). -/
def descId (s : State) (i : Nat) : BitVec 64 := s.inForce (aDesc i 0x10) ++ s.inForce (aDesc i 0x14)
/-- TRUST = ATTEST (R168). -/
def descAttest (s : State) (i : Nat) : Bool := fld (s.inForce (aDesc i 0)) 11 10 == 1
/-- The positions of a lane that hold a descriptor. -/
def lanePositions (s : State) (n : Nat) : List Nat :=
  (List.range 16).filter (fun p => descProto s (epIdx n p) != 0)
/-- The highest position of a lane that holds a descriptor (R118). -/
def topPos (s : State) (n : Nat) : Option Nat := (lanePositions s n).getLast?
/-- A stream's owner code in force (R360). -/
def streamOwner (s : State) (k : Nat) : Nat := fld (s.inForce (aStream k 0)) 30 29
/-- A channel's owner code in force (R378). -/
def chanOwner (s : State) (c : Nat) : Nat := fld (s.inForce (aChan c 0)) 30 29
/-- A field limited to its range: a value outside acts as the nearer limit (R351). -/
def ranged (lo hi x : Nat) : Nat := clampN lo hi x

/-- The keys of a staged area that may hold other than its reset value. -/
def stagedKeys (s : State) (p : Port) : List Nat :=
  match p with
  | .h => (s.cfg.stgH.map Prod.fst ++ s.cfg.live.map Prod.fst).eraseDups
  | .m => (s.cfg.stgM.map Prod.fst ++ s.cfg.live.map Prod.fst).eraseDups
  | .u => []

/-- A mean truncated towards zero. -/
def meanT (xs : List Int) : Int := if xs.isEmpty then 0 else xs.sum.tdiv xs.length

/-! ### The calibration entries (R368, R369) -/

/-- A word of a lane's calibration entry, with the loops' present values. -/
def laneCalWord (c : LaneCal) (off : Nat) : Word :=
  let slot := fun k => c.slots.getD k {}
  if off = 0x00 then pack [(20, 12, uns 12 c.h16), (8, 12, uns 12 c.l16), (0, 8, uns 8 c.d)]
  else if off = 0x04 then pack [(24, 8, uns 8 c.dE), (8, 8, c.steps), (0, 8, uns 8 c.og)]
  else if off = 0x08 then BitVec.ofInt 32 c.tc16
  else if off = 0x0C then BitVec.ofInt 32 c.at16
  else if off = 0x10 then pack [(16, 16, uns 16 c.ib16)]
  else if off < 0x24 then
    let x := slot ((off - 0x14) / 4)
    pack [(22, 10, uns 10 x.thr), (12, 10, uns 10 x.di16)]
  else if off < 0x34 then
    let x := slot ((off - 0x24) / 4)
    pack [(16, 16, uns 16 x.bt16), (0, 16, uns 16 x.btRef)]
  else 0

/-- A word of a region's calibration entry. -/
def regionCalWord (r : RegionState) (off : Nat) : Word :=
  if off = 0 then pack [(16, 8, uns 8 r.og), (0, 8, uns 8 r.dll)]
  else if off = 4 then pack [(16, 16, uns 16 (r.eHist.sum)), (0, 16, uns 16 (meanT r.tdcHist))]
  else if off = 8 then pack [(0, 8, r.steps)]
  else 0

/-- A word of an endpoint's calibration entry. -/
def epCalWord (e : EpState) (off : Nat) : Word :=
  if off = 0 then pack [(31, 1, b2n e.sprout), (29, 2, e.hold.code), (28, 1, b2n e.stretch),
    (27, 1, b2n e.slow), (26, 1, b2n e.attested), (22, 4, min 15 e.clean), (0, 17, uns 17 e.ts)]
  else if off = 4 then pack [(0, 17, uns 17 e.asc)]
  else if off = 8 then BitVec.ofNat 32 (e.lastId.toNat / 4294967296)
  else if off = 12 then BitVec.ofNat 32 e.lastId.toNat
  else 0

/-- The present value of a calibration word by its key: what stands in force for it (R368). -/
def calNow (s : State) (a : Nat) : Word :=
  match word4 a with
  | .laneCal n off => laneCalWord (s.lane n).cal off
  | .regionCal g off => regionCalWord (s.region g) off
  | .epCal i off => epCalWord (s.ep i) off
  | _ => s.inForce a

end Sys2Proof.Machine
end

