-- ==== Sys2Proof/Machine/Flags.lean ====
section
/-!
DEFINITION. Status fields: how the device sets an SQ field and advances SEQ, how a clear acts
(R314 to R316), which GLB_STATUS bit each happening sets (R327), and IRQ_N (R288).
-/

namespace Sys2Proof.Machine

/-- SEQ after one more setting: modulo 256, skipping 0 (R315). -/
def seqNext (q : BitVec 8) : BitVec 8 := if q = 0xFF then 1 else q + 1

/-- The device sets one SQ field (R315). -/
def sqSet (r : SqReg) (mask : BitVec 24) : SqReg :=
  { bits := r.bits ||| mask, seq := seqNext r.seq, again := r.again ||| mask }

/-- The device counts one more in an SQ counter (R326); a saturated counter stays. -/
def sqCount (r : SqReg) : SqReg :=
  if r.bits = BitVec.allOnes 24 then r else { r with bits := r.bits + 1, seq := seqNext r.seq }

/-- A clear of the masked SQ bits; SEQ returns to 0 when none is left (R315, R316). -/
def sqClear (r : SqReg) (mask : BitVec 24) : SqReg :=
  let b := r.bits &&& ~~~mask
  { r with bits := b, seq := if b = 0 then 0 else r.seq }

/-- The fields of a copy as they stand are those of a view (R287). -/
def SqReg.viewed (r : SqReg) : SqReg := { r with again := 0 }

/-- A port's view is refreshed for a burst: what an event sets from now on is newer than it (R285, R287). -/
def PortState.viewed (x : PortState) : PortState :=
  { x with crcErr := x.crcErr.viewed, glb := x.glb.viewed, alarm := x.alarm.viewed, supply := x.supply.viewed
           queue := x.queue.viewed, region := x.region.map (fun e => (e.1, e.2.viewed)) }

/-- The register word of SQ fields: SEQ in bits 31:24 (R315). -/
def sqWord (r : SqReg) : Word := r.seq ++ r.bits

/-- One bit of the 24. -/
def bit24 (n : Nat) : BitVec 24 := BitVec.ofNat 24 (2 ^ n)

/-- GLB_STATUS bit `n` of one port (R327). -/
def glbPort (s : State) (p : Port) (n : Nat) : State :=
  s.onPort p (fun x => { x with glb := sqSet x.glb (bit24 n) })

/-- GLB_STATUS bit `n` of Ports H and M (R327). -/
def glb (s : State) (n : Nat) : State := s.onHM (fun x => { x with glb := sqSet x.glb (bit24 n) })

/-- An SQ bit of ALARM_STATUS on both ports, with ALARM in GLB_STATUS (R327, R329). -/
def setAlarm (s : State) (n : Nat) : State :=
  glb (s.onHM (fun x => { x with alarm := sqSet x.alarm (bit24 n) })) 23

/-- An SQ bit of SUPPLY_STATUS on both ports, with SUPPLY in GLB_STATUS (R327, R331). -/
def setSupply (s : State) (n : Nat) : State :=
  glb (s.onHM (fun x => { x with supply := sqSet x.supply (bit24 n) })) 22

/-- An SQ bit of QUEUE_STATUS on both ports, with QUEUE in GLB_STATUS (R327, R343). -/
def setQueue (s : State) (n : Nat) : State :=
  glb (s.onHM (fun x => { x with queue := sqSet x.queue (bit24 n) })) 19

/-- An SQ bit of REGION_STATUSg on both ports, with REGION in GLB_STATUS (R327, R342). -/
def setRegionBit (s : State) (g n : Nat) : State :=
  glb (s.onHM (fun x => { x with
    region := Tbl.set (fun _ => {}) x.region g (sqSet (Tbl.get (fun _ => {}) x.region g) (bit24 n)) })) 20

/-- CRC_ERR_CNT of a port counts a failure (R301, R326). -/
def countCrc (s : State) (p : Port) : State := s.onPort p (fun x => { x with crcErr := sqCount x.crcErr })

/-- IRQ_N of a port is low (R288): GLB_STATUS holds a bit that GLB_IRQ_EN enables. -/
def irqLow (x : PortState) : Bool := (sqWord x.glb &&& x.irqEn &&& 0x00FFFFF8) != 0

/-- ATTN of STAT (R283). -/
def attn (x : PortState) : Bool := irqLow x || !x.evq.isEmpty

/-- A transaction with a good header is in progress (R302). -/
def PortState.inFrame (x : PortState) : Bool :=
  x.stallSent.isSome || match x.burst with
    | some r => r.good
    | none => false

/-- The ports stop serving: further words of an open indirect burst read 0 or are ignored (R301, R507). -/
def stopBurst (x : PortState) : PortState :=
  match x.burst with
  | some r =>
    if r.ind ∧ r.ok then { x with burst := some { r with busy := true }, indStat := { x.indStat with busy := true } } else x
  | none => x

/-- The open bursts of all three ports stop. -/
def stopBursts (s : State) : State :=
  { s with h := stopBurst s.h, m := stopBurst s.m, u := stopBurst s.u }

/-- IRQ_N of a port is driven low (R288): an enabled bit is held, or the port is LOST; OFF and a
device reset release it. -/
def irqDriven (s : State) (p : Port) : Bool :=
  p != .u && s.mode.dev != .off && !s.mode.inReset &&
    (irqLow (s.port p) || (s.port p).pstate == .lost)

/-- A rule change: changes at the same instant advance the rule epoch once (R321). -/
def ruleChange (s : State) : State :=
  if s.epochAt = some s.grid.now then s else { s with epoch := s.epoch + 1, epochAt := some s.grid.now }

end Sys2Proof.Machine
end

