-- ==== Sys2Proof/Machine/Events.lean ====
section
/-!
DEFINITION. The event router (R374 to R387) and the running of time: raising an event puts it into
the present router cycle, and time moving on to the next 10 ns delivers the cycle (R380).
-/

namespace Sys2Proof.Machine

/-! ### Raising -/

/-- The region that an event's ORIGIN lies in, for the sources that REGION_MASK concerns (R374,
R375). -/
def eventRegion (src origin : Nat) : Option Nat :=
  if src = 4 then some (origin / 8)
  else if 12 ≤ src ∧ src ≤ 18 ∨ 23 ≤ src ∧ src ≤ 25 then some (origin / 64)
  else if 19 ≤ src ∧ src ≤ 22 then some (origin % 8192 / 1024)
  else if src = 3 ∨ 26 ≤ src ∧ src ≤ 31 then some origin
  else none

/-- Whether REGION_MASK lets the event be formed (R375). -/
def eventFormed (s : State) (src origin : Nat) : Bool :=
  match eventRegion src origin with
  | none => true
  | some g => bit (s.inForce (aSrc src)) (24 + g % 8)

/-- An event is raised: it joins the present router cycle (R374, R380). -/
def raise (s : State) (src origin : Nat) (data : Word) : State :=
  if eventFormed s src origin then
    { s with cycle := s.cycle ++
        [{ src := BitVec.ofNat 6 src, origin := BitVec.ofNat 16 origin, data := data
           tick := s.grid.tick, sub := BitVec.ofNat 16 s.subtick }] }
  else s

/-- The GRID_TICK event (R374). -/
def tickEvent (s : State) : State :=
  if s.grid.tick.toNat % 2 ^ fld (s.inForce (aSrc 0)) 2 0 = 0 then raise s 0 0 (BitVec.ofNat 32 s.grid.tick.toNat) else s

/-- The GRID_TICK event of the latest tick, formed again under what is in force now. -/
def retick (s : State) : State := tickEvent { s with cycle := s.cycle.filter (fun e => e.src != 0) }

/-! ### Consumers -/

/-- The entry steps of SENTINEL run. -/
def toSentinel (s : State) : Bool :=
  s.mode.entering && match s.mode.req with
    | some (d, _) => d == .sentinel
    | none => false

/-- A wake condition in RUN or SENTINEL asserts WAKE_OUT; during the entry steps of SENTINEL it is
remembered (R273, R274, R444). -/
def wakeCond (s : State) : State :=
  if s.mode.dev = .run ∧ toSentinel s then s.onMode (fun m => { m with wakeOwed := true })
  else if s.mode.dev = .run ∨ s.mode.dev = .sentinel then
    s.onMode (fun m => { m with wakeOut := true, wakeAt := s.grid.now })
  else s

/-- When a capture requested now may be sampled: 10 us later, but from the end of a copy in progress on
(R322), and after the end of an activation pause (R514). -/
def captureFrom (s : State) : Nat :=
  match s.upd.pauseA with
  | some a => a + 100001
  | none => if s.cap.cstate = .copying then s.grid.now else s.grid.now + 4000

/-- A capture request: it joins a request that waits (R322). -/
def requestCapture (s : State) (restart : Bool) : State :=
  let req := match s.cap.req with
    | some (t, r) => some (t, r || restart)
    | none => some (captureFrom s, restart)
  let st := if s.cap.cstate = .copying then CState.copying else .pending
  { s with cap := { s.cap with req := req, cstate := st } }

/-- A channel's CONSUMER in force (R376). -/
def consumer (s : State) (c : Nat) : Nat := fld (s.inForce (aChan c 0)) 27 24

/-- SEC of a channel: 1 keeps every field of it secure (R378). -/
def chanSec (s : State) (c : Nat) : Bool := bit (s.inForce (aChan c 0)) 28

/-- The stream an UPLINK_EVENT channel names (R378). -/
def chanStream (s : State) (c : Nat) : Nat := fld (s.inForce (aChan c 4)) 4 0

/-- Whether a channel's consumer is busy (R376). -/
def consumerBusy (s : State) (c : Nat) : Bool :=
  match consumer s c with
  | 1 => decide (256 ≤ s.h.evq.length)
  | 2 => decide (256 ≤ s.m.evq.length)
  | 3 => s.cap.cstate == .copying
  | 6 =>
    let k := chanStream s c
    let x := s.stream k
    x.sstate != .sealing || !bit (s.inForce (aStream k 0)) 27 ||
      decide (1408 < 16 * x.body.length + 16)
  | _ => false

/-- An item enters a host's event queue (R376, R327). -/
def queueItem (s : State) (p : Port) (it : Item) : State :=
  let s := s.onPort p (fun x => { x with evq := x.evq ++ [it] })
  glbPort (glbPort s p 15) p 3

/-- Class-1 admission is deferred in the regions of a channel's REGIONS, and never less than before
(R376). -/
def spuDefer (s : State) (c : Nat) : State :=
  let w := s.inForce (aChan c 4)
  let until_ := s.grid.now + 400000 * ranged 1 255 (fld w 15 8)
  (List.range 8).foldl (fun s g =>
    if bit w g then s.onRegion g (fun r => { r with deferTo := max r.deferTo until_ }) else s) s

/-- An event on a HOARD_FREEZE channel acts as FREEZE in HOARD_CTL, at the next grid tick (R347, R376): the first
of those that wait for it is the cause, and one that finds the hoard neither ARMED nor about to be armed has no
effect (R499). -/
def freezeEvent (s : State) (it : Item) : State :=
  let arming := match s.hoard.ctlNext with
    | some w => bit w 31 && !s.hoard.arm
    | none => false
  if (s.hoard.hstate == .armed || arming) && s.hoard.freezeNext.isNone then
    s.onHoard (fun x => { x with freezeNext := some (some it) })
  else s

/-- What a consumer does with a delivered event (R376). A channel with SEC = 0 opens no route gate
(R377). -/
def consume (s : State) (c : Nat) (it : Item) : State :=
  match consumer s c with
  | 1 => queueItem s .h it
  | 2 => queueItem s .m it
  | 3 => requestCapture s false
  | 4 => freezeEvent s it
  | 5 => wakeCond s
  | 6 => s.onStream (chanStream s c) (fun x => { x with body := x.body ++ [it] })
  | 7 => spuDefer s c
  | 8 => if chanSec s c then s.onChan c (fun x => { x with gate := x.gate + 1 }) else s
  | _ => s

/-- Whether the consumer code is one that counts deliveries: NONE counts nowhere (R376). -/
def counts (code : Nat) : Bool := decide (1 ≤ code ∧ code ≤ 8)

/-- A delivery with its count (R380). -/
def deliverItem (s : State) (c : Nat) (it : Item) : State :=
  let s' := consume s c it
  if counts (consumer s c) then s'.onChan c (fun x => { x with delivered := satInc x.delivered }) else s'

/-- A dropped event counts in OVERFLOW, and in DROPPED for a host queue (R380). -/
def dropEvent (s : State) (c : Nat) : State :=
  let s' := s.onChan c (fun x => { x with overflow := satInc x.overflow })
  let drop := fun (s : State) (p : Port) =>
    if (s.port p).dropped = 0xFF then s
    else glbPort (s.onPort p (fun x => { x with dropped := x.dropped + 1 })) p 14
  match consumer s c with
  | 1 => drop s' .h
  | 2 => drop s' .m
  | _ => s'

/-- Whether two channels feed one consumer. -/
def sameConsumer (s : State) (c d : Nat) : Bool :=
  consumer s d == consumer s c && (consumer s c != 6 || chanStream s d == chanStream s c)

/-- Channels that hold a remembered event for the same consumer and remembered it earlier (R380). -/
def earlierHeld (s : State) (c : Nat) : Bool :=
  (List.range 32).any (fun d =>
    (s.chan d).held.isSome && sameConsumer s c d &&
      decide ((s.chan d).heldAt < (s.chan c).heldAt ∨ (s.chan d).heldAt = (s.chan c).heldAt ∧ d < c))

/-- A channel delivers its remembered event once its consumer is free and every event remembered earlier
for it has been taken (R380). -/
def deliverHeld (s : State) (c : Nat) : State :=
  match (s.chan c).held with
  | none => s
  | some ev =>
    if consumerBusy s c || earlierHeld s c then s
    else deliverItem (s.onChan c (fun x => { x with held := none })) c
      { ev := ev, remembered := true, chan := BitVec.ofNat 5 c }

/-- The remembered events of one consumer delivered in their order, as far as it has room (R380). -/
def deliverEarlier (s : State) (c : Nat) : State :=
  (List.range 32).foldl (fun s _ =>
    match (List.range 32).find? (fun d => (s.chan d).held.isSome && sameConsumer s c d && !earlierHeld s d) with
    | some d => deliverHeld s d
    | none => s) s

/-- A channel's remembered event discarded without being counted, where its EN is 0 (R387). -/
def dropHeld (s : State) (c : Nat) : State :=
  if bit (s.inForce (aChan c 0)) 31 then s else s.onChan c (fun x => { x with held := none })

/-- One event at one channel: delivered, remembered or dropped, after the events that were remembered for
its consumer (R380). -/
def deliverTo (s : State) (ev : Event) (c : Nat) : State :=
  let w := s.inForce (aChan c 0)
  let en := s.inForce (aMatrix c (if ev.src.toNat < 32 then 4 else 0))
  if bit w 31 && bit en (ev.src.toNat % 32) then
    let s := if (List.range 32).any (fun d => (s.chan d).held.isSome) then deliverEarlier s c else s
    if consumerBusy s c then
      match (s.chan c).held with
      | none => s.onChan c (fun x => { x with held := some ev, heldAt := s.grid.tickAt + 4 * ev.sub.toNat })
      | some _ => dropEvent s c
    else deliverItem s c { ev := ev, remembered := false, chan := BitVec.ofNat 5 c }
  else s

/-- One event at every channel, in ascending channel number. -/
def deliverEvent (s : State) (ev : Event) : State :=
  (List.range 32).foldl (fun s c => deliverTo s ev c) s

/-- The order of a router cycle: ascending source code, then ascending ORIGIN (R380). -/
def evLe (a b : Event) : Bool :=
  decide (a.src.toNat < b.src.toNat ∨ a.src = b.src ∧ a.origin.toNat ≤ b.origin.toNat)

/-- An event put into its place in a sorted cycle, after those it equals. -/
def evInsert (e : Event) : List Event → List Event
  | [] => [e]
  | x :: xs => if evLe x e then x :: evInsert e xs else e :: x :: xs

/-- A cycle in the router's order. -/
def evSort (es : List Event) : List Event := es.foldl (fun l e => evInsert e l) []

/-- The present router cycle is delivered (R380). -/
def flushCycle (s : State) : State :=
  (evSort s.cycle).foldl deliverEvent { s with cycle := [] }

/-! ### Time -/

/-- Time runs for `dt` steps, but not past the last step before the next grid tick, which the row
GRID_TICK brings (log entry 3). A router cycle ends with its 10 ns. -/
def advance (s : State) (dt : Nat) : State :=
  let t := s.grid.now + dt
  let t := if s.grid.on then max s.grid.now (min t s.lastStep) else t
  let s := if (t - s.grid.tickAt) / 4 = s.subtick then s else flushCycle s
  s.onGrid (fun g => { g with now := t })

/-- A command that takes effect `dt` steps after the one before; a device held in reset by a rail
takes no part (R430). -/
def run (dt : Nat) (s : State) (f : State → State) : Out :=
  if s.mode.inReset then .next s else .next (f (advance s dt))

/-- Whether every control port answers BUSY: the warden restarts, or firmware activation pauses
(R22, R507). -/
def portBusy (s : State) : Bool := s.mode.restarting || s.upd.pauseA.isSome

/-- CSN rises: a burst or stall read that was open on the port is over. -/
def csnRise (s : State) (p : Port) : State := s.onPort p (fun x => { x with burst := none, stallSent := none })

/-- A frame whose header CRC was good arrives on a port, which is a heartbeat (R302), and acts unless
the ports are busy. -/
def hostFrame (dt : Nat) (p : Port) (s : State) (f : State → State) : Out :=
  run dt s (fun s =>
    let s := csnRise s p
    if portBusy s then s else f (s.onPort p (fun x => { x with lastGood := s.grid.now })))

/-- A frame that carries a write without effect in OFF (R439). -/
def hostWrite (dt : Nat) (p : Port) (s : State) (f : State → State) : Out :=
  hostFrame dt p s (fun s => if s.mode.dev = .off then s else f s)

/-! ### Reported changes of state -/

/-- Lanes that are still enumerating when RUN is entered go on in their schedule (R124, R131). -/
def runLanes (s : State) : State :=
  s.lanes.foldl (fun s x =>
    if x.2.lstate = .enumerating then s.setLane x.1 { x.2 with lstate := .run, enumOwed := x.2.enumPos.isNone } else s) s

/-- STATE of DEV_STATE changes: MODE_CHANGE and MODE in GLB_STATUS (R327, R374). -/
def setDev (s : State) (d : DevState) : State :=
  if s.mode.dev = d then s else
    let old := s.mode.dev.code
    let s := s.onMode (fun m => { m with dev := d })
    let s := if d = .run then runLanes s else s
    glb (raise s 44 d.code (BitVec.ofNat 32 old)) 5

/-- TSTATE changes: TIME_STATE and TIME in GLB_STATUS (R327, R374). -/
def setTState (s : State) (t : TState) : State :=
  if s.grid.tstate = t then s else
    let old := s.grid.tstate.code
    let s := s.onGrid (fun g => { g with tstate := t })
    glb (raise s 7 0 (pack [(0, 3, t.code), (8, 3, old)])) 9

/-- HSTATE changes: HOARD_STATE and HOARD in GLB_STATUS (R327, R374). -/
def setHState (s : State) (h : HState) : State :=
  if s.hoard.hstate = h then s else
    let s := s.onHoard (fun x => { x with hstate := h })
    glb (raise s 45 h.code 0) 10

/-- USTATE changes: UPDATE_STATE and UPDATE in GLB_STATUS (R503). -/
def setUState (s : State) (u : UState) : State :=
  if s.upd.ustate = u then s else
    let s := s.onUpd (fun x => { x with ustate := u })
    glb (raise s 46 u.code (BitVec.ofNat 32 s.upd.error.toNat)) 11

/-- Whether a lane's packets carry FAULT (R222), which is its bit of LANE_FAULT_SUM (R341). -/
def laneFault (s : State) (n : Nat) : Bool :=
  let l := s.lane n
  l.short || l.stuck || l.swing || l.lstate == .isolated || (s.region (laneRegion n)).iso

/-- A change of lanes, with LANE_FAULT in GLB_STATUS where a bit of LANE_FAULT_SUM rises (R327). -/
def withFaults (ns : List Nat) (s s' : State) : State :=
  if ns.any (fun n => laneFault s' n && !laneFault s n) then
    glb (ns.foldl (fun s n => if laneFault s n then s.onLane n (fun l => { l with faultSeen := true })
      else s) s') 21
  else s'

/-- The lanes of a region. -/
def regionLanes (g : Nat) : List Nat := (List.range 64).map (fun i => 64 * g + i)

/-! ### Meanings -/

/-- REMEMBERED_DELIVERY: a consumer becomes free and takes the channel's remembered event (R380). -/
def execRememberedDelivery (dt : Nat) (c : Fin 32) (s : State) : Out :=
  run dt s (fun s => deliverHeld s c)

/-- SPU_DEFER_END: DEFER ms after the latest event, class-1 admission resumes (R376). -/
def execSpuDeferEnd (dt : Nat) (g : Region) (s : State) : Out :=
  run dt s (fun s =>
    if (s.region g).deferTo ≤ s.grid.now then s.onRegion g (fun r => { r with deferTo := 0 }) else s)

/-- WAKE_OUT_RELEASE: in RUN, 10 ms after the latest wake condition, WAKE_OUT is released (R274). In a state other
than RUN and SENTINEL it stays asserted until RUN returns (DESIGN CHOICE, log entry 130). -/
def execWakeOutRelease (dt : Nat) (s : State) : Out :=
  run dt s (fun s =>
    if s.mode.dev = .run ∧ s.mode.wakeAt + 4000000 ≤ s.grid.now then
      s.onMode (fun m => { m with wakeOut := false })
    else s)

end Sys2Proof.Machine
end

