-- ==== Sys2Proof/Config.lean ====
section
/-!
DEFINITION. What an implementation or one piece of silicon fixes, and the free values. Each constant
is opaque: nothing in Lean can evaluate it, so no proof can lean on a value (log entries 4 to
8, 99, 111, 119 and 141).
-/

namespace Sys2Proof.Config

/-- LANE_STEP of DEV_ID: the lane die's step (R323, "silicon"). -/
opaque laneStep : BitVec 8
/-- CORE_STEP of DEV_ID: the core die's step (R323, "silicon"). -/
opaque coreStep : BitVec 8
/-- The 64-bit device number in the fuses (R413). -/
opaque deviceNumber : BitVec 64
/-- The fuse copy of the Haxus key hash, SHA-384 as a number (R413). -/
opaque haxusHash : BitVec 384
/-- Draws of the random number generator, by draw (R393, R405, R417). -/
opaque random : Nat → BitVec 384
/-- KEK as the physical unclonable function rebuilds it, by enrolment (R410). -/
opaque kek : Nat → BitVec 256
/-- STATUS of a PROV_COMMIT whose KEK rebuild fails, by draw: the spec names none for it (R399, R417). -/
opaque provFailStatus : Nat → BitVec 8
/-- PROG_BYTES after a sowing, by draw: an unspecified value from 1 to 4,096 (R167). -/
opaque progBytes : Nat → BitVec 12
/-- The CRC-32 of a lane's share of its cluster program, from the configuration it was sown from: the
program's encoding belongs to the firmware (R167, R481). -/
opaque progCrc : List (BitVec 32) → BitVec 32
/-- The frequency correction that the servo chooses, in 0.01 ppm, by draw (R41). -/
opaque servo : Nat → Int
/-- How an unsigned word of the sowing report or layout shows a negative figure: the spec gives only
unsigned fields (R182, R356). -/
opaque negative : Int → BitVec 32
/-- Whether an endpoint whose IN has been low for longer than its hold-up time and for less than 0.95 ms
has forgotten its position, by draw and place: R119 leaves it to the endpoint. -/
opaque forgets : Nat → Nat → Bool
/-- How long an endpoint takes, in steps, by draw and place, where the spec gives only a limit: its
start-up (R80), a conversion or commit (R112), an attestation (R117). -/
opaque endpointTime : Nat → Nat → Nat
/-- CAPS of the endpoint at a place as its maker fixes it, before the fields that R110 fixes. -/
opaque makerCaps : Nat → BitVec 32
/-- The endpoint ID that the maker gave the endpoint at a place (R110, R116). -/
opaque makerId : Nat → BitVec 64
/-- The pairing key that the maker gave the endpoint at a place (R117, R404). -/
opaque makerKey : Nat → BitVec 256
/-- How long a lane's sync pulse rises or falls, in steps, by lane: the spec gives only bounds on its slew
rate (R151), which the model applies. -/
opaque syncSlew : Nat → Nat
/-- How long a change of the core PLL's frequency keeps the logic on the reference, in steps, by draw,
before the bounds of R57, which the model applies. -/
opaque pllTime : Nat → Nat
/-- Whether an RST_N low pulse between 0.2 us and 1 us resets, by its length in ns (R520). -/
opaque rstShortPulse : Nat → Bool

end Sys2Proof.Config
end

