-- ==== Sys2Proof/Machine/Aes.lean ====
section
/-!
DEFINITION. AES-256 (FIPS 197), AES-256-CMAC (NIST SP 800-38B) and AES-256-GCM (NIST SP 800-38D),
which R264, R298, R394 and R401 to R405 name. Blocks are lists of 16 bytes held as numbers below 256.
-/

namespace Sys2Proof.Machine

/-- The S-box as one number, entry 0 in its highest byte. -/
def aesSboxBits : Nat :=
  0x637C777BF26B6FC53001672BFED7AB76CA82C97DFA5947F0ADD4A2AF9CA472C0B7FD9326363FF7CC34A5E5F171D8311504C723C31896059A071280E2EB27B27509832C1A1B6E5AA0523BD6B329E32F8453D100ED20FCB15B6ACBBE394A4C58CFD0EFAAFB434D338545F9027F503C9FA851A3408F929D38F5BCB6DA2110FFF3D2CD0C13EC5F974417C4A77E3D645D197360814FDC222A908846EEB814DE5E0BDBE0323A0A4906245CC2D3AC629195E479E7C8376D8DD54EA96C56F4EA657AAE08BA78252E1CA6B4C6E8DD741F4BBD8B8A703EB5664803F60E613557B986C11D9EE1F8981169D98E949B1E87E9CE5528DF8CA1890DBFE6426841992D0FB054BB16

/-- The S-box. -/
def aesSub (x : Nat) : Nat := aesSboxBits / 2 ^ (8 * (255 - x % 256)) % 256

/-- Multiplication by x in the field of AES. -/
def aesX (a : Nat) : Nat := let d := a * 2; if 256 ≤ d then Nat.xor d 0x11B else d

/-- Byte-wise exclusive or. -/
def xorB (a b : List Nat) : List Nat := List.zipWith Nat.xor a b

/-- The next words of the key schedule; `ws` holds the last eight words, newest last. -/
def aesExpand : Nat → Nat → Nat → List (List Nat) → List (List Nat)
  | 0, _, _, _ => []
  | fuel + 1, i, rc, ws =>
    let t := ws.getD 7 []
    let t' :=
      if i % 8 = 0 then
        xorB ((t.drop 1 ++ t.take 1).map aesSub) [rc, 0, 0, 0]
      else if i % 8 = 4 then t.map aesSub else t
    let w := xorB (ws.getD 0 []) t'
    w :: aesExpand fuel (i + 1) (if i % 8 = 0 then aesX rc else rc) (ws.drop 1 ++ [w])

/-- The 15 round keys of a 32-byte key. -/
def aesKeys (key : List Nat) : List (List Nat) :=
  let ws := chunks 4 8 (fit 32 0 key)
  (chunks 4 15 (ws ++ aesExpand 52 8 1 ws)).map List.flatten

/-- ShiftRows on bytes in column order. -/
def aesShift (b : List Nat) : List Nat :=
  (List.range 16).map (fun i => b.getD ((i + 4 * (i % 4)) % 16) 0)

/-- MixColumns on one column. -/
def aesMixCol (c : List Nat) : List Nat :=
  let a := c.getD 0 0; let b := c.getD 1 0; let d := c.getD 2 0; let e := c.getD 3 0
  let x := fun p q r t => Nat.xor (Nat.xor (aesX p) (Nat.xor (aesX q) q)) (Nat.xor r t)
  [x a b d e, x b d e a, x d e a b, x e a b d]

/-- The rounds of the cipher after the first key addition. -/
def aesRounds : List (List Nat) → List Nat → List Nat
  | [], b => b
  | [k], b => xorB (aesShift (b.map aesSub)) k
  | k :: ks, b =>
    aesRounds ks (xorB ((chunks 4 4 (aesShift (b.map aesSub))).map aesMixCol).flatten k)

/-- One block under AES-256. -/
def aesBlock (key blk : List Nat) : List Nat :=
  match aesKeys key with
  | [] => []
  | k :: ks => aesRounds ks (xorB (fit 16 0 blk) k)

/-- Sixteen bytes as a number. -/
def blkNat (b : List Nat) : Nat := b.foldl (fun a x => a * 256 + x) 0

/-- The `n` bytes of a number. -/
def natBlk : Nat → Nat → List Nat
  | 0, _ => []
  | n + 1, v => v / 256 ^ n % 256 :: natBlk n v

/-- Doubling in the field of CMAC. -/
def cmacDbl (v : Nat) : Nat :=
  let d := v * 2 % 2 ^ 128
  if v / 2 ^ 127 % 2 = 1 then Nat.xor d 0x87 else d

/-- CMAC over the blocks of a message whose last block has been masked. -/
def cmacFold (key : List Nat) (blks : List (List Nat)) : List Nat :=
  blks.foldl (fun a b => aesBlock key (xorB a b)) (List.replicate 16 0)

/-- AES-256-CMAC of a message: 16 bytes. -/
def cmacN (key msg : List Nat) : List Nat :=
  let k1 := cmacDbl (blkNat (aesBlock key (List.replicate 16 0)))
  let k2 := cmacDbl k1
  let n := msg.length
  let full := n ≠ 0 ∧ n % 16 = 0
  let body := if full then msg.take (n - 16) else msg.take (n - n % 16)
  let tail := msg.drop body.length
  let last := if full then xorB tail (natBlk 16 k1)
    else xorB (fit 16 0 (tail ++ [0x80])) (natBlk 16 k2)
  cmacFold key (chunks 16 (n + 1) body ++ [last])

/-- Multiplication in the field of GHASH, most significant bit first. -/
def gfMul : Nat → Nat → Nat → Nat → Nat
  | 0, _, _, z => z
  | n + 1, x, v, z =>
    let z' := if x / 2 ^ n % 2 = 1 then Nat.xor z v else z
    gfMul n x (if v % 2 = 1 then Nat.xor (v / 2) (0xE1 * 2 ^ 120) else v / 2) z'

/-- GHASH over blocks. -/
def ghash (h : Nat) (blks : List (List Nat)) : Nat :=
  blks.foldl (fun y b => gfMul 128 (Nat.xor y (blkNat (fit 16 0 b))) h 0) 0

/-- The key stream of GCM over the blocks of a text, with the counter starting at `c`. -/
def gcmCtr (key iv : List Nat) : Nat → List (List Nat) → List Nat
  | _, [] => []
  | c, b :: bs => (xorB b (aesBlock key (iv ++ natBlk 4 c))) ++ gcmCtr key iv (c + 1) bs

/-- AES-256-GCM: ciphertext and 16-byte tag (R264). -/
def gcmN (key iv aad plain : List Nat) : List Nat × List Nat :=
  let h := blkNat (aesBlock key (List.replicate 16 0))
  let c := gcmCtr key iv 2 (chunks 16 (plain.length + 1) plain)
  let lens := natBlk 8 (8 * aad.length) ++ natBlk 8 (8 * c.length)
  let g := ghash h (chunks 16 (aad.length + 1) aad ++ chunks 16 (c.length + 1) c ++ [lens])
  (c, xorB (aesBlock key (iv ++ [0, 0, 0, 1])) (natBlk 16 g))

/-- Bytes as numbers. -/
def toN (b : List Byte) : List Nat := b.map BitVec.toNat

/-- Numbers as bytes. -/
def ofN (b : List Nat) : List Byte := b.map (BitVec.ofNat 8)

/-- AES-256 of one block of bytes (R401). -/
def aes (key blk : List Byte) : List Byte := ofN (aesBlock (toN key) (toN blk))

/-- AES-256-CMAC of bytes (R298, R394). -/
def cmac (key msg : List Byte) : List Byte := ofN (cmacN (toN key) (toN msg))

/-- The 256-bit derivation of R394, R402 and R404: two CMACs over a counter byte and `x`. -/
def cmac2 (key x : List Byte) : List Byte := cmac key (1 :: x) ++ cmac key (2 :: x)

/-- AES-256-GCM of bytes: ciphertext and 16-byte tag (R264). -/
def gcm (key iv aad plain : List Byte) : List Byte × List Byte :=
  let r := gcmN (toN key) (toN iv) (toN aad) (toN plain)
  (ofN r.1, ofN r.2)

/-- Byte-wise exclusive or of bytes. -/
def xorBytes (a b : List Byte) : List Byte := List.zipWith (· ^^^ ·) a b

end Sys2Proof.Machine
end

