-- ==== Sys2Proof/Machine/Sha.lean ====
section
/-!
DEFINITION. SHA-384 (FIPS 180-4) and ECDSA on P-384 (FIPS 186-5), which R415, R417, R500 and R504
name.
-/

namespace Sys2Proof.Machine

/-- The 80 round constants of SHA-512 as one number, the first in its highest word. -/
def shaKBits : Nat :=
  0x428A2F98D728AE227137449123EF65CDB5C0FBCFEC4D3B2FE9B5DBA58189DBBC3956C25BF348B53859F111F1B605D019923F82A4AF194F9BAB1C5ED5DA6D8118D807AA98A303024212835B0145706FBE243185BE4EE4B28C550C7DC3D5FFB4E272BE5D74F27B896F80DEB1FE3B1696B19BDC06A725C71235C19BF174CF692694E49B69C19EF14AD2EFBE4786384F25E30FC19DC68B8CD5B5240CA1CC77AC9C652DE92C6F592B02754A7484AA6EA6E4835CB0A9DCBD41FBD476F988DA831153B5983E5152EE66DFABA831C66D2DB43210B00327C898FB213FBF597FC7BEEF0EE4C6E00BF33DA88FC2D5A79147930AA72506CA6351E003826F142929670A0E6E7027B70A8546D22FFC2E1B21385C26C9264D2C6DFC5AC42AED53380D139D95B3DF650A73548BAF63DE766A0ABB3C77B2A881C2C92E47EDAEE692722C851482353BA2BFE8A14CF10364A81A664BBC423001C24B8B70D0F89791C76C51A30654BE30D192E819D6EF5218D69906245565A910F40E35855771202A106AA07032BBD1B819A4C116B8D2D0C81E376C085141AB532748774CDF8EEB9934B0BCB5E19B48A8391C0CB3C5C95A634ED8AA4AE3418ACB5B9CCA4F7763E373682E6FF3D6B2B8A3748F82EE5DEFB2FC78A5636F43172F6084C87814A1F0AB728CC702081A6439EC90BEFFFA23631E28A4506CEBDE82BDE9BEF9A3F7B2C67915C67178F2E372532BCA273ECEEA26619CD186B8C721C0C207EADA7DD6CDE0EB1EF57D4F7FEE6ED17806F067AA72176FBA0A637DC5A2C898A6113F9804BEF90DAE1B710B35131C471B28DB77F523047D8432CAAB7B40C724933C9EBE0A15C9BEBC431D67C49C100D4C4CC5D4BECB3E42B6597F299CFC657E2A5FCB6FAB3AD6FAEC6C44198C4A475817

/-- Round constant `t`. -/
def shaK (t : Nat) : Nat := shaKBits / 2 ^ (64 * (79 - t)) % 2 ^ 64

/-- Rotation right of a 64-bit number. -/
def ror64 (n x : Nat) : Nat := x / 2 ^ n + x % 2 ^ n * 2 ^ (64 - n)

/-- Three-way exclusive or. -/
def xor3 (a b c : Nat) : Nat := Nat.xor a (Nat.xor b c)

/-- The message schedule; `ws` holds the last sixteen words, newest last. -/
def shaSched : Nat → List Nat → List Nat
  | 0, _ => []
  | n + 1, ws =>
    let a := ws.getD 1 0
    let b := ws.getD 14 0
    let s0 := xor3 (ror64 1 a) (ror64 8 a) (a / 2 ^ 7)
    let s1 := xor3 (ror64 19 b) (ror64 61 b) (b / 2 ^ 6)
    let w := (ws.getD 0 0 + s0 + ws.getD 9 0 + s1) % 2 ^ 64
    w :: shaSched n (ws.drop 1 ++ [w])

/-- One round. -/
def shaRound (v : List Nat) (kw : Nat) : List Nat :=
  let a := v.getD 0 0; let b := v.getD 1 0; let c := v.getD 2 0; let d := v.getD 3 0
  let e := v.getD 4 0; let f := v.getD 5 0; let g := v.getD 6 0; let h := v.getD 7 0
  let s1 := xor3 (ror64 14 e) (ror64 18 e) (ror64 41 e)
  let ch := Nat.xor (Nat.land e f) (Nat.land (2 ^ 64 - 1 - e) g)
  let t1 := h + s1 + ch + kw
  let s0 := xor3 (ror64 28 a) (ror64 34 a) (ror64 39 a)
  let mj := xor3 (Nat.land a b) (Nat.land a c) (Nat.land b c)
  [(t1 + s0 + mj) % 2 ^ 64, a, b, c, (d + t1) % 2 ^ 64, e, f, g]

/-- One block of 128 bytes into the chaining value. -/
def shaBlock (hv : List Nat) (blk : List Byte) : List Nat :=
  let w0 := (chunks 8 16 blk).map beNat
  let ws := w0 ++ shaSched 64 w0
  let kws := ws.zipIdx.map (fun p => p.1 + shaK p.2)
  List.zipWith (fun a b => (a + b) % 2 ^ 64) hv (kws.foldl shaRound hv)

/-- The initial chaining value of SHA-384. -/
def sha384Init : List Nat :=
  [0xcbbb9d5dc1059ed8, 0x629a292a367cd507, 0x9159015a3070dd17, 0x152fecd8f70e5939,
   0x67332667ffc00b31, 0x8eb44a8768581511, 0xdb0c2e0d64f98fa7, 0x47b5481dbefa4fa4]

/-- SHA-384 of a message: 48 bytes. -/
def sha384 (msg : List Byte) : List Byte :=
  let n := msg.length
  let padded := msg ++ [0x80] ++ List.replicate ((239 - n % 128) % 128) 0 ++ beBytes 16 (8 * n)
  (((chunks 128 (n / 128 + 2) padded).foldl shaBlock sha384Init).map (beBytes 8)).flatten.take 48

/-! ### ECDSA on P-384 -/

/-- The field prime. -/
def p384P : Nat := 0xfffffffffffffffffffffffffffffffffffffffffffffffffffffffffffffffeffffffff0000000000000000ffffffff
/-- The order of the base point. -/
def p384N : Nat := 0xffffffffffffffffffffffffffffffffffffffffffffffffc7634d81f4372ddf581a0db248b0a77aecec196accc52973
/-- The coefficient b of the curve. -/
def p384B : Nat := 0xb3312fa7e23ee7e4988e056be3f82d19181d9c6efe8141120314088f5013875ac656398d8a2ed19d2a85c8edd3ec2aef
/-- The base point. -/
def p384G : Nat × Nat :=
  (0xaa87ca22be8b05378eb1c71ef320ad746e1d3b628ba79b9859f741e082542a385502f25dbf55296c3a545e3872760ab7,
   0x3617de4a96262c6f5d9e98bf9292dc29f8f41dbd289a147ce9da3113b5f0b8c00a60b1ce1d7e819d7a431d7c90ea0e5f)

/-- `b ^ e` modulo `m`, over the low `n` bits of `e`. -/
def powMod (m b : Nat) : Nat → Nat → Nat
  | 0, _ => 1 % m
  | n + 1, e =>
    let h := powMod m b n (e / 2)
    let q := h * h % m
    if e % 2 = 1 then q * b % m else q

/-- The inverse modulo a prime of at most 384 bits. -/
def invMod (m b : Nat) : Nat := powMod m (b % m) 384 (m - 2)

/-- Subtraction modulo the field prime. -/
def fSub (a b : Nat) : Nat := (a + p384P - b % p384P) % p384P

/-- Doubling in Jacobian coordinates; Z = 0 is the point at infinity. -/
def jDbl (q : Nat × Nat × Nat) : Nat × Nat × Nat :=
  let x := q.1; let y := q.2.1; let z := q.2.2
  let dl := z * z % p384P
  let gm := y * y % p384P
  let bt := x * gm % p384P
  let al := 3 * (fSub x dl * ((x + dl) % p384P)) % p384P
  let x3 := fSub (al * al % p384P) (8 * bt)
  let z3 := fSub (fSub ((y + z) * (y + z) % p384P) gm) dl
  (x3, fSub (al * fSub (4 * bt) x3 % p384P) (8 * (gm * gm % p384P)), z3)

/-- Addition in Jacobian coordinates. -/
def jAdd (p q : Nat × Nat × Nat) : Nat × Nat × Nat :=
  if p.2.2 = 0 then q else if q.2.2 = 0 then p else
    let z1z1 := p.2.2 * p.2.2 % p384P
    let z2z2 := q.2.2 * q.2.2 % p384P
    let u1 := p.1 * z2z2 % p384P
    let u2 := q.1 * z1z1 % p384P
    let s1 := p.2.1 * q.2.2 * z2z2 % p384P
    let s2 := q.2.1 * p.2.2 * z1z1 % p384P
    let h := fSub u2 u1
    let r := fSub s2 s1
    if h = 0 then (if r = 0 then jDbl p else (1, 1, 0)) else
      let hh := h * h % p384P
      let hhh := h * hh % p384P
      let v := u1 * hh % p384P
      let x3 := fSub (fSub (r * r % p384P) hhh) (2 * v)
      (x3, fSub (r * fSub v x3 % p384P) (s1 * hhh % p384P), p.2.2 * q.2.2 % p384P * h % p384P)

/-- `k` times a point, over the low `n` bits of `k`. -/
def jMul (p : Nat × Nat × Nat) : Nat → Nat → Nat × Nat × Nat
  | 0, _ => (1, 1, 0)
  | n + 1, k =>
    let h := jDbl (jMul p n (k / 2))
    if k % 2 = 1 then jAdd h p else h

/-- The affine coordinates of a point. -/
def jAffine (p : Nat × Nat × Nat) : Nat × Nat :=
  let zi := invMod p384P p.2.2
  let z2 := zi * zi % p384P
  (p.1 * z2 % p384P, p.2.1 * (z2 * zi % p384P) % p384P)

/-- Whether a point lies on the curve. -/
def onCurve (x y : Nat) : Bool :=
  decide (x < p384P) && decide (y < p384P) &&
    y * y % p384P == ((x * x % p384P * x) + (p384P - 3) * x + p384B) % p384P

/-- Whether a signature r, s (96 bytes) verifies over SHA-384 of `msg` under a public key x, y (96
bytes) (R504). -/
def ecdsaVerify (pub msg sig : List Byte) : Bool :=
  let x := beNat (pub.take 48); let y := beNat ((pub.drop 48).take 48)
  let r := beNat (sig.take 48); let s := beNat ((sig.drop 48).take 48)
  let e := beNat (sha384 msg)
  if r = 0 ∨ s = 0 ∨ p384N ≤ r ∨ p384N ≤ s ∨ onCurve x y = false then false else
    let w := invMod p384N s
    let p := jAdd (jMul (p384G.1, p384G.2, 1) 384 (e * w % p384N))
      (jMul (x, y, 1) 384 (r * w % p384N))
    if p.2.2 = 0 then false else (jAffine p).1 % p384N == r

/-- The signature r, s (96 bytes) over SHA-384 of `msg` under private key `d` with the random number
`k` (R415). -/
def ecdsaSign (d k : Nat) (msg : List Byte) : List Byte :=
  let e := beNat (sha384 msg)
  let r := (jAffine (jMul (p384G.1, p384G.2, 1) 384 k)).1 % p384N
  beBytes 48 r ++ beBytes 48 (invMod p384N k * (e + r * d) % p384N)

/-- The public key x, y (96 bytes) of a private key. -/
def ecdsaPub (d : Nat) : List Byte :=
  let q := jAffine (jMul (p384G.1, p384G.2, 1) 384 d)
  beBytes 48 q.1 ++ beBytes 48 q.2

end Sys2Proof.Machine
end

