-- ==== Sys2Proof/Machine/Image.lean ====
section
/-!
DEFINITION. Firmware images in the two banks (R500, R501): the header's fields, the checks of R504
in order, and the boot-digest record.
-/

namespace Sys2Proof.Machine

/-- DEV_ID (R323). -/
def devId : Word := pack [(16, 16, 0x0512), (8, 8, Config.laneStep.toNat), (0, 8, Config.coreStep.toNat)]

/-- One 4 KB block of a bank; bytes never written read 0 (log entry 24). -/
def imgBlock (b : ImgBank) (i : Nat) : Bytes := fit 4096 0 (Tbl.get (fun _ => []) b.blocks i)

/-- Bytes of a bank's header block from byte `off` (R500). -/
def imgBytes (b : ImgBank) (off n : Nat) : Bytes := ((imgBlock b 0).drop off).take n

/-- A big-endian header field (R500). -/
def imgNat (b : ImgBank) (off n : Nat) : Nat := beNat (imgBytes b off n)

/-- IMG_BLOCKS of the header (R500). -/
def imgBlocks (b : ImgBank) : Nat := imgNat b 20 2

/-- The whole image: 4,096 × IMG_BLOCKS bytes (R500). -/
def imgAll (b : ImgBank) : Bytes := (List.range (min 256 (imgBlocks b))).flatMap (imgBlock b)

/-- The key hash in a slot and the one after it; none where one of them acts as empty (R406, R411). -/
def slotHash (s : State) (i : Nat) : Option Bytes :=
  if slotEmpty s i || slotEmpty s (i + 1) then none else some ((s.slot i).key ++ (s.slot (i + 1)).key.take 16)

/-- The Haxus key hash that images are verified against: slots 2 and 3 of a PROVISIONED vault,
otherwise the fuse copy (R504). -/
def haxusRef (s : State) : Option Bytes :=
  if s.vault.state = .provisioned then slotHash s 2 else some (beBytes 48 Config.haxusHash.toNat)

/-- Whether the header's fixed and reserved fields are right and IMG_BLOCKS is in range (check
0x04). -/
def imgFormatOk (b : ImgBank) : Bool :=
  imgNat b 0 4 == 0x4858494D && imgNat b 4 2 == 1 && imgNat b 14 2 == 0 && imgNat b 22 2 == 0 &&
    imgNat b 504 520 == 0 && decide (1 ≤ imgBlocks b ∧ imgBlocks b ≤ 256)

/-- Checks 0x04 to 0x0B of R504 in order: the code of the first that fails, or 0. -/
def imgVerify (s : State) (b : ImgBank) : Nat :=
  let prov := s.vault.state == .provisioned
  if !imgFormatOk b then 0x04
  else if imgNat b 6 2 != 0x0512 then 0x05
  else if some (sha384 (imgBytes b 72 96)) != haxusRef s then 0x06
  else if !ecdsaVerify (imgBytes b 72 96) (imgBytes b 0 216) (imgBytes b 216 96) then 0x07
  else if prov && (some (sha384 (imgBytes b 312 96)) != slotHash s 4 || some (imgBytes b 168 48) != slotHash s 4) then 0x08
  else if prov && !ecdsaVerify (imgBytes b 312 96) (imgBytes b 0 408) (imgBytes b 408 96) then 0x09
  else if sha384 ((imgAll b).drop 1024) != imgBytes b 24 48 then 0x0A
  else if imgNat b 16 4 < s.nv.rollback.toNat then 0x0B
  else 0

/-- The boot-digest record of an image: its SHA-384 with a CMAC under KEK; none without KEK (R455, R501). -/
def digestRecord (s : State) (b : ImgBank) : Option Bytes :=
  let h := sha384 (imgAll b)
  if s.vault.kek.isEmpty then none else some (h ++ cmac s.vault.kek h)

/-! ### The slots at their levels (R407, R410) -/

/-- The pad that wraps key word `w` of slot `i`: the leftmost 64 bits of an AES-256 block under KEK (R410, level
3). -/
def wrapPad (kek : Bytes) (i : Nat) (gen : BitVec 8) (w : Nat) : Bytes :=
  (aes kek ([0x57, BitVec.ofNat 8 i, gen, BitVec.ofNat 8 w] ++ List.replicate 12 0)).take 8

/-- The four data words of slot `i` as the eMRAM holds them, each key word wrapped under KEK (R410, level 3). -/
def slotWords (kek : Bytes) (i : Nat) (x : SlotState) : List Bytes :=
  (List.range 4).map (fun w => xorBytes (fit 8 0 (x.key.drop (8 * w))) (wrapPad kek i x.gen w))

/-- The cross-parity word of a slot: the exclusive or of its data words (R410, level 3). -/
def crossParity (ws : List Bytes) : Bytes := ws.foldl xorBytes (List.replicate 8 0)

/-- Bits 63:32 of a slot's attribute word (R407). -/
def slotAttr (x : SlotState) : Word := x.typ ++ x.gen ++ x.health ++ x.info

/-- CHECK of a slot (R407). HEALTH, which tells of the slot since the device reset, is taken as GOOD, and the
wrapped slot as its four data words (DEDUCED, log entry 140). -/
def slotCheck (kek : Bytes) (i : Nat) (x : SlotState) : Word :=
  BitVec.ofNat 32 (beNat ((cmac kek (BitVec.ofNat 8 i :: beBytes 4 (slotAttr { x with health := 0 }).toNat ++
    (slotWords kek i x).flatten)).take 4))

/-- A slot as a write leaves it, with its CHECK (R407, R410). -/
def sealSlot (kek : Bytes) (i : Nat) (x : SlotState) : SlotState := { x with check := slotCheck kek i x }

/-- HEALTH of a slot at a check. `doubles` are its words with a double error: 0 to 3 its data words, 4 the
cross-parity word, 5 the attribute word; `single` tells of corrected words. One word lost beside the attribute word
is rebuilt from cross-parity; a slot with more lost, or one that fails CHECK, is BAD. An empty slot has no CHECK
(R407, R410, R411). -/
def slotHealth (kek : Bytes) (i : Nat) (x : SlotState) (doubles : List Nat) (single : Bool) : BitVec 4 :=
  if doubles.contains 5 || decide (2 ≤ ((List.range 5).filter doubles.contains).length) then 2
  else if x.typ != 0 && !kek.isEmpty && x.check != slotCheck kek i x then 2
  else if !doubles.isEmpty || single then 1 else 0

/-- The map word of a bank (R410, level 4). -/
def bankMap (t : Tbl (List Nat)) (b : Nat) : List Nat := Tbl.get (fun _ => List.range 9) t b

/-- A slot's write fills the spare position of its bank, and the position it leaves becomes the spare (R410,
level 4). -/
def moveSlot (t : Tbl (List Nat)) (i : Nat) : Tbl (List Nat) :=
  let m := bankMap t (i / 8)
  Tbl.set (fun _ => List.range 9) t (i / 8) ((m.set (i % 8) (m.getD 8 8)).set 8 (m.getD (i % 8) (i % 8)))

/-- A bank by its number: 1 is B. -/
def State.bank (s : State) (isB : Bool) : ImgBank := if isB then s.nv.bankB else s.nv.bankA

/-- The state with a bank replaced. -/
def State.setBank (s : State) (isB : Bool) (b : ImgBank) : State :=
  if isB then { s with nv := { s.nv with bankB := b } } else { s with nv := { s.nv with bankA := b } }

/-- The bank that transfers write (R501). -/
def inactiveB (s : State) : Bool := !s.upd.bankB

/-- MAKER_HASH of the running image (R417). -/
def makerHash (s : State) : Bytes := imgBytes (s.bank s.upd.bankB) 168 48

/-- A newer valid copy of two, by the tick of saving (R452); on equal ticks copy B, which is
written second (log entry 25). -/
def newer (tick : α → BitVec 48) (valid : α → Bool) (a b : Option α) : Option α :=
  let ok := fun (x : Option α) => match x with
    | some c => if valid c then some c else none
    | none => none
  match ok a, ok b with
  | some x, some y => if (tick y).toNat < (tick x).toNat then some x else some y
  | some x, none => some x
  | none, y => y

/-- The newer valid configuration copy (R452). -/
def newerCfg (s : State) : Option CfgCopy := newer CfgCopy.tick CfgCopy.valid s.nv.cfgA s.nv.cfgB
/-- The newer valid calibration copy (R213). -/
def newerCal (s : State) : Option CalCopy := newer CalCopy.tick CalCopy.valid s.nv.calA s.nv.calB

end Sys2Proof.Machine
end

