-- ==== Sys2Proof/Machine/Alarm.lean ====
section
/-!
DEFINITION. The end of a secure session (R300, R395), the alarm with its log and responses (R419 to
R425), and the test access port (R521).
-/

namespace Sys2Proof.Machine

/-! ### The end of a session -/

/-- One staged word with the bits of `m` put back to their values in force (R300). -/
def unstage (p : Port) (s : State) (am : Nat × Word) : State :=
  s.setStaged p am.1 (merge (s.staged p am.1) (calNow s am.1) am.2)

/-- Every staged value written in the session and not taken by a commit is discarded (R300). -/
def discardSession (s : State) (p : Port) : State :=
  ((s.secStaged p).foldl (unstage p) s).setSecStaged p []

/-- A port's session values zeroised: keys, nonce, load buffer, words, pending operation (R395). -/
def clearSession (x : PortState) : PortState :=
  { x with sess := .closed, words := [0, 0, 0, 0, 0, 0, 0], kF := [], kT := [], nonce := [],
           lastCtr := 0, load := [], pend := none }

/-- Whether a port owns a stream or an event channel (R302). -/
def portOwns (s : State) (p : Port) : Bool :=
  (List.range 32).any (fun i => streamOwner s i == p.owner || chanOwner s i == p.owner)

/-- Whether a port is to be supervised (R302): it holds a session, or it owns something once the
device has left BOOT and SOW (R454). -/
def toSupervise (s : State) (p : Port) : Bool :=
  (s.port p).sess == .opened || (portOwns s p && s.mode.dev != .boot && s.mode.dev != .sow)

/-- Supervision starts or stops (R302). A port that is LOST or REVERTED stays so until a reclaim or
its lease's end (R303, log entry 31). -/
def supervise (s : State) (p : Port) : State :=
  match p with
  | .u => s
  | _ =>
    let on := toSupervise s p
    match (s.port p).pstate with
    | .unsupervised =>
      if on then s.onPort p (fun x => { x with pstate := .active, lastGood := s.grid.now }) else s
    | .active => if on then s else s.onPort p (fun x => { x with pstate := .unsupervised })
    | _ => s

/-- The port's session closes (R395): an open session also changes the rules (R321) and reports
SESSION; a challenge is only withdrawn. -/
def closeSession (s : State) (p : Port) : State :=
  match (s.port p).sess with
  | .closed => s
  | .challenged => s.onPort p clearSession
  | .opened =>
    let s := (discardSession s p).onPort p clearSession
    supervise (ruleChange (glbPort (raise s 47 p.code 2) p 13)) p

/-- A vault operation pending on a port is abandoned (R395, R425). -/
def abandonVault (s : State) (p : Port) : State := s.onPort p (fun x => { x with pend := none })

/-! ### The alarm -/

/-- One second in steps. -/
def second : Nat := 400000000

/-- The response of a source (R330, R420): source 11 always takes NOTICE. -/
def alarmResponse (s : State) (n : Nat) : Nat :=
  if n = 11 then 0 else fld (s.inForce kAlarmPolicy) (2 * n + 1) (2 * n)

/-- The log entry of a firing, unless the source's last entry is less than 1 s old (R424). Entries of
sources that fire within one microsecond go in ascending code (R422). -/
def logAlarm (s : State) (n resp : Nat) : State :=
  let last := Tbl.get (fun _ => none) s.alarm.lastAt n
  match last with
  | some t => if (s.grid.now : Int) < t + (second : Nat) then s else add s
  | none => add s
where
  add (s : State) : State :=
    let above := s.alarm.log.takeWhile (fun x => decide ((s.grid.now : Int) ≤ x.at_ + 400 ∧ n < x.source.toNat))
    let e : LogEntry :=
      { number := s.alarm.count - BitVec.ofNat 16 above.length, tick := s.grid.tick, source := BitVec.ofNat 8 n
        stateResp := BitVec.ofNat 8 (s.mode.dev.code * 16 + resp), at_ := s.grid.now }
    let log := above.map (fun x => { x with number := x.number + 1 }) ++ e :: s.alarm.log.drop above.length
    { s with alarm := { s.alarm with
        log := log.take 256, count := s.alarm.count + 1
        lastAt := Tbl.set (fun _ => none) s.alarm.lastAt n (some (s.grid.now : Int)) } }

/-- NOTICE actions (R420, R421): log entry, ALARM_STATUS bit, ALARM_NOTICE, and the flag on the grid
link for an alarm of this package (R50). -/
def alarmNotice (s : State) (n resp : Nat) : State :=
  let s := logAlarm s n resp
  let s := raise (setAlarm s n) 40 n (BitVec.ofNat 32 resp)
  if n = 11 then s else s.onGrid (fun g =>
    let a : Byte := BitVec.ofNat 8 n
    { g with alarmOut := if g.alarmOut.contains a then g.alarmOut else g.alarmOut ++ [a] })

/-- A pending PROV_COMMIT is abandoned at any alarm, and the package buffer is zeroised (R425). -/
def abandonProv (s : State) : State :=
  let hit := fun (x : PortState) => match x.pend with
    | some r => r.op == 0x21
    | none => false
  if hit s.h || hit s.m then
    let f := fun (x : PortState) => if hit x then { x with pend := none } else x
    (s.onHM f).onVault (fun v => { v with prov := [] })
  else s

/-- Both sessions close and pending vault operations are abandoned (R421, R425). -/
def closeBoth (s : State) : State :=
  let s := closeSession (closeSession s .h) .m
  abandonVault (abandonVault s .h) .m

/-- Export stops: no key or LOCKDOWN (R421, R476). -/
def stopExport (s : State) : State :=
  if s.hoard.hstate = .exporting then
    (setHState s .exportStopped).onHoard (fun x => { x with stream := [] })
  else s

/-- Every stream takes SSTATE LOCKDOWN, and segments not yet handed to the MAC are discarded and counted
(R268, R275). -/
def lockStreams (s : State) : State :=
  (List.range 32).foldl (fun s k =>
    let x := s.stream k
    let s' := s.setStream k { x.dropWaiting with sstate := .lockdown }
    if x.sstate = .lockdown then s' else glb s' 7) s

/-- A pending MODE_REQ whose entry steps have not begun is refused (R438). -/
def refuseMode (s : State) : State :=
  if s.mode.req.isSome ∧ s.mode.entering = false then
    s.onMode (fun m => { m with req := none, result := .refused })
  else s

/-- An activation or a rollback that has not begun its pause is abandoned (R514); a rollback returns to
UNCONFIRMED (DESIGN CHOICE, log entry 126). -/
def abandonActivation (s : State) : State :=
  if s.upd.ustate = .activating ∧ s.upd.activateAt.isSome then
    let back := if s.upd.rolling then UState.unconfirmed else .ready
    (setUState s back).onUpd (fun u => { u with activateAt := none, rolling := false })
  else s

/-- A word of CAL_CTL or CAL_GLOBAL (R210). -/
def isCalCtl (a : Nat) : Bool := decide (aCalLane 0 ≤ a ∧ a ≤ aCalGlobal)

/-- A change of DEV_STATE that may leave TEST or REPLAY: on leaving, every loop returns to TRACK, in
force and in both staging copies (R212, R438). -/
def leaveDev (s : State) (d : DevState) : State :=
  let s := if (s.mode.dev = .test ∨ s.mode.dev = .replay) ∧ s.mode.dev ≠ d then
      let drop := fun (t : Tbl Word) => t.filter (fun e => !isCalCtl e.1)
      let s := { s with cfg := { s.cfg with live := drop s.cfg.live, stgH := drop s.cfg.stgH, stgM := drop s.cfg.stgM } }
      let s := (List.range 512).foldl (fun s n =>
        if (s.lane n).cal.steps = 0 then s else s.onLane n (fun l => { l with cal := { l.cal with steps := 0 } })) s
      (List.range 8).foldl (fun s g => s.onRegion g (fun r => { r with steps := 0 })) s
    else s
  setDev s d

/-- The LOCKDOWN response (R421). DEV_STATE becomes LOCKDOWN, except in OFF (R437); from SENTINEL
and its entry steps it becomes LOCKDOWN at the end of the exit steps (R438, R445). -/
def lockdownActions (s : State) : State :=
  let s := { s with alarm := { s.alarm with lockdown := true } }
  let s := abandonActivation (stopExport (lockStreams (refuseMode (closeBoth s))))
  if s.mode.dev = .off ∨ s.mode.entering then s
  else if s.mode.dev = .sentinel then
    s.onMode (fun m => { m with leaving := some (s.grid.now, .lockdown) })
  else leaveDev s .lockdown

/-- A slot zeroised, which counts in GEN (R407). -/
def zeroSlot (s : State) (i : Nat) : State :=
  let x := s.slot i
  s.onVault (fun v => { v with slots := Tbl.set (fun _ => {}) v.slots i { gen := satInc x.gen } })

/-- Every current and pending stream key zeroised (R421): the stream is NO_KEY, unless a state of a higher row
holds (R268). -/
def eraseStreamKeys (s : State) : State :=
  (List.range 32).foldl (fun s k =>
    let x := s.stream k
    let st := match x.sstate with
      | .lockdown => SState.lockdown
      | .off => .off
      | _ => .noKey
    let s' := s.setStream k { x.dropWaiting with key := none, pend := none, sstate := st }
    if st = x.sstate then s' else glb s' 7) s

/-- The ERASE-1 response (R421). -/
def erase1Actions (s : State) : State :=
  let s := eraseStreamKeys (closeBoth s)
  let s := zeroSlot (zeroSlot (zeroSlot s 8) 9) 10
  setAlarm (stopExport s) 21

/-- The ERASE-2 response (R421): after LOCKDOWN it invalidates the helper data, zeroises every slot,
the volatile keys, the stored KEY_NONCE values and the policy byte, and resets the device; BOOT reads LEAD (R521). -/
def erase2Actions (s : State) : State :=
  let s := eraseStreamKeys (lockdownActions s)
  let s := setAlarm s 22
  let s := s.onVault (fun v => { v with
    slots := [], nonces := [], policy := 0, helper := 0, state := .unprovisioned, idPub := [] })
  (deviceReset s 2 s.grid.lead).onMode (fun m => { m with leadOwed := true })

/-- What a response adds to the NOTICE actions (R421). -/
def alarmAction (s : State) (resp : Nat) : State :=
  match resp with
  | 1 => lockdownActions s
  | 2 => erase1Actions s
  | 3 => erase2Actions s
  | _ => s

/-- An alarm source fires (R419 to R422). -/
def fireAlarm (s : State) (n : Nat) : State :=
  let resp := alarmResponse s n
  alarmAction (abandonProv (alarmNotice s n resp)) resp

/-- Several sources fire at once, in ascending code: each has its NOTICE actions and its log entry, and their
responses add up (R422). -/
def fireAlarms (s : State) (ns : List Nat) : State :=
  let rs := ns.map (alarmResponse s)
  let s := ns.foldl (fun u n => abandonProv (alarmNotice u n (alarmResponse s n))) s
  [1, 2, 3].foldl (fun u r => if rs.contains r then alarmAction u r else u) s

/-- A lock violation (R10, R419). -/
def lockViolation (s : State) : State := fireAlarm s 9

/-- A session failure of a port (R396): reported and counted; the eighth within 1 s, both ports
together, fires SESSION_FAIL and starts the joint count again. -/
def sessionFailure (s : State) (p : Port) : State :=
  let now := s.grid.now
  let s := s.onPort p (fun x => { x with fails := (recent now second x.fails) ++ [now] })
  let s := glbPort (raise s 47 p.code 3) p 13
  let s := s.onAsm (fun a => { a with cnt := { a.cnt with sessFails := satAdd 4294967295 a.cnt.sessFails } })
  let j := recent now second s.alarm.joint ++ [now]
  if 8 ≤ j.length then
    fireAlarm { s with alarm := { s.alarm with joint := [] } } 8
  else { s with alarm := { s.alarm with joint := j } }

/-! ### Meanings -/

/-- An alarm sensor fires: sensors run in every state from BOOT onward (R419). -/
def sensor (dt n : Nat) (s : State) : Out := run dt s (fun s => fireAlarm s n)

/-- SHELL_OPEN (R419, source 1). -/
def execShellOpen (dt : Nat) (s : State) : Out := sensor dt 1 s
/-- SHELL_SHORT (R419, source 2). -/
def execShellShort (dt : Nat) (s : State) : Out := sensor dt 2 s
/-- LIGHT (R419, source 3). -/
def execLight (dt : Nat) (s : State) : Out := sensor dt 3 s
/-- VOLT_GLITCH (R419, source 4). -/
def execVoltGlitch (dt : Nat) (s : State) : Out := sensor dt 4 s
/-- CLOCK_GLITCH (R419, source 5). -/
def execClockGlitch (dt : Nat) (s : State) : Out := sensor dt 5 s
/-- TEMP_HIGH (R419, source 6). -/
def execTempHigh (dt : Nat) (s : State) : Out := sensor dt 6 s
/-- TEMP_LOW (R419, source 7). -/
def execTempLow (dt : Nat) (s : State) : Out := sensor dt 7 s

/-- TEST_ACCESS (R312, R521): TEST_EN held high or a disallowed instruction loaded, in every state;
a changed test register, in any state other than TEST. The register's own change is that of
REGISTER_WRITE. -/
def execTestAccess (dt : Nat) (how : TestTry) (s : State) : Out :=
  run dt s (fun s =>
    match how with
    | .testEn => fireAlarm s 10
    | .instruction => fireAlarm s 10
    | .register => if s.mode.dev = .test then s else fireAlarm s 10)

/-- IDCODE: the test access port answers DEV_ID with bit 0 set (R521). -/
def execIdcode (s : State) : Out := .next { s with tdo := some (devId ||| 1) }

/-- BYPASS: the one-bit bypass register gives TDI back (R521, log entry 30). -/
def execBypass (tdi : Bool) (s : State) : Out := .next { s with tdo := some (BitVec.ofNat 32 (b2n tdi)) }

end Sys2Proof.Machine
end

