-- ==== Sys2Proof/Machine/Sow.lean ====
section
/-!
DEFINITION. Sowing (R173 to R183): the checks of a lane in their order, the timing tests, the
placement of LIN slots, the report of a region and the sown layout of a lane. Everything is a
function of a configuration: the state `c` is read for its words in force only.
-/

namespace Sys2Proof.Machine

/-! ### Lane timing -/

/-- t_PIP in 10 ns units by grade (R62). -/
def pip10 (c : State) (n : Nat) : Nat :=
  match cfgGrade c n with
  | 0 => 100
  | 1 => 200
  | _ => 400

/-- t_PIP in 2.5 ns steps. -/
def pipSteps (c : State) (n : Nat) : Nat := 4 * pip10 c n

/-- P in 10 ns units (R32). -/
def period10 (c : State) : Nat := 12500 * 2 ^ pexp c

/-- The words of a lane's SENT, PSI5 and LIN configuration (R354, R355). -/
def sentA (c : State) (n : Nat) : Word := c.inForce (aLane n 4)
def sentB (c : State) (n : Nat) : Word := c.inForce (aLane n 8)
def psi5Cfg (c : State) (n : Nat) : Word := c.inForce (aLane n 0xC)
def linCfg (c : State) (n : Nat) : Word := c.inForce (aLane n 0x10)

def sentSpc (c : State) (n : Nat) : Bool := bit (sentA c n) 31
/-- SENT_TICK in 0.1 us, limited to its range. -/
def sentTick (c : State) (n : Nat) : Nat := ranged 30 900 (fld (sentA c n) 30 21)
/-- TICK_TOL in percent. -/
def sentTol (c : State) (n : Nat) : Nat :=
  match fld (sentA c n) 20 19 with
  | 0 => 5
  | 1 => 10
  | 2 => 20
  | _ => 25
def sentNibbles (c : State) (n : Nat) : Nat := ranged 1 6 (fld (sentA c n) 18 16)

def psi5Sync (c : State) (n : Nat) : Bool := bit (psi5Cfg c n) 31
def psi5Fast (c : State) (n : Nat) : Bool := bit (psi5Cfg c n) 30
def psi5Every (c : State) (n : Nat) : Bool := bit (psi5Cfg c n) 12
/-- The PSI5 slot word of slot `k`, 0 to 3, of a lane's cluster (R357). -/
def slotWord (c : State) (n k : Nat) : Word := c.inForce (aCluster (laneCluster n) (0x10 + 4 * k))
def slotEn (c : State) (n k : Nat) : Bool := bit (slotWord c n k) 31
/-- SLOT_START in 0.5 us. -/
def slotStart (c : State) (n k : Nat) : Nat := fld (slotWord c n k) 30 20
def slotBits (c : State) (n k : Nat) : Nat := fld (slotWord c n k) 19 15
def slotCrc (c : State) (n k : Nat) : Bool := bit (slotWord c n k) 14

/-- LIN_RATE in 10 bit/s, limited to its range. -/
def linRate (c : State) (n : Nat) : Nat := ranged 100 2000 (fld (linCfg c n) 31 21)
def linDiagExp (c : State) (n : Nat) : Nat := fld (linCfg c n) 20 18
/-- The node-list word of entry `p` (R357). -/
def nodeWord (c : State) (n p : Nat) : Word := c.inForce (aCluster (laneCluster n) (0x20 + 4 * p))
def nodeEn (c : State) (n p : Nat) : Bool := bit (nodeWord c n p) 31
def nodeFid (c : State) (n p : Nat) : Nat := fld (nodeWord c n p) 30 25
def nodeLen (c : State) (n p : Nat) : Nat := fld (nodeWord c n p) 24 21
def nodeEnhanced (c : State) (n p : Nat) : Bool := bit (nodeWord c n p) 20
def nodeOff (c : State) (n p : Nat) : Nat := fld (nodeWord c n p) 19 17
def nodePublish (c : State) (n p : Nat) : Bool := bit (nodeWord c n p) 16

/-- RANGE_LO and RANGE_HI compare under SIGN (R171). -/
def rangeNum (c : State) (i off : Nat) : Int :=
  let w := c.inForce (aDesc i off)
  if bit (c.inForce (aDesc i 0)) 25 then w.toInt else w.toNat

/-! ### Demands, in 1/1000 of 10 ns -/

/-- F, the longest harvest frame of a lane with highest position `h` (R180). -/
def aknunF (c : State) (n h : Nat) : Nat := 1000 * pip10 c n * (10 + 22 * (h + 1))
/-- O_SENT (R147). -/
def sentO (c : State) (n : Nat) : Nat :=
  100 * (56 + 27 * (sentNibbles c n + 2) + 12) * sentTick c n * (100 + sentTol c n)
/-- O_PSI5 (R155). -/
def psi5O (c : State) (n : Nat) : Nat :=
  (List.range 4).foldl (fun a k =>
    if slotEn c n k then
      max a (50000 * slotStart c n k +
        (2 + slotBits c n k + (if slotCrc c n k then 3 else 1)) * (if psi5Fast c n then 571428 else 864000))
    else a) 0
/-- OFFSET of a position, in 1/1000 of 10 ns. -/
def offset1000 (c : State) (n p : Nat) : Int := 250 * descOffset c (epIdx n p)
/-- A demand rounded up to the next 10 ns. -/
def up10 (x : Int) : Int := (x + 999) / 1000

/-! ### LIN placement -/

/-- T_slot in ticks for a response of `len` bytes (R159). -/
def linTicks (c : State) (n len : Nat) : Nat :=
  let r := linRate c n
  ((34 + 10 * (len + 1)) * 1120 + r - 1) / r

/-- A LIN slot before placement: FID, interval and length in ticks. -/
abbrev LinSlot := Nat × Nat × Nat

/-- The distinct FIDs of a lane's endpoints, ascending. -/
def linFids (c : State) (n : Nat) : List Nat :=
  (List.range 64).filter (fun f =>
    (lanePositions c n).any (fun p => nodeEn c n p && nodeFid c n p == f))

/-- The frame slots in increasing interval, ascending FID among equal intervals (R159, R181). -/
def linFrames (c : State) (n : Nat) : List LinSlot :=
  let unit := 2 ^ pexp c
  let slots := (linFids c n).map (fun f =>
    let ps := (lanePositions c n).filter (fun p => nodeEn c n p && nodeFid c n p == f)
    let j := ps.foldl (fun a p => min a (descRate c (epIdx n p))) 7
    (f, unit * 2 ^ j, linTicks c n (ranged 1 8 (nodeLen c n (ps.headD 0)))))
  (List.range 8).flatMap (fun j => slots.filter (fun x => x.2.1 == unit * 2 ^ j))

/-- The two slots of the diagnostic pair. -/
def linDiag (c : State) (n : Nat) : List LinSlot :=
  let i := 2 ^ pexp c * 2 ^ linDiagExp c n
  [(0x3C, i, linTicks c n 8), (0x3D, i, linTicks c n 8)]

/-- Whether two repeating slots overlap anywhere in the hyperperiod: intervals are powers of two
times P, so occurrences meet as they do modulo the smaller interval. -/
def linOverlap (t1 l1 i1 t2 l2 i2 : Nat) : Bool :=
  let g := min i1 i2
  decide ((t2 + g - t1 % g) % g < l1 ∨ (t1 + g - t2 % g) % g < l2)

/-- The earliest start at or after `t` that meets no slot already placed (R181). -/
def linSearch (placed : List (Nat × Nat × Nat × Nat)) (i l : Nat) : Nat → Nat → Option Nat
  | 0, _ => none
  | fuel + 1, t =>
    if placed.any (fun x => linOverlap x.2.2.1 x.2.2.2 x.2.1 t l i) then linSearch placed i l fuel (t + 1)
    else some t

/-- One slot placed after those before it; `from_` is where its search begins. -/
def linPlace1 (acc : Option (List (Nat × Nat × Nat × Nat))) (x : LinSlot) : Option (List (Nat × Nat × Nat × Nat)) :=
  match acc with
  | none => none
  | some placed =>
    let from_ := if x.1 = 0x3D then
        match placed.getLast? with
        | some y => y.2.2.1 + y.2.2.2
        | none => 0
      else 0
    match linSearch placed x.2.1 x.2.2 x.2.1 from_ with
    | some t => some (placed ++ [(x.1, x.2.1, t, x.2.2)])
    | none => none

/-- The schedule of a LIN lane: FID, interval, start and length of each slot (R181). -/
def linSchedule (c : State) (n : Nat) : Option (List (Nat × Nat × Nat × Nat)) :=
  (linFrames c n ++ linDiag c n).foldl linPlace1 (some [])

/-! ### Checks -/

/-- One timing test with its figures, in 10 ns: code, demand, limit. -/
abbrev Test := Nat × Int × Int

/-- The timing tests of a lane (R180). LIN_PLACE has no figures. -/
def laneTests (c : State) (n : Nat) : List Test :=
  let P : Int := period10 c
  match cfgMode c n with
  | .aknun =>
    match topPos c n with
    | none => []
    | some h =>
      let F : Int := aknunF c n h
      let X : Int := 1760 * pip10 c n
      let A : Int := 37000 * pip10 c n
      let o := offset1000 c n ((lanePositions c n).headD 0)
      [(0x06, up10 (F + X + A), P),
       (0x07, up10 (o + 1000 * pip10 c n + 22000 * pip10 c n * (h + 1 : Nat) + X), P - 2000),
       (0x08, up10 (pip10 c n * (6825 + 15876 * (h + 1)) : Nat), 3 * P / 5)]
  | .sent =>
    if sentSpc c n && !(lanePositions c n).isEmpty then
      let j := descRate c (epIdx n 0)
      [(0x06, up10 (sentO c n), P * 2 ^ j),
       (0x07, up10 (offset1000 c n 0 + sentO c n), P - 2000)]
    else []
  | .psi5 =>
    if psi5Sync c n && !(lanePositions c n).isEmpty then
      let j := (lanePositions c n).foldl (fun a p => min a (descRate c (epIdx n p))) 7
      let o := offset1000 c n ((lanePositions c n).headD 0)
      [(0x06, up10 (psi5O c n), if psi5Every c n then P else P * 2 ^ j),
       (0x07, up10 (o + psi5O c n), P - 2000)]
    else []
  | .lin =>
    let H := 2 ^ pexp c * 128
    let d := (linFrames c n ++ linDiag c n).foldl (fun a x => a + x.2.2 * (H / x.2.1)) 0
    [(0x09, (12500 * d : Nat), (12500 * H : Nat))]
  | .off => []

/-- Check 0x01: PROTO_MISMATCH. -/
def chkProto (c : State) (n p : Nat) : Bool := descProto c (epIdx n p) != (cfgMode c n).code

/-- Check 0x02: POSITION (R179, R358). -/
def chkPosition (c : State) (n p : Nat) : Bool :=
  match cfgMode c n with
  | .aknun => cfgGrade c n == 0 && decide (7 < p)
  | .sent => p != 0
  | .psi5 => if psi5Sync c n then decide (3 < p) || !slotEn c n p else p != 0
  | .lin => !nodeEn c n p
  | .off => false

/-- The field faults of one descriptor (check 0x03). -/
def chkDesc (c : State) (i : Nat) : Bool :=
  let w := c.inForce (aDesc i 0)
  decide (2 ≤ fld w 13 12) || decide (2 ≤ fld w 11 10) || bit w 8 ||
    fld (c.inForce (aDesc i 4)) 7 0 != 0 || fld (c.inForce (aDesc i 8)) 15 0 != 0 ||
    c.inForce (aDesc i 0xC) != 0 || decide (fld w 23 19 < fld w 18 14) ||
    (bit w 24 && decide (rangeNum c i 0x1C < rangeNum c i 0x18)) ||
    (fld w 11 10 == 1 && descProto c i != 1)

/-- The faults of one node-list entry (R358). -/
def chkNode (c : State) (n p : Nat) : Bool :=
  nodeEn c n p && (decide (0x3B < nodeFid c n p) || nodeLen c n p == 0 || decide (8 < nodeLen c n p) ||
    (List.range p).any (fun q => nodeEn c n q && nodeFid c n q == nodeFid c n p &&
      (nodeLen c n q != nodeLen c n p || nodeEnhanced c n q != nodeEnhanced c n p ||
        nodePublish c n q != nodePublish c n p)))

/-- The fault of one slot entry (R358). -/
def chkSlot (c : State) (n k : Nat) : Bool :=
  decide (k < 4) && slotEn c n k && (decide (slotBits c n k < 10) || decide (28 < slotBits c n k))

/-- Check 0x03 at a position: FIELD. -/
def chkField (c : State) (n p : Nat) : Bool :=
  (descProto c (epIdx n p) != 0 && chkDesc c (epIdx n p)) ||
    (cfgMode c n == .lin && chkNode c n p) || (cfgMode c n == .psi5 && chkSlot c n p)

/-- Whether every OFFSET of a lane must be 0 (R174). -/
def offsetZero (c : State) (n : Nat) : Bool :=
  match cfgMode c n with
  | .sent => !sentSpc c n
  | .psi5 => !psi5Sync c n
  | .lin => true
  | _ => false

/-- Check 0x04: OFFSET_CONFLICT (R174). -/
def chkOffset (c : State) (n p : Nat) : Bool :=
  let o := descOffset c (epIdx n p)
  if offsetZero c n then o != 0
  else o != descOffset c (epIdx n ((lanePositions c n).headD 0))

/-- Check 0x05: OFFSET_RANGE. -/
def chkRange (c : State) (n : Nat) : Bool :=
  let o := descOffset c (epIdx n ((lanePositions c n).headD 0))
  !(lanePositions c n).isEmpty &&
    match cfgMode c n with
    | .aknun => decide (o - 9 * (pipSteps c n : Nat) < -(period c : Nat))
    | .sent => sentSpc c n && decide (o < -(period c : Nat))
    | .psi5 => psi5Sync c n && decide (o < -(period c : Nat))
    | _ => false

/-- A failing check of a lane: code, position, demand and limit. -/
abbrev Failure := Nat × Nat × Int × Int

/-- h for Aknun timing tests, otherwise 0xFF (R182). -/
def testPos (c : State) (n : Nat) : Nat :=
  if cfgMode c n = .aknun then (topPos c n).getD 0xFF else 0xFF

/-- The first failing check of a lane (R179). -/
def laneFails (c : State) (n : Nat) : Option Failure :=
  let ps := lanePositions c n
  match ps.find? (chkProto c n) with
  | some p => some (0x01, p, 0, 0)
  | none =>
  match ps.find? (chkPosition c n) with
  | some p => some (0x02, p, 0, 0)
  | none =>
  match (List.range 16).find? (chkField c n) with
  | some p => some (0x03, p, 0, 0)
  | none =>
  match ps.find? (chkOffset c n) with
  | some p => some (0x04, p, 0, 0)
  | none =>
  if chkRange c n then some (0x05, 0xFF, 0, 0)
  else match (laneTests c n).find? (fun t => decide (t.2.2 < t.2.1)) with
  | some t => some (t.1, testPos c n, t.2.1, t.2.2)
  | none =>
    if cfgMode c n = .lin ∧ linSchedule c n = none then some (0x0A, 0xFF, 0, 0) else none

/-! ### Reports -/

/-- A figure as an unsigned word; a negative one is a free value (log entry 7). -/
def figure (x : Int) : Word := if 0 ≤ x then BitVec.ofNat 32 x.toNat else Config.negative x

/-- The test of least margin in a region: lane, test (R182). -/
def leastMargin (c : State) (g : Nat) : Option (Nat × Test) :=
  ((regionLanes g).flatMap (fun n => (laneTests c n).map (fun t => (n, t)))).foldl
    (fun a x => match a with
      | none => some x
      | some y => if x.2.2.2 - x.2.2.1 < y.2.2.2 - y.2.2.1 then some x else some y) none
where
  regionLanes (g : Nat) : List Nat := (List.range 64).map (fun i => 64 * g + i)

/-- The lanes of a region that fail, with what fails first. -/
def regionFails (c : State) (g : Nat) : List (Nat × Failure) :=
  ((List.range 64).map (fun i => 64 * g + i)).filterMap (fun n =>
    match laneFails c n with
    | some f => some (n, f)
    | none => none)

/-- The eight words of a region's report (R182). -/
def sowReport (c : State) (g : Nat) (tick eff : BitVec 48) : List Word :=
  let fails := regionFails c g
  let mk := fun (result test lane pos failing : Nat) (dem lim ovr : Int) (eff : BitVec 48) =>
    [pack [(24, 8, result), (16, 8, test), (0, 16, lane)], pack [(24, 8, pos), (0, 16, failing)],
     figure dem, figure lim, figure ovr,
     BitVec.ofNat 32 (tick.toNat / 65536),
     BitVec.ofNat 32 (tick.toNat % 65536 * 65536 + eff.toNat / 4294967296),
     BitVec.ofNat 32 eff.toNat]
  match fails with
  | (n, f) :: _ => mk f.1 f.1 n f.2.1 fails.length f.2.2.1 f.2.2.2 (f.2.2.1 - f.2.2.2) 0
  | [] =>
    match leastMargin c g with
    | some (n, t) => mk 0 t.1 n (testPos c n) 0 t.2.1 t.2.2 0 eff
    | none => mk 0 0 0xFFFF 0xFF 0 0 0 0 eff

/-- The sown layout of a lane: START, LONGEST, RAS and FREE (R356). -/
def sownLayout (c : State) (n : Nat) : List Word :=
  let i10 := fun (x : Int) => BitVec.ofInt 32 (x / 1000)
  let tests := laneTests c n
  let free := match tests with
    | t :: _ => figure ((if cfgMode c n = .lin then (12500 * 2 ^ pexp c * 128 : Nat) else period10 c : Nat) - t.2.1)
    | [] => 0
  if tests.isEmpty then [0, 0, 0, 0]
  else
    let o := offset1000 c n ((lanePositions c n).headD 0)
    match cfgMode c n with
    | .aknun =>
      let F := aknunF c n ((topPos c n).getD 0)
      [i10 (o - 9000 * pip10 c n), BitVec.ofInt 32 (up10 F), i10 (o - 9000 * pip10 c n + F), free]
    | .sent => [i10 o, BitVec.ofInt 32 (up10 (sentO c n)), 0, free]
    | .psi5 => [i10 o, BitVec.ofInt 32 (up10 (psi5O c n)), 0, free]
    | .lin =>
      let sch := (linSchedule c n).getD []
      [BitVec.ofNat 32 (12500 * (sch.foldl (fun a x => min a x.2.2.1) (2 ^ pexp c * 128))),
       BitVec.ofNat 32 (12500 * (sch.foldl (fun a x => max a x.2.2.2) 0)), 0, free]
    | .off => [0, 0, 0, 0]

/-! ### Due periods -/

/-- Whether an endpoint with rate exponent `j` is due at a grid instant's number (R173). -/
def dueAt (c : State) (num : BitVec 48) (j : Nat) : Bool := num.toNat / 2 ^ pexp c % 2 ^ j == 0

/-- Whether a slot of a LIN schedule ends before the cutoff of the period of a grid instant, and after
the cutoff before it (R159, R173). -/
def linSlotDue (c : State) (x : Nat × Nat × Nat × Nat) (num : BitVec 48) : Bool :=
  let u := 2 ^ pexp c
  let e := (x.2.2.1 + x.2.2.2) / u * u
  (num.toNat + x.2.1 - e % x.2.1) % x.2.1 == 0

/-- The slots of a LIN lane as a configuration places them (R181). -/
def linSlots (c : State) (n : Nat) : List (Nat × Nat × Nat × Nat) := (linSchedule c n).getD []

/-- Whether an endpoint is due in the period of a grid instant; for LIN its lane's placement decides
(R173), and a slot's occurrence falls in the period in which it ends before the cutoff (R159). -/
def epDue (c : State) (i : Nat) (num : BitVec 48) : Bool :=
  let n := i / 16
  if cfgMode c n = .lin then
    (linSlots c n).any (fun x =>
      x.1 == nodeFid c n (i % 16) && nodeEn c n (i % 16) && linSlotDue c x num)
  else dueAt c num (descRate c i)

/-- A lane's highest due position in a period, h(n) (R175). -/
def topDue (c : State) (n : Nat) (num : BitVec 48) : Option Nat :=
  ((lanePositions c n).filter (fun p => epDue c (epIdx n p) num)).getLast?

end Sys2Proof.Machine
end

