-- ==== Sys2Proof/Machine/Cal.lean ====
section
/-!
DEFINITION. The calibration loops (R188 to R202), the sprout state, swap suspicion and holds (R203 to
R209), the controls of CG14 (R210 to R212) and the calibration store (R213 to R216).
-/

namespace Sys2Proof.Machine

/-! ### Controls (R210, R211) -/

/-- FREEZE_ALL of CAL_GLOBAL. -/
def freezeAll (s : State) : Bool := bit (s.inForce aCalGlobal) 0

/-- What a CAL_CTL word lets a loop do: take input, and step (R211). A reserved MODE acts as TRACK. -/
def calMay (s : State) (w : Word) (loop steps : Nat) : Bool × Bool :=
  if freezeAll s then (false, false)
  else if !bit w loop then (true, true)
  else match fld w 31 30 with
  | 1 => (false, false)
  | 2 => (true, decide (0 < steps))
  | _ => (true, true)

/-- What a loop of a lane may do now. -/
def laneMay (s : State) (n loop : Nat) : Bool × Bool :=
  calMay s (s.inForce (aCalLane n)) loop (s.lane n).cal.steps

/-- What a loop of a region may do now. -/
def regionMay (s : State) (g loop : Nat) : Bool × Bool :=
  calMay s (s.inForce (aCalRegion g)) loop (s.region g).steps

/-- The remaining STEP_N boundaries that a CG14 commit sets (R211). -/
def stepsOf (w : Word) : Nat := if fld w 31 30 = 2 then ranged 1 255 (fld w 15 8) else 0

/-! ### Median, threshold, d_E -/

/-- Insertion into an ascending list. -/
def insertI (x : Int) : List Int → List Int
  | [] => [x]
  | y :: ys => if x ≤ y then x :: y :: ys else y :: insertI x ys

/-- An ascending copy. -/
def sortI (xs : List Int) : List Int := xs.foldr insertI []

/-- The median of differences (R74, R194): the mean of the 4th and 5th of eight, rounded down;
otherwise the middle value, the lower one where their number is even. -/
def medianI (xs : List Int) : Int :=
  let ys := sortI xs
  if ys.length = 8 then (ys.getD 3 0 + ys.getD 4 0) / 2 else ys.getD ((ys.length - 1) / 2) 0

/-- The target code T (R192). -/
def thrTarget (h16 l16 : Int) : Int :=
  let n := (h16 + l16) * 25 - 16000 + 320
  if n < 0 then 0 else min 200 (n / 640)

/-- The threshold loop at a frame boundary (R192, R193): the high sample, the low sample where the
frame has one, and the sample that stands in for it in a seed. -/
def thrBoundary (may : Bool × Bool) (swing : Bool) (c : LaneCal) (hi : Int) (lo : Option Int) (seedLo : Int) :
    LaneCal :=
  if c.seedNext then
    let h16 := 16 * hi
    let l16 := 16 * lo.getD seedLo
    { c with h16 := h16, l16 := l16, d := thrTarget h16 l16, seedNext := false }
  else
    let h16 := if may.1 then c.h16 + asr (16 * hi - c.h16) 3 else c.h16
    let l16 := match lo with
      | some l => if may.1 then c.l16 + asr (16 * l - c.l16) 3 else c.l16
      | none => c.l16
    let t := thrTarget h16 l16
    let d := if !may.2 || swing then c.d
      else if c.d + 2 ≤ t then c.d + 1 else if t ≤ c.d - 2 then c.d - 1 else c.d
    { c with h16 := h16, l16 := l16, d := d }

/-- d_E at a frame boundary (R74): the median of the last eight differences. -/
def skewBoundary (may : Bool × Bool) (c : LaneCal) (diffs : List Int) : LaneCal :=
  let hist := if may.1 then (c.dEHist ++ diffs).drop ((c.dEHist ++ diffs).length - 8) else c.dEHist
  { c with dEHist := hist, dE := if may.2 && !hist.isEmpty then medianI hist else c.dE }

/-- The R70 limit of d_E, in steps. -/
def skewLimit (s : State) (n : Nat) : Int :=
  match cfgGrade s n with
  | 0 => 60
  | 1 => 120
  | _ => 240

/-- A lane latches o_g at its frame boundary (R199). -/
def latchOg (s : State) (n : Nat) (c : LaneCal) : LaneCal := { c with og := (s.region (laneRegion n)).og }

/-- A fine stamp corrected by o_g and rounded to 2.5 ns, halves up (R199). -/
def stamp25 (og fine : Int) : Int := rnd (fine - og) 8

/-! ### Timing scales (R195, R196) -/

/-- n(11) in steps by grade. -/
def n11 (s : State) (n : Nat) : Int :=
  match cfgGrade s n with
  | 0 => 280
  | 1 => 560
  | _ => 1120

/-- The scale sample of a tempo pip (R195). -/
def scaleIn (n11 lm : Int) : Int := (lm * 65536 + n11 / 2) / n11

/-- TS and AS limited to 0.94 to 1.06 (R196). -/
def scaleClamp (x : Int) : Int := clampI 61604 69468 x

/-- A departure of more than 3 % (R207). -/
def isJump (x ref : Int) : Bool := decide (3 * ref < 100 * (x - ref).natAbs)

/-! ### SENT and PSI5 loops (R200 to R202) -/

/-- The SENT tick filter for an accepted calibration pulse. -/
def sentFilter (may : Bool) (c : LaneCal) (lcal : Int) : LaneCal :=
  if !c.tcSeeded then { c with tc16 := 16 * lcal, at16 := 16 * lcal, tcSeeded := true }
  else if may then { c with tc16 := c.tc16 + asr (16 * lcal - c.tc16) 3 } else c

/-- AT16 at the frame boundary: what a warm start has loaded stays until the first accepted calibration pulse
(R200, R216). -/
def sentBoundary (may : Bool) (c : LaneCal) : LaneCal :=
  if may && c.tcSeeded && decide (c.tc16 / 512 ≤ (c.tc16 - c.at16).natAbs) then { c with at16 := c.tc16 } else c

/-- The value of a filter with its seed. -/
def filt (seeded may : Bool) (x v : Int) (sh : Nat) : Int :=
  if !seeded then v else if may then x + asr (v - x) sh else x

/-- The PSI5 filters for an accepted frame in slot `k` (R201): currents in 0.25 mA and the bit time
in 1/16 step. -/
def psi5Filter (may : Bool) (c : LaneCal) (k : Nat) (iLo iHi bt : Int) : LaneCal :=
  let x := c.slots.getD k {}
  let okI := decide (40 ≤ iHi - iLo ∧ iHi - iLo ≤ 140)
  let c' := if okI then { c with ib16 := filt c.ibSeeded may c.ib16 (4 * iLo) 2, ibSeeded := true } else c
  let y : SlotCal := if okI then
      { x with di16 := filt x.iSeeded may x.di16 (4 * (iHi - iLo)) 2, iSeeded := true } else x
  let z : SlotCal := { y with bt16 := filt x.btSeeded may x.bt16 bt 3, btSeeded := true
                              btRef := if x.btSeeded then y.btRef else bt }
  { c' with slots := putAt c'.slots k z }

/-- One slot's applied values at a frame boundary (R202). -/
def slotBoundary (ib16 : Int) (x : SlotCal) : SlotCal :=
  let target := (ib16 + x.di16 / 2 + 2) / 4
  let thr := if x.thr + 2 ≤ target then x.thr + min 4 (target - x.thr)
    else if target ≤ x.thr - 2 then x.thr - min 4 (x.thr - target) else x.thr
  let ref := if x.bt16 / 512 ≤ (x.bt16 - x.btRef).natAbs then x.bt16 else x.btRef
  { x with thr := thr, btRef := ref }

/-- Every slot's applied values at a frame boundary. -/
def psi5Boundary (may : Bool) (c : LaneCal) : LaneCal :=
  if may then { c with slots := c.slots.map (slotBoundary c.ib16) } else c

/-! ### Region loops (R198, R199) -/

/-- REGION_CAL with its bit of REGION_STATUS (R198, R342). -/
def regionCalEvent (s : State) (g why : Nat) : State := setRegionBit (raise s 26 g (BitVec.ofNat 32 why)) g 22

/-- Whether two errors have one sign. -/
def sameSign (a b : Int) : Bool := decide (0 < a ∧ 0 < b) || decide (a < 0 ∧ b < 0)

/-- The ticks that a code has sat at 0 or 255 with an error of one sign, with the next error `e` (R198): 64
raise the event, and 65 says that it has been raised. -/
def stuckNext (code : Int) (hist : List Int) (old : Nat) (e : Int) : Nat :=
  if !(code == 0 || code == 255) || e == 0 then 0
  else match hist with
    | x :: _ => if sameSign x e ∧ 0 < old then (if old < 64 then old + 1 else old) else 1
    | [] => 1

/-- The clock-tree loop at a tick (R198). -/
def dllTick (s : State) (g : Nat) (e : Int) : State :=
  let r := s.region g
  let may := regionMay s g 21
  if !may.1 then s
  else
    let h := (e :: r.eHist).take 8
    let e8 := h.sum
    let move : Int := if 16 < e8 then -1 else if e8 < -16 then 1 else 0
    let code := if may.2 then clampI 0 255 (r.dll + move) else r.dll
    let moved := may.2 && move != 0 && code != r.dll
    let stuck := if moved then 0 else stuckNext code r.eHist r.dllStuck e
    s.setRegion g { r with dll := code, eHist := if moved then [] else h, dllStuck := stuck }

/-- The TDC offset loop at a tick (R199). -/
def tdcTick (s : State) (g : Nat) (err : Int) : State :=
  let r := s.region g
  let may := regionMay s g 22
  if !may.1 then s
  else
    let h := (err :: r.tdcHist).take 64
    let m := meanT h
    let beyond := decide (m < -32 ∨ 32 < m)
    let og := if may.2 && decide (2 ≤ (m - r.og).natAbs) then clampI (-32) 32 m else r.og
    s.setRegion g { r with tdcHist := h, og := og, ogLimit := if !beyond then 0 else max 1 r.ogLimit }

/-- A LOAD into a region's loops takes effect at its boundary, a grid tick (R211). The filter histories
that it carries no value for start empty: E8, the TDC errors, so that m is the mean of fewer than 64 (DESIGN
CHOICE, log entry 101). -/
def regionLoad (s : State) (g : Nat) (w : Word) (loops : Word) : State :=
  s.onRegion g (fun r =>
    let r := if bit loops 21 then { r with dll := (fld w 7 0 : Nat), eHist := [] } else r
    if bit loops 22 then { r with og := sgn 8 (fld w 23 16), tdcHist := [] } else r)

/-- Both loops of a region at a tick, and one STEP_N boundary (R211). -/
def regionLoops (s : State) (g : Nat) (e : RegionErr) : State :=
  (tdcTick (dllTick s g e.phase) g e.tdc).onRegion g (fun r => { r with steps := r.steps - 1 })

/-! ### Sprouts and holds (R203 to R209) -/

/-- An endpoint becomes a sprout (R203). -/
def becomeSprout (s : State) (i : Nat) : State :=
  let s := s.onEp i (fun e => { e with
    sprout := true, clean := 0, seeded := false, attested := false, ctrKnown := false, quiet := 0
    attDone := false, chal := none, sproutAt := none })
  let n := i / 16
  match cfgMode s n with
  | .sent => s.onLane n (fun l => { l with cal := { l.cal with tcSeeded := false } })
  | .psi5 => s.onLane n (fun l => { l with cal := { l.cal with
      slots := putAt l.cal.slots (i % 16) { (l.cal.slots.getD (i % 16) {}) with btSeeded := false } } })
  | _ => s

/-- Sprout entries that wait for a frame boundary take effect (R203): at the end of a frame, or before one
that begins at `start` no earlier than the entry. -/
def enterSprouts (s : State) (n : Nat) (start : Option Int) : State :=
  (List.range 16).foldl (fun s p =>
    match (s.ep (epIdx n p)).sproutAt with
    | some t =>
      let now_ : Bool := match start with
        | some x => decide ((t : Int) ≤ x)
        | none => true
      if now_ then becomeSprout s (epIdx n p) else s
    | none => s) s

/-- A swap suspicion with its reason (R208): the last-value store loses the endpoint's value (R235), and
the reseed is the caller's. A JUMP hold on a SENT or
PSI5 endpoint is released at once (R209). -/
def swapSuspect (s : State) (i : Nat) (why : Hold) : State :=
  let n := i / 16
  let aknun := cfgMode s n == .aknun
  let old := (s.ep i).hold
  let hold := if old = .ident then Hold.ident else if why = .jump ∧ !aknun then .none else why
  let s := becomeSprout s i
  let s := s.onEp i (fun e => { e with
    hold := hold
    store := none
    identOwed := e.identOwed || (why == .jump && aknun) })
  raise s 20 (handle s i) (BitVec.ofNat 32 why.code)

/-- A hold released: the clean count starts again (R209). -/
def releaseHold (s : State) (i : Nat) : State :=
  s.onEp i (fun e => { e with hold := .none, clean := 0, identOwed := false })

/-- The ID read at enumeration, by the IDENT of a JUMP hold or from the husk identity group (R207,
R209). With EXPECT_ID 0 there is nothing to compare: a JUMP hold stays, and its IDENT has been sent (DESIGN
CHOICE, log entry 103). A mismatch reseeds TS from no sample at once: TS is kept, and the next accepted tempo
pip seeds it (R203, R208; DESIGN CHOICE, log entry 120). -/
def idRead (s : State) (i : Nat) (v : BitVec 64) : State :=
  let s := s.onEp i (fun e => { e with lastId := v, identOwed := false })
  let want := descId s i
  if want = 0 then s
  else if v = want then
    if (s.ep i).hold = .none then s else releaseHold s i
  else swapSuspect s i .ident

/-- Whether a sprout may leave the state (R205). -/
def mayExit (s : State) (i : Nat) : Bool :=
  let e := s.ep i
  let aknun := cfgMode s (i / 16) == .aknun
  e.sprout && decide (8 ≤ e.clean) && e.hold == .none &&
    (!aknun || (descId s i != 0 && descId s i == e.lastId)) && (!descAttest s i || e.attested)

/-- Sprout exit at a frame boundary (R205, R196). Exit runs in every mode (R211), and AS := TS with it under
FREEZE and STEP too (DESIGN CHOICE, log entry 102). -/
def sproutExit (s : State) (i : Nat) : State :=
  if mayExit s i then
    s.onEp i (fun e => { e with sprout := false, asc := e.ts, stepped := true })
  else s

/-- The applied scale at a frame boundary (R196): the deadband of 128, and the seed. -/
def scaleBoundary (may : Bool) (e : EpState) (seedNow : Bool) : EpState :=
  if seedNow then
    if e.asc = e.ts then e else { e with asc := e.ts, stepped := true }
  else if may && decide (128 ≤ (e.ts - e.asc).natAbs) then { e with asc := e.ts, stepped := true } else e

/-! ### LOAD (R211) -/

/-- A load word of a list, where it holds one. -/
def loadWord (l : List (Nat × Word)) (a : Nat) : Option Word :=
  match l.find? (fun x => x.1 == a) with
  | some x => some x.2
  | none => none

/-- The loops of a lane loaded with the words that a commit took. A LOAD of d_E empties its history of
differences (DESIGN CHOICE, log entry 101). -/
def loadLane (c : LaneCal) (n : Nat) (loops : Word) (l : List (Nat × Word)) : LaneCal :=
  let w := fun off => (loadWord l (aLaneCal n off)).getD (laneCalWord c off)
  let c := if bit loops 16 then
      { c with h16 := (fld (w 0) 31 20 : Nat), l16 := (fld (w 0) 19 8 : Nat), d := (fld (w 0) 7 0 : Nat) } else c
  let c := if bit loops 17 then { c with dE := (fld (w 4) 31 24 : Nat), dEHist := [] } else c
  let c := if bit loops 19 then { c with tc16 := (w 8).toNat, at16 := (w 0xC).toNat, tcSeeded := true } else c
  if bit loops 20 then
    { c with ib16 := (fld (w 0x10) 31 16 : Nat), ibSeeded := true
             slots := (List.range 4).map (fun k =>
               { thr := (fld (w (0x14 + 4 * k)) 31 22 : Nat), di16 := (fld (w (0x14 + 4 * k)) 21 12 : Nat)
                 bt16 := (fld (w (0x24 + 4 * k)) 31 16 : Nat), btRef := (fld (w (0x24 + 4 * k)) 15 0 : Nat)
                 iSeeded := true, btSeeded := true }) }
  else c

/-- The endpoint scales of a lane loaded. -/
def loadEps (s : State) (n : Nat) (loops : Word) (l : List (Nat × Word)) : State :=
  if bit loops 18 then
    (List.range 16).foldl (fun s p =>
      let i := epIdx n p
      match loadWord l (aEpCal i 0), loadWord l (aEpCal i 4) with
      | some t, some a => s.onEp i (fun e => { e with
          ts := (fld t 16 0 : Nat), asc := (fld a 16 0 : Nat), seeded := true, stepped := true })
      | _, _ => s) s
  else s

/-- A LOAD waiting for the lane's frame boundary is applied there, in place of that frame's input
(R211, R219): `before` is the lane's state before the frame. -/
def applyLoad (s : State) (n : Nat) (before : LaneCal) : State :=
  let l := (s.lane n).cal.load
  if l.isEmpty then s
  else
    let w := s.inForce (aCalLane n)
    let s := s.onLane n (fun x =>
      let base := { x.cal with
        h16 := if bit w 16 then before.h16 else x.cal.h16, l16 := if bit w 16 then before.l16 else x.cal.l16
        load := [], stepped := true }
      { x with cal := loadLane base n w l })
    loadEps s n w l

/-! ### Saving and loading the store (R213 to R216) -/

/-- The words of a lane's validity CRC-32: its configuration entry and all its descriptors. -/
def validityCrc (s : State) (n : Nat) : Word :=
  crc32 (((List.range 8).flatMap (fun j => beBytes 4 (s.inForce (aLane n (4 * j))).toNat)) ++
    ((List.range 16).flatMap (fun p => (List.range 8).flatMap (fun j =>
      beBytes 4 (s.inForce (aDesc (epIdx n p) (4 * j))).toNat))))

/-- What one lane puts into a save: of a slot its filters and threshold code (R213). -/
def laneSaved (s : State) (n : Nat) : LaneSaved :=
  let l := s.lane n
  { d := l.cal.d, h16 := l.cal.h16, l16 := l.cal.l16, dE := l.cal.dE, at16 := l.cal.at16
    ib16 := l.cal.ib16, slots := l.cal.slots.map (fun x => { di16 := x.di16, bt16 := x.bt16, thr := x.thr })
    top := l.enumN, crc := validityCrc s n }

/-- The copy that a save writes at a grid tick (R213, R214). -/
def calCopy (s : State) : CalCopy :=
  { format := s.upd.cfgFormat, tick := s.grid.tick
    lanes := (List.range 512).map (fun n => (n, laneSaved s n))
    eps := (List.range 8192).filterMap (fun i =>
      if descProto s i = 1 then some (i, (s.ep i).ts, (s.ep i).lastId, (s.ep i).stretch) else none)
    regions := (List.range 8).map (fun g => ((s.region g).dll, (s.region g).og))
    converted := s.nv.oldCfg, valid := true }

/-- A copy of the calibration state is saved into the older place (R213, R510). Every save starts the 10
minutes of CAL_SAVE, one at OFF or SENTINEL entry too (DESIGN CHOICE, log entry 104). -/
def calStore (s : State) (c : CalCopy) : State :=
  let s := s.onMode (fun m => { m with saveRefused := false, savedAt := some s.grid.now, saveDue := false, entryCal := none })
  if saveToA s.nv.oldCfg CalCopy.converted CalCopy.tick CalCopy.valid s.nv.calA s.nv.calB then
    { s with nv := { s.nv with calA := some c } }
  else { s with nv := { s.nv with calB := some c } }

/-- The save that is due at the present grid tick. -/
def calSaveNow (s : State) : State := calStore s (calCopy s)

/-- The save of an entry to OFF or SENTINEL: what stood at the latest grid tick (R214, R215). -/
def calSaveEntry (s : State) : State := calStore s (s.mode.entryCal.getD (calCopy s))

/-- While a device enters OFF or SENTINEL, the items of its save stand as at the latest grid tick (R214). -/
def noteEntryCal (s : State) : State :=
  if s.mode.entering then s.onMode (fun m => { m with entryCal := some (calCopy s) }) else s

/-- A write of CAL_SAVE (R215): in RUN at most once in 10 minutes; refused in TEST and REPLAY. While
the warden restarts, the save is made at the next grid tick after it (R219). -/
def calSaveWrite (s : State) : State :=
  let limited := match s.mode.savedAt with
    | some t => decide (s.grid.now < t + 600 * 400000000)
    | none => false
  match s.mode.dev with
  | .test | .replay => s.onMode (fun m => { m with saveRefused := true })
  | .run =>
    if limited then s.onMode (fun m => { m with saveRefused := true })
    else s.onMode (fun m => { m with saveDue := true, saveRefused := false, savedAt := some s.grid.now })
  | _ => s

/-- A saved copy that the running firmware reads, the newer first (R213). -/
def usableCal (s : State) : Option CalCopy :=
  let ok := fun (c : CalCopy) => c.valid && c.format == s.upd.cfgFormat
  newer CalCopy.tick ok s.nv.calA s.nv.calB

/-- A lane's saved values loaded at a warm start (R216). -/
def loadSavedLane (s : State) (n : Nat) (x : LaneSaved) : State :=
  s.onLane n (fun l => { l with cal := { l.cal with
    d := x.d, h16 := x.h16, l16 := x.l16, dE := x.dE, at16 := x.at16, ib16 := x.ib16, slots := x.slots } })

/-- What the store says of one endpoint (R216): TS, ID and stretch need. -/
def savedEp (s : State) (i : Nat) : Option (Int × BitVec 64 × Bool) :=
  match usableCal s with
  | some c =>
    match c.eps.find? (fun e => e.1 == i) with
    | some e => some e.2
    | none => none
  | none => none

/-! ### The checks of a CG14 commit (R212) -/

/-- Whether a CAL_CTL word holds FREEZE, STEP or LOAD. -/
def calActive (w : Word) : Bool := fld w 31 30 == 1 || fld w 31 30 == 2 || bit w 0

/-- The nominal range of AT16 of a SENT lane: 16 × 56 ticks within TICK_TOL (R212). -/
def at16Ok (s : State) (n : Nat) (v : Nat) : Bool :=
  let nom := 16 * 56 * 40 * sentTick s n
  decide (nom * (100 - sentTol s n) ≤ 100 * v ∧ 100 * v ≤ nom * (100 + sentTol s n))

/-- The nominal range of a PSI5 bit time in 1/16 step: within 8 % (R153, R212). -/
def bt16Ok (s : State) (n : Nat) (v : Nat) : Bool :=
  let nom := if psi5Fast s n then 33862 else 51200
  decide (nom * 92 ≤ 100 * v ∧ 100 * v ≤ nom * 108)

/-- Whether a lane's load values are in range, for the loops that LOOPS names. -/
def laneLoadOk (s : State) (n : Nat) (loops : Word) (w : Nat → Word) : Bool :=
  (!bit loops 16 || decide (fld (w 0) 7 0 ≤ 200)) &&
    (!bit loops 17 || decide ((fld (w 4) 31 24 : Int) ≤ skewLimit s n)) &&
    (!bit loops 19 || cfgMode s n != .sent || at16Ok s n (w 0xC).toNat) &&
    (!bit loops 20 || cfgMode s n != .psi5 ||
      (List.range 4).all (fun k => !slotEn s n k || bt16Ok s n (fld (w (0x24 + 4 * k)) 31 16)))

/-- Whether an endpoint's load values are in range. -/
def epLoadOk (t a : Word) : Bool :=
  let ok := fun (x : Nat) => decide (61604 ≤ x ∧ x ≤ 69468)
  ok (fld t 16 0) && ok (fld a 16 0)

/-! ### Meanings -/

/-- REGION_CAL (R198, R199): a loop of the region has come to its limit, which GRID_TICK found, and
the region raises the event once. -/
def execRegionCal (g : Region) (s : State) : Out :=
  .next (
    let r := s.region g
    if r.dllStuck = 64 then
      regionCalEvent (s.onRegion g (fun r => { r with dllStuck := 65 })) g 1
    else if r.ogLimit = 1 then
      regionCalEvent (s.onRegion g (fun r => { r with ogLimit := 2 })) g 2
    else s)

end Sys2Proof.Machine
end

