-- ==== Sys2Proof/Machine/Record.lean ====
section
/-!
DEFINITION. What the hoard records (R471 to R491): the blocks of a Disuine trace, how they enter the
ring or the export stream, checkpoints, happenings, ticks, commits and freezes.
-/

namespace Sys2Proof.Machine

/-! ### Blocks -/

/-- A block: header, body and CRC-32 (R478). -/
def traceBlock (typ flags lane seq : Nat) (body : Bytes) : Bytes :=
  let b := [byte8 typ, byte8 flags] ++ beBytes 2 lane ++ beBytes 2 body.length ++ beBytes 2 seq ++ body
  b ++ beBytes 4 (crc32 b).toNat
where
  byte8 (n : Nat) : Byte := BitVec.ofNat 8 n

/-- 2 MB and 64 KB. -/
def ringSize : Nat := 2097152
def exportSize : Nat := 65536

/-- The bytes that blocks take. -/
def ringBytes (bs : List Bytes) : Nat := bs.foldl (fun a b => a + b.length) 0

/-- The oldest whole blocks overwritten until `n` bytes are free (R474). -/
def dropOldest : Nat → List Bytes → List Bytes
  | _, [] => []
  | n, b :: bs => if n = 0 then b :: bs else dropOldest (n - b.length) bs

/-- The device states in which the hoard records (R473). -/
def recordsIn (d : DevState) : Bool :=
  match d with
  | .run | .recover | .test | .lockdown => true
  | _ => false

/-- Whether the hoard records now (R473, R474). -/
def hoarding (s : State) : Bool :=
  recordsIn s.mode.dev && !s.hoard.startOwed && match s.hoard.hstate with
    | .armed | .exporting => true
    | .post => decide (0 < s.hoard.postLeft)
    | _ => false

/-- Whether a lane is recorded: one with MODE OFF has but its place in the lane map (R472). -/
def recorded (s : State) (n : Nat) : Bool := hoarding s && s.hoard.lanes.contains n && cfgMode s n != .off

/-- Bit 47 of a number: free-run numbering (R31). -/
def freeRun (num : BitVec 48) : Bool := num.toNat / 2 ^ 47 == 1

/-- Whether a key is at its limit (R267). -/
def keyAtLimit (segs ticks : Nat) : Bool := decide (1073741824 ≤ segs ∨ 691200000 ≤ ticks)

/-- No segment is sealed in free-run numbering whose counter has come to its end (R31). -/
def freeRunOver (s : State) (num : BitVec 48) : Bool := freeRun num && s.nv.frc == BitVec.allOnes 21

/-- Whether the hoard may export: a key in slot 10 within its limits, and no LOCKDOWN (R418, R476). -/
def exportKeyOk (s : State) : Bool :=
  (s.slot 10).typ != 0 && (s.slot 10).health != 2 && !s.alarm.lockdown && !keyAtLimit s.hoard.keySegs s.hoard.keyTicks

/-- The bytes of the export buffer that wait: whole segments of 1,408 bytes are sealed as they fill (R476). The
model hands their frames over at the end of the tick (DESIGN CHOICE, log entry 127). -/
def exportWaits (s : State) : Nat :=
  let n := s.hoard.stream.length
  if exportKeyOk s && !freeRunOver s s.grid.tick then n % 1408 else n

/-- One block is written, or dropped in an export whose buffer lacks room (R477). -/
def hoardBlock (s : State) (typ lane : Nat) (body : Bytes) : State :=
  if !hoarding s then s
  else
    let h := s.hoard
    let b := traceBlock typ (b2n h.gapNext) lane h.seq.toNat body
    match h.hstate with
    | .exporting =>
      let free := exportSize - exportWaits s
      let laneData := typ == 0x30 || typ == 0x31 || typ == 0x32
      if (laneData && decide (free < 8192)) || decide (free < b.length) then
        s.onHoard (fun h => { h with
          seq := h.seq + 1, gapNext := true, gap := true, drops := satInc h.drops, owe := h.lanes })
      else s.onHoard (fun h => { h with seq := h.seq + 1, gapNext := false, stream := h.stream ++ b })
    | _ =>
      let ring := h.ring ++ [b]
      s.onHoard (fun h => { h with
        seq := h.seq + 1, gapNext := false, ring := dropOldest (ringBytes ring - ringSize) ring
        postLeft := if h.hstate = .post then h.postLeft - b.length else h.postLeft })

/-- The DIGEST block of a snapshot, which follows every lane block of its frames (R491): in raw-edge mode those of
a period that still runs are written at its end. -/
def hoardDigest (s : State) (num : BitVec 48) (body : Bytes) : State :=
  if !hoarding s then s
  else if s.hoard.hmodeNow = 1 ∧ num = s.grid.gridNum then s.onHoard (fun h => { h with digests := h.digests ++ [body] })
  else hoardBlock s 0x22 0xFFFF body

/-! ### Fields -/

/-- LSTATUS of a lane (R356). -/
def lstatusWord (s : State) (n : Nat) : Word :=
  let l := s.lane n
  let st := match l.mode, l.lstate with
    | .aknun, x => x
    | _, .clearing => .run
    | _, .enumerating => .run
    | _, x => x
  pack [(29, 3, st.code), (28, 1, b2n l.short), (27, 1, b2n l.stuck), (26, 1, b2n l.swing),
    (25, 1, b2n ((List.range 16).any (fun p => (s.ep (epIdx n p)).slow))), (24, 1, b2n l.suspended),
    (16, 8, l.retries.toNat), (11, 5, l.enumN), (10, 1, b2n l.enumFail), (6, 4, l.failPos.toNat)]

/-- The number of the tick in which a time falls, in the present numbering. -/
def tickOf (s : State) (t : Int) : BitVec 48 :=
  BitVec.ofInt 48 ((s.grid.tick.toNat : Int) + (t - (s.grid.tickAt : Int)) / 50000)

/-- The step at which the tick that holds a time began. -/
def tickStart (s : State) (t : Int) : Int :=
  (s.grid.tickAt : Int) + 50000 * ((t - (s.grid.tickAt : Int)) / 50000)

/-- Bytes of words. -/
def bytesOfWords (ws : List Word) : Bytes := ws.flatMap (fun w => beBytes 4 w.toNat)

/-- A signed number as four bytes. -/
def int4 (x : Int) : Bytes := beBytes 4 (uns 32 x)

/-- The next instant of R91 after the previous one: 1, 4, 16, 64 ms, then every 256 ms. -/
def retryWait (k : Nat) : Nat :=
  400000 * (if k = 0 then 1 else if k = 1 then 4 else if k = 2 then 16 else if k = 3 then 64 else 256)

/-- LANE_CFG: lane entry 0x00 to 0x1F. -/
def laneCfgWords (s : State) (n : Nat) : List Word := (List.range 8).map (fun j => s.inForce (aLane n (4 * j)))

/-- The words of a lane's cluster that are its own: slot words at position 0, node-list words at position 1. -/
def clusterWords (s : State) (n : Nat) : List Word :=
  let c := laneCluster n
  if lanePlace n = 0 then (List.range 4).map (fun k => s.inForce (aCluster c (0x10 + 4 * k)))
  else if lanePlace n = 1 then (List.range 16).map (fun k => s.inForce (aCluster c (0x20 + 4 * k)))
  else []

/-- CLUSTER of a checkpoint. -/
def clusterPart (s : State) (n : Nat) : Bytes := fit 64 0 (bytesOfWords (clusterWords s n))

/-- The eight words of a descriptor. -/
def descWords (s : State) (i : Nat) : List Word := (List.range 8).map (fun j => s.inForce (aDesc i (4 * j)))

/-- PROG_CRC of a lane (log entry 6): of what its cluster program was sown from, which is k, the lane's entry, its
slot or node-list words and its descriptors. A change of any of them is sown (R178), so that the values in force
are those as sown. -/
def progCrc (s : State) (n : Nat) : Word :=
  Config.progCrc (BitVec.ofNat 32 (pexp s) :: laneCfgWords s n ++ clusterWords s n ++
    (List.range 16).flatMap (fun p => descWords s (epIdx n p)))

/-- POSMAP: bit p for each position with a descriptor. -/
def posMap (s : State) (n : Nat) : Nat := (lanePositions s n).foldl (fun a p => a + 2 ^ p) 0

/-- The parts that a checkpoint and a commit block share. -/
def laneParts (s : State) (n : Nat) : Bytes :=
  bytesOfWords (laneCfgWords s n) ++ bytesOfWords (lstatusWord s n :: (s.lane n).sown) ++ clusterPart s n ++
    beBytes 4 (progCrc s n).toNat

/-- LANE_RUN (R482). -/
def laneRun (s : State) (n : Nat) : Bytes :=
  let l := s.lane n
  let (flags, t) := match l.spu with
    | none => (0, 0)
    | some q =>
      match q.window with
      | some w => (2, (tickOf s w.2).toNat)
      | none => if q.admitted.isNone then (1, q.reqTick.toNat) else (2, (q.admitted.getD 0).toNat)
  let flags := flags + 4 * b2n (l.mode == .aknun && l.stuck)
  let retry := if l.lstate = .isolated then (tickOf s (l.isoAt + retryWait l.isoTry + 49999)).toNat else 0
  fit 8 0 (l.cal.dEHist.map (fun x => BitVec.ofInt 8 x)) ++ int4 l.cal.lcal ++ [BitVec.ofNat 8 flags] ++
    beBytes 6 t ++ beBytes 6 retry ++ beBytes 7 0

/-- EP_RUN (R482). -/
def epRun (s : State) (i : Nat) : Bytes :=
  let e := s.ep i
  let known := match e.huskSeq with
    | some q => q + 16
    | none => 0
  let (v, flag, t, off) := match e.store with
    | some (v, S) => (v, 1, (tickOf s S).toNat, S - tickStart s S)
    | none => (0, 0, 0, 0)
  let hist := (List.range 64).foldl (fun a k => a + b2n (e.lateHist.getD k false) * 2 ^ k) 0
  [BitVec.ofNat 8 e.ctr, BitVec.ofNat 8 (min 16 e.k), BitVec.ofNat 8 e.huskN, BitVec.ofNat 8 known] ++
    beBytes 4 e.husk.toNat ++ beBytes 4 v.toNat ++
    [BitVec.ofNat 8 (flag + 2 * e.err + 8 * b2n e.inRange)] ++ beBytes 6 t ++ int4 off ++
    beBytes 8 hist ++ [0]

/-- A CHECKPOINT body (R481) for the grid instant of the frame that follows. -/
def checkpointBody (s : State) (n : Nat) (num : BitVec 48) : Bytes :=
  let g := laneRegion n
  beBytes 6 num.toNat ++ beBytes 2 (posMap s n) ++ laneParts s n ++
    bytesOfWords ((List.range 16).map (fun j => laneCalWord (s.lane n).cal (4 * j))) ++
    bytesOfWords ((List.range 4).map (fun j => regionCalWord (s.region g) (4 * j))) ++ laneRun s n ++
    (lanePositions s n).flatMap (fun p =>
      let i := epIdx n p
      bytesOfWords (descWords s i) ++ bytesOfWords ((List.range 4).map (fun j => epCalWord (s.ep i) (4 * j))) ++
        epRun s i)

/-- A checkpoint of one lane. -/
def checkpoint (s : State) (n : Nat) (num : BitVec 48) : State :=
  hoardBlock (s.onHoard (fun h => { h with owe := h.owe.filter (· != n) })) 0x11 n (checkpointBody s n num)

/-- The frame boundary before a lane's first frame of grid instant `num` (R479). -/
def frameBoundary (s : State) (n : Nat) (num : BitVec 48) : State :=
  if !recorded s n then s
  else
    let first := (s.lane n).cpAt != some num
    let ord := (s.hoard.lanes.findIdx? (· == n)).getD 0
    let s := s.onLane n (fun l => { l with cpAt := some num })
    if s.hoard.owe.contains n || (first && num.toNat / 2 ^ pexp s % 64 == ord % 64) then checkpoint s n num
    else s

/-! ### Blocks of the package -/

/-- A HAPPENING of a lane, where the lane is recorded (R485). -/
def happen (s : State) (n : Nat) (tick : BitVec 48) (kind pos : Nat) (arg : Bytes) : State :=
  if recorded s n then
    hoardBlock s 0x21 n (beBytes 6 tick.toNat ++ [BitVec.ofNat 8 kind, BitVec.ofNat 8 pos] ++ fit 12 0 arg)
  else s

/-- A happening at the present tick. -/
def happenNow (s : State) (n kind pos : Nat) (arg : Bytes) : State := happen s n s.grid.tick kind pos arg

/-- A happening of every recorded lane of a list. -/
def happenAll (s : State) (ns : List Nat) (kind : Nat) (arg : Bytes) : State :=
  ns.foldl (fun s n => happenNow s n kind 0 arg) s

/-- A TICK body (R484): `c` at a re-phase step. -/
def tickBody (s : State) (instant gap : Bool) (c : Option Int) : Bytes :=
  let gs := (List.range 8).filter (fun g => s.hoard.lanes.any (fun n => laneRegion n == g))
  let flags := b2n s.grid.unlocked + 2 * b2n s.grid.degraded + 4 * b2n instant + 8 * b2n gap +
    16 * b2n c.isSome + 32 * b2n (!s.grid.lanePll)
  beBytes 6 s.grid.tick.toNat ++ [BitVec.ofNat 8 flags, BitVec.ofNat 8 (gs.foldl (fun a g => a + 2 ^ g) 0)] ++
    (match c with
      | some c => int4 c
      | none => []) ++
    gs.flatMap (fun g => [BitVec.ofInt 8 (s.region g).dll, BitVec.ofInt 8 (s.region g).og])

/-- GRID_CTL in force, with REPHASE as 0. -/
def gridCtlBytes (s : State) : Bytes := beBytes 4 (s.inForce kGridCtl).toNat

/-- A COMMIT body of a lane (R483), with the values in force from the effective tick. -/
def commitBody (s : State) (n : Nat) (tc eff : BitVec 48) (groups : BitVec 16) : Bytes :=
  beBytes 6 tc.toNat ++ beBytes 6 eff.toNat ++ beBytes 2 groups.toNat ++ gridCtlBytes s ++
    beBytes 4 (s.inForce (aCalLane n)).toNat ++ beBytes 4 (s.inForce (aCalRegion (laneRegion n))).toNat ++
    beBytes 4 (s.inForce aCalGlobal).toNat ++ beBytes 2 (posMap s n) ++ laneParts s n ++
    (lanePositions s n).flatMap (fun p => bytesOfWords (descWords s (epIdx n p)))

/-- Whether a lane's MODE is not OFF, or a commit of the latest tick turned it OFF: what tells of the change is
still the lane's (R472). -/
def modeOn (s : State) (n : Nat) : Bool :=
  cfgMode s n != .off || match s.cfg.hist with
    | h :: _ => h.1 == s.grid.tickAt && cfgMode { s with cfg := { s.cfg with live := h.2 } } n != .off
    | [] => false

/-- The COMMIT blocks of a commit (R479). -/
def hoardCommit (s : State) (tc eff : BitVec 48) (groups : BitVec 16) : State :=
  let has := fun (k : Nat) => groups.toNat / 2 ^ k % 2 == 1
  s.hoard.lanes.foldl (fun s n =>
    if modeOn s n && (has 8 || has 12 || has 14 || has (laneRegion n)) then
      hoardBlock s 0x12 n (commitBody s n tc eff groups)
    else s) s

/-- The lane map of a trace (R480). -/
def laneMap (ns : List Nat) : Bytes :=
  (List.range 64).map (fun b => BitVec.ofNat 8 ((List.range 8).foldl (fun a k =>
    a + b2n (ns.contains (8 * b + k)) * 2 ^ (7 - k)) 0))

/-- A TRACE_START body (R475, R480) from what recording fixed when it started. -/
def traceStartBody (s : State) : Bytes :=
  let h := s.hoard
  let expo := h.hstate == .exporting
  beBytes 8 Config.deviceNumber.toNat ++ beBytes 4 devId.toNat ++ beBytes 2 (h.startInfo.getD 3 0).toNat ++
    [BitVec.ofNat 8 (h.startInfo.getD 4 0).toNat, BitVec.ofNat 8 h.hmodeNow.toNat,
     BitVec.ofNat 8 (h.startInfo.getD 0 0).toNat, BitVec.ofNat 8 (b2n expo + 2 * b2n h.held)] ++
    beBytes 2 h.lanes.length ++ beBytes 6 h.startTick.toNat ++
    beBytes 6 (if expo then 0 else h.freezeTick.toNat) ++ beBytes 4 (h.startInfo.getD 1 0).toNat ++
    beBytes 4 (h.startInfo.getD 2 0).toNat ++ laneMap h.lanes ++ beBytes 24 0

/-- A FREEZE body (R490). -/
def freezeBody (s : State) (it : Option Item) : Bytes :=
  beBytes 6 s.grid.tick.toNat ++ beBytes 2 s.subtick ++
    match it with
    | some x => [BitVec.ofNat 8 x.ev.src.toNat, BitVec.ofNat 8 x.chan.toNat] ++ beBytes 2 x.ev.origin.toNat
    | none => [0xFF, 0xFF, 0, 0]

/-- Intervals between edges, 2 bytes each or the escape (R489). -/
def intervals : List Int → Bytes
  | a :: b :: r =>
    let d := uns 32 (b - a)
    (if d < 0xFFFF then beBytes 2 d else [0xFF, 0xFF] ++ beBytes 4 d) ++ intervals (b :: r)
  | _ => []

/-- An EDGES body (R489). -/
def edgesBody (num : BitVec 48) (edges : List Int) (a b : Int) : Bytes :=
  beBytes 6 num.toNat ++ int4 (edges.headD 0) ++ beBytes 2 (uns 16 a) ++ beBytes 2 (uns 16 b) ++ intervals edges

/-- A RAW_EDGES body (R489): the period that grid instant `num` at step `at_` opened, with its transitions, the
level pairs of the frames that ended in it, and whether its first transition ends a pulse. -/
def rawBody (s : State) (n : Nat) (num : BitVec 48) (at_ : Nat) (edges : List Int) (levs : List (Int × Int))
    (flip : Bool) : Bytes :=
  let line := b2n (((s.lane n).mode != .psi5) != flip)
  beBytes 6 num.toNat ++ [BitVec.ofNat 8 line] ++ int4 (edges.headD (8 * at_) - 8 * at_) ++ intervals edges ++
    [BitVec.ofNat 8 levs.length] ++ levs.flatMap (fun x => beBytes 2 (uns 16 x.1) ++ beBytes 2 (uns 16 x.2))

/-- Whether a block is the RAW_EDGES block of a lane for the period of grid instant `num`. -/
def isRawBlock (n : Nat) (num : BitVec 48) (b : Bytes) : Bool :=
  b.take 1 == [0x32] && beNat ((b.drop 2).take 2) == n && beNat ((b.drop 8).take 6) == num.toNat

/-- Transitions of a frame that began before the latest grid instant enter the block of their period, which stands
in the ring (R489, log entry 135). -/
def amendRaw (s : State) (n : Nat) (early : List Int) : State :=
  let l := s.lane n
  let es := l.rawPrev.1 ++ early
  let s := s.onLane n (fun l => { l with rawPrev := (es, l.rawPrev.2), rawFlip := l.rawFlip != (early.length % 2 == 1) })
  let body := rawBody s n s.grid.prevNum s.grid.prevAt es l.rawPrev.2.1 l.rawPrev.2.2
  let ring := s.hoard.ring.map (fun b => if isRawBlock n s.grid.prevNum b then
      traceBlock 0x32 (b.getD 1 0).toNat n (beNat ((b.drop 6).take 2)) body else b)
  s.onHoard (fun h => { h with
    ring := dropOldest (ringBytes ring - ringSize) ring
    postLeft := if h.hstate = .post then h.postLeft - (ringBytes ring - ringBytes h.ring) else h.postLeft })

end Sys2Proof.Machine
end

