-- ==== Sys2Proof/Machine/Queue.lean ====
section
/-!
DEFINITION. Grid instants and the snapshot a frame belongs to (R32, R45, R137), lane packets (R220 to
R222), the queue banks of a region with their late packets, staging buffers and flush (R223 to R231),
the harvest cutoff, and the losses that reach the assembler (R17, R229).
-/

namespace Sys2Proof.Machine

/-! ### Grid instants -/

/-- A number of the free-run numbering (R31). -/
def freeNum (pkg : BitVec 2) (frc : BitVec 21) (ticks : Nat) : BitVec 48 :=
  BitVec.ofNat 48 (2 ^ 47 + pkg.toNat * 2 ^ 45 + frc.toNat * 2 ^ 24 + ticks % 2 ^ 24)

/-- The free-run counter once it has advanced (R31). -/
def frcNext (frc : BitVec 21) : BitVec 21 := satInc frc

/-- The ring of eight words that holds the free-run counter, written in turn: word i holds the latest count whose
remainder modulo 8 is i (R412). -/
def frcRing (frc : BitVec 21) : List (BitVec 21) :=
  (List.range 8).map (fun i => BitVec.ofNat 21 (frc.toNat - (frc.toNat + 8 - i) % 8))

/-- The number of the next tick in the free-run numbering (R31). -/
def freeNext (s : State) : BitVec 48 :=
  let g := s.grid
  if g.frcTicks + 1 < 2 ^ 24 then freeNum g.pkg s.nv.frc (g.frcTicks + 1)
  else freeNum g.pkg (if g.frcDone then s.nv.frc else frcNext s.nv.frc) 0

/-- Whether the next tick carries the package's own free-run numbering (R30, R31, R52): the lead's in
every time state but LOCKED and HOLDOVER, a follower's once it has changed to it. -/
def ownNext (s : State) : Bool :=
  match s.grid.tstate with
  | .locked | .holdover | .follow => false
  | .followLost => s.grid.ownNum
  | _ => true

/-- The number of the next tick (R30, R31, R45). -/
def nextNumber (s : State) : BitVec 48 :=
  let g := s.grid
  match g.nextNum with
  | some n => n
  | none =>
    if ownNext s then freeNext s
    else if g.ownNum || g.tstate == .follow then g.trueNum + 1 else g.tick + 1

/-- The first number at or after `n` that is a multiple of `u`, in the numbering of `n`. -/
def alignUp (n u : Nat) : Nat :=
  let m := (n + u - 1) / u * u
  if n < 2 ^ 47 ∨ m / 2 ^ 45 = n / 2 ^ 45 then m else m - 2 ^ 24

/-- Number and time of the first grid instant to come that falls at `t` or later: the first tick whose
number is a multiple of 2^k and which is not held back (R32, R45). -/
def instantFrom (s : State) (t : Nat) : BitVec 48 × Nat :=
  let g := s.grid
  let n1 := (nextNumber s).toNat
  let t1 := g.tickAt + g.gap
  let skip := (max g.instFrom t - t1 + 49999) / 50000
  let n := alignUp (n1 + skip) (2 ^ pexp s)
  (BitVec.ofNat 48 n, t1 + 50000 * ((n + 2 ^ 48 - n1) % 2 ^ 24))

/-- Number and time of the next grid instant. -/
def nextInstant (s : State) : BitVec 48 × Nat := instantFrom s 0

/-- The harvest cutoff of the latest grid instant's snapshot, G + P − 20 us (R20). -/
def cutoffAt (s : State) : Nat := s.grid.gridAt + period s - 8000

/-- Whether a snapshot is a GAP snapshot whose frames are not run, or is to be one (R45, R507). -/
def suppressed (s : State) (num : BitVec 48) : Bool :=
  s.asm_.gapSnaps.any (fun x => x.1 == num) ||
    (match s.grid.rephase with
      | some r => r.stepTick == num
      | none => false)

/-- The snapshot of a free-running frame by the time of its completing edge: that of the first
cutoff at or after it, and in the window of a re-phase's GAP snapshot the one after (R137, R164), which
takes its final number and time when its bank opens. -/
def freeSnap (s : State) (t : Int) : BitVec 48 × Int :=
  let nx := nextInstant s
  if t ≤ (cutoffAt s : Nat) ∧ !suppressed s s.grid.gridNum then (s.grid.gridNum, s.grid.gridAt)
  else if suppressed s nx.1 then (nx.1 + BitVec.ofNat 48 (2 ^ pexp s), (nx.2 + period s : Nat))
  else (nx.1, nx.2)

/-! ### Conditions of a lane -/

/-- Where a lane's frame starts in its period, in steps after G: the frame mark of an Aknun lane
falls 9 pips before its sample strike (R175). -/
def frameStart (s : State) (n : Nat) : Int :=
  let o := descOffset s (epIdx n ((lanePositions s n).headD 0))
  match cfgMode s n with
  | .aknun => o - 9 * (pipSteps s n : Nat)
  | _ => o

/-- The snapshot of a lane's frame or period window by a time at which it is under way or ends: number
and time of its grid instant, each under the words in force for it (R28, R46, R137, R176). -/
def laneSnap (s : State) (n : Nat) : BitVec 48 × Int :=
  let nx := nextInstant s
  let begins := fun (G : Int) => decide (G + frameStart (s.seenAt G) n ≤ s.grid.now)
  if begins nx.2 then (nx.1, nx.2)
  else if begins s.grid.gridAt then (s.grid.gridNum, s.grid.gridAt)
  else (s.grid.prevNum, s.grid.prevAt)

/-- Whether the times from `a` to `b` meet an activation pause (R507). -/
def inPause (s : State) (a b : Int) : Bool :=
  match s.upd.pauseSpan with
  | some w => decide (a < (w.2 : Int) ∧ (w.1 : Int) ≤ b)
  | none => false

/-- Whether a frame has an edge within the latest pause (R507). -/
def edgeInPause (s : State) (es : List Int) : Bool := es.any (fun e => inPause s e e)

/-- Whether a strong window or an activation pause kept the lane's frame of a grid instant from running
(R82, R507). -/
def windowed (s : State) (n : Nat) (at_ : Int) : Bool :=
  let t := at_ + frameStart s n
  inPause s t t ||
  match (s.lane n).spuSpan with
  | some w => decide ((w.1 : Int) ≤ t ∧ t < (w.2 : Int))
  | none => false

/-- The condition of a lane packet (R222, R433, R435); `ran` says whether its frame was run. -/
def packetCond (s : State) (n : Nat) (ran : Bool) (at_ : Int) : LaneCond :=
  let l := s.lane n
  if l.faultSeen || laneFault s n then .fault
  else if !ran && (l.gapUntilFrame || windowed s n at_) then .gap
  else .none

/-- The entries of endpoints that the lane has put to sleep (R221). -/
def asleepEntries (s : State) (n : Nat) : List Entry :=
  (lanePositions s n).filterMap (fun p =>
    if (s.ep (epIdx n p)).asleep then
      some { pos := p, value := 0, inst := 0, hasValue := false, husk := false, calStep := false, prov := .gap }
    else none)

/-! ### Queue banks -/

/-- The bytes of a lane packet (R221). -/
def packetBytes (p : Packet) : Nat := 8 + 8 * p.entries.length

/-- The bytes written into a bank. -/
def bankBytes (b : BankState) : Nat := b.pkts.foldl (fun a p => a + packetBytes p) 0

/-- The open bank of a region. -/
def RegionState.open_ (r : RegionState) : BankState := if r.openB then r.bankB else r.bankA
/-- The other bank of a region. -/
def RegionState.closed (r : RegionState) : BankState := if r.openB then r.bankA else r.bankB
/-- The region with its open bank replaced. -/
def RegionState.setOpen (r : RegionState) (b : BankState) : RegionState :=
  if r.openB then { r with bankB := b } else { r with bankA := b }
/-- The region with its other bank replaced. -/
def RegionState.setClosed (r : RegionState) (b : BankState) : RegionState :=
  if r.openB then { r with bankA := b } else { r with bankB := b }

/-- LOST of every recorded lane of a region whose bank of snapshot `num` is lost or emptied (R485). -/
def regionLost (s : State) (g : Nat) (num : BitVec 48) : State :=
  (s.hoard.lanes.filter (fun n => laneRegion n == g)).foldl (fun s n => happen s n num 0x08 0 []) s

/-- A queue overflow of a region with its DATA (R223, R224, R226). -/
def overflow (s : State) (g data : Nat) : State :=
  let full := (s.region g).overflows == BitVec.allOnes 8
  let s := s.onRegion g (fun r => { r with overflows := satInc r.overflows })
  let s := raise s 30 g (BitVec.ofNat 32 data)
  setQueue (if full then s else setRegionBit s g 19) g

/-- The bytes still kept back for one lane's on-time packets, in the configuration of the bank's snapshot
(R224): on a LIN lane, for each slot whose packet is not yet written. -/
def laneReserve (s : State) (b : BankState) (n : Nat) : Nat :=
  let mine := b.pkts.filter (fun p => p.lane == n && p.tag == b.snap)
  if (lanePositions s n).all (fun p => !epDue s (epIdx n p) b.snap) then 0
  else if cfgMode s n = .lin then
    let slots := (linSlots s n).filter (fun x =>
      decide (x.1 < 0x3C) && linSlotDue s x b.snap && !mine.any (fun p => p.slot == some x.1))
    slots.foldl (fun a x => a + 8 + 8 * ((lanePositions s n).filter (fun p =>
      nodeEn s n p && nodeFid s n p == x.1)).length) 0
  else if mine.isEmpty then 136 else 0

/-- The reserve of a region's open bank (R224). -/
def reserve (s : State) (g : Nat) : Nat :=
  let b := (s.region g).open_
  (regionLanes g).foldl (fun a n => a + laneReserve (s.seenAt b.at_) b n) 0

/-- Whether a lane's newest on-time packet replaces its earlier one (R223). -/
def replaces (s : State) (n : Nat) : Bool :=
  match cfgMode s n with
  | .sent => !sentSpc s n
  | .psi5 => !psi5Sync s n
  | _ => false

/-- A packet in place of an earlier one of its lane and snapshot: a serial message that a frame of the
period stored stays marked in the period's record (R146). -/
def Packet.over (p q : Packet) : Packet :=
  { p with entries := p.entries.map (fun e =>
      { e with husk := e.husk || q.entries.any (fun x => x.pos == e.pos && x.husk) }) }

/-- A packet written in place of the lane's earlier packet of the same snapshot, or at the end. -/
def putPacket (rep : Bool) (p : Packet) : List Packet → List Packet
  | [] => [p]
  | q :: qs => if rep && q.lane == p.lane && q.tag == p.tag then p.over q :: qs else q :: putPacket rep p qs

/-- The bank with an on-time packet, which takes the number that the bank's snapshot has. -/
def BankState.write (b : BankState) (rep : Bool) (p : Packet) : BankState :=
  { b with pkts := putPacket rep { p with tag := b.snap } b.pkts }

/-- An on-time packet enters the open bank. -/
def writeOnTime (s : State) (g : Nat) (p : Packet) : State :=
  s.onRegion g (fun r =>
    { r.setOpen (r.open_.write (replaces (s.seenAt p.inst) p.lane) p) with lastWrite := some s.grid.now })

/-- A late packet enters the open bank, unless it would cut into the reserve (R224). -/
def writeLate (s : State) (g : Nat) (p : Packet) : State :=
  let b := (s.region g).open_
  if 16384 < bankBytes b + packetBytes p + reserve s g then overflow s g 1
  else s.onRegion g (fun r => r.setOpen { b with pkts := b.pkts ++ [p] })

/-- Whether a grid instant at `a` comes before one at `b`: instants of different snapshots lie more than
62.5 us apart, and one that was predicted before a re-phase moves by no more (R45). -/
def earlier (a b : Int) : Bool := decide (a + 25000 < b)

/-- A lane's packet of a later snapshot enters its staging buffer (R223). -/
def stagePacket (s : State) (p : Packet) : State :=
  let l := s.lane p.lane
  if l.staged.length < 2 then s.setLane p.lane { l with staged := l.staged ++ [p] }
  else overflow s (laneRegion p.lane) 3

/-- The collector takes a lane packet whose write begins now (R223, R225, R230): by the time of its
snapshot's grid instant it is a later one's, on time, or late. A write that begins exactly at the cutoff
goes into the bank that closes there. -/
def collect (s : State) (p : Packet) : State :=
  let g := laneRegion p.lane
  let r := s.region g
  let b := r.open_
  if earlier b.at_ p.inst then stagePacket s p
  else if earlier p.inst b.at_ then
    let c := r.closed
    if c.closedAt = some s.grid.now ∧ !earlier p.inst c.at_ then
      if c.lost then s
      else s.onRegion g (fun r => r.setClosed (c.write (replaces (s.seenAt p.inst) p.lane) p))
    else if b.lost then s
    else writeLate s g p
  else if b.lost then s
  else writeOnTime s g p

/-- A frame's packet: built with the condition of R222 and the entries of sleeping endpoints, and
handed to the collector (R220, R221). -/
def handOver (s : State) (n : Nat) (num : BitVec 48) (at_ : Int) (ran : Bool) (base : Int) (es : List Entry)
    (slot : Option Nat := none) : State :=
  let asleep := (asleepEntries s n).filter (fun e => es.all (fun x => x.pos != e.pos))
  collect (s.onLane n (fun l => { l with lastTag := some num }))
    { lane := n, tag := num, inst := at_, cond := packetCond s n ran at_, base := base, entries := es ++ asleep
      slot := slot }

/-- A sync cycle of a synchronous PSI5 lane is over, and its packet is handed over (R220): at the end of the
frame of its last slot, and at the latest at the next sync pulse or at its snapshot's cutoff, before which
its occupancy ends (R155). -/
def closeCycle (s : State) (n : Nat) : State :=
  match (s.lane n).trig with
  | some t =>
    if t.done then s
    else
      let s := s.onLane n (fun l => { l with trig := some { t with done := true } })
      if (s.lane n).mode = .psi5 then
        s.under t.inst (fun s => handOver s n t.num t.inst (!(s.lane n).gapUntilFrame) (t.at_ - t.inst) t.entries)
      else s
  | none => s

/-- The cycle of a PSI5 lane that belongs to the snapshot at its cutoff. -/
def cutCycle (s : State) (n : Nat) : State :=
  match (s.lane n).trig with
  | some t => if (s.lane n).mode = .psi5 ∧ t.num = s.grid.gridNum then closeCycle s n else s
  | none => s

/-! ### Raw edges (R472, R489) -/

/-- Transitions and a level pair kept for the raw-edge trace of a recorded lane: fine stamps relative
to a grid instant at step `at_`. Those before the latest grid instant belong to the period before; in an export,
which has sealed that period's block, they stay with the rest of their frame (log entry 135). -/
def keepRaw (s : State) (n : Nat) (at_ : Int) (fines : List Int) (lev : Int × Int) : State :=
  if recorded s n && s.hoard.hmodeNow == 1 then
    let es := fines.map (fun f => 8 * at_ + f)
    let (early, late) := if s.hoard.hstate = .exporting then ([], es)
      else es.partition (fun e => decide (e < 8 * (s.grid.gridAt : Int)))
    let s := if early.isEmpty then s else amendRaw s n early
    s.onLane n (fun l => { l with raw := l.raw ++ late, rawLev := l.rawLev ++ [lev] })
  else s

/-! ### The harvest cutoff -/

/-- A condition packet at the end of a period in which a lane has a due endpoint and ran no frame
(R220); a lane disconnected for a replay hands over GAP (R495). -/
def conditionPacket (s : State) (n : Nat) : State :=
  let num := s.grid.gridNum
  let l := s.lane n
  let has := ((s.region (laneRegion n)).open_.pkts.any (fun p => p.lane == n && p.tag == num)) ||
    l.lastTag == some num
  if l.replayed then
    if (lanePositions s n).isEmpty then s
    else collect s { lane := n, tag := num, inst := s.grid.gridAt, cond := .gap, base := 0, entries := [] }
  else if has || (lanePositions s n).all (fun p => !epDue s (epIdx n p) num) then s
  else
    let c := packetCond s n false s.grid.gridAt
    if replaces s n && c == .none then s
    else collect s { lane := n, tag := num, inst := s.grid.gridAt, cond := c, base := 0, entries := asleepEntries s n }

/-- The due periods without an accepted frame of the endpoints of a SENT, PSI5 or LIN lane (R203), where a
frame was expected: the lane ran its traffic, and the period is no GAP. -/
def countQuiet (s : State) (n : Nat) : State :=
  let l := s.lane n
  let num := s.grid.gridNum
  if l.lstate = .run ∧ (l.mode = .sent ∨ l.mode = .psi5 ∨ l.mode = .lin ∧ l.linRun ∧ !l.stuck) ∧ !suppressed s num ∧
      packetCond s n false s.grid.gridAt ≠ .gap then
    let b := (s.region (laneRegion n)).open_
    (lanePositions s n).foldl (fun s p =>
      let i := epIdx n p
      if epDue s i num then
        let got := b.pkts.any (fun k => k.lane == n && k.tag == num && k.entries.any (fun e => e.pos == p))
        s.onEp i (fun e => { e with quiet := if got then 0 else min 8 (e.quiet + 1) })
      else s) s
  else s

/-- The lanes that a period's end leaves with the conditions that still stand. What R222 calls "during the
period" is collected for a lane fault from one harvest cutoff to the next (DESIGN CHOICE, log entry 105). -/
def renewFault (s : State) (n : Nat) : State :=
  if (s.lane n).faultSeen then s.onLane n (fun l => { l with faultSeen := laneFault s n }) else s

/-- The monitors of a region at a close (R383, R384). The completion time in 10 ns units is the floor of its 2.5 ns
steps (DESIGN CHOICE, log entry 132). -/
def closeMonitors (s : State) (g : Nat) : State :=
  s.onRegion g (fun r =>
    let fill := bankBytes r.open_
    let m := { r.mon with fillMin := min r.mon.fillMin (min 65535 fill), fillMax := max r.mon.fillMax (min 65535 fill) }
    match r.lastWrite with
    | some t =>
      let x := (t - s.grid.gridAt) / 4
      let base := (s.inForce (aMonRegion g 8)).toNat
      let width := ranged 1 65535 (fld (s.inForce (aMonRegion g 12)) 15 0)
      let bin := min 15 ((x - base) / width)
      { r with lastWrite := none, mon := { m with
          ctMin := min m.ctMin x, ctMax := max m.ctMax x
          ctHist := Tbl.set (fun _ => 0) m.ctHist bin (satAdd 4294967295 (Tbl.get (fun _ => 0) m.ctHist bin)) } }
    | none => { r with mon := m })

/-- Packets in the staging buffers of a region whose bank has opened, in ascending lane number (R223):
those that belong to no later snapshot than the bank's. -/
def writeStaged (s : State) (g : Nat) : State :=
  let b := (s.region g).open_
  (regionLanes g).foldl (fun s n =>
    let l := s.lane n
    let (now_, rest) := (l.staged.filter (fun p => !earlier b.at_ p.inst), l.staged.filter (fun p => earlier b.at_ p.inst))
    if now_.isEmpty then s
    else
      let s := s.setLane n { l with
        staged := rest
        lastTag := if now_.any (fun p => some p.tag == l.lastTag) then some b.snap else l.lastTag }
      now_.foldl (fun s p => collect s { p with tag := b.snap, inst := b.at_, base := p.base + (p.inst - b.at_) }) s) s

/-- A region's banks swap at the cutoff (R225, R226): the open bank closes, the other is emptied if
it still holds packets, and opens for the next snapshot. -/
def swapBanks (s : State) (g : Nat) : State :=
  let s := closeMonitors s g
  let r := s.region g
  let old := r.closed
  let s := if old.pkts.isEmpty && !old.lost then s else
    s.onAsm (fun a => { a with build := a.build.map (fun b =>
      if b.num = old.snap then { b with lostRegions := b.lostRegions ++ [g] } else b) })
  let s := if old.pkts.isEmpty then s else
    let s := if s.asm_.build.any (fun b => b.num == old.snap) && !old.lost then regionLost s g old.snap else s
    overflow s g 2
  let closing := { r.open_ with closedAt := some s.grid.now }
  let nx := nextInstant s
  let opening : BankState := { snap := nx.1, at_ := nx.2 }
  let s := s.onRegion g (fun r => { (r.setOpen closing).setClosed opening with openB := !r.openB })
  let s := if fld (s.inForce (aRegion g 0x3C0)) 17 16 % 2 = 1 then
      setQueue (raise s 29 g 1) (16 + g) else s
  writeStaged s g

/-- The lanes lost for the snapshot under way: clusters that stopped on parity, or all of them after
an unlock of the lane PLL (R19, R21). -/
def lostNow (s : State) : List Nat :=
  if s.asm_.pllLost then List.range 512
  else (List.range 512).filter (fun n => (s.cluster (laneCluster n)).lost)

/-- Whether a snapshot is built: not before the first (R459), nor from the grid instant at which an
entry to OFF or SENTINEL stops them (R439, R444) until the resuming one (R445). -/
def built (s : State) (num : BitVec 48) : Bool :=
  match s.asm_.stopped with
  | none => true
  | some x => decide (num.toNat < x.toNat) ||
      (match s.mode.resume with
        | some r => decide (r ≤ num.toNat)
        | none => false)

/-- The harvest cutoff of the latest grid instant's snapshot (R225, R232). FLAGS bit 1 TIME_DEGRADED is what
stands at the cutoff (R239, DESIGN CHOICE, log entry 107). -/
def cutoff (s : State) : State :=
  let num := s.grid.gridNum
  let s := (List.range 512).foldl cutCycle s
  let s := (List.range 512).foldl countQuiet ((List.range 512).foldl conditionPacket s)
  let lost := lostNow s
  let s := lost.foldl (fun s n => happen s n num 0x08 0 []) s
  let flags := (s.asm_.gapSnaps.filter (fun x => x.1 == num)).foldl (fun a x => a ||| x.2)
    (BitVec.ofNat 8 (b2n s.grid.unlocked + 2 * b2n s.grid.degraded))
  let b : Build := { num := num, at_ := s.grid.gridAt, pexp := BitVec.ofNat 3 (pexp s), flags := flags
                     lostRegions := [], lostLanes := lost }
  let keep := built s num
  let s := s.onAsm (fun a => { a with build := if keep then a.build ++ [b] else a.build, pllLost := false })
  let s := (List.range 8).foldl swapBanks s
  let s := if keep then s else
    (List.range 8).foldl (fun s g => s.onRegion g (fun r => r.setClosed { r.closed with pkts := [] })) s
  let s := (List.range 64).foldl (fun s c =>
    if (s.cluster c).lost then s.onCluster c (fun x => { x with lost := false }) else s) s
  (List.range 512).foldl renewFault s

/-- Whether the cutoff of the latest grid instant's snapshot has come and has not been taken. -/
def cutoffDue (s : State) : Bool :=
  s.grid.on && s.mode.dev.dataPath && decide (cutoffAt s ≤ s.grid.now) &&
    (s.region 0).open_.snap == s.grid.gridNum

/-- The cutoff as of its own instant, for a time at or after it (R225). -/
def cutoffNow (s : State) : State :=
  if cutoffDue s then
    let t := s.grid.now
    let es := s.cycle
    let s := s.onGrid (fun g => { g with now := cutoffAt s })
    let sub := s.subtick
    let s := flushCycle { s with cycle := es.filter (fun e => decide (e.sub.toNat < sub)) }
    let s := cutoff { s with cycle := es.filter (fun e => e.sub.toNat == sub) }
    let late := es.filter (fun e => decide (sub < e.sub.toNat))
    let s := if late.isEmpty then s else { flushCycle s with cycle := late }
    let s' := s.onGrid (fun g => { g with now := t })
    if late.isEmpty && s'.subtick != sub then { flushCycle s with grid := s'.grid } else s'
  else s

/-- A lane's frame ends after a cutoff that has had no row of its own: the banks have swapped by then, and
a write that begins at the cutoff itself comes before (R225, R244). -/
def passCutoff (s : State) : State := if cutoffAt s < s.grid.now then cutoffNow s else s

/-! ### Flush and pointers -/

/-- FLUSH of a region (R228): both banks are emptied, and each whose snapshot is not complete is
lost. -/
def flushRegion (s : State) (g : Nat) : State :=
  let r := s.region g
  let c := r.closed
  let draining := s.asm_.build.any (fun b => b.num == c.snap)
  let s := if r.open_.lost then s else regionLost s g r.open_.snap
  let s := if draining && !c.lost then regionLost s g c.snap else s
  let s := s.onAsm (fun a => { a with build := a.build.map (fun b =>
    if b.num = c.snap then { b with lostRegions := b.lostRegions ++ [g] } else b) })
  s.onRegion g (fun r =>
    { (r.setOpen { r.open_ with pkts := [], lost := true }).setClosed
        { c with pkts := [], lost := c.lost || draining } with flushes := satInc r.flushes })

/-! ### Meanings -/

/-- HARVEST_CUTOFF (R225): at G + P − 20 us the closing bank closes, the other bank opens, and the
assembler starts the drain. -/
def execHarvestCutoff (dt : Nat) (s : State) : Out :=
  run dt s cutoffNow

/-- QUEUE_TIMEOUT (R227): a closed bank still holds undrained packets TIMEOUT us after it closed. -/
def execQueueTimeout (dt : Nat) (g : Region) (s : State) : Out :=
  run dt s (fun s =>
    let w := s.inForce (aRegion g 0x3C0)
    let b := (s.region g).closed
    match b.closedAt with
    | some t =>
      if 2 ≤ fld w 17 16 ∧ !b.pkts.isEmpty ∧ t + 400 * ranged 1 4095 (fld w 11 0) ≤ s.grid.now then
        setQueue (raise (s.onRegion g (fun r => r.setClosed { b with closedAt := none })) 29 g 2) (16 + g.val)
      else s
    | none => s)

/-- QUEUE_PTR (R229): the copies of a bank's pointer differ, and the region empties that bank and
loses it for its snapshot. -/
def execQueuePtr (dt : Nat) (g : Region) (k : Bank) (s : State) : Out :=
  run dt s (fun s =>
    let isB := decide (k = .b)
    let r := s.region g
    let b := if isB then r.bankB else r.bankA
    let s := s.onAsm (fun a => { a with build := a.build.map (fun x =>
      if x.num = b.snap then { x with lostRegions := x.lostRegions ++ [g.val] } else x) })
    let live := r.openB == isB || s.asm_.build.any (fun x => x.num == b.snap)
    let s := if live && !b.lost then regionLost s g b.snap else s
    let b' := { b with pkts := [], lost := b.lost || live }
    let s := s.onRegion g (fun r =>
      { (if isB then { r with bankB := b' } else { r with bankA := b' }) with ptrResets := satInc r.ptrResets })
    setQueue (setRegionBit (raise s 31 g (BitVec.ofNat 32 (b2n isB))) g 23) (8 + g.val))

/-- The packets that a failed transfer carried, which are gone: those of the lanes `ns` in a region's closed bank of
snapshot `num` (R17). -/
def dropCarried (s : State) (g : Nat) (num : BitVec 48) (ns : List Nat) : State :=
  let c := (s.region g).closed
  if c.snap = num then
    s.onRegion g (fun r => r.setClosed { c with pkts := c.pkts.filter (fun p => !ns.contains p.lane) })
  else s

/-- LINK_RETRY (R17): a die-to-die transfer fails its CRC and is repeated; one that fails twice in a
row loses its content, which for a drain is the packets of the lanes it carried, late ones among them. -/
def execLinkRetry (dt : Nat) (g : Region) (lanes : List Lane) (twice : Bool) (s : State) : Out :=
  run dt s (fun s =>
    let top := 4294967295
    let ns := (lanes.map Fin.val).filter (fun n => laneRegion n == g.val)
    let s := s.onAsm (fun a => { a with
      cnt := { a.cnt with linkRetries := satAdd top a.cnt.linkRetries, linkLost := satAdd top a.cnt.linkLost (b2n twice) }
      build := if twice then match a.build with
          | b :: bs => { b with lostLanes := b.lostLanes ++ ns } :: bs
          | [] => [] else a.build })
    if twice then
      let num := match s.asm_.build with
        | b :: _ => some b.num
        | [] => none
      let s := match num with
        | some num => dropCarried (ns.foldl (fun s n => happen s n num 0x08 0 []) s) g num ns
        | none => s
      raise s 3 g 0
    else s)

end Sys2Proof.Machine
end

