-- ==== Sys2Proof/Machine/Line.lean ====
section
/-!
DEFINITION. The lane as a unit: conforming endpoints behind it gaining and losing power (R119, R130),
the lane states (R131), bus clear and line reset (R90, R92), shorts, stuck lines and their retries
(R89, R91, R156, R163), strong pull-up budgets and windows (R82 to R88), the cluster sequencer (R19)
and the lane PLL (R21).
-/

namespace Sys2Proof.Machine

/-! ### The endpoints of a chain (R119, R130) -/

/-- An endpoint that has lost its power (R119): what stands in its non-volatile storage stays (R112). -/
def Endpoint.off (e : Endpoint) : Endpoint :=
  { regs := e.nvRegs, nvRegs := e.nvRegs, ident := e.ident, caps := e.caps, ctr := e.ctr }

/-- CAPS of the endpoint at a place at its power-up (R110): CONV_CODE is 0xFF where CONV is 0, VERSION is 1,
and the rest is the maker's (log entry 119). -/
def makerCaps (i : Nat) : Word :=
  let w := Config.makerCaps i
  (w &&& 0xF8FF0000) ||| (if bit w 27 then w &&& 0xFF00 else 0xFF00) ||| 0x10

/-- The endpoint at a place whose IN goes high at `t` from no power: it starts up within 300 us, with its
maker's values (R80, R110, R122). -/
def Endpoint.start (e : Endpoint) (i t k : Nat) : Endpoint :=
  { e.off with powered := true, startAt := t + min 120000 k, ident := Config.makerId i, caps := makerCaps i }

/-- Whether an endpoint stands ready for frames: powered, its IN high and its start-up over (R130). -/
def Endpoint.ready (e : Endpoint) (now : Nat) : Bool := e.powered && e.lowAt.isNone && decide (e.startAt ≤ now)

/-- ATT_READY and ATT_TAG: the tag of the latest ATTEST once it is computed (R117). -/
def Endpoint.attest (e : Endpoint) (now : Nat) : Bool × BitVec 64 :=
  match e.attNew with
  | some (t, x) => if t ≤ now then (true, x) else (e.attReady, e.attTag)
  | none => (e.attReady, e.attTag)

/-- STATUS of an endpoint (R110). -/
def Endpoint.statusWord (e : Endpoint) (now : Nat) : Word :=
  pack [(28, 4, e.pos.getD 0), (27, 1, b2n e.pass), (26, 1, b2n e.asleep), (25, 1, b2n (e.attest now).1),
    (24, 1, b2n (decide (now < e.busyTo))), (8, 8, e.hdrErr.toNat), (0, 8, e.frameErr.toNat)]

/-- The register space of an endpoint (R109, R110). -/
def Endpoint.reg (e : Endpoint) (now addr : Nat) : Word :=
  if addr = 0x00 then BitVec.ofNat 32 (e.ident.toNat / 2 ^ 32)
  else if addr = 0x01 then BitVec.ofNat 32 e.ident.toNat
  else if addr = 0x02 then e.caps
  else if addr = 0x03 then e.statusWord now
  else if addr = 0x08 then BitVec.ofNat 32 ((e.attest now).2.toNat / 2 ^ 32)
  else if addr = 0x09 then BitVec.ofNat 32 (e.attest now).2.toNat
  else if addr < 0x20 then 0
  else Tbl.get (fun _ => 0) e.regs addr

/-- One endpoint of a chain changed. -/
def State.onEndpoint (s : State) (i : Nat) (f : Endpoint → Endpoint) : State := s.setEndpoint i (f (s.endpoint i))

/-- A time of R70, R80, R89 and R90 in the lane's grade: `t` is the standard-grade time in steps. -/
def graded (s : State) (n t : Nat) : Nat := t * 2 ^ cfgGrade s n / 2

/-- Every IN of a lane's chain stops being high at time `t` (R119). -/
def chainOff (s : State) (n : Nat) (t : Int) : State :=
  (List.range 16).foldl (fun s p => s.onEndpoint (epIdx n p) (Endpoint.cut t)) s

/-- Whether an endpoint has forgotten its position after its IN was low for `d` steps (R119): not within
its hold-up time of 300 us in standard grade, by 0.95 ms in any case, and between them as it chooses. -/
def forgets (s : State) (n i : Nat) (d : Int) : Bool :=
  if d ≤ (graded s n 120000 : Nat) then false else if 380000 ≤ d then true else Config.forgets s.fresh i

/-- An endpoint whose IN stands high from `t` on: it goes on, or starts up (R119, R122, R130). -/
def Endpoint.rise (e : Endpoint) (s : State) (n i t : Nat) : Endpoint :=
  let k := Config.endpointTime s.fresh i
  if !e.powered then e.start i t k
  else match e.lowAt with
    | none => e
    | some l => if forgets s n i ((t : Int) - l) then e.start i t k else { e with lowAt := none }

/-- The line's high at time `t` reaches every endpoint before which each pass switch is closed (R122);
the others' IN are not high (R119). -/
def chainSettle (s : State) (n t : Nat) : State :=
  let a := (List.range 16).foldl (fun (a : State × Bool) p =>
    let i := epIdx n p
    if a.2 then
      let e := (a.1.endpoint i).rise a.1 n i t
      (a.1.setEndpoint i e, e.pass)
    else (a.1.onEndpoint i (Endpoint.cut t), false)) (s, true)
  a.1.draw.2

/-- Endpoints whose IN has been low for 0.95 ms have forgotten their positions (R119). -/
def chainForget (s : State) : State :=
  s.chain.foldl (fun s x => match x.2.lowAt with
    | some t => if t + 380000 ≤ (s.grid.now : Int) then s.setEndpoint x.1 x.2.off else s
    | none => s) s

/-- A lane's source goes off at `t`, and its line is not high any more (R119, R120). -/
def sourceOff (s : State) (n : Nat) (t : Int) : State :=
  chainOff (s.onLane n (fun l => { l with offAt := some (l.offAt.getD s.grid.now), rested := false })) n t

/-- A lane's source goes on (R90, R91): whether it was off for at least 1 ms decides on the chain reset
of R120. -/
def sourceOn (s : State) (n : Nat) : State :=
  let s := s.onLane n (fun l => match l.offAt with
    | some t => { l with offAt := none, rested := decide (t + 400000 ≤ s.grid.now) }
    | none => l)
  if (s.lane n).mode = .aknun then chainSettle s n s.grid.now else s

/-! ### Completing an endpoint access request (R364) -/

/-- LIN_DIAG_DONE's DATA for a result (R161, R374). -/
def diagCode : AccState → Nat
  | .done => 1
  | .checksum => 3
  | _ => 2

/-- A pending request completes: EP_ACCESS_DONE, and LIN_DIAG_DONE for a diagnostic request (R364). -/
def accComplete (s : State) (n : Nat) (st : AccState) (d0 d1 : Option Word) : State :=
  let a := (s.lane n).acc
  if a.rstate = .pending then
    let s := s.onLane n (fun l => { l with acc := { l.acc with
      rstate := st, begun := false, data0 := d0.getD l.acc.data0, data1 := d1.getD l.acc.data1 } })
    let s := raise s 23 n (BitVec.ofNat 32 st.code)
    if a.op = 3 then raise s 24 n (BitVec.ofNat 32 (diagCode st)) else s
  else s

/-- A lane that leaves RUN refuses its pending request (R364). -/
def refuseAccess (s : State) (n : Nat) : State := accComplete s n .refused none none

/-! ### Strong pull-up (R82 to R88) -/

/-- The charge of the lane die in 0.1 mA: windows, stages, enumeration waves and warm lanes (R85,
R446, R457). -/
def dieCharge (s : State) : Nat :=
  let wins := (s.lanes.filter (fun x => match x.2.spu with
    | some q => q.admitted.isSome
    | none => false)).length
  let stages := (s.regions.filter (fun x => x.2.charged)).length
  let cold := ((s.mode.wave.getD []).filter (fun n => (s.lane n).lstate == .enumerating)).length
  let warm := (s.lanes.filter (fun x => x.2.warm && (x.2.lstate == .clearing || x.2.lstate == .enumerating))).length
  400 * wins + 4224 * stages + 132 * cold + 15 * warm

/-- The charge of a region in 0.1 mA (R85). -/
def regionCharge (s : State) (g : Nat) : Nat :=
  400 * ((s.lanes.filter (fun x => laneRegion x.1 == g && match x.2.spu with
    | some q => q.admitted.isSome
    | none => false)).length)

/-- A lane's request is withdrawn, or its window ends at once (R84, R88). -/
def endSpu (s : State) (n : Nat) : State :=
  let l := s.lane n
  match l.spu with
  | none => s
  | some q =>
    let span := match q.window with
      | some w => some (w.1, s.grid.now + 8000)
      | none => l.spuSpan
    s.setLane n { l with spu := none, spuStale := false, spuSpan := span }

/-- Whether a time lies in a lane's strong window with its return phase (R82). -/
def inWindow (s : State) (n t : Nat) : Bool :=
  match (s.lane n).spuSpan with
  | some w => decide (w.1 ≤ t ∧ t < w.2)
  | none => false

/-- A lane's strong pull-up permission (R88, R166). -/
def spuOk (s : State) (n : Nat) : Bool :=
  let w := s.inForce (aLane n 0)
  bit w 26 && bit w 24

/-! ### Entering and leaving the lane states (R131) -/

/-- Positions unknown: what enumeration had found is forgotten. -/
def LaneState.forget (l : LaneState) : LaneState :=
  { l with enumN := 0, enumPos := none, enumTry := 0, enumStep := 0, enumFail := false, failPos := 0
           chainEnd := false, opened := none, openOwed := none, enumOwed := false }

/-- DROPS of a route. -/
def routeDrop (s : State) (r : Nat) : State := s.onRoute r (fun x => { x with drops := satInc x.drops })

/-- The pending route write of a destination is dropped and counted (R272). A LIN destination's output word stays
as the route has set it (DESIGN CHOICE, log entry 129). -/
def dropRouteWrite (s : State) (i : Nat) : State :=
  match (s.ep i).rtWrite with
  | some (r, _, _) => routeDrop (s.onEp i (fun e => { e with rtWrite := none })) r
  | none => s

/-- The pending route writes to a lane that is isolated, suspended or without power (R272). -/
def dropRouteWrites (s : State) (n : Nat) : State :=
  (List.range 16).foldl (fun s p => dropRouteWrite s (epIdx n p)) s

/-- A lane has left ENUMERATING: it is no longer of its wave, nor a warm lane, and its charge ends (R457). -/
def leaveWave (s : State) (n : Nat) : State :=
  let s := match s.mode.wave with
    | some w => if w.contains n then s.onMode (fun m => { m with wave := some (w.filter (· != n)) }) else s
    | none => s
  if (s.lane n).warm then s.onLane n (fun l => { l with warm := false }) else s

/-- A lane without power: source off, line released, frames abandoned (R131, R428). -/
def unpower (s : State) (n : Nat) : State :=
  let s := leaveWave (dropRouteWrites (endSpu (refuseAccess s n) n) n) n
  let s := s.onLane n (fun l => { l.forget with
    lstate := .unpowered, clearAt := none, keepPos := false, short := false, stuck := false, swing := false
    retries := 0, linVbat := false, linBreaks := 0, poweredAt := none, probeOwed := false, trig := none, coldWait := false, linRun := false, linWoke := none })
  sourceOff s n s.grid.now

/-- A lane begins a bus clear (R90, R92) at `t0`; `keep` says that its positions stay known. -/
def startClear (s : State) (n : Nat) (t0 : Option Nat) (keep : Bool) : State :=
  s.onLane n (fun l => { (if keep then l else l.forget) with lstate := .clearing, clearAt := t0, keepPos := keep })

/-- Every endpoint of a lane becomes a sprout (R203). -/
def laneSprouts (s : State) (n : Nat) : State :=
  (lanePositions s n).foldl (fun s p => becomeSprout s (epIdx n p)) s

/-- A lane's power-up step in its mode; every endpoint of a PSI5 lane begins as a sprout (R131, R135, R434,
R446, R456). -/
def powerLane (s : State) (n : Nat) : State :=
  let m := cfgMode s n
  let s := s.onLane n (fun l => { l with
    mode := m, modeAt := none, suspended := false, poweredAt := some s.grid.now, lastEdge := s.grid.now
    silent := false, cal := { l.cal with seedNext := true } })
  let s := if m = .off ∨ m = .aknun then s else sourceOn s n
  match m with
  | .off => s
  | .aknun => startClear s n none false
  | .psi5 => laneSprouts (s.onLane n (fun l => { l with lstate := .run, syncFrom := s.grid.now + 4000000 })) n
  | _ => s.onLane n (fun l => { l with lstate := .run })

/-- Whether the positions of a lane stay known through a bus clear: it was in RUN (R131). -/
def keepsPos (l : LaneState) : Bool := l.lstate == .run || (l.lstate == .clearing && l.keepPos)

/-- A lane that runs leaves RUN for a bus clear and refuses its pending request (R92, R131, R364). -/
def reclear (s : State) (n : Nat) (t0 : Option Nat) : State :=
  let keep := keepsPos (s.lane n)
  let s := if (s.lane n).lstate = .run then refuseAccess s n else s
  startClear (s.onLane n (fun l => { l with rested := false })) n t0 keep

/-- A lane resumes after its sequencer or the lane PLL: a bus clear that keeps positions known in RUN
(R19, R21, R92). A bus lane takes no frame that began before. -/
def resumeLane (s : State) (n : Nat) : State :=
  let l := s.lane n
  if l.lstate = .unpowered ∨ l.lstate = .isolated then s
  else if l.mode = .aknun then reclear s n none
  else s.setLane n { l with readyAt := s.grid.now }

/-- A LINE happening of the hoard (R485). -/
def happenLine (s : State) (n code declared : Nat) : State :=
  happenNow s n 0x05 0 [BitVec.ofNat 8 code, BitVec.ofNat 8 declared]

/-- A short is declared and the lane isolates (R89, R156). -/
def declareShort (s : State) (n data : Nat) : State :=
  let s' := leaveWave (dropRouteWrites (endSpu (refuseAccess s n) n) n) n
  let s' := s'.onLane n (fun l => { l.forget with
    lstate := .isolated, short := true, stuck := false, clearAt := none, keepPos := false, trig := none
    isoAt := s.grid.now, isoTry := 0, retries := 0, coldWait := false })
  let t : Int := match (s.lane n).clearAt with
    | some t0 => t0
    | none => s.grid.now
  withFaults [n] s (happenLine (raise (sourceOff s' n t) 12 n (BitVec.ofNat 32 data)) n data 1)

/-- LINE_STUCK of a standard bus lane (R148, R163); on a LIN lane it also declares a short to VBAT. -/
def declareStuck (s : State) (n data : Nat) : State :=
  let s' := s.onLane n (fun l => { l with stuck := true, linVbat := data == 3, short := data == 3 })
  withFaults [n] s (happenLine (raise s' 13 n (BitVec.ofNat 32 data)) n data 1)

/-- Whether a lane's line carries traffic now: RUN, ENUMERATING or CLEARING. -/
def powered (s : State) (n : Nat) : Bool :=
  let l := s.lane n
  l.lstate == .run || l.lstate == .enumerating || l.lstate == .clearing

/-- Enumeration is complete (R121): the lane enters RUN (R131). -/
def enumDone (s : State) (n : Nat) : State :=
  (leaveWave s n).onLane n (fun l => { l with
    enumPos := none, enumStep := 0, enumTry := 0, enumFail := false, coldWait := false
    lstate := if l.lstate = .enumerating then .run else l.lstate })

/-- Whether a lane's rail is suspended (R433, R435). -/
def suspendedNow (s : State) (n : Nat) : Bool :=
  match cfgMode s n with
  | .aknun | .sent => (s.region (laneRegion n)).second
  | .psi5 | .lin => s.mode.vbatSusp
  | .off => false

/-! ### LIN slots (R159, R164, R187) -/

/-- The occurrence of a LIN slot that the present tick lies in, or has just ended: its first tick's
time, where the tick lies within `len` ticks of it (R159, R181). -/
def linOccur (s : State) (x : Nat × Nat × Nat × Nat) : Option Nat :=
  let d := (s.grid.tick.toNat + x.2.1 - x.2.2.1 % x.2.1) % x.2.1
  if d ≤ x.2.2.2 then some (s.grid.tickAt - 50000 * d) else none

/-- From the first slot of the diagnostic pair to the second, in steps. -/
def pairGap (l : LaneState) : Nat :=
  match l.linSched.find? (fun x => x.1 == 0x3C), l.linSched.find? (fun x => x.1 == 0x3D) with
  | some a, some b => 50000 * (b.2.2.1 - a.2.2.1)
  | _, _ => 0

/-- Whether the slot of an identifier that began at `t` has been served. -/
def linOld (l : LaneState) (fid t : Nat) : Bool :=
  l.linServed.any (fun x => x.1 == fid && decide (t ≤ x.2 + 25000))

/-- A slot as `linFlight` names it: the second slot of the diagnostic pair stands for the pair, from its first
slot on. -/
def flightKey (l : LaneState) (fid t : Nat) : Nat × Nat :=
  if fid = 0x3D then (0x3C, t - pairGap l) else if fid = 0x3C then (0x3D, t) else (fid, t)

/-- The slots of a lane's schedule that are in flight at `T`: begun earlier, not over, and the frame not
yet sent. -/
def linFlying (s : State) (n T : Nat) : List (Nat × Nat × Nat) :=
  let l := s.lane n
  if l.mode = .lin ∧ l.linRun then
    l.linSched.filterMap (fun x => match linOccur s x with
      | some t =>
        let k := flightKey l x.1 t
        let over_ := t + 50000 * x.2.2.2
        if t < T ∧ T < over_ ∧ !linOld l k.1 k.2 then some (k.1, k.2, over_) else none
      | none => none)
  else []

/-- A schedule or its ticks move at `T`: the slots in flight complete (R164, R187). -/
def keepFlight (s : State) (n T : Nat) : State :=
  let kept := (s.lane n).linFlight.filter (fun x => decide (T < x.2.2))
  match (linFlying s n T).filter (fun x => !kept.any (fun y => y.1 == x.1)) with
  | [] => s
  | xs => s.onLane n (fun l => { l with linFlight := kept ++ xs })

/-- Every LIN lane's slot in flight as the ticks move at `T` (R164). -/
def keepFlights (s : State) (T : Nat) : State := s.lanes.foldl (fun s x => keepFlight s x.1 T) s

/-- When the slots in flight are over. -/
def flightOver (l : LaneState) : Nat := l.linFlight.foldl (fun a x => max a x.2.2) 0

/-- The slot in flight with a key whose frame ends now. -/
def flightNow (s : State) (l : LaneState) (key : Nat) : Option Nat :=
  (l.linFlight.find? (fun x => x.1 == key && decide (s.grid.tickAt ≤ x.2.2) && !linOld l key x.2.1)).map (·.2.1)

/-- The present occurrence of an identifier's slot in the schedule. -/
def occurNow (s : State) (l : LaneState) (fid : Nat) : Option Nat :=
  match l.linSched.find? (fun x => x.1 == fid) with
  | some x => linOccur s x
  | none => none

/-- When the slot of a frame identifier began whose frame ends now: the slot in flight, or the present
occurrence of the schedule's, which is skipped where it began before the slot in flight had ended (R164,
R187). A slot has one frame. -/
def linSlotNow (s : State) (n fid : Nat) : Option Nat :=
  let l := s.lane n
  match flightNow s l fid with
  | some t => some t
  | none =>
    match occurNow s l fid with
    | some t => if flightOver l ≤ t ∧ !linOld l fid t then some t else none
    | none => none

/-- When the diagnostic pair began whose second slot ends now (R159, R161). A pair whose second slot falls to a
new schedule is not whole and serves no request; one whose ticks moved between its slots goes on (R164, R187,
log entry 121). -/
def pairNow (s : State) (n : Nat) : Option Nat :=
  let l := s.lane n
  match flightNow s l 0x3C with
  | some t => some t
  | none =>
    match occurNow s l 0x3D with
    | some t1 =>
      let t0 := t1 - pairGap l
      let moved := l.linFlight.any (fun x => x.1 == 0x3D && decide (((x.2.1 : Int) - t0).natAbs ≤ 25000))
      if flightOver l ≤ t1 ∧ (flightOver l ≤ t0 ∨ moved) ∧ !linOld l 0x3C t0 then some t0 else none
    | none => none

/-- Whether a LIN lane's pending diagnostic request has begun: the pair that it waited for is under way (R164,
R364). -/
def diagBegun (s : State) (n : Nat) : Bool :=
  let l := s.lane n
  let since := fun (t : Nat) => decide (l.acc.at_ ≤ t)
  l.acc.rstate == .pending && l.acc.op == 3 && l.linRun && !l.stuck &&
    ((flightNow s l 0x3C).any since || (match occurNow s l 0x3C with
        | some t => since t && !linOld l 0x3C t
        | none => false) || (pairNow s n).any since)

/-! ### Leaving a mode (R135) -/

/-- When the frames that a lane has under way for earlier snapshots have ended (R28, R135): an Aknun lane's
period window, a SENT or PSI5 lane's frame or cycle, a LIN lane's slot. -/
def oldWork (s : State) (n : Nat) : Option Nat :=
  let l := s.lane n
  let t : Int := match l.mode with
    | .aknun => if l.lstate = .run then (s.grid.gridAt : Int) + frameStart s n else 0
    | .sent | .psi5 => match l.trig with
      | some t => if t.done then 0 else t.at_ + (if l.mode = .sent then sentO s n else psi5O s n : Nat) / 250
      | none => 0
    | .lin => (flightOver l : Int)
    | .off => 0
  if (s.grid.now : Int) < t then some t.toNat else none

/-- Whether a lane's clocks and its sequencer run, so that it can drive frames (R19, R21). -/
def laneClocked (s : State) (n : Nat) : Bool :=
  s.grid.lanePll && !s.grid.lanePllWait && (s.cluster (laneCluster n)).seq == .running && !(s.lane n).replayed

/-- Whether a LIN lane sends the go-to-sleep command before its schedule stops: it runs its schedule and can
send a header (R162, R163, log entry 122). -/
def sleepDue (s : State) (n : Nat) : Bool :=
  let l := s.lane n
  l.mode == .lin && l.lstate == .run && l.linRun && !l.stuck && laneClocked s n

/-- The length of the go-to-sleep command that a lane owes, in steps: 34 + 10 × (8 + 1) bit times (R159, R162). -/
def sleepLen (s : State) (n : Nat) : Nat := if sleepDue s n then 124 * 40000000 / linRate s n else 0

/-- A lane's schedule stops without a command: polls alone run its slots (R442). -/
def linStop (s : State) (n : Nat) : State := s.onLane n (fun l => { l with linRun := false, linWoke := none })

/-- The go-to-sleep command, 0x3C with data 0x00 and seven bytes of 0xFF under the classic checksum, after which
the schedule is stopped (R162). -/
def linSleep (s : State) (n : Nat) : State :=
  let bs : Bytes := 0x00 :: List.replicate 7 0xFF
  linStop (if sleepDue s n then s.onLane n (fun l => { l with linTx := some (0x3C, bs ++ [linSum bs]) }) else s) n

/-- A lane whose MODE has changed releases its line at `t`, to start its new mode 2 ms later (R135). A LIN lane
has sent go-to-sleep by then (R162). -/
def leaveMode (s : State) (n t : Nat) : State :=
  let s := unpower (linSleep s n) n
  let susp := suspendedNow s n
  let s := s.onLane n (fun l => { l with
    mode := .off, modeAt := some (t + 800000), leaveAt := none, suspended := susp, gapUntilFrame := susp
    silent := false, staged := [], raw := [], rawLev := [], linServed := [], linFlight := [] })
  (List.range 16).foldl (fun s p =>
    let i := epIdx n p
    becomeSprout (s.onEp i (fun e => { e with serial := [], huskN := 0, husk := 0, asleep := false })) i) s

/-- A lane that is to leave its mode has completed its last frame (R135). -/
def leaveNow (s : State) (n : Nat) : State :=
  if (s.lane n).leaveAt.isSome then leaveMode s n s.grid.now else s

/-- A LIN lane that is to leave its mode, once no slot in flight awaits its frame: the go-to-sleep command
follows, where it is owed. -/
def leaveFlight (s : State) (n : Nat) : State :=
  let l := s.lane n
  match l.leaveAt with
  | none => s
  | some t =>
    if !l.linFlight.all (fun x => linOld l x.1 x.2.1) then s
    else if t ≤ flightOver l then leaveMode s n s.grid.now
    else s.setLane n { l with leaveAt := some (s.grid.now + (t - flightOver l)), linFlight := [] }

/-- The lanes that are to leave their mode, once the frames of earlier snapshots have ended (R135). -/
def leaveLanes (s : State) : State :=
  s.lanes.foldl (fun s x => match x.2.leaveAt with
    | some t => if t ≤ s.grid.now then leaveMode s x.1 t else s
    | none => s) s

/-! ### Sequencer and lane PLL -/

/-- Whether a snapshot past its cutoff is one whose period still runs. -/
def inTail (s : State) (b : Build) : Bool := decide (s.grid.now < b.at_ + period s)

/-- Lanes lose their records of the present period where its cutoff has passed: the snapshot under way is
marked (R19, R21, R234). -/
def loseTail (s : State) (ns : List Nat) : State :=
  let s := (s.asm_.build.filter (inTail s)).foldl (fun s b => ns.foldl (fun s n => happen s n b.num 0x08 0 []) s) s
  s.onAsm (fun a => { a with build := a.build.map (fun b =>
    if inTail s b then { b with lostLanes := b.lostLanes ++ ns } else b) })

/-- Whether the cutoff of the present period has passed. -/
def tailNow (s : State) : Bool := decide ((s.region 0).open_.snap ≠ s.grid.gridNum)

/-- Lanes that stop at once: released high, the frame in flight abandoned (R19, R21). A strong window that is
open stays so to its end, since R82 to R88 name no other end for it here (DESIGN CHOICE, log entry 117). -/
def stopLanes (s : State) (ns : List Nat) : State :=
  ns.foldl (fun s n => if (s.lane n).trig = none then s else s.onLane n (fun l => { l with trig := none })) s

/-- A cluster's sequencer restarts (R19, R167). -/
def seqRestart (s : State) (c : Nat) : State :=
  if (s.cluster c).seq = .reloading then
    let s := s.onCluster c (fun x => { x with seq := .running })
    (List.range 8).foldl (fun s j =>
      resumeLane (happenNow s (8 * c + j) 0x09 0 [0, 0]) (8 * c + j)) s
  else s

/-- What waits for a grid tick after the lane PLL's relock, and reloaded sequencers (R19, R21). -/
def tickRestarts (s : State) : State :=
  let s := if s.grid.lanePll ∧ s.grid.lanePllWait then
      (List.range 512).foldl resumeLane (s.onGrid (fun g => { g with lanePllWait := false }))
    else s
  (List.range 64).foldl seqRestart s

/-! ### Meanings: bus clear, shorts and stuck lines -/

/-- A lane condition that only a powered Aknun lane can meet. -/
def onAknun (s : State) (n : Nat) (f : State → State) : State :=
  if (s.lane n).mode = .aknun ∧ powered s n then f s else s

/-- BUS_CLEAR (R90, steps 1 and 2): a lane that owes a bus clear releases the line, turns the normal
source on and waits for the line to go high. -/
def execBusClear (dt : Nat) (n : Lane) (s : State) : Out :=
  run dt s (fun s =>
    let l := s.lane n
    if l.lstate = .clearing ∧ l.clearAt = none ∧ laneClocked s n then
      sourceOn (s.setLane n { l with clearAt := some s.grid.now }) n
    else s)

/-- When a frame mark may follow a line reset that begins at `t`: 240 us low and 40 us high in standard
grade (R70, R100). -/
def afterReset (s : State) (n t : Nat) : Nat := t + graded s n 96000 + graded s n 16000

/-- BUS_CLEAR_LINE_HIGH (R90, steps 5 and 6): the line has been high for 40 us; the lane drives a line
reset, holds the line high, and then resumes its frames at the next frame start of its schedule or
enumerates (R93, R131). -/
def execBusClearLineHigh (dt : Nat) (n : Lane) (s : State) : Out :=
  run dt s (fun s =>
    let l := s.lane n
    match l.clearAt with
    | none => s
    | some t0 =>
      if s.grid.now < t0 + graded s n 16000 ∨ !laneClocked s n then s
      else
        let s := if l.stuck then happenLine s n 1 0 else s
        let s := s.setLane n { l with
          lstate := if l.keepPos then .run else .enumerating
          readyAt := afterReset s n s.grid.now
          clearAt := none, keepPos := false, stuck := false, cal := { l.cal with seedNext := true } }
        let s := if recorded s n && s.hoard.hmodeNow == 0 then
            hoardBlock s 0x30 n (beBytes 6 (laneSnap s n).1.toNat ++ [3] ++ List.replicate 13 0)
          else s
        s)

/-- SHORT_TO_GROUND (R89): the line is still low at the isolation decision. -/
def execShortToGround (dt : Nat) (n : Lane) (s : State) : Out :=
  run dt s (fun s =>
    let l := s.lane n
    match l.mode with
    | .aknun =>
      match l.clearAt with
      | some t0 => if t0 + graded s n 40000 ≤ s.grid.now ∧ l.lstate ≠ .isolated then declareShort s n 1 else s
      | none => s
    | .sent => if l.lstate = .run then declareShort s n 1 else s
    | _ => s)

/-- Whether a SENT lane's low driver holds its line low: the trigger low of an SPC frame (R142). -/
def trigLow (s : State) (n : Nat) : Bool :=
  match (s.lane n).trig with
  | some t => sentSpc s n && !t.done && decide (t.at_ ≤ s.grid.now) &&
      decide ((s.grid.now : Int) ≤ t.at_ + (200 * ranged 1 255 (fld (sentB s n) 21 14) : Nat))
  | none => false

/-- SHORT_HIGH (R89, R148): the line stays high while the master drives it low, on a SENT lane during a
trigger. -/
def execShortHigh (dt : Nat) (n : Lane) (s : State) : Out :=
  run dt s (fun s =>
    let l := s.lane n
    if powered s n ∧ (l.mode = .aknun ∨ l.mode = .sent ∧ trigLow s n) then declareShort s n 2 else s)

/-- PSI5_OVERCURRENT (R156): the output current exceeds its limit for 50 us. -/
def execPsi5Overcurrent (dt : Nat) (n : Lane) (s : State) : Out :=
  run dt s (fun s => if (s.lane n).mode = .psi5 ∧ powered s n then declareShort s n 3 else s)

/-- PSI5_SHORT_HIGH (R517): the pin stands above V_B + V_S + 0.5 V for 50 us. -/
def execPsi5ShortHigh (dt : Nat) (n : Lane) (s : State) : Out :=
  run dt s (fun s => if (s.lane n).mode = .psi5 ∧ powered s n then declareShort s n 2 else s)

/-- LINE_SWING (R89): the tracked swing has been below 2.0 V at 8 consecutive frame boundaries. -/
def execLineSwing (n : Lane) (s : State) : Out :=
  .next (
    let l := s.lane n
    if 8 ≤ l.cal.swingCnt ∧ !l.swing then
      let s' := s.setLane n { l with swing := true }
      withFaults [n.val] s (happenLine (raise s' 14 n (BitVec.ofInt 32 ((l.cal.h16 - l.cal.l16) / 16))) n 0x10 1)
    else s)

/-- LINE_SLOW raised once d_E has exceeded its limit at 8 consecutive frame boundaries (R74). -/
def lineSlow (s : State) (n : Nat) : State :=
  let l := s.lane n
  if 8 ≤ l.cal.slowCnt ∧ !l.slowLine then
    raise (s.setLane n { l with slowLine := true }) 15 n (BitVec.ofInt 32 l.cal.dE)
  else s

/-- LINE_SLOW (R74): d_E has exceeded its limit at 8 consecutive frame boundaries. -/
def execLineSlow (n : Lane) (s : State) : Out := .next (lineSlow s n)

/-- ISOLATION_RETRY (R91): at a retry instant the lane closes its isolation switch and tests its
line, and is free or waits for the next instant. -/
def execIsolationRetry (n : Lane) (free : Bool) (s : State) : Out :=
  .next (
    let l := s.lane n
    if l.lstate = .isolated ∧ !(s.region (laneRegion n)).iso ∧ s.grid.now = s.grid.tickAt ∧
        l.isoAt + retryWait l.isoTry ≤ s.grid.now then
      let s := happenLine s n 0x20 (b2n free)
      if free then
        let s := sourceOn (s.onLane n (fun l => { l with short := false, retries := 0 })) n
        match l.mode with
        | .aknun => s.onLane n (fun l => { l with lstate := .enumerating, clearAt := some s.grid.now, keepPos := false })
        | .psi5 => laneSprouts (s.onLane n (fun l => { l with lstate := .run, syncFrom := s.grid.now + 4000000 })) n
        | _ => s.onLane n (fun l => { l with lstate := .run, lastEdge := s.grid.now })
      else
        s.onLane n (fun l => { l with
          retries := satInc l.retries, isoTry := l.isoTry + 1, isoAt := s.grid.now, offAt := some s.grid.now })
    else s)

/-- Whether an SPC trigger's frame is in progress: it occupies the lane for O_SENT (R147, R148). -/
def trigBusy (s : State) (n : Nat) : Bool :=
  match (s.lane n).trig with
  | some t => !t.done && decide ((s.grid.now : Int) < t.at_ + sentO s n / 250)
  | none => false

/-- SENT_STUCK (R148): the line has stayed below threshold for 10 ms without a trigger. -/
def execSentStuck (dt : Nat) (n : Lane) (s : State) : Out :=
  run dt s (fun s =>
    let l := s.lane n
    if l.mode = .sent ∧ l.lstate = .run ∧ !trigBusy s n ∧ !l.stuck then declareStuck s n 1 else s)

/-- SENT_SILENT (R148): no falling edge for 10 ms. The records are MISSING and no fault is raised. -/
def execSentSilent (dt : Nat) (n : Lane) (s : State) : Out :=
  run dt s (fun s =>
    let l := s.lane n
    if l.mode = .sent ∧ l.lstate = .run ∧ l.lastEdge + 4000000 ≤ s.grid.now then
      s.setLane n { l with silent := true }
    else s)

/-- PSI5_SILENT (R154): an asynchronous sensor has sent no frame for 10 ms. -/
def execPsi5Silent (dt : Nat) (n : Lane) (s : State) : Out :=
  run dt s (fun s =>
    let l := s.lane n
    if l.mode = .psi5 ∧ l.lstate = .run ∧ !psi5Sync s n ∧ l.lastEdge + 4000000 ≤ s.grid.now then
      s.setLane n { l with silent := true }
    else s)

/-- LIN_STUCK (R163): dominant for more than 40 ms, or a short to VBAT after three breaks that read
back recessive. -/
def execLinStuck (dt : Nat) (n : Lane) (toVbat : Bool) (s : State) : Out :=
  run dt s (fun s =>
    let l := s.lane n
    if l.mode = .lin ∧ l.lstate = .run ∧ !l.stuck ∧ (!toVbat ∨ 3 ≤ l.linBreaks) then
      declareStuck s n (if toVbat then 3 else 2)
    else s)

/-- LIN_STUCK_CLEAR (R163): the bus has been recessive for 10 ms, and headers are sent again. -/
def execLinStuckClear (dt : Nat) (n : Lane) (s : State) : Out :=
  run dt s (fun s =>
    let l := s.lane n
    if l.mode = .lin ∧ l.stuck then
      happenLine (s.setLane n { l with stuck := false, linVbat := false, short := false, linBreaks := 0 }) n (if l.linVbat then 3 else 2) 0
    else s)

/-! ### Meanings: sequencer and lane PLL -/

/-- SEQ_PARITY (R19): the sequencer stops, its lanes stay released high, and their records of the
period are MISSING, past its cutoff or not. -/
def execSeqParity (dt : Nat) (c : Cluster) (s : State) : Out :=
  run dt s (fun s =>
    if (s.cluster c).seq = .stopped then s
    else
      let ns := (List.range 8).map (fun j => 8 * c.val + j)
      let s := s.onCluster c (fun x => { x with
        seq := .stopped, lost := !tailNow s, parity := satInc x.parity })
      let s := stopLanes (loseTail (raise s 4 c 0) ns) ns
      ns.foldl (fun s n => happenNow s n 0x09 0 [0, 1]) s)

/-- SEQ_RELOAD (R19): the warden has rewritten the bank in force; the sequencer restarts at the next
grid tick. -/
def execSeqReload (c : Cluster) (s : State) : Out :=
  .next (if (s.cluster c).seq = .stopped then s.onCluster c (fun x => { x with seq := .reloading }) else s)

/-- LANE_PLL (R21): the lane PLL loses lock and every lane stops; every record of the snapshot whose
period contains the unlock is MISSING. -/
def execLanePll (dt : Nat) (s : State) : Out :=
  run dt s (fun s =>
    if s.grid.lanePll then
      let s := (s.onGrid (fun g => { g with lanePll := false })).onAsm (fun a => { a with pllLost := a.pllLost || !tailNow s })
      glb (raise (stopLanes (loseTail s (List.range 512)) (List.range 512)) 5 0 0) 4
    else s)

/-- LANE_PLL_RELOCK (R21): the die resumes at the next grid tick, each lane with a bus clear. -/
def execLanePllRelock (dt : Nat) (s : State) : Out :=
  run dt s (fun s =>
    if s.grid.lanePll then s else s.onGrid (fun g => { g with lanePll := true, lanePllWait := true }))

/-! ### Meanings: strong pull-up -/

/-- Whether 2 ms have passed since the latest admission of a stage (R447). -/
def stageSpaced (s : State) : Bool :=
  match s.mode.stageLast with
  | some t => decide (t + 800000 ≤ s.grid.now)
  | none => true

/-- The cold Aknun lanes of a region that wait for their wave (R457). -/
def coldLanes (s : State) (g : Nat) : List Nat := (regionLanes g).filter (fun n => (s.lane n).coldWait)

/-- The longest run of consecutive regions from the first that holds a waiting cold lane, whose cold
lanes number at most 151 (R457). -/
def nextWave (s : State) : List Nat :=
  ((List.range 8).foldl (fun (a : List Nat × Bool) g =>
    let ns := coldLanes s g
    if a.2 || (a.1.isEmpty && ns.isEmpty) then a
    else if 151 < a.1.length + ns.length then (a.1, true)
    else (a.1 ++ ns, false)) ([], false)).1

/-- Whether a lane has ended its probe: position 0 has answered, or its chain or lane has ended
otherwise (R456). -/
def probed (s : State) (n : Nat) : Bool :=
  let l := s.lane n
  (l.lstate == .enumerating && l.enumPos == some 0 && l.enumStep == 2) || l.lstate == .run || l.lstate == .isolated

/-- Whether the next wave waits for nothing but the die budget (R457): the previous wave has ended, every
lane of it has ended its probe, no region of it waits on its VLINK_g, and in a warm start the stage charge of
every warm lane has ended (R462). -/
def waveReady (s : State) : Bool :=
  let w := nextWave s
  !w.isEmpty && (s.mode.wave.getD []).all (fun n => (s.lane n).lstate != .enumerating) && w.all (probed s) &&
    w.all (fun n => !(s.region (laneRegion n)).warn) && !s.regions.any (fun x => x.2.warmStage)

/-- Whether a class-0 load comes before every class-1 request (R86, R448): a stage that waits on the die
budget or is to be admitted at this tick, or a wave. -/
def stageBlocks (s : State) : Bool :=
  s.regions.any (fun x => x.2.stageReq && x.2.stageAt.isNone && !x.2.warn) &&
      (decide (20000 < dieCharge s + 4224) || stageSpaced s) ||
    waveReady s

/-- Whether a lane's waiting request may be admitted as far as its region goes (R86, R88, R376). -/
def regionAdmits (s : State) (n : Nat) : Bool :=
  let g := laneRegion n
  let r := s.region g
  !r.warn && !r.second && !r.iso && decide (r.deferTo ≤ s.grid.now) && decide (regionCharge s g + 400 ≤ 4800)

/-- Whether an older request waits that its region would take (R86). -/
def olderWaits (s : State) (n : Nat) (t : BitVec 48) : Bool :=
  s.lanes.any (fun x => match x.2.spu with
    | some q => q.admitted.isNone && regionAdmits s x.1 &&
        decide (q.reqTick.toNat < t.toNat ∨ q.reqTick = t ∧ x.1 < n)
    | none => false)

/-- ADMIT of a region (R359). -/
def admitWord (s : State) (g : Nat) : Word :=
  let qs := s.lanes.filterMap (fun x => if laneRegion x.1 = g then x.2.spu else none)
  let active := (qs.filter (fun q => q.admitted.isSome)).length
  pack [(28, 4, active), (21, 7, qs.length - active), (11, 10, regionCharge s g / 10)]

/-- ADMIT of a region as it stands at the latest tick (R359). -/
def noteAdmits (s : State) (g : Nat) : State := s.onRegion g (fun r => { r with admits := admitWord s g })

/-- SPU_ADMIT (R86): at a grid tick the waiting request of a lane is admitted against its region and
the die. -/
def execSpuAdmit (n : Lane) (s : State) : Out :=
  .next (
    let l := s.lane n
    match l.spu with
    | none => s
    | some q =>
      if q.admitted.isNone ∧ s.grid.now = s.grid.tickAt ∧ regionAdmits s n ∧
          dieCharge s + 400 ≤ 20000 ∧ !stageBlocks s ∧ !olderWaits s n q.reqTick then
        let s := s.setLane n { l with spu := some { q with admitted := some s.grid.tick } }
        happenNow (noteAdmits s (laneRegion n)) n 0x01 q.pos.val []
      else s)

/-- SPU_WINDOW_END (R82): the window has reached E + W, and its budget is released. -/
def execSpuWindowEnd (dt : Nat) (n : Lane) (s : State) : Out :=
  run dt s (fun s =>
    let l := s.lane n
    match l.spu with
    | none => s
    | some q =>
      match q.window with
      | none => s
      | some w => if w.2 ≤ s.grid.now then s.setLane n { l with spu := none, spuStale := false } else s)

/-- SPU_OVERLOAD (R84): the line has sagged for 10 us in a window, which ends at once. -/
def execSpuOverload (dt : Nat) (n : Lane) (s : State) : Out :=
  run dt s (fun s =>
    match (s.lane n).spu with
    | none => s
    | some q =>
      match q.window with
      | none => s
      | some w =>
        if s.grid.now < w.2 then happenNow (raise (endSpu s n) 17 n 0) n 0x0A 0 [] else s)

end Sys2Proof.Machine
end

