-- ==== Sys2Proof/Machine/Stream.lean ====
section
/-!
DEFINITION. The snapshot as bytes (R238 to R241), the uplink ports with their MACs (R245 to R249), and
the streams: selection, rate and load (R250 to R257), state (R268), keys (R266, R267), sealed segments
(R258 to R264) and event segments (R269).
-/

namespace Sys2Proof.Machine

/-! ### Snapshots as bytes -/

/-- The table indices whose descriptor is not EMPTY, ascending. -/
def population (s : State) : List Nat :=
  s.cfg.live.filterMap (fun x =>
    if x.1 < 0x040000 ∧ x.1 % 32 = 0 ∧ 0x20000000 ≤ x.2.toNat then some (x.1 / 32) else none)

/-- The time of a tick in ns (R32). -/
def gridTime (num : BitVec 48) : Nat := num.toNat % 2 ^ 47 * 125000

/-- The age of a record (R37). -/
def ageOf (g S : Int) : BitVec 24 :=
  let q := g - S
  let a : Int := ((q.natAbs + 2) / 4 : Nat)
  BitVec.ofInt 24 (clampI (-8388608) 8388607 (if q < 0 then -a else a))

/-- The age of a record without a value. -/
def noAge : BitVec 24 := 0x800000

/-- A record's eight bytes (R238). -/
def recBytes (r : Rec) : Bytes := beBytes 4 r.value.toNat ++ beBytes 3 r.age.toNat ++ [r.status]

/-- A record's state code. -/
def Rec.state (r : Rec) : Nat := r.status.toNat % 8

/-- The substitute of a record with an uncorrectable error (R243). -/
def substRec (r : Rec) : Rec := { idx := r.idx, value := 0, age := noAge, status := 0xC3 }

/-- A record as a later reader receives it (R243). -/
def Snap.read (x : Snap) (k : Nat) (r : Rec) : Rec := if x.decayed.contains k then substRec r else r

/-- Counts of records by state, two bytes each, VALID first (R239). -/
def countBytes (rs : List Rec) : Bytes :=
  (List.range 8).flatMap (fun c => beBytes 2 (rs.filter (fun r => r.state == c)).length)

/-- The snapshot header (R239). -/
def snapHeader (x : Snap) : Bytes :=
  [0x01, x.flags, BitVec.ofNat 8 x.pkg.toNat, BitVec.ofNat 8 x.pexp.toNat] ++ beBytes 6 x.num.toNat ++
    beBytes 8 (gridTime x.num) ++ beBytes 2 x.recs.length ++ countBytes x.recs ++
    beBytes 4 x.configDigest.toNat ++ beBytes 4 x.recordDigest.toNat ++ [x.regionLost, 0] ++
    beBytes 2 x.lateDropped ++ beBytes 4 x.doneTime ++ beBytes 2 x.eccSubst ++ List.replicate 10 0

/-- The digest of records (R241, R486). -/
def recDigest (rs : List Rec) : Word := if rs.isEmpty then 0 else crc32 (rs.flatMap recBytes)

/-- CONFIG_DIGEST of the configuration in force (R240). -/
def configDigest (s : State) : Word :=
  crc32 ((List.range 0x14000).flatMap (fun j => beBytes 4 (s.inForce (4 * j) &&& cfgMask (4 * j)).toNat) ++
    beBytes 4 (s.inForce kGridCtl &&& cfgMask kGridCtl).toNat)

/-- TIME_UNLOCKED and TIME_DEGRADED as they stand, in the places of FLAGS. -/
def timeFlags (s : State) : Byte := BitVec.ofNat 8 (b2n s.grid.unlocked + 2 * b2n s.grid.degraded)

/-! ### Uplink ports -/

/-- A word of a port's uplink entry. -/
def upWord (s : State) (u : Ul) (off : Nat) : Word := s.inForce (aUplink u.num off)
/-- PMODE of a port. -/
def pmode (s : State) (u : Ul) : Nat := fld (upWord s u 0) 31 30
/-- REDUND: 0 MIRROR, 1 SPLIT, 2 PRIMARY_BACKUP; the reserved code acts as the reset value (R351). -/
def redund (s : State) : Nat := let r := fld (upWord s .ul0 0) 29 28; if r = 3 then 2 else r
/-- PRIMARY. -/
def primaryPort (s : State) : Ul := ulOf (bit (upWord s .ul0 0) 27)
/-- SPLIT_FAILOVER. -/
def splitFailover (s : State) : Bool := bit (upWord s .ul0 0) 26
/-- REVERT of a port. -/
def revertBit (s : State) (u : Ul) : Bool := bit (upWord s u 0) 25

/-- SRC_MAC of a port. -/
def srcMac (s : State) (u : Ul) : Bytes :=
  beBytes 2 (fld (upWord s u 4) 15 0) ++ beBytes 4 (upWord s u 8).toNat

/-- The line time of a frame with its FCS, preamble and gap, in steps, rounded up (R245, R257). -/
def lineSteps (s : State) (u : Ul) (f : TxFrame) : Nat :=
  let n := f.bytes.length + 24  -- the FCS of the frame as queued, preamble and gap
  if pmode s u = 3 then (n * 128 + 99) / 100 else (n * 32 + 9) / 10

/-- The frame that a MAC sends next of those handed to it by `t`: the highest PCP, then the order in
which they were handed over (R245). -/
def pickFrame (t : Nat) (q : List TxFrame) : Option TxFrame :=
  (q.filter (fun f => decide (f.at_ ≤ t))).foldl (fun a f =>
    match a with
    | none => some f
    | some x => if x.pcp.toNat < f.pcp.toNat then some f else a) none

/-- The latency sample of a frame that starts at `t` (R383), rounded down to 10 ns units (DESIGN CHOICE, log entry
132). -/
def latSample (s : State) (u : Ul) (t : Nat) (f : TxFrame) (m : UplinkMon) : UplinkMon :=
  match f.g with
  | none => m
  | some g =>
    let x := (t - g) / 4
    let base := (s.inForce (aMonUplink u.num 0)).toNat
    let width := ranged 1 65535 (fld (s.inForce (aMonUplink u.num 4)) 15 0)
    let b := min 31 ((x - base) / width)
    { m with latMin := min m.latMin x, latMax := max m.latMax x
             latHist := Tbl.set (fun _ => 0) m.latHist b (satAdd 4294967295 (Tbl.get (fun _ => 0) m.latHist b)) }

/-- A frame with its FCS (R245, R260): the CRC-32 of IEEE 802.3 over the bytes before it, least significant
byte first, as that standard sends it (PRESUMED, log entry 110). -/
def withFcs (b : Bytes) : Bytes := b ++ (beBytes 4 (crc32 b).toNat).reverse

/-- Whether a received frame ends with its FCS. -/
def fcsOk (b : Bytes) : Bool := decide (4 ≤ b.length) && withFcs (b.take (b.length - 4)) == b

/-- A MAC sends what its line has had time for by now, and appends the FCS. -/
def macRun (u : Ul) : Nat → State → State
  | 0, s => s
  | fuel + 1, s =>
    let x := s.uplink u
    match x.queue with
    | [] => s
    | f0 :: _ =>
      let t := max x.lineFree (x.queue.foldl (fun a f => min a f.at_) f0.at_)
      if x.up && decide (t ≤ s.grid.now) then
        match pickFrame t x.queue with
        | none => s
        | some f =>
          macRun u fuel (s.setUplink u { x with
            queue := x.queue.erase f, lastTx := some { f with bytes := withFcs f.bytes }, lineFree := t + lineSteps s u f
            txFrames := satInc x.txFrames, mon := latSample s u t f x.mon })
      else s

/-- Both MACs run up to now. -/
def macs (s : State) : State :=
  let s := macRun .ul0 (s.ul0.queue.length + 1) s
  macRun .ul1 (s.ul1.queue.length + 1) s

/-- A frame's source address is that of the port that sends it (R247, R260). -/
def setSrc (s : State) (u : Ul) (f : TxFrame) : TxFrame :=
  { f with bytes := f.bytes.take 6 ++ srcMac s u ++ f.bytes.drop 12 }

/-- A frame is handed to the MAC of a port (R245). -/
def handMac (s : State) (f : TxFrame) (u : Ul) : State :=
  s.onUplink u (fun x => { x with queue := x.queue ++ [setSrc s u f] })

/-! ### Streams: configuration and port -/

/-- A word of a stream's entry. -/
def strW (s : State) (k off : Nat) : Word := s.inForce (aStream k off)
def strEnable (s : State) (k : Nat) : Bool := bit (strW s k 0) 31
def strEvent (s : State) (k : Nat) : Bool := bit (strW s k 0) 27
def strEnc (s : State) (k : Nat) : Bool := bit (strW s k 0) 25
def strTag64 (s : State) (k : Nat) : Bool := bit (strW s k 0) 24
def strUnlocked (s : State) (k : Nat) : Bool := bit (strW s k 0) 23
def strDiv (s : State) (k : Nat) : Nat := fld (strW s k 0) 22 20
def strDb (s : State) (k : Nat) : Bool := bit (strW s k 0) 19
def strRefresh (s : State) (k : Nat) : Nat := fld (strW s k 0) 18 15
def strPcp (s : State) (k : Nat) : Nat := fld (strW s k 0) 14 12
def strVid (s : State) (k : Nat) : Nat := ranged 1 4094 (fld (strW s k 0) 11 0)
def strRate (s : State) (k : Nat) : Nat := fld (strW s k 0x18) 15 0
def strBurst (s : State) (k : Nat) : Nat := ranged 1522 1048575 (fld (strW s k 0x1C) 19 0)

/-- The port of a stream's own: its PORT in SPLIT, else the primary port (R249). -/
def ownPort (s : State) (k : Nat) : Ul :=
  if redund s = 1 then ulOf (bit (strW s k 0) 26) else primaryPort s

/-- Whether a stream may move to the other port (R248). -/
def mayMove (s : State) : Bool := redund s == 2 || (redund s == 1 && splitFailover s)

/-- The port that carries a stream outside MIRROR. -/
def carrier (s : State) (k : Nat) : Ul := if (s.stream k).moved then (ownPort s k).other else ownPort s k

/-- The ports on which a stream's frames are sent now (R248). -/
def carriers (s : State) (k : Nat) : List Ul :=
  if redund s = 0 then [Ul.ul0, Ul.ul1].filter (fun u => (s.uplink u).up)
  else [carrier s k].filter (fun u => (s.uplink u).up)

/-- A stream's port chosen anew: its own while that is up, otherwise the other where it may move
(R248). -/
def choosePort (s : State) (k : Nat) : State :=
  let own := ownPort s k
  let m := mayMove s && !(s.uplink own).up && (s.uplink own.other).up
  s.onStream k (fun x => { x with moved := m })

/-- CARRYING of a port (R361). -/
def carrying (s : State) (u : Ul) : Bool :=
  (List.range 32).any (fun k => strEnable s k && (carriers s k).contains u)

/-- The table indices that a stream selects, in ordinal order (R253). -/
def selection (s : State) (k : Nat) : List Nat :=
  (population s).filter (fun i => bit (s.inForce (aMember (fld (s.inForce (aDesc i 0)) 7 0))) k)

/-- Segments per snapshot (R253). -/
def segCount (n : Nat) : Nat := max 1 ((n + 175) / 176)

/-- Whether a RECORDS stream is due for a snapshot (R254). -/
def streamDue (s : State) (k : Nat) (num : BitVec 48) : Bool := num.toNat / 2 ^ pexp s % 2 ^ strDiv s k == 0

/-- Table indices of a segment. -/
def segIdx (s : State) (k q : Nat) : List Nat := ((selection s k).drop (176 * q)).take 176

/-- The length of a stream frame with its FCS (R260). -/
def frameLen (s : State) (k words : Nat) : Nat := (if strTag64 s k then 106 else 114) + 8 * words

/-! ### The load test (R257) -/

/-- A stream's rate in units of 2^-14 bits per grid tick, by R257. R253 and R260 give an EVENT stream no number of
segments, so that its load is its token rate alone (DESIGN CHOICE, log entry 128). -/
def streamLoad (s : State) (k : Nat) : Nat :=
  let n := (selection s k).length
  let tb := strRate s k * 8 * 16384
  let whole := ((List.range (segCount n)).foldl (fun a q => a + frameLen s k (min 176 (n - 176 * q)) + 20) 0) * 8 *
    2 ^ (14 - pexp s - strDiv s k)
  if strEvent s k then tb else if strRate s k = 0 then whole else min tb whole

/-- Whether a port carries a stream in the sense of R257. -/
def loadPort (s : State) (u : Ul) (k : Nat) : Bool := redund s != 1 || ownPort s k == u

/-- A port's load over the enabled streams up to `k`. -/
def portLoad (s : State) (u : Ul) (k : Nat) : Nat :=
  ((List.range (k + 1)).filter (fun j => strEnable s j && loadPort s u j)).foldl (fun a j => a + streamLoad s j) 0

/-- 90 % of a port's line rate, in the units of `streamLoad`. -/
def portLimit (s : State) (u : Ul) : Nat := (if pmode s u = 3 then 281250 else 112500) * 16384

/-- Whether stream `k` offends against R257, counting the streams up to it. -/
def streamOffends (s : State) (k : Nat) : Bool :=
  let db := ((List.range (k + 1)).filter (strDb s)).foldl (fun a j => a + (selection s j).length) 0
  (strDb s k && decide (16384 < db)) || (strEvent s k && strRate s k == 0) ||
    [Ul.ul0, Ul.ul1].any (fun u => (pmode s u != 0 || (s.uplink u).up) && strEnable s k && loadPort s u k &&
      decide (portLimit s u < portLoad s u k))

/-- The first stream that offends against R257 in a configuration. -/
def streamCheck (s : State) : Option Nat := (List.range 32).find? (streamOffends s)

/-! ### Stream state (R267, R268) -/

/-- Whether a key is at its warning point (R267). -/
def keyAtWarn (segs ticks : Nat) : Bool := decide (939524096 ≤ segs ∨ 604800000 ≤ ticks)

/-- SSTATE for a snapshot or tick number: the first row of R268 that applies. -/
def sstateOf (s : State) (k : Nat) (num : BitVec 48) : SState :=
  let x := s.stream k
  if s.alarm.lockdown then .lockdown
  else if !strEnable s k then .off
  else if x.key.isNone then .noKey
  else if keyAtLimit x.segUsed x.keyTicks then .keyExpired
  else if x.seqStop then .seqStop
  else if freeRun num && (!strUnlocked s k || s.nv.frc == BitVec.allOnes 21) then .waitLock
  else if (carriers s k).isEmpty then .linkDown
  else .sealing

/-- The number that SSTATE goes by: the latest complete snapshot's, or the latest grid instant's. -/
def sstateNum (s : State) (k : Nat) : BitVec 48 :=
  if strEvent s k then s.grid.tick
  else match s.asm_.latest with
    | some x => x.num
    | none => s.grid.gridNum

/-- A snapshot that the stream engine can still read: the latest, or the one before it while its bank is
not being rebuilt (R233). -/
def heldSnap (s : State) (num : BitVec 48) : Option Snap :=
  let f := fun (x : Option Snap) => match x with
    | some y => if y.num = num then some y else none
    | none => none
  match f s.asm_.latest with
  | some y => some y
  | none => if s.asm_.build.isEmpty then f s.asm_.prev else none

/-- Segments that wait are dropped and counted once the stream, under their snapshot's configuration, is in a
state that seals nothing (R259, R268, R275). -/
def dropStopped (s : State) (k : Nat) : State :=
  match (s.stream k).jobs with
  | [] => s
  | j :: _ =>
    match heldSnap s j.snap with
    | none => s
    | some x =>
      let st := sstateOf (s.seenAt x.at_) k j.snap
      if st = .sealing ∨ st = .off then s else s.onStream k StreamState.dropWaiting

/-- SSTATE of a stream brought up to date; a change sets STREAM (R327). -/
def refreshStream (s : State) (k : Nat) : State :=
  let st := sstateOf s k (sstateNum s k)
  if (s.stream k).sstate = st then s
  else glb ((if st = .sealing then s else dropStopped s k).onStream k (fun x => { x with sstate := st })) 7

/-- SSTATE of every stream brought up to date. -/
def refreshStreams (s : State) : State := (List.range 32).foldl refreshStream s

/-- Segments dropped or not sealed count in DROPPED (R250, R258, R268). -/
def countDropped (s : State) (k n : Nat) : State :=
  s.onStream k (fun x => { x with dropped := BitVec.ofNat 32 (satAdd 4294967295 x.dropped.toNat n) })

/-- A pending key becomes current where the number admits it (R266). -/
def keyCurrent (s : State) (k : Nat) (num : BitVec 48) : State :=
  match (s.stream k).pend with
  | none => s
  | some p =>
    if !s.alarm.lockdown && decide (p.actSnap.toNat ≤ num.toNat) && freeRun p.actSnap == freeRun num then
      s.onStream k (fun x => { x with
        key := some p, pend := none, segUsed := 0, keyTicks := 0, high := none, seqStop := false
        warned := false, resync := true })
    else s

/-- A stream whose next number does not exceed the highest sealed one stops (R34). -/
def seqCheck (s : State) (k : Nat) (num : BitVec 48) : State :=
  match (s.stream k).high with
  | some h =>
    if sstateOf s k num = .sealing ∧ num.toNat ≤ h.toNat then s.onStream k (fun x => { x with seqStop := true })
    else s
  | none => s

/-- KEY_ID of the current key. -/
def keyId (x : StreamState) : Nat :=
  match x.key with
  | some y => y.id.toNat
  | none => 0

/-- KEY_EXPIRED at a due snapshot (R267). -/
def keyExpiredEvent (s : State) (k : Nat) : State :=
  glb (raise s 36 k (BitVec.ofNat 32 (keyId (s.stream k)))) 7

/-! ### Sealing (R260 to R264) -/

/-- A segment header (R261) with its PRESENCE bytes. -/
def segHeader (typ flags kid : Nat) (num : BitVec 48) (idx pkg k pexp : Nat) (snapFlags : Byte)
    (sel count : Nat) (digest : Word) (presence : Bytes) : Bytes :=
  [0x01, BitVec.ofNat 8 typ, BitVec.ofNat 8 flags, BitVec.ofNat 8 kid] ++ beBytes 6 num.toNat ++ beBytes 2 idx ++
    beBytes 8 (gridTime num) ++ [BitVec.ofNat 8 pkg, BitVec.ofNat 8 k, BitVec.ofNat 8 pexp, snapFlags] ++
    beBytes 2 sel ++ beBytes 2 count ++ beBytes 4 digest.toNat ++ beBytes 2 0 ++ fit 22 0 presence

/-- PRESENCE of a segment from its presence bits (R262). -/
def presenceBytes (ps : List Bool) : Bytes :=
  (chunks 8 22 (fit 176 false ps)).map (fun b => BitVec.ofNat 8 (bitsNat b))

/-- A sealed segment: header, records or body, and tag (R263, R264). -/
def sealBytes (s : State) (k : Nat) (key : Bytes) (num : BitVec 48) (idx : Nat) (hdr body : Bytes) : Bytes :=
  let iv := beBytes 4 (strW s k 0x14).toNat ++ beBytes 6 num.toNat ++ beBytes 2 idx
  let n := if strTag64 s k then 8 else 16
  if strEnc s k then
    let (c, t) := gcm key iv hdr body
    hdr ++ c ++ t.take n
  else
    let (_, t) := gcm key iv (hdr ++ body) []
    hdr ++ body ++ t.take n

/-- A stream frame around a sealed segment, up to the FCS; the sending port fills in its source
address (R260). -/
def streamFrame (s : State) (k : Nat) (seq : BitVec 8) (sg : Bytes) : Bytes :=
  let acf := 8 + sg.length
  beBytes 2 (fld (strW s k 4) 15 0) ++ beBytes 4 (strW s k 8).toNat ++ List.replicate 6 0 ++ beBytes 2 0x8100 ++
    beBytes 2 (strPcp s k * 8192 + strVid s k) ++ beBytes 2 0x22F0 ++ [0x82] ++ beBytes 2 (0x8000 + acf) ++ [seq] ++
    beBytes 4 (strW s k 0x0C).toNat ++ beBytes 4 (strW s k 0x10).toNat ++ beBytes 2 (0x05 * 512 + acf / 4) ++
    beBytes 6 0x000048580001 ++ sg

/-- One segment sealed under the stream's current key and handed to its MACs: what sealing changes of
the stream (R256, R260, R266, R267). -/
def emit (s : State) (k : Nat) (num : BitVec 48) (idx : Nat) (g : Option Nat) (via : List Ul) (hdr body : Bytes) :
    State :=
  let x := s.stream k
  let key := match x.key with
    | some y => y.key
    | none => []
  let f : TxFrame :=
    { pcp := BitVec.ofNat 3 (strPcp s k), stream := some k, at_ := s.grid.now, g := g
      bytes := streamFrame s k x.seqNum (sealBytes s k key num idx hdr body) }
  let high := match x.high with
    | some h => if h.toNat < num.toNat then num else h
    | none => num
  let s := s.setStream k { x with
    segUsed := x.segUsed + 1, sealed := satInc x.sealed, seqNum := x.seqNum + 1, high := some high
    tokens := if strRate s k = 0 then x.tokens else x.tokens - (f.bytes.length + 4) }
  via.foldl (fun s u => handMac s f u) s

/-! ### RECORDS segments (R255, R258) -/

/-- The records of a segment with their record numbers, in ordinal order. -/
def segRecs (s : State) (k q : Nat) (x : Snap) : List (Nat × Rec) :=
  (segIdx s k q).filterMap (fun i =>
    match x.recs.findIdx? (fun r => r.idx == i) with
    | some j => match x.recs[j]? with
      | some r => some (j, x.read j r)
      | none => none
    | none => none)

/-- The exact difference of two values in the endpoint's signedness (R255, item 3). -/
def valueDiff (s : State) (i : Nat) (a b : Word) : Nat :=
  if bit (s.inForce (aDesc i 0)) 25 then (a.toInt - b.toInt).natAbs else ((a.toNat : Int) - b.toNat).natAbs

/-- Whether a record is present in a segment (R255). -/
def present (s : State) (k : Nat) (resync : Bool) (r : Rec) : Bool :=
  if !strDb s k then true
  else
    let dead := (s.inForce (aDeadband (fld (s.inForce (aDesc r.idx 0)) 7 0))).toNat
    let live := r.state == 0 || r.state == 4 || r.state == 6 || r.state == 2
    resync || r.status.toNat / 8 % 4 != 0 ||
      match Tbl.get (fun _ => none) (s.stream k).sent r.idx with
      | none => true
      | some (v, st, n) =>
        r.state != st.toNat || (live && decide (dead < valueDiff s r.idx r.value v)) ||
          decide (2 ^ strRefresh s k ≤ n)

/-- The last sent values after a segment is sealed (R255). -/
def markSent (k : Nat) (s : State) (r : Rec × Bool) : State :=
  s.onStream k (fun x => { x with
    sent := Tbl.set (fun _ => none) x.sent r.1.idx
      (if r.2 then some (r.1.value, BitVec.ofNat 3 r.1.state, 0)
       else match Tbl.get (fun _ => none) x.sent r.1.idx with
         | some (v, st, n) => some (v, st, n + 1)
         | none => none) })

/-- A held snapshot changed. -/
def onSnap (s : State) (num : BitVec 48) (f : Snap → Snap) : State :=
  let g := fun (y : Option Snap) => match y with
    | some y => some (if y.num = num then f y else y)
    | none => none
  s.onAsm (fun a => { a with latest := g a.latest, prev := g a.prev })

/-- What a later reading of a record of a snapshot finds (R243): SNAP_ECC at the first reading of a decayed
one; a single-bit error is corrected and counted, once (DESIGN CHOICE, log entry 109). -/
def eccRead (num : BitVec 48) (s : State) (j : Nat) : State :=
  match heldSnap s num with
  | none => s
  | some x =>
    let s := if x.flips.contains j then
        (onSnap s num (fun y => { y with flips := y.flips.filter (· != j) })).onAsm (fun a => { a with
          cnt := { a.cnt with eccFixed := satAdd 4294967295 a.cnt.eccFixed 1 } })
      else s
    if x.decayed.contains j && !x.eccRaised.contains j then
      raise (onSnap s num (fun y => { y with eccRaised := y.eccRaised ++ [j] })) 2 0 (BitVec.ofNat 32 j)
    else s

/-- Whether a snapshot is a resync for the stream, if it seals it (R255, item 1). -/
def isResync (s : State) (k : Nat) (x : Snap) : Bool :=
  (s.stream k).resync || (s.stream k).resyncAt.any (fun t => decide (t ≤ x.at_))

/-- What sealing a segment of a snapshot that is a resync leaves of the resyncs that are due. -/
def StreamState.resynced (y : StreamState) (x : Snap) : StreamState :=
  { y with resync := false, resyncAt := y.resyncAt.filter (fun t => decide (x.at_ < t)) }

/-- The segments that a stream is to seal of a snapshot: those the deadband leaves empty are skipped,
but for the last (R258). -/
def makeJobs (s : State) (k : Nat) (x : Snap) : List SegJob :=
  let q := segCount (selection s k).length
  let resync := isResync s k x
  let via := if redund s = 0 then none else some (carrier s k)
  (List.range q).filterMap (fun i =>
    if i + 1 = q ∨ (segRecs s k i x).any (fun r => present s k resync r.2) then
      some { snap := x.num, seg := i, last := i + 1 == q, resync := resync, via := via }
    else none)

/-- A segment that can no longer be sealed is dropped (R258). -/
def dropJob (k : Nat) (s : State) (j : SegJob) : State :=
  glb (raise (countDropped s k 1) 34 k (BitVec.ofNat 32 j.seg)) 7

/-- One segment sealed, where the stream's tokens suffice; answers whether it was. -/
def sealJob (s : State) (k : Nat) (j : SegJob) (x : Snap) : State × Bool :=
  let rs := segRecs s k j.seg x
  let ps := rs.map (fun r => present s k j.resync r.2)
  let out := (rs.zip ps).filterMap (fun r => if r.2 then some r.1.2 else none)
  if strRate s k != 0 && decide ((s.stream k).tokens < frameLen s k out.length) then (s, false)
  else
    let flags := b2n (strEnc s k) + 2 * b2n (strTag64 s k) + 4 * b2n j.last + 8 * b2n j.resync
    let hdr := segHeader 1 flags (keyId (s.stream k)) x.num j.seg x.pkg.toNat k x.pexp.toNat x.flags
      (selection s k).length out.length x.configDigest (presenceBytes ps)
    let via := match j.via with
      | some u => if (s.uplink u).up then [u] else carriers s k
      | none => carriers s k
    let s := rs.foldl (fun s r => eccRead x.num s r.1) s
    let s := emit s k x.num j.seg (some x.at_) via hdr (out.flatMap recBytes)
    let s := ((rs.map Prod.snd).zip ps).foldl (markSent k) s
    (s.onStream k (fun y => if j.resync then y.resynced x else y), true)

/-- A stream's turn: its first waiting segment is sealed if it can be (R258). -/
def streamTurn (s : State) (k : Nat) : State :=
  match (s.stream k).jobs with
  | [] => s
  | j :: rest =>
    match heldSnap s j.snap with
    | none => (j :: rest).foldl (dropJob k) (s.onStream k (fun y => { y with jobs := [] }))
    | some x =>
      s.under x.at_ (fun s =>
        match sstateOf s k j.snap with
        | .sealing =>
          let r := sealJob s k j x
          if r.2 then r.1.onStream k (fun y => { y with jobs := rest }) else s
        | .off => s
        | _ => s.onStream k StreamState.dropWaiting)

/-- The streams in descending PCP, then ascending number (R258). -/
def streamOrder (s : State) : List Nat :=
  (List.range 8).flatMap (fun p => (List.range 32).filter (fun k => strPcp s k == 7 - p))

/-- The PCP that a stream's waiting segments have under their snapshot's configuration (R259). -/
def jobPcp (s : State) (k : Nat) : Nat :=
  match (s.stream k).jobs with
  | [] => 0
  | j :: _ =>
    match heldSnap s j.snap with
    | some x => strPcp (s.seenAt x.at_) k
    | none => 0

/-- The streams with waiting segments in the order of their turns. -/
def turnOrder (s : State) : List Nat :=
  let ks := (List.range 32).filter (fun k => !(s.stream k).jobs.isEmpty)
  (List.range 8).flatMap (fun p => ks.filter (fun k => jobPcp s k == 7 - p))

/-- Whether a stream's next segment is segment 0 of its snapshot. -/
def firstWaits (s : State) (k : Nat) : Bool :=
  match (s.stream k).jobs with
  | j :: _ => j.seg == 0
  | [] => false

/-- Turns over the streams until nothing more can be sealed; no stream has more than 47 segments. -/
def sealTurns : Nat → State → State
  | 0, s => s
  | n + 1, s => sealTurns n ((turnOrder s).foldl streamTurn s)

/-- The stream engine seals what it can: segment 0 of every stream first, then the others in turns (R258). -/
def sealAll (s : State) : State :=
  if (List.range 32).all (fun k => (s.stream k).jobs.isEmpty) then s
  else
    let s := ((turnOrder s).filter (firstWaits s)).foldl streamTurn s
    macs (sealTurns 47 s)

/-- Stream 31 seals none of its own segments while the hoard exports (R476). -/
def lent (s : State) (k : Nat) : Bool := k == 31 && s.hoard.hstate == .exporting

/-- One stream at the completion of a snapshot that is due to it, under that snapshot's configuration
(R34, R258, R266 to R268). -/
def streamSnap (x : Snap) (s : State) (k : Nat) : State :=
  if strEvent s k || !streamDue s k x.num then s
  else
    let old := (s.stream k).jobs
    let s := old.foldl (dropJob k) (s.onStream k (fun y => { y with jobs := [] }))
    let s := seqCheck (keyCurrent s k x.num) k x.num
    let q := segCount (selection s k).length
    match sstateOf s k x.num with
    | .off => s
    | .sealing =>
      if lent s k then countDropped s k q
      else s.onStream k (fun y => { y with jobs := makeJobs s k x })
    | .keyExpired => keyExpiredEvent (countDropped s k q) k
    | _ => countDropped s k q

/-! ### Event segments (R269) -/

/-- An event item's sixteen bytes (R381). -/
def itemBytes (it : Item) : Bytes :=
  [BitVec.ofNat 8 (128 * b2n it.remembered + it.ev.src.toNat), BitVec.ofNat 8 (0x40 + it.chan.toNat)] ++
    beBytes 6 it.ev.tick.toNat ++ beBytes 2 it.ev.sub.toNat ++ beBytes 2 it.ev.origin.toNat ++
    beBytes 4 it.ev.data.toNat

/-- The waiting body of an event stream sealed at a tick (log entry 33: LAST and RESYNC are 0). -/
def eventSeal (s : State) (k : Nat) : State :=
  let items := (s.stream k).body.take 88
  let body := items.flatMap itemBytes
  let words := body.length / 8
  if decide ((s.stream k).tokens < frameLen s k words) then s
  else
    let hdr := segHeader 2 (b2n (strEnc s k) + 2 * b2n (strTag64 s k)) (keyId (s.stream k)) s.grid.tick 0
      s.grid.pkg.toNat k (pexp s) (timeFlags s) 0 words (configDigest s) []
    emit (s.onStream k (fun x => { x with body := x.body.drop 88, resync := false, resyncAt := [] })) k s.grid.tick 0 none
      (carriers s k) hdr body

/-- Whether an item waits for an event stream: in its body, or remembered at a channel that feeds it while
it does not seal (R269, R376, R380). -/
def itemWaits (s : State) (k : Nat) : Bool :=
  !(s.stream k).body.isEmpty || (List.range 32).any (fun c =>
    (s.chan c).held.isSome && bit (s.inForce (aChan c 0)) 31 && consumer s c == 6 && chanStream s c == k)

/-- An event stream at a grid tick at which an item waits for it: its key becomes current, and it seals a
segment, or counts the one that it does not seal (R268, R269; DEDUCED, log entry 112). -/
def eventTick (s : State) (k : Nat) : State :=
  if !strEvent s k || !itemWaits s k then s
  else if lent s k then countDropped s k 1
  else
    let s := seqCheck (keyCurrent s k s.grid.tick) k s.grid.tick
    match sstateOf s k s.grid.tick with
    | .sealing => if (s.stream k).body.isEmpty then s else eventSeal s k
    | .off => s
    | .keyExpired => keyExpiredEvent (countDropped s k 1) k
    | _ => countDropped s k 1

/-- What a grid tick does to every stream: tokens (R256), key ticks (R267), event segments (R269), and
segments that waited for tokens. -/
def streamsTick (s : State) : State :=
  let s := (List.range 32).foldl (fun s k =>
    let x := s.stream k
    s.setStream k { x with
      tokens := if strRate s k = 0 then x.tokens else min (strBurst s k) (x.tokens + strRate s k)
      keyTicks := if x.key.isSome then min 1073741823 (x.keyTicks + 1) else x.keyTicks }) s
  let s := (List.range 32).foldl eventTick s
  refreshStreams (macs (sealAll s))

/-! ### Ports going down and up (R249) -/

/-- A frame of a port that has gone down: moved to the other port, or discarded and counted where no
copy leaves elsewhere. -/
def reroute (u : Ul) (s : State) (f : TxFrame) : State :=
  let o := u.other
  match f.stream with
  | none => s
  | some k =>
    if mayMove s && (s.uplink o).up then handMac s f o
    else if redund s = 0 ∧ (s.uplink o).up then s
    else countDropped s k 1

/-- A port goes down with the cause of R374. -/
def portDown (s : State) (u : Ul) (cause : Nat) : State :=
  if !(s.uplink u).up then s
  else
    let q := (s.uplink u).queue
    let s := s.onUplink u (fun x => { x with
      up := false, queue := [], pdelay := none, mon := { x.mon with downs := satAdd 4294967295 x.mon.downs } })
    let s := raise s 32 u.num (BitVec.ofNat 32 cause)
    let s := q.foldl (reroute u) s
    let s := (List.range 32).foldl (fun s k =>
      if redund s ≠ 0 ∧ carrier s k = u ∧ mayMove s ∧ (s.uplink u.other).up then
        s.onStream k (fun x => { x with
          moved := !x.moved, jobs := x.jobs.map (fun j => { j with via := none }) })
      else s) s
    refreshStreams (macs s)

/-- A port comes up: a stream that no port carries takes it where it may. -/
def portUp (s : State) (u : Ul) : State :=
  if (s.uplink u).up || (s.uplink u).parked || pmode s u == 0 then s
  else
    let s := s.onUplink u (fun x => { x with up := true, upAt := s.grid.now, lineFree := s.grid.now })
    let s := raise s 33 u.num 0
    let s := (List.range 32).foldl (fun s k =>
      if redund s ≠ 0 ∧ !(s.uplink (carrier s k)).up then choosePort s k else s) s
    refreshStreams s

/-! ### Meanings -/

/-- KEY_LIMIT (R267): the current key's use reaches its warning point, or its limit. -/
def execKeyLimit (k : Fin 32) (s : State) : Out :=
  .next (
    let x := s.stream k
    let s := if x.key.isSome && keyAtWarn x.segUsed x.keyTicks && !x.warned then
        glb (raise (s.onStream k (fun x => { x with warned := true })) 35 k (BitVec.ofNat 32 (keyId x))) 7
      else s
    refreshStream s k)

/-- UPLINK_DOWN (R249): synchronisation is lost for 10 us, or auto-negotiation reports a failure. -/
def execUplinkDown (dt : Nat) (port : Ul) (cause : DownCause) (s : State) : Out :=
  run dt s (fun s =>
    match cause with
    | .syncLost => portDown (macs s) port 1
    | .autoNeg => if pmode s port = 2 then portDown (macs s) port 2 else s)

/-- UPLINK_UP (R249): synchronisation, and auto-negotiation where enabled, have held for 1 ms. -/
def execUplinkUp (dt : Nat) (port : Ul) (s : State) : Out := run dt s (fun s => portUp s port)

/-- REVERT (R249): at the first grid instant after a stream's own port has been up for 1 s, the stream
returns to it where that port's REVERT is 1. -/
def execRevert (k : Fin 32) (s : State) : Out :=
  .next (
    let own := ownPort s k
    if (s.stream k).moved ∧ redund s ≠ 0 ∧ (s.uplink own).up ∧ revertBit s own ∧
        (s.uplink own).upAt + second ≤ s.grid.now ∧ s.grid.now = s.grid.gridAt then
      refreshStreams (s.onStream k (fun x => { x with moved := false }))
    else s)

/-- A field of a frame's header as a number. -/
def frameNat (b : Bytes) (off n : Nat) : Nat := beNat ((b.drop off).take n)

/-- What the time engine does with an IEEE 802.1AS frame (R44): it answers a Pdelay_Req, message type 2
(PRESUMED of IEEE 802.1AS, log entry 18). The frames of a Sync and of the device's own exchange are SYNC_RX's
and PEER_DELAY's. -/
def timeFrame (s : State) (u : Ul) (b : Bytes) : State :=
  if frameNat b 14 1 % 16 = 2 then s.onUplink u (fun x => { x with timeTx := some (.response s.grid.now) }) else s

/-- A frame that the MAC takes apart: one with a good FCS of 64 to 1,522 bytes. -/
def frameWhole (b : Bytes) : Bool := decide (64 ≤ b.length ∧ b.length ≤ 1522) && fcsOk b

/-- UPLINK_RX (R245, R246): a whole untagged IEEE 802.1AS frame goes to the time engine; every other frame is
discarded, and a PAUSE frame, opcode 1 of EtherType 0x8808, counts in PAUSE_RX only. -/
def execUplinkRx (dt : Nat) (port : Ul) (frame : List Byte) (s : State) : Out :=
  run dt s (fun s =>
    let typ := frameNat frame 12 2
    if !(s.uplink port).up then s
    else if !frameWhole frame then s.onUplink port (fun x => { x with rxDiscard := satInc x.rxDiscard })
    else if typ = 0x88F7 ∧ frameNat frame 0 6 = 0x0180C200000E then timeFrame s port frame
    else if typ = 0x8808 ∧ frameNat frame 14 2 = 1 then s.onUplink port (fun x => { x with pauseRx := satInc x.pauseRx })
    else s.onUplink port (fun x => { x with rxDiscard := satInc x.rxDiscard }))

end Sys2Proof.Machine
end

