-- ==== Sys2Proof/Machine/Grid.lean ====
section
/-!
DEFINITION. The time engine: the phase error and the time states (R39, R40, R533), steering (R41), the
re-phase (R42, R45), holdover and the time port (R43), peer delay (R44), the free-run counter (R31) and
the clocks (R56 to R60).
-/

namespace Sys2Proof.Machine

/-! ### Fields of GRID_CTL in force (R336) -/

def autoRephase (s : State) : Bool := bit (s.inForce kGridCtl) 30
def timeFailover (s : State) : Bool := bit (s.inForce kGridCtl) 29
/-- HOLD_MAX in steps. -/
def holdMaxSteps (s : State) : Nat := 400000 * min 1000 (fld (s.inForce kGridCtl) 23 14)
/-- The peer-delay initiation interval in steps; the reserved code acts as the reset value (R351). -/
def pdelaySteps (s : State) : Nat :=
  let v := fld (s.inForce kGridCtl) 26 24
  second * 2 ^ (if v = 7 then 3 else v) / 8

/-- Whether records of a snapshot with grid instant now carry TIME_UNLOCKED (R39, R43, R59). -/
def unlockedNow (s : State) : Bool :=
  let g := s.grid
  g.degraded || match g.tstate with
    | .locked => false
    | .holdover => g.holdOver || decide (g.holdAt + holdMaxSteps s ≤ g.now)
    | .follow => g.leadUnlocked
    | _ => true

/-! ### Re-phase (R42, R45) -/

/-- The largest shift of a re-phase, 62.5 us. -/
def halfTick : Int := 25000

/-- A package decides a re-phase at tick D: T is the smallest multiple of 128 at or after D + 128
(R45, steps 1 and 2). -/
def startRephase (s : State) (c : Int) (offset : Option Int) : State :=
  s.onGrid (fun g => { g with
    okCnt := 0
    rephase := some { stepTick := BitVec.ofNat 48 ((g.tick.toNat + 255) / 128 * 128)
                      c := clampI (-halfTick) halfTick c, offset := offset, relayed := false } })

/-- A write of 1 to REPHASE: the lead re-phases in any time state except FREE, unless a re-phase is
under way (R42). -/
def hostRephase (s : State) : State :=
  if s.grid.lead && s.grid.tstate != .free && s.grid.rephase.isNone then startRephase s s.grid.shift none else s

/-- Step 4 of R45 at tick T: the next tick falls 125 us + c after T, and the snapshot of T is GAP. -/
def rephaseStep (s : State) : State :=
  match s.grid.rephase with
  | none => s
  | some r =>
    let s := raise s 9 0 (BitVec.ofInt 32 r.c)
    let s := s.onAsm (fun a => { a with gapSnaps := a.gapSnaps ++ [(s.grid.tick, 4)] })
    let rejoin := !s.grid.lead && !r.relayed && s.grid.tstate == .followLost
    let locked := s.grid.tstate == .locked || s.grid.tstate == .holdover || rejoin
    let s := s.onGrid (fun g => { g with
      rephase := none, gap := (g.gap + r.c).toNat, instFrom := g.tickAt + period s, shift := 0, okCnt := 0
      nextNum := if locked then some (g.trueNum + 1) else none
      corr := r.offset.getD g.corr
      acqDone := g.acqDone || (r.offset.isSome && g.tstate == .acquiring)
      waitTest := g.waitTest || g.tstate == .rephaseWait })
    if rejoin then setTState (s.onGrid (fun g => { g with joined := true, glLong := false })) .follow else s

/-- Whether the latest tick is the step tick of the re-phase under way. -/
def stepDue (s : State) : Bool :=
  s.grid.on && match s.grid.rephase with
    | some r => r.stepTick == s.grid.tick
    | none => false

/-! ### Sync (R39 to R42, R533) -/

/-- One Sync interval in steps. -/
def syncSteps (g : GridState) : Nat := second / 2 ^ (-g.logSync).toNat

/-- The time for which the correction has been steered since the last Sync: it stands still from the third
Sync interval without one until Sync returns (R39). -/
def steered (g : GridState) : Nat :=
  match g.syncAt with
  | some t => if g.syncLost then 0 else min (g.now - t) (3 * syncSteps g)
  | none => 0

/-- The servo's new correction within the limits of R41: a free value (log entry 4). -/
def steer (s : State) : State :=
  let (i, s) := s.draw
  let g := s.grid
  let room : Int := 1000 * steered g / second
  let want := clampI (-10000) 10000 (Config.servo i)
  s.onGrid (fun g => { g with corr := clampI (g.corr - room) (g.corr + room) want })

/-- Whether the correction is steered in the present state (R39). -/
def steers (g : GridState) : Bool :=
  match g.tstate with
  | .locked | .rephaseWait => true
  | .acquiring => g.acqDone
  | _ => false

/-- The phase error at a Sync, in half nanoseconds: the latest tick's time less its true time; a tick in
free-run numbering is compared with the nearest multiple of 125,000 ns (R39). `true2` is the true time
of the latest tick in half nanoseconds. -/
def phaseError (s : State) (true2 : Int) : Int :=
  let near := rnd true2 250000
  let num := if s.grid.ownNum then near else (s.grid.tick.toNat : Int)
  250000 * num - true2

/-- The consecutive count of the lock test (R40). -/
def lockTest (e2 : Int) (g : GridState) : GridState :=
  { g with okCnt := if e2.natAbs ≤ 1000 then min 8 (g.okCnt + 1) else 0 }

/-- |e| above 2 us in LOCKED, or at the first message after a loss in HOLDOVER (R42). -/
def farOff (s : State) : State :=
  if autoRephase s then startRephase s s.grid.shift none
  else setTState (s.onGrid (fun g => { g with waitTest := false, okCnt := 0 })) .rephaseWait

/-- What a valid Sync does in each time state (R39 to R42, R533). -/
def syncState (s : State) (first : Bool) (e2 : Int) : State :=
  let g := s.grid
  let far := decide (4000 < e2.natAbs)
  match g.tstate with
  | .free => setTState (s.onGrid (fun g => { g with acqCnt := 0, acqDone := false, okCnt := 0, corr := 0 })) .acquiring
  | .acquiring =>
    if g.acqDone then (if g.rephase.isSome then s else s.onGrid (lockTest e2))
    else s.onGrid (fun g => { g with acqCnt := min 8 (g.acqCnt + 1) })
  | .locked => if far && g.rephase.isNone then farOff s else s
  | .holdover =>
    if g.rephase.isSome then s else if first && far then farOff s else s.onGrid (lockTest e2)
  | .rephaseWait =>
    if g.rephase.isSome || !g.waitTest then s
    else if far then s.onGrid (fun g => { g with waitTest := false, okCnt := 0 })
    else s.onGrid (lockTest e2)
  | _ => s

/-- DOMAIN of GRID_CTL. -/
def gptpDomain (s : State) : Nat := fld (s.inForce kGridCtl) 13 7

/-- The role of an uplink port in IEEE 802.1AS (R44). -/
inductive PortRole where
  | disabled | slave | passive
  deriving DecidableEq, Repr

/-- A port with link is the slave where it is the time port, and passive otherwise. -/
def portRole (s : State) (u : Ul) : PortRole :=
  if !(s.uplink u).up then .disabled else if u = s.grid.timePort then .slave else .passive

/-- Whether a Sync is valid (R44): on the slave port, of the configured domain, at a supported rate; under
BMCA it comes from the master that BMCA selected, and under external port configuration the role is static
(PRESUMED of IEEE 802.1AS, log entry 18). -/
def syncValid (s : State) (u : Ul) (domain : Nat) (selected : Bool) (logInterval : Int) : Bool :=
  portRole s u == .slave && domain == gptpDomain s && (bit (s.inForce kGridCtl) 27 || selected) &&
    decide (-5 ≤ logInterval ∧ logInterval ≤ 0)

/-- A valid Sync message on the time port, at true time `tai` in ns. A follower only reports its phase
error. -/
def syncRx (s : State) (tai : Nat) (logInterval : Int) : State :=
  let g := s.grid
  let true2 : Int := 2 * tai - 5 * (g.now - g.tickAt : Nat)
  let e2 := phaseError s true2
  let s := s.onGrid (fun g => { g with phaseErr := clampI (-32767) 32767 (rnd e2 2) })
  if !g.lead then s
  else
    let near := rnd true2 250000
    let first := g.syncLost
    let s := if steers g then steer s else s
    let s := s.onGrid (fun g => { g with
      syncAt := some g.now, logSync := logInterval, syncLost := false
      trueNum := BitVec.ofInt 48 (near % 2 ^ 47), shift := rnd (250000 * near - true2) 5 })
    syncState s first e2

/-! ### Meanings: time states -/

/-- SYNC_RX (R39): a Sync message with its true time arrives on an uplink port (R44). -/
def execSyncRx (dt : Nat) (port : Ul) (msg : SyncMsg) (logInterval : Int) (s : State) : Out :=
  run dt s (fun s =>
    if s.grid.on ∧ syncValid s port msg.domain.toNat msg.selected logInterval then
      syncRx s msg.tai logInterval
    else s)

/-- ACQUISITION_COMPLETE (R40): the measurement over 8 Sync intervals ends with an offset in
0.01 ppm. -/
def execAcquisitionComplete (dt : Nat) (offset : Int) (s : State) : Out :=
  run dt s (fun s =>
    let g := s.grid
    if g.lead ∧ g.tstate = .acquiring ∧ !g.acqDone ∧ 8 ≤ g.acqCnt ∧ g.rephase.isNone then
      let s := s.onGrid (fun g => { g with acqCnt := 0 })
      if 10000 < offset.natAbs then raise s 8 0 (BitVec.ofInt 32 offset)
      else startRephase s g.shift (some offset)
    else s)

/-- LOCK_ACQUIRED (R40, R533): |e| has been at most 500 ns at 8 consecutive Sync messages. -/
def execLockAcquired (dt : Nat) (s : State) : Out :=
  run dt s (fun s =>
    let g := s.grid
    if g.lead ∧ 8 ≤ g.okCnt ∧ g.rephase.isNone ∧
        (g.tstate = .acquiring ∨ g.tstate = .holdover ∨ g.tstate = .rephaseWait) then
      setTState (s.onGrid (fun g => { g with okCnt := 0 })) .locked
    else s)

/-- SYNC_TIMEOUT (R39, R43): no valid Sync for 3 Sync intervals. -/
def execSyncTimeout (dt : Nat) (otherPortOk : Bool) (s : State) : Out :=
  run dt s (fun s =>
    let g := s.grid
    let due : Bool := match g.syncAt with
      | some t => decide (t + 3 * syncSteps g ≤ g.now)
      | none => false
    if g.lead ∧ due ∧ !g.syncLost then
      let s := s.onGrid (fun g => { g with syncLost := true, okCnt := 0 })
      match g.tstate with
      | .locked =>
        setTState (s.onGrid (fun g => { g with
          holdAt := g.now, holdOver := false
          timePort := if timeFailover s && otherPortOk then g.timePort.other else g.timePort })) .holdover
      | .acquiring =>
        setTState (s.onGrid (fun g => { g with
          acqCnt := 0, acqDone := false, corr := 0, syncAt := none, syncLost := false
          rephase := match g.rephase with
            | some r => some { r with offset := none }
            | none => none })) .free
      | _ => s
    else s)

/-- HOLD_MAX (R39, R43): HOLD_MAX after the entry to HOLDOVER, records start to carry TIME_UNLOCKED. -/
def execHoldMax (dt : Nat) (s : State) : Out :=
  run dt s (fun s =>
    if s.grid.tstate = .holdover ∧ s.grid.holdAt + holdMaxSteps s ≤ s.grid.now then
      s.onGrid (fun g => { g with holdOver := true })
    else s)

/-- REPHASE_STEP (R45): at the step tick T the ticks move by c. -/
def execRephaseStep (s : State) : Out := .next (if stepDue s ∧ s.grid.now = s.grid.tickAt then rephaseStep s else s)

/-- PEER_DELAY (R44): the initiation interval expires, and an exchange on a port with link measures the
peer delay. -/
def execPeerDelay (dt : Nat) (port : Ul) (delayNs : Nat) (s : State) : Out :=
  run dt s (fun s =>
    let x := s.uplink port
    if x.up ∧ (x.pdelay.isNone ∨ x.pdelayAt + pdelaySteps s ≤ s.grid.now) then
      s.onUplink port (fun x => { x with pdelay := some delayNs, pdelayAt := s.grid.now, timeTx := some .request })
    else s)

/-- FREE_RUN_ADVANCE (R31): the free-run counter in eMRAM advances by one after a device reset before
the grid starts, and when the next tick would overflow bits 23:0. -/
def execFreeRunAdvance (s : State) : Out :=
  .next (
    let g := s.grid
    if !s.mode.inReset ∧ !g.frcDone ∧ (!g.on ∨ 2 ^ 24 ≤ g.frcTicks + 1) then
      ({ s with nv := { s.nv with frc := frcNext s.nv.frc } }).onGrid (fun g => { g with frcDone := true })
    else s)

/-! ### Meanings: clocks -/

/-- REFERENCE_LOSS (R59): the reference is lost and TIME_DEGRADED is set. -/
def execReferenceLoss (dt : Nat) (s : State) : Out :=
  run dt s (fun s =>
    if s.grid.degraded then s
    else glb (raise (s.onGrid (fun g => { g with degraded := true })) 49 0 1) 4)

/-- REFERENCE_RETURN (R59): the reference has been stable for 100 ms, and the device moves back to it at
a grid tick. -/
def execReferenceReturn (s : State) : Out :=
  .next (
    if s.grid.degraded ∧ (!s.grid.on ∨ s.grid.now = s.grid.tickAt) ∧ !s.mode.inReset then
      glb (raise (s.onGrid (fun g => { g with degraded := false })) 49 0 0) 4
    else s)

/-- What clocks core-die logic now: after a change of frequency it returns from the reference by itself
(R57). -/
def clkNow (s : State) : CoreClk :=
  match s.grid.clk, s.grid.clkBack with
  | .reference, some t => if t ≤ s.grid.now then .pll else .reference
  | c, _ => c

/-- The core PLL changes to `mhz` (R57): the logic runs on the reference until the PLL has locked and 64
reference cycles have passed, 50 us at most; how long is a free value (log entry 111). -/
def changeFreq (s : State) (mhz : Nat) : State :=
  let (i, s) := s.draw
  s.onGrid (fun g => { g with
    coreMhz := mhz, clk := .reference, clkBack := some (g.now + max 1024 (min 20000 (Config.pllTime i))) })

/-- CLKOUT (R60): low, or the reference or, after its loss, the internal oscillator divided by 1, 2 or 4. -/
inductive ClkOut where
  | low
  | running (internal : Bool) (div : Nat)
  deriving DecidableEq, Repr

/-- What CLKOUT carries, by CLKOUT_SEL. -/
def clkOut (s : State) : ClkOut :=
  match fld (s.inForce kGridCtl) 6 5 with
  | 0 => .running s.grid.degraded 1
  | 1 => .running s.grid.degraded 2
  | 2 => .running s.grid.degraded 4
  | _ => .low

/-- CORE_PLL (R58): the core PLL leaves 5 % of its target. Core-die logic moves to the standby PLL, which takes the
core PLL's role, or to the reference where the standby is off or not locked. -/
def execCorePll (dt : Nat) (s : State) : Out :=
  run dt s (fun s =>
    if clkNow s = .pll then
      (glb (raise s 6 0 0) 4).onGrid (fun g =>
        if g.standbyOk then { g with clk := .pll, clkBack := none, swapped := !g.swapped, standbyOk := false }
        else { g with clk := .reference, clkBack := none })
    else s)

/-- CORE_PLL_RELOCK (R58): the PLL that was lost has relocked. Where the logic runs from the other PLL, it stays there
and the relocked one is the new standby; where it runs from the reference, as in SENTINEL, it moves back. -/
def execCorePllRelock (dt : Nat) (s : State) : Out :=
  run dt s (fun s =>
    match s.grid.clk with
    | .pll => if s.mode.dev = .sentinel then s else s.onGrid (fun g => { g with standbyOk := true })
    | .reference => if s.grid.clkBack.isSome then s else s.onGrid (fun g => { g with clk := .pll }))

end Sys2Proof.Machine
end

