-- ==== Sys2Proof/Machine/Capture.lean ====
section
/-!
DEFINITION. Capture (R322, R334): the request, the sample of every counter and monitor, the copy into
the holding area, and the restart of the monitors (R385).
-/

namespace Sys2Proof.Machine

/-- QSTAT of a region (R231). -/
def qstatWord (s : State) (g : Nat) : Word :=
  let r := s.region g
  pack [(24, 8, r.ptrResets.toNat), (16, 8, r.flushes.toNat), (8, 8, r.overflows.toNat),
    (3, 1, b2n r.open_.lost), (2, 1, b2n r.openB)]

/-- A route's counter word (R362). -/
def routeWord (x : RouteState) : Word := x.fires ++ x.drops

/-- A table of what `f` reads, unlisted where it is the default. -/
def tblOf {α β : Type} [DecidableEq β] (d : β) (f : Nat → α → β) (t : Tbl α) : Tbl β :=
  t.filterMap (fun e => let y := f e.1 e.2; if y = d then none else some (e.1, y))

/-- Every counter and monitor of the device at the latest tick (R322, R370, R371). -/
def captureNow (s : State) (restart : Bool) : Capture :=
  { ccount := s.cap.ccount + 1, tick := s.grid.tick, restarted := restart, epoch := s.epoch
    digest := configDigest s, dev := s.asm_.cnt
    lanes := tblOf {} (fun _ l => l.mon) s.lanes
    regions := (List.range 8).map (fun g => (g, (s.region g).mon, qstatWord s g))
    uplinks := [Ul.ul0, Ul.ul1].map (fun u =>
      let x := s.uplink u
      (u.num, x.mon, [x.txFrames, x.rxDiscard, x.pauseRx]))
    streams := (List.range 32).map (fun k =>
      let x := s.stream k
      (k, [x.sealed, x.dropped, BitVec.ofNat 32 x.segUsed, BitVec.ofNat 32 x.tokens]))
    routes := tblOf 0 (fun _ x => routeWord x) s.routes
    channels := (List.range 32).map (fun c => (c, (s.chan c).delivered, (s.chan c).overflow)) }

/-- The lane monitors restarted; the counters go on (R385). -/
def LaneMon.restart (m : LaneMon) : LaneMon :=
  { m with devMin := 32767, devMax := -32768, devHist := [], hiMin := 255, hiMax := 0, loMin := 255, loMax := 0
           loHist := [] }
/-- The region monitors restarted. -/
def RegionMon.restart (_ : RegionMon) : RegionMon := {}
/-- The uplink monitors restarted; transitions to DOWN go on. -/
def UplinkMon.restart (m : UplinkMon) : UplinkMon := { downs := m.downs }

/-- Every monitor restarted (R322, R385). -/
def restartMonitors (s : State) : State :=
  let s := (s.lanes.map Prod.fst).foldl (fun s n => s.onLane n (fun l => { l with mon := l.mon.restart })) s
  let s := (List.range 8).foldl (fun s g => s.onRegion g (fun r => { r with mon := r.mon.restart })) s
  { s with ul0 := { s.ul0 with mon := s.ul0.mon.restart }, ul1 := { s.ul1 with mon := s.ul1.mon.restart } }

/-- Whether a requested capture is due to be sampled at the latest tick. -/
def captureDue (s : State) : Bool :=
  s.grid.on && s.grid.now == s.grid.tickAt && s.cap.copying.isNone && match s.cap.req with
    | some (t, _) => decide (t ≤ s.grid.now)
    | none => false

/-- The sampling tick of a capture (R322). -/
def captureSample (s : State) : State :=
  match s.cap.req with
  | none => s
  | some (_, restart) =>
    let s := macs s
    let c := captureNow s restart
    let s := { s with cap := { s.cap with req := none, copying := some c, cstate := .copying, tick := s.grid.tick } }
    if restart then restartMonitors s else s

/-! ### Meanings -/

/-- CAPTURE_REQ (R322): a write of REQ in CAPTURE; a CAPTURE event does the same through its channel. -/
def execCaptureReq (dt : Nat) (p : Port) (restart : Bool) (s : State) : Out :=
  hostWrite dt p s (fun s => if p = .u ∨ s.mode.dev = .off then s else requestCapture s restart)

/-- CAPTURE_SAMPLE (R322): at the sampling tick, before any commit that takes effect at it. -/
def execCaptureSample (s : State) : Out := .next (if captureDue s then captureSample s else s)

/-- CAPTURE_DONE (R322): the copy into the holding area completes. -/
def execCaptureDone (dt : Nat) (s : State) : Out :=
  run dt s (fun s =>
    match s.cap.copying with
    | none => s
    | some c =>
      let s := { s with cap := { s.cap with
        copying := none, held := (c :: s.cap.held).take 2, ccount := c.ccount
        cstate := if s.cap.req.isSome then .pending else .done } }
      glb (raise s 42 c.ccount.toNat (BitVec.ofNat 32 c.tick.toNat)) 17)

end Sys2Proof.Machine
end

