-- ==== Sys2Proof/Machine/Power.lean ====
section
/-!
DEFINITION. Rails and their two thresholds (R430 to R435), suspension and isolation of a region,
staging (R446 to R448), enumeration waves (R457), and the resets that rails and RST_N bring (R12,
R427, R430, R520).
-/

namespace Sys2Proof.Machine

/-! ### Which lanes may be powered -/

/-- Whether a lane may be powered in the present device state: not in OFF, nor in BOOT unless a warm start
stages its lanes there, which a follower does only with a saved hop count; not in an isolated or suspended
region or with VBAT gone, not while it is disconnected for a replay, and in SENTINEL only in the poll set
(R428, R433 to R435, R443, R462, R464, R495). -/
def mayPower (s : State) (n : Nat) : Bool :=
  let r := s.region (laneRegion n)
  let m := cfgMode s n
  let vlink := m == .aknun || m == .sent
  m != .off && !(s.lane n).replayed && !r.iso && !(vlink && r.second) && !(!vlink && s.mode.vbatSusp) &&
    (match s.mode.dev with
      | .off => false
      | .boot => s.mode.warm && s.mode.booted && (s.grid.lead || s.grid.savedHop != 0)
      | .sentinel => s.mode.polls.any (fun x => x.1 == n)
      | _ => true)

/-- A lane powered where it may be and is not. -/
def tryPower (s : State) (n : Nat) : State :=
  if (s.lane n).lstate = .unpowered ∧ (s.lane n).modeAt = none ∧ mayPower s n then powerLane s n else s

/-- Whether a region holds a lane that staging would power. -/
def stageWanted (s : State) (g : Nat) : Bool := (regionLanes g).any (fun n => mayPower s n)

/-- A region requests its stage (R446, R447). -/
def requestStage (s : State) (g : Nat) : State :=
  if stageWanted s g then
    s.onRegion g (fun r => { r with
      stageReq := true, stageAsked := s.grid.now, stageAt := none, stageStep := 0, power := .staging })
  else s.onRegion g (fun r => { r with
    power := if r.iso then .isolated else if r.second then .suspended else .powered })

/-- A region's stage ends at once; its charge is released at the next grid tick (R451). -/
def dropStage (s : State) (g : Nat) : State :=
  s.onRegion g (fun r => { r with stageReq := false, stageAt := none, stageStep := 0 })

/-- A REGION happening of the hoard (R485). -/
def happenRegion (s : State) (ns : List Nat) (code begins : Nat) : State :=
  happenAll s ns 0x06 [BitVec.ofNat 8 code, BitVec.ofNat 8 begins]

/-! ### Suspension and isolation -/

/-- A lane is suspended: unpowered, its records GAP until it runs a frame again (R433, R435). -/
def suspendLane (s : State) (n : Nat) : State :=
  (unpower s n).onLane n (fun l => { l with suspended := true, gapUntilFrame := true })

/-- The AKNUN and SENT lanes of a region. -/
def vlinkLanes (s : State) (g : Nat) : List Nat :=
  (regionLanes g).filter (fun n => cfgMode s n == .aknun || cfgMode s n == .sent)

/-- The PSI5 and LIN lanes of the package. -/
def vbatLanes (s : State) : List Nat :=
  (List.range 512).filter (fun n => cfgMode s n == .psi5 || cfgMode s n == .lin)

/-- Region g suspends its AKNUN and SENT lanes (R433). -/
def suspendRegion (s : State) (g : Nat) : State :=
  let s := dropStage s g
  let ns := vlinkLanes s g
  let s := happenRegion (ns.foldl suspendLane s) ns 1 1
  let s := s.onRegion g (fun r => { r with second := true, power := if r.iso then .isolated else .suspended })
  setRegionBit (raise s 28 g 1) g 20

/-- Region g resumes: REGION_SUSPENDED with DATA 0, and its stage is requested (R433). -/
def resumeRegion (s : State) (g : Nat) : State :=
  let ns := vlinkLanes s g
  let s := happenRegion s ns 1 0
  let s := ns.foldl (fun s n => if (s.lane n).suspended then s.onLane n (fun l => { l with suspended := false }) else s) s
  requestStage (raise s 28 g 0) g

/-- Region g is isolated (R434). -/
def isolateRegion (s : State) (g : Nat) : State :=
  let ns := (regionLanes g).filter (fun n => cfgMode s n != .off)
  let s' := ns.foldl unpower (dropStage s g)
  let s' := s'.onRegion g (fun r => { r with iso := true, power := .isolated })
  let s' := setRegionBit (raise (happenRegion s' ns 2 1) 27 g 0) g 21
  withFaults (regionLanes g) s s'

/-! ### Rails -/

/-- The rail's ORIGIN code (R374). -/
def railCode : Rail → Nat
  | .vlink g => g.val
  | .vbat => 8
  | .vio => 9
  | .vddLane => 10
  | .vddCore => 11

/-- The rail's warning bit in SUPPLY_STATUS (R331). -/
def railBit : Rail → Nat
  | .vlink g => 16 + g.val
  | .vbat => 7
  | .vio => 5
  | .vddLane => 4
  | .vddCore => 3

/-- Whether the rail's live bit says that it stands below its warning threshold (R431). -/
def railLive (s : State) : Rail → Bool
  | .vlink g => (s.region g).warn
  | .vbat => s.mode.vbatWarn
  | _ => false

/-- The rail's live bit (R431). -/
def setLive (s : State) (b : Bool) : Rail → State
  | .vlink g => s.onRegion g (fun r => { r with warn := b })
  | .vbat => s.onMode (fun m => { m with vbatWarn := b })
  | _ => s

/-- Requests for a conversion that wait in a region whose VLINK_g is below its warning threshold: the
answers of the addressed endpoints are STALE from now on (R432). -/
def staleWaits (s : State) (g : Nat) : State :=
  (regionLanes g).foldl (fun s n =>
    match (s.lane n).spu with
    | some q => if q.admitted.isNone ∧ !q.nv then s.onLane n (fun l => { l with spuStale := true }) else s
    | none => s) s

/-- The reset cause of a rail (R324, R430). -/
def resetCause : ResetRail → Nat
  | .vio => 3
  | .vddLane => 4
  | .vddCore => 5
  | .vdda18 => 0

/-- Whether a reset rail is the rail given. VDDA18 has no other threshold; its return is
POWER_ON_RESET's (R427, R430). -/
def isRail (r : Rail) : ResetRail → Bool
  | .vio => r == .vio
  | .vddLane => r == .vddLane
  | .vddCore => r == .vddCore
  | .vdda18 => false

/-! ### Meanings: rails -/

/-- RAIL_WARNING (R431): a monitored rail falls below its warning threshold. -/
def execRailWarning (dt : Nat) (r : Rail) (s : State) : Out :=
  run dt s (fun s =>
    if railLive s r then s
    else
      let s := raise (setSupply (setLive s true r) (railBit r)) 38 (railCode r) 0
      match r with
      | .vlink g => happenAll (staleWaits s g) (regionLanes g) 0x07 [0, 1]
      | _ => s)

/-- RAIL_RECOVERY (R430, R431): the rail has stood above its threshold and hysteresis for its
recovery time. The live bits of a warning clear; a reset threshold ends the device's reset. What a
second threshold's recovery does is VLINK_RECOVERY's and VBAT_RECOVERY's. -/
def execRailRecovery (dt : Nat) (r : Rail) (th : Threshold) (s : State) : Out :=
  match th with
  | .warning => run dt s (fun s =>
      if railLive s r then
        let s := setLive s false r
        match r with
        | .vlink g => happenAll s (regionLanes g) 0x07 [0, 0]
        | _ => s
      else s)
  | .second => run dt s id
  | .reset => .next (
      if s.mode.inReset then
        let low := s.mode.lowRails.filter (fun x => !isRail r x)
        s.onMode (fun m => { m with lowRails := low, inReset := !low.isEmpty })
      else s)

/-- RAIL_RESET (R430): a device rail falls below its reset threshold; the device resets and stays in
reset until the rail recovers. -/
def execRailReset (r : ResetRail) (lead : Bool) (s : State) : Out :=
  .next ((deviceReset s (resetCause r) lead).onMode (fun m => { m with
    inReset := true, lowRails := r :: s.mode.lowRails.filter (· != r) }))

/-- POWER_ON_RESET (R427): the device leaves power-on reset and BOOT begins. -/
def execPowerOnReset (lead : Bool) (s : State) : Out := .next (deviceReset s 0 lead)

/-- RST_N (R12, R520): a low pulse of at least 1 us resets the device, one of at most 0.2 us is
rejected, and what one between them does is open (log entry 8). -/
def execRstN (lowNs : Nat) (lead : Bool) (s : State) : Out :=
  .next (
    if 1000 ≤ lowNs ∨ 200 < lowNs ∧ Config.rstShortPulse lowNs then
      (deviceReset s 1 lead).onMode (fun m => { m with inReset := s.mode.inReset, lowRails := s.mode.lowRails })
    else s)

/-- VLINK_SECOND (R433): VLINK_g falls below its second threshold. -/
def execVlinkSecond (dt : Nat) (g : Region) (s : State) : Out :=
  run dt s (fun s =>
    if (s.region g).second then s
    else suspendRegion (raise (setSupply s (8 + g.val)) 39 g 0) g)

/-- VLINK_RECOVERY (R433): VLINK_g has recovered and the suspended region requests its stage. -/
def execVlinkRecovery (dt : Nat) (g : Region) (s : State) : Out :=
  run dt s (fun s =>
    let r := s.region g
    if r.second then
      let s := s.onRegion g (fun r => { r with second := false })
      if r.iso then s else resumeRegion s g
    else s)

/-- REGION_ISOLATED (R434): VLINK_g below 3.50 V or the region's LDO out of regulation for 5 us. -/
def execRegionIsolated (dt : Nat) (g : Region) (s : State) : Out :=
  run dt s (fun s => if (s.region g).iso then s else isolateRegion s g)

/-- REGION_ISOLATION_END (R434): VLINK_g and the LDO have been good for 10 ms; the region leaves
isolation and stages. A suspension that stood ends with it. -/
def execRegionIsolationEnd (dt : Nat) (g : Region) (s : State) : Out :=
  run dt s (fun s =>
    let r := s.region g
    if r.iso then
      let s := s.onRegion g (fun r => { r with iso := false, second := false })
      let s := happenRegion s (regionLanes g) 2 0
      if r.second || (vlinkLanes s g).any (fun n => (s.lane n).suspended) then resumeRegion s g else requestStage s g
    else s)

/-- VBAT_SECOND (R435): every PSI5 and LIN lane is suspended. -/
def execVbatSecond (dt : Nat) (s : State) : Out :=
  run dt s (fun s =>
    if s.mode.vbatSusp then s
    else
      let s := raise (setSupply s 6) 39 8 0
      let s := s.onMode (fun m => { m with vbatSusp := true })
      let ns := vbatLanes s
      happenRegion (ns.foldl suspendLane s) ns 3 1)

/-- VBAT_RECOVERY (R435): PSI5 and LIN lanes restart, and their endpoints return as sprouts. -/
def execVbatRecovery (dt : Nat) (s : State) : Out :=
  run dt s (fun s =>
    if s.mode.vbatSusp then
      let s := s.onMode (fun m => { m with vbatSusp := false })
      let ns := vbatLanes s
      let s := happenRegion s ns 3 0
      ns.foldl (fun s n => tryPower (laneSprouts (s.onLane n (fun l => { l with suspended := false })) n) n) s
    else s)

/-! ### Meanings: staging and waves -/

/-- Whether another region's stage goes before that of `g`: it was requested earlier, or together and the
region comes first, and it does not wait on its own VLINK_g (R86, R447). -/
def stageBefore (s : State) (g : Nat) : Bool :=
  (List.range 8).any (fun f =>
    let r := s.region f
    let asked := (s.region g).stageAsked
    r.stageReq && r.stageAt.isNone && !r.warn &&
      decide (r.stageAsked < asked ∨ r.stageAsked = asked ∧ f < g))

/-- Whether a region's stage has its time: in a warm start from 1.0 ms + 2g ms after reset release on
(R462). -/
def stageTimely (s : State) (g : Nat) : Bool :=
  !s.mode.warm || decide (400000 + 800000 * g ≤ s.grid.now)

/-- STAGE_ADMIT (R448): at a grid tick a region's stage fits the die budget, its VLINK_g is not below
its warning threshold, 2 ms have passed since the latest admission, and in a warm start its time has come. -/
def execStageAdmit (g : Region) (s : State) : Out :=
  .next (
    let r := s.region g
    if s.grid.on ∧ r.stageReq ∧ r.stageAt = none ∧ !r.warn ∧ s.grid.now = s.grid.tickAt ∧ stageSpaced s ∧
        stageTimely s g ∧ dieCharge s + 4224 ≤ 20000 ∧ !stageBefore s g then
      (s.onMode (fun m => { m with stageLast := some s.grid.now })).onRegion g (fun r => { r with
        stageAt := some s.grid.now, stageStep := 0, charged := true, power := .staging })
    else s)

/-- The probe of a lane that a lane step has powered: with SPC it owes a trigger (R456). -/
def startProbe (s : State) (n : Nat) : State :=
  let l := s.lane n
  if l.mode = .sent ∧ l.poweredAt = some s.grid.now ∧ sentSpc s n then s.setLane n { l with probeOwed := true } else s

/-- LANE_STEP (R446): 64 us times m after its admission, the stage powers two lanes. -/
def execLaneStep (g : Region) (m : Fin 32) (s : State) : Out :=
  .next (
    match (s.region g).stageAt with
    | none => s
    | some a =>
      let t := a + 25600 * m.val
      if (s.region g).stageReq ∧ (s.region g).stageStep = m.val ∧ t ≤ s.lastStep then
        let s := advance s (t - s.grid.now)
        let n := 64 * g.val + 2 * m.val
        let s := startProbe (startProbe (tryPower (tryPower s n) (n + 1)) n) (n + 1)
        s.onRegion g (fun r =>
          if m.val = 31 then { r with stageStep := 32, stageReq := false, power := .powered }
          else { r with stageStep := m.val + 1 })
      else s)

/-- STAGE_CHARGE_RELEASE (R446, R451): at the first grid tick at or after A + 2.984 ms, or after a
stage that ended early, the stage's charge is released. -/
def execStageChargeRelease (g : Region) (s : State) : Out :=
  .next (
    let r := s.region g
    let due : Bool := match r.stageAt with
      | some a => decide (a + 1193600 ≤ s.grid.now)
      | none => true
    if r.charged ∧ due ∧ s.grid.now = s.grid.tickAt then
      s.onRegion g (fun r => { r with charged := false, warmStage := false, stageAt := if r.stageReq then r.stageAt else none })
    else s)

/-- ENUM_WAVE_ADMIT (R457): at a grid tick the previous wave has ended, every lane of the wave has
ended its probe, no region of it waits on VLINK_g, and the wave fits the die budget. -/
def execEnumWaveAdmit (s : State) : Out :=
  .next (
    let w := nextWave s
    if waveReady s ∧ s.grid.now = s.grid.tickAt ∧ dieCharge s + 132 * w.length ≤ 20000 then
      w.foldl (fun s n => s.onLane n (fun l => { l with coldWait := false }))
        (s.onMode (fun m => { m with wave := some (w.filter (fun n => (s.lane n).lstate == .enumerating)) }))
    else s)

end Sys2Proof.Machine
end

