-- ==== Sys2Proof/Machine/Route.lean ====
section
/-!
DEFINITION. Local routes (R270 to R272): their check at a commit, their evaluation on a source record,
and what a route does when it fires. A snapshot and a poll of SENTINEL (R442) evaluate them alike.
-/

namespace Sys2Proof.Machine

/-- A word of a route's entry. -/
def rtW (s : State) (r off : Nat) : Word := s.inForce (aRoute r off)
def rtCond (s : State) (r : Nat) : Nat := fld (rtW s r 0) 30 29
def rtAction (s : State) (r : Nat) : Nat := fld (rtW s r 0) 28 27
def rtSrc (s : State) (r : Nat) : Nat := fld (rtW s r 0) 26 14
def rtDst (s : State) (r : Nat) : Nat := fld (rtW s r 0) 13 1
def rtHyst (s : State) (r : Nat) : Nat := fld (rtW s r 8) 31 16
def rtAddr (s : State) (r : Nat) : Nat := ranged 0x20 0xFF (fld (rtW s r 8) 15 8)
def rtGate (s : State) (r : Nat) : Nat := fld (rtW s r 8) 7 2

/-- The enabled routes, ascending. -/
def routesOn (s : State) : List Nat :=
  s.cfg.live.filterMap (fun x =>
    if 0x070000 ≤ x.1 ∧ x.1 < 0x074000 ∧ x.1 % 16 = 0 ∧ 0x80000000 ≤ x.2.toNat then
      some ((x.1 - 0x070000) / 16) else none)

/-- ROUTE_EN of a descriptor (R168). -/
def routeEn (s : State) (i : Nat) : Bool := bit (s.inForce (aDesc i 0)) 9

/-- Whether a route may write to an endpoint: AKNUN, or LIN with a publish entry (R270). -/
def writable (s : State) (i : Nat) : Bool :=
  descProto s i == 1 || (descProto s i == 4 && nodeEn s (i / 16) (i % 16) && nodePublish s (i / 16) (i % 16))

/-- The first enabled route with a WRITE action that a commit of CG8 or CG10 is refused for (R270). -/
def routeCheck (s : State) : Option Nat :=
  (routesOn s).find? (fun r => decide (rtAction s r ≤ 1) && !writable s (rtDst s r))

/-- A record's VALUE as a number in its endpoint's signedness. -/
def valueNum (s : State) (i : Nat) (v : Word) : Int :=
  if bit (s.inForce (aDesc i 0)) 25 then v.toInt else v.toNat

/-- A route's condition on a source record that takes part, from its previous truth (R271). -/
def condOf (s : State) (r : Nat) (prev : Bool) (last : Option Word) (rec_ : Rec) : Bool :=
  let i := rtSrc s r
  let v := valueNum s i rec_.value
  let t := valueNum s i (rtW s r 4)
  match rtCond s r with
  | 0 => if t < v then true else if v ≤ t - rtHyst s r then false else prev
  | 1 => if v < t then true else if t + rtHyst s r ≤ v then false else prev
  | 2 => rec_.state == fld (rtW s r 4) 2 0
  | _ => match last with
    | some w => w != rec_.value
    | none => false

/-- The grid instant of the first period whose register-access slot considers a request taken now
(R485). -/
def slotInstant (s : State) (n : Nat) : BitVec 48 :=
  if (s.lane n).slotUsed = some s.grid.gridNum then (nextInstant s).1 else s.grid.gridNum

/-- A route write to its destination (R272): it replaces the one that is pending there. On a LIN destination
it is the output word, and pends until a frame slot has carried it. -/
def routeWriteTo (s : State) (r : Nat) (v : Word) : State :=
  let i := rtDst s r
  let n := i / 16
  let l := s.lane n
  if !writable s i || l.lstate == .isolated || l.lstate == .unpowered || l.suspended then routeDrop s r
  else if descProto s i = 4 then
    (dropRouteWrite s i).onEp i (fun e => { e with
      out := v, outNew := true, routedAt := some s.grid.now, rtWrite := some (r, 0, v) })
  else
    let s := dropRouteWrite s i
    let a := rtAddr s r
    let s := s.onEp i (fun e => { e with rtWrite := some (r, BitVec.ofNat 8 a, v) })
    happen s n (slotInstant s n) 0x03 (i % 16) ([BitVec.ofNat 8 a, 0, 0, 0] ++ beBytes 4 v.toNat)

/-- A route fires (R272). -/
def routeFire (s : State) (r : Nat) (v : Word) : State :=
  let s := raise (s.onRoute r (fun x => { x with fires := satInc x.fires })) 37 r v
  match rtAction s r with
  | 0 => routeWriteTo s r (rtW s r 0xC)
  | 1 => routeWriteTo s r v
  | 2 => wakeCond s
  | _ => s

/-- Whether a route is evaluated now (R271): its source has ROUTE_EN, and its gate has opened. A gating
channel with SEC = 0 opens none (R377). -/
def routeRuns (s : State) (r : Nat) : Bool :=
  let g := rtGate s r
  routeEn s (rtSrc s r) &&
    (decide (g < 32) || (chanSec s (g % 32) && (s.chan (g % 32)).gate != (s.route r).gate))

/-- The pending route writes whose destination a commit has made ineligible are dropped (R272). -/
def dropIneligible (s : State) : State :=
  s.eps.foldl (fun s x => if x.2.rtWrite.isSome && !writable s x.1 then dropRouteWrite s x.1 else s) s

/-- One route evaluated on its source's record (R271). -/
def routeEval (s : State) (r : Nat) (rec_ : Option Rec) : State :=
  match rec_ with
  | none => s
  | some rec_ =>
    if !routeRuns s r then s
    else
      let x := s.route r
      let s := s.onRoute r (fun x => { x with gate := (s.chan (rtGate s r % 32)).gate })
      if rec_.state = 0 ∨ rec_.state = 6 then
        let c := condOf s r x.cond x.value rec_
        let s := s.onRoute r (fun x => { x with cond := c, value := some rec_.value })
        if c && (!x.cond || rtCond s r == 3) then routeFire s r rec_.value else s
      else s

/-- Every enabled route evaluated at the completion of a snapshot, in ascending number (R271). -/
def routesSnap (s : State) (x : Snap) : State :=
  (routesOn s).foldl (fun s r =>
    routeEval s r (x.recs.find? (fun y => y.idx == rtSrc s r))) s

end Sys2Proof.Machine
end

