-- ==== Sys2Proof/Machine/Vault.lean ====
section
/-!
DEFINITION. Secure sessions (R392 to R396), the supervision of ports (R302 to R305), and the key
vault's operations (R397 to R417).
-/

namespace Sys2Proof.Machine

/-! ### Sessions -/

/-- The slot of a port's key (R392). -/
def portSlot : Port → Nat
  | .h => 6
  | .m => 7
  | .u => 32

/-- Bytes of session words `i` to `i + n − 1` (R394: byte 0 in bits 31:24). -/
def wordBytes (ws : List Word) (i n : Nat) : Bytes :=
  ((ws.drop i).take n).flatMap (fun w => beBytes 4 w.toNat)

/-- The words that bytes spell. -/
def bytesWords (bs : Bytes) : List Word := (chunks 4 bs.length bs).map (fun c => BitVec.ofNat 32 (beNat c))

/-- Session words replaced from word `i` on. -/
def setWords (ws : List Word) (i : Nat) (xs : List Word) : List Word :=
  fit 7 0 (ws.take i ++ xs ++ ws.drop (i + xs.length))

/-- The port code as a byte. -/
def portByte (p : Port) : Byte := BitVec.ofNat 8 p.code

/-- A 64-bit session value: the leftmost 64 bits of a CMAC (R394). -/
def cmac64 (key msg : Bytes) : Bytes := (cmac key msg).take 8

/-- A write of OPEN (R393, step 2; R395); the vault opens in BOOT (R411). -/
def openSession (s : State) (p : Port) : State :=
  let recently := match (s.port p).openFail with
    | some t => decide (s.grid.now < t + 50000000)
    | none => false
  if s.vault.state != .provisioned || s.alarm.lockdown || recently || s.vault.rngFail || !vaultOpen s || p == .u then s
  else
    let s := abandonVault (closeSession s p) p
    let (i, s) := s.draw
    let c := beBytes 12 (Config.random i).toNat
    s.onPort p (fun x => { x with
      sess := .challenged, words := fit 7 0 (bytesWords c), chalAt := s.grid.now })

/-- A write of CLOSE (R395); it closes nothing on a CLOSED port. -/
def closeWrite (s : State) (p : Port) : State := closeSession s p

/-- Step 5 of R393: the write of RESP1 has completed in CHALLENGED. -/
def checkResponse (s : State) (p : Port) : State :=
  let x := s.port p
  let kp := if slotEmpty s (portSlot p) then [] else (s.slot (portSlot p)).key
  let ctx := wordBytes x.words 0 5 ++ [portByte p]
  if kp != [] && cmac64 kp ([0x00, 0x4F] ++ ctx) == wordBytes x.words 5 2 then
    let d := cmac64 kp ([0x00, 0x44] ++ ctx)
    let s := s.onPort p (fun x => { x with
      sess := .opened, lastCtr := 0, nonce := cmac64 kp ([0x00, 0x4E] ++ ctx)
      kF := cmac2 kp (0x46 :: ctx), kT := cmac2 kp (0x54 :: ctx)
      words := fit 7 0 ([0, 0, 0, 0, 0] ++ bytesWords d) })
    supervise (ruleChange (glbPort (raise s 47 p.code 1) p 13)) p
  else
    sessionFailure (s.onPort p (fun x => { x with
      sess := .closed, words := [0, 0, 0, 0, 0, 0, 0], openFail := some s.grid.now })) p

/-- CHALLENGED for 1 s without a write of RESP1 (R393). -/
def challengeExpire (s : State) (p : Port) : State :=
  if (s.port p).sess = .challenged ∧ (s.port p).chalAt + second ≤ s.grid.now then
    s.onPort p clearSession
  else s

/-! ### Supervision -/

/-- The port number that PORT_LOST carries (R374). -/
def portNum : Port → Nat
  | .h => 0
  | .m => 1
  | .u => 2

/-- A port becomes LOST (R303, R289). -/
def losePort (s : State) (p : Port) : State :=
  let s := s.onPort p (fun x => { x with pstate := .lost, lostAt := s.grid.now })
  let s := closeSession (ruleChange s) p
  glbPort (raise s 48 (portNum p) 2) p.other 12

/-- A supervised port has missed its heartbeat (R302). -/
def heartbeatMiss (s : State) (p : Port) : State :=
  let x := s.port p
  if x.pstate = .active ∧ !x.inFrame ∧ x.lastGood + 400000 * ranged 1 1000 x.hb.toNat ≤ s.grid.now then losePort s p
  else s

/-- One word changed in force and in a port's staging copy. -/
def setBoth (s : State) (p : Port) (a : Nat) (m d : Word) : State :=
  let s := s.setInForce a (merge (s.inForce a) d m)
  s.setStaged p a (merge (s.staged p a) d m)

/-- A reverted port's event channels take EN = 0 (R379). -/
def revertChannels (s : State) (p : Port) : State :=
  (List.range 32).foldl (fun s c =>
    if chanOwner s c = p.owner then dropHeld (setBoth s p (aChan c 0) 0x80000000 0) c else s) s

/-- A reverted port's streams are to take ENABLE = 0 at the next snapshot boundary, whatever the port does
until then (R252, R275). -/
def revertStreams (s : State) (p : Port) : State :=
  (List.range 32).foldl (fun s k =>
    if streamOwner s k = p.owner then s.onStream k (fun x => { x with stopping := some p }) else s) s

/-- The lease of a LOST port ends (R303): PORT_LOST, a rule change, and its channels are disabled;
its streams follow at the next snapshot boundary (R275). -/
def leaseEnd (s : State) (p : Port) : State :=
  let x := s.port p
  if x.pstate = .lost ∧ x.lostAt + 40000000 * ranged 1 600 x.lease.toNat ≤ s.grid.now then
    let s := s.onPort p (fun x => { x with pstate := .reverted })
    let s := revertStreams (revertChannels (ruleChange s) p) p
    glbPort (raise s 48 (portNum p) 3) p.other 12
  else s

/-- Whether RECLAIM on a port is secure (R305): it owns a stream or channel with SEC = 1. -/
def reclaimSecure (s : State) (p : Port) : Bool :=
  (List.range 32).any (fun i =>
    (streamOwner s i == p.owner && bit (s.inForce (aStream i 0)) 28) ||
      (chanOwner s i == p.owner && bit (s.inForce (aChan i 0)) 28))

/-- A reclaim (R305). -/
def reclaimPort (s : State) (p : Port) : State :=
  match (s.port p).pstate with
  | .lost | .reverted =>
    ruleChange (s.onPort p (fun x => { x with pstate := .active, lastGood := s.grid.now }))
  | _ => s

/-- A port reset (R302): IND_ADDR and IND_STATUS are cleared and the session closes; an open
session's port becomes LOST (R303). -/
def portReset (s : State) (p : Port) : State :=
  if p = .u then s else
  let was := (s.port p).sess == .opened && (s.port p).pstate == .active
  let s := s.onPort p (fun x => { x with indAddr := 0, indStat := {} })
  let s := if was then losePort s p else closeSession s p
  s.onPort p (fun x => { x with words := [0, 0, 0, 0, 0, 0, 0] })

/-! ### Vault requests -/

/-- Operations marked "open" in R400. -/
def opOpen (op : Nat) : Bool := op == 0x09 || op == 0x0A || op == 0x0B || op == 0x0C || op == 0x20 || op == 0x21

/-- STREAM_ID in force (R360). -/
def streamIdOf (s : State) (k : Nat) : BitVec 64 := s.inForce (aStream k 0x0C) ++ s.inForce (aStream k 0x10)

/-- The session words are taken as a request (R397 to R399); nothing is taken while a request of the
port is pending. A SET_POLICY that a lock forbids is a lock violation when it is taken (R400). -/
def takeRequest (s : State) (p : Port) (ctr : Option Word) : State :=
  let x := s.port p
  if x.pend.isSome then s
  else
    let b := wordBytes x.words 3 4
    let g := fun i => b.getD i 0
    let r : VaultReq :=
      { op := g 0, sel := g 1, arg := g 2, operand := b.drop 4, ctr := ctr
        keyPol := s.lock.getLsbD 2, streamId := streamIdOf s ((g 1).toNat % 32)
        at_ := s.grid.now }
    let s := s.onPort p (fun x => { x with words := setWords x.words 0 [0xFF000000], pend := some r })
    if ctr.isSome && r.op == 0x08 && r.keyPol && (r.operand.getD 0 0 &&& 0x0F) != s.vault.policy then
      lockViolation s
    else s

/-- Whether a stream key of generation `g` is current or pending (R403). -/
def genInUse (s : State) (g : Nat) : Bool :=
  (List.range 32).any (fun k =>
    let f := fun (x : Option StreamKey) => match x with
      | some y => y.gen == g
      | none => false
    f (s.stream k).key || f (s.stream k).pend)

/-- A slot written by an install (R407). -/
def writeSlot (s : State) (i : Nat) (key : Bytes) (typ info : Nat) : State :=
  let x := s.slot i
  let y : SlotState :=
    { key := key, typ := BitVec.ofNat 4 typ, gen := satInc x.gen, info := BitVec.ofNat 16 info }
  s.onVault (fun v => { v with
    slots := Tbl.set (fun _ => {}) v.slots i (sealSlot v.kek i y), map := moveSlot v.map i })

/-- The 32 bytes of a port's load buffer, where all four parts are loaded (R401). -/
def loaded (x : PortState) : Option Bytes :=
  let ps := (List.range 4).map (fun i => Tbl.get (fun _ => []) x.load i)
  if ps.all (fun b => b.length == 8) then some ps.flatten else none

/-- The mask of parts loaded. -/
def loadMask (x : PortState) : Nat :=
  (List.range 4).foldl (fun a i => a + b2n (Tbl.get (fun _ => []) x.load i != []) * 2 ^ i) 0

/-- A policy bit (R408). -/
def policyBit (s : State) (i : Nat) : Bool := s.vault.policy.toNat / 2 ^ i % 2 == 1

/-- The policy bit that guards replacing or clearing a slot (R408). -/
def slotPolicy (i : Nat) : Nat := if i ≤ 9 then 0 else if i = 10 then 2 else 1

/-- A status with its DATA and the state after it. -/
abbrev VaultAns := Nat × Bytes × State

/-- A byte of a number. -/
def byte (n : Nat) : Byte := BitVec.ofNat 8 n

/-- LOAD_PART (R401). -/
def opLoadPart (s : State) (p : Port) (r : VaultReq) : VaultAns :=
  if 3 < r.sel.toNat then (2, [], s)
  else
    let x := s.port p
    let ctr := beBytes 4 ((r.ctr.getD 0).toNat)
    let pad := aes x.kT (x.nonce ++ ctr ++ [0, 0, 0, r.sel])
    let part := xorBytes (r.operand.take 8) (pad.take 8)
    let s := s.onPort p (fun x => { x with load := Tbl.set (fun _ => []) x.load r.sel.toNat part })
    (0, [byte (loadMask (s.port p))], s)

/-- INSTALL_MASTER (R400, R403). -/
def opInstallMaster (s : State) (p : Port) (r : VaultReq) : VaultAns :=
  let g := r.sel.toNat
  if 1 < g then (2, [], s)
  else match loaded (s.port p) with
  | none => (5, [], s)
  | some k =>
    if !slotEmpty s (8 + g) && !policyBit s 0 then (3, [], s)
    else if genInUse s g then (4, [], s)
    else
      let s := writeSlot s (8 + g) k 4 g
      let s := s.onVault (fun v => { v with nonces := (List.range 32).foldl (fun t k => Tbl.del (2 * k + g) t) v.nonces })
      (0, [byte (8 + g), (s.slot (8 + g)).gen], s)

/-- INSTALL_STREAM_KEY (R402, R403, R266). -/
def opInstallStreamKey (s : State) (r : VaultReq) : VaultAns :=
  let k := r.sel.toNat
  let act := beNat (r.operand.take 6)
  let g := (r.operand.getD 6 0).toNat
  let kn := beNat ((r.operand.drop 8).take 4)
  if 31 < k ∨ r.arg = 0 ∨ 1 < g then (2, [], s)
  else if slotEmpty s (8 + g) then (7, [], s)
  else if kn ≤ (Tbl.get (fun _ => 0) s.vault.nonces (2 * k + g)).toNat then (6, [], s)
  else
    let s := s.onVault (fun v => { v with
      nonces := Tbl.set (fun _ => 0) v.nonces (2 * k + g) (BitVec.ofNat 32 kn) })
    let x := [0x53] ++ beBytes 8 Config.deviceNumber.toNat ++ beBytes 8 r.streamId.toNat ++
      [r.sel, r.arg] ++ beBytes 6 act ++ beBytes 4 kn
    let key : StreamKey :=
      { key := cmac2 (s.slot (8 + g)).key x, id := r.arg, gen := g, actSnap := BitVec.ofNat 48 act }
    (0, [r.sel, r.arg, 1], s.onStream k (fun y => { y with pend := some key }))

/-- INSTALL_PAIRING_ROOT (R404). -/
def opInstallPairing (s : State) (p : Port) (r : VaultReq) : VaultAns :=
  let i := r.sel.toNat
  let maker := beNat (r.operand.take 2)
  if i < 16 ∨ 31 < i then (2, [], s)
  else match loaded (s.port p) with
  | none => (5, [], s)
  | some k =>
    if !slotEmpty s i && !policyBit s 1 then (3, [], s)
    else if (List.range 16).any (fun j =>
        16 + j != i && !slotEmpty s (16 + j) && (s.slot (16 + j)).info.toNat == maker) then (4, [], s)
    else (0, r.sel :: beBytes 2 maker, writeSlot s i k 6 maker)

/-- INSTALL_HOARD_KEY (R400): the export key's use starts again (R418). -/
def opInstallHoard (s : State) (p : Port) : VaultAns :=
  match loaded (s.port p) with
  | none => (5, [], s)
  | some k =>
    if !slotEmpty s 10 && !policyBit s 2 then (3, [], s)
    else (0, [10], (writeSlot s 10 k 5 0).onHoard (fun h => { h with keySegs := 0, keyTicks := 0 }))

/-- ROTATE_PORT_KEY (R401). -/
def opRotate (s : State) (p : Port) (r : VaultReq) : VaultAns :=
  let slot := if r.sel = 0x48 then 6 else if r.sel = 0x4D then 7 else 0
  if slot = 0 then (2, [], s)
  else match loaded (s.port p) with
  | none => (5, [], s)
  | some k => if !policyBit s 3 then (3, [], s) else (0, [byte slot], writeSlot s slot k 3 0)

/-- CLEAR_SLOT (R400). -/
def opClearSlot (s : State) (r : VaultReq) : VaultAns :=
  let i := r.sel.toNat
  if i < 8 ∨ 31 < i then (2, [], s)
  else if !slotEmpty s i && !policyBit s (slotPolicy i) then (3, [], s)
  else if (i = 8 ∨ i = 9) && genInUse s (i - 8) then (4, [], s)
  else (0, [r.sel], zeroSlot s i)

/-- SET_POLICY (R400, R408): bits 7:4 are read only. -/
def opSetPolicy (s : State) (r : VaultReq) : VaultAns :=
  let v := r.operand.getD 0 0 &&& 0x0F
  if r.keyPol && v != s.vault.policy then (10, [], s)
  else (0, [v], s.onVault (fun x => { x with policy := v }))

/-- READ_SLOT_ATTR (R407): attribute bits 63:32. -/
def opReadAttr (s : State) (r : VaultReq) : VaultAns :=
  let i := r.sel.toNat
  if 31 < i then (2, [], s)
  else
    let x := s.slot i
    (0, r.sel :: beBytes 4 (slotAttr x).toNat, s)

/-- An alarm log entry's ten bytes (R424). -/
def logBytes (e : LogEntry) : Bytes :=
  beBytes 2 e.number.toNat ++ beBytes 6 e.tick.toNat ++ [e.source, e.stateResp]

/-- READ_LOG (R424). -/
def opReadLog (s : State) (r : VaultReq) : VaultAns :=
  match s.alarm.log[r.sel.toNat]? with
  | some e => (0, logBytes e, s)
  | none => (7, [], s)

/-- SIGN (R415): the signature's nonce is a draw of the random number generator. -/
def opSign (s : State) (r : VaultReq) : VaultAns :=
  if s.alarm.lockdown || s.vault.state != .provisioned then (9, [], s)
  else if slotEmpty s 0 || slotEmpty s 1 then (7, [], s)
  else
    let (i, s) := s.draw
    let d := beNat ((s.slot 0).key ++ (s.slot 1).key.take 16)
    let msg := [0x49] ++ beBytes 8 Config.deviceNumber.toNat ++ r.operand.take 12 ++
      beBytes 2 s.upd.fwVersion.toNat ++ [byte s.vault.state.code]
    (0, [], s.onVault (fun v => { v with sig := ecdsaSign d (1 + (Config.random i).toNat % (p384N - 1)) msg }))

/-- READ_OUT (R414). -/
def opReadOut (s : State) (r : VaultReq) : VaultAns :=
  let a := r.arg.toNat
  let part := fun (b : Bytes) => (fit 100 0 b).drop (10 * a) |>.take 10
  match r.sel.toNat with
  | 0 => if a = 0 then
      (0, beBytes 8 Config.deviceNumber.toNat ++ [byte s.vault.state.code, byte (b2n s.vault.rngFail)], s)
    else (2, [], s)
  | 1 => if a ≤ 9 then (0, part s.vault.idPub, s) else (2, [], s)
  | 2 => if a ≤ 9 then (0, part s.vault.sig, s) else (2, [], s)
  | _ => (2, [], s)

/-- SAVE_CONFIG (R452, R510); BUSY while migration runs (R509). -/
def opSaveConfig (s : State) : VaultAns :=
  if s.upd.migrating then (8, [], s)
  else
    let c : CfgCopy :=
      { format := s.upd.cfgFormat, tick := s.grid.tick, words := s.cfg.live, hop := s.grid.pkg
        followers := if s.grid.lead then s.grid.joinedCnt else 0, converted := s.nv.oldCfg, valid := true }
    if saveToA s.nv.oldCfg CfgCopy.converted CfgCopy.tick CfgCopy.valid s.nv.cfgA s.nv.cfgB then
      (0, [], { s with nv := { s.nv with cfgA := some c } })
    else (0, [], { s with nv := { s.nv with cfgB := some c } })

/-- PROV_PART (R416). -/
def opProvPart (s : State) (r : VaultReq) : VaultAns :=
  if s.vault.state = .provisioned then (9, [], s)
  else if 34 < r.sel.toNat then (2, [], s)
  else
    let s := s.onVault (fun v => { v with
      prov := Tbl.set (fun _ => []) v.prov r.sel.toNat (fit 8 0 (r.operand.take 8)) })
    (0, [byte s.vault.prov.length], s)

/-- The provisioning package; parts not loaded read 0 (R416). -/
def provPackage (s : State) : Bytes :=
  ((List.range 35).flatMap (fun i => fit 8 0 (Tbl.get (fun _ => []) s.vault.prov i))).take 276

/-- The four checks of R417. -/
def provOk (s : State) : Bool :=
  let b := provPackage s
  let maker := (b.drop 84).take 96
  beNat ((b.drop 4).take 8) == Config.deviceNumber.toNat &&
    decide (s.vault.provCount.toNat < beNat ((b.drop 12).take 4)) &&
    sha384 maker == makerHash s && ecdsaVerify maker (b.take 180) (b.drop 180)

/-- Slots 0 to 7 as PROV_COMMIT writes them under a KEK (R406, R417), from the identity key, the package and the
fuse copy. GEN counts from 0 again (R407). -/
def provWritten (s : State) (kek : Bytes) (d : Nat) : Tbl SlotState :=
  let b := provPackage s
  let kid := beBytes 48 d
  let hx := beBytes 48 Config.haxusHash.toNat
  let mk := sha384 ((b.drop 84).take 96)
  let two := fun (k : Bytes) => (k.take 32, fit 32 0 (k.drop 32))
  let slot := fun (i : Nat) (key : Bytes) (typ : Nat) =>
    (i, sealSlot kek i { key := key, typ := BitVec.ofNat 4 typ })
  [slot 0 (two kid).1 1, slot 1 (two kid).2 1, slot 2 (two hx).1 2, slot 3 (two hx).2 2,
   slot 4 (two mk).1 2, slot 5 (two mk).2 2, slot 6 ((b.drop 20).take 32) 3, slot 7 ((b.drop 52).take 32) 3]

/-- The slots after PROV_COMMIT: slots 0 to 7 written, and every other one as it was. One that was written under an
earlier KEK fails CHECK and is BAD (R410, R417). -/
def provSlots (s : State) (kek : Bytes) (d : Nat) : Tbl SlotState :=
  provWritten s kek d ++ (s.vault.slots.filter (fun e => decide (8 ≤ e.1))).map (fun e =>
    (e.1, { e.2 with health := if e.2.health = 2 then 2 else slotHealth kek e.1 e.2 [] (e.2.health == 1) }))

/-- PROV_COMMIT (R417); `puf` tells whether the KEK rebuild of step 1 passes. Where it fails the vault is in
KEK_FAIL and steps 2 to 4 do not come (R410); the STATUS then is a free value (log entry 141). -/
def opProvCommit (s : State) (puf : Bool) : VaultAns :=
  if s.vault.state = .provisioned then (9, [], s)
  else if provOk s then
    let b := provPackage s
    let (i, s) := s.draw
    let (j, s) := s.draw
    if !puf then
      ((Config.provFailStatus j).toNat, [byte VaultState.kekFail.code], s.onVault (fun v => { v with
        helper := i + 1, kek := [], state := .kekFail, prov := [] }))
    else
      let d := 1 + (Config.random j).toNat % (p384N - 1)
      let kek := beBytes 32 (Config.kek (i + 1)).toNat
      (0, [1], s.onVault (fun v => { v with
        helper := i + 1, kek := kek, slots := provSlots s kek d, map := (List.range 8).foldl moveSlot v.map
        idPub := ecdsaPub d, policy := b.getD 16 0 &&& 0x0F
        provCount := BitVec.ofNat 32 (beNat ((b.drop 12).take 4)), state := .provisioned, prov := [] }))
  else (11, [byte s.vault.state.code], s.onVault (fun v => { v with prov := [] }))

/-- The load buffer zeroised by every install, whatever its outcome (R401). -/
def zeroLoad (p : Port) (r : VaultReq) (s : State) : State :=
  if 0x02 ≤ r.op.toNat ∧ r.op.toNat ≤ 0x06 then s.onPort p (fun x => { x with load := [] }) else s

/-- An operation runs (R400): a session operation outside a session is BAD_OP (R397). -/
def vaultRun (s : State) (p : Port) (r : VaultReq) (puf : Bool) : VaultAns :=
  if r.ctr.isNone && !opOpen r.op.toNat then (1, [], s)
  else match r.op.toNat with
  | 0x01 => opLoadPart s p r
  | 0x02 => opInstallMaster s p r
  | 0x03 => opInstallStreamKey s r
  | 0x04 => opInstallPairing s p r
  | 0x05 => opInstallHoard s p
  | 0x06 => opRotate s p r
  | 0x07 => opClearSlot s r
  | 0x08 => opSetPolicy s r
  | 0x09 => opReadAttr s r
  | 0x0A => opReadLog s r
  | 0x0B => opSign s r
  | 0x0C => opReadOut s r
  | 0x0D => opSaveConfig s
  | 0x20 => opProvPart s r
  | 0x21 => opProvCommit s puf
  | _ => (1, [], s)

/-- A result written to the session words with its result tag (R399). -/
def writeResult (s : State) (p : Port) (r : VaultReq) (status : Nat) (data : Bytes) : State :=
  let res := fit 12 0 ([byte status, r.op] ++ data)
  let x := s.port p
  let tag := match r.ctr with
    | some c => cmac64 x.kF (x.nonce ++ [0x52, portByte p] ++ beBytes 4 c.toNat ++ res)
    | none => beBytes 8 0
  s.onPort p (fun x => { x with
    pend := none, words := setWords (setWords x.words 0 (bytesWords res)) 5 (bytesWords tag) })

/-- A pending operation completes (R399). The warden carries it out, so it waits for a restart to
end (R22), and before the vault opens in BOOT nothing runs (R411). -/
def vaultComplete (s : State) (p : Port) (puf : Bool) : State :=
  match (s.port p).pend with
  | none => s
  | some r =>
    if vaultWaits s p r || s.mode.restarting || !vaultOpen s then s
    else
      let (st, data, s) := vaultRun s p r puf
      writeResult (zeroLoad p r s) p r st data

/-- A pending operation ends with BUSY at a warden restart (R425). -/
def vaultBusy (s : State) (p : Port) : State :=
  match (s.port p).pend with
  | none => s
  | some r => writeResult (zeroLoad p r s) p r 8 []

/-! ### A request as it arrives -/

/-- A secure frame's counter is accepted above the last one (R299): otherwise REPLAY, a session
failure. -/
def acceptCtr (s : State) (p : Port) (ctr : Word) : Option State :=
  if (s.port p).lastCtr.toNat < ctr.toNat then some (s.onPort p (fun x => { x with lastCtr := ctr }))
  else none

/-- A frame with CTR 0xFFFF_FFFF closes the session after it (R299). -/
def endSecure (s : State) (p : Port) (ctr : Word) : State :=
  if ctr = 0xFFFFFFFF ∧ (s.port p).sess = .opened then closeSession s p else s

/-- A 16-byte request reaches the session words of a port (R397): in OPEN by a SECURE_BURST whose
tag has passed, otherwise by ordinary writes. -/
def vaultRequest (s : State) (p : Port) (ctr : Word) (op sel arg : Nat) (operand : Bytes) : State :=
  let ws := bytesWords (fit 16 0 ([byte op, byte sel, byte arg, 0] ++ fit 12 0 operand))
  let put := fun (s : State) => s.onPort p (fun x => { x with words := setWords x.words 3 ws })
  let off := s.mode.dev == .off
  match p, (s.port p).sess with
  | .u, _ => s
  | _, .closed => if off then s else takeRequest (put s) p none
  | _, .challenged => if off then s else checkResponse (put s) p
  | _, .opened =>
    match acceptCtr s p ctr with
    | none => sessionFailure s p
    | some s => endSecure (if off then s else takeRequest (put s) p (some ctr)) p ctr

/-! ### Meanings -/

/-- OPEN (R393). -/
def execOpen (dt : Nat) (p : Port) (s : State) : Out := hostWrite dt p s (fun s => openSession s p)
/-- CLOSE (R395). -/
def execClose (dt : Nat) (p : Port) (s : State) : Out := hostWrite dt p s (fun s => closeWrite s p)
/-- SESSION_RESPONSE (R393, step 5): R is written to RESP0 and RESP1 in CHALLENGED. -/
def execSessionResponse (dt : Nat) (p : Port) (r : BitVec 64) (s : State) : Out :=
  hostWrite dt p s (fun s =>
    if (s.port p).sess = .challenged then
      checkResponse (s.onPort p (fun x => { x with
        words := setWords x.words 5 (bytesWords (beBytes 8 r.toNat)) })) p
    else s)
/-- CHALLENGE_TIMEOUT (R393). -/
def execChallengeTimeout (dt : Nat) (p : Port) (s : State) : Out := run dt s (fun s => challengeExpire s p)
/-- PRESET (R302, R303). -/
def execPreset (dt : Nat) (p : Port) (s : State) : Out := hostWrite dt p s (fun s => portReset s p)
/-- HEARTBEAT_MISSED (R302, R303). -/
def execHeartbeatMissed (dt : Nat) (p : Port) (s : State) : Out := run dt s (fun s => heartbeatMiss s p)
/-- LEASE_EXPIRY (R303). -/
def execLeaseExpiry (dt : Nat) (p : Port) (s : State) : Out := run dt s (fun s => leaseEnd s p)

/-- LOAD_PART (R401). -/
def execLoadPart (dt : Nat) (p : Port) (ctr : Word) (part : Byte) (enc : List Byte) (s : State) : Out :=
  hostFrame dt p s (fun s => vaultRequest s p ctr 0x01 part.toNat 0 (fit 8 0 enc))
/-- INSTALL_MASTER (R403). -/
def execInstallMaster (dt : Nat) (p : Port) (ctr : Word) (gen : Byte) (s : State) : Out :=
  hostFrame dt p s (fun s => vaultRequest s p ctr 0x02 gen.toNat 0 [])
/-- INSTALL_STREAM_KEY (R402). -/
def execInstallStreamKey (dt : Nat) (p : Port) (ctr : Word) (stream keyId : Byte) (actSnap : BitVec 48)
    (gen : Byte) (keyNonce : Word) (s : State) : Out :=
  hostFrame dt p s (fun s => vaultRequest s p ctr 0x03 stream.toNat keyId.toNat
    (beBytes 6 actSnap.toNat ++ [gen, 0] ++ beBytes 4 keyNonce.toNat))
/-- INSTALL_PAIRING_ROOT (R404). -/
def execInstallPairingRoot (dt : Nat) (p : Port) (ctr : Word) (slot : Byte) (maker : BitVec 16)
    (s : State) : Out :=
  hostFrame dt p s (fun s => vaultRequest s p ctr 0x04 slot.toNat 0 (beBytes 2 maker.toNat))
/-- INSTALL_HOARD_KEY (R400). -/
def execInstallHoardKey (dt : Nat) (p : Port) (ctr : Word) (s : State) : Out :=
  hostFrame dt p s (fun s => vaultRequest s p ctr 0x05 0 0 [])
/-- ROTATE_PORT_KEY (R401). -/
def execRotatePortKey (dt : Nat) (p : Port) (ctr : Word) (code : Byte) (s : State) : Out :=
  hostFrame dt p s (fun s => vaultRequest s p ctr 0x06 code.toNat 0 [])
/-- CLEAR_SLOT (R400). -/
def execClearSlot (dt : Nat) (p : Port) (ctr : Word) (slot : Byte) (s : State) : Out :=
  hostFrame dt p s (fun s => vaultRequest s p ctr 0x07 slot.toNat 0 [])
/-- SET_POLICY (R408). -/
def execSetPolicy (dt : Nat) (p : Port) (ctr : Word) (policy : Byte) (s : State) : Out :=
  hostFrame dt p s (fun s => vaultRequest s p ctr 0x08 0 0 [policy])
/-- READ_SLOT_ATTR (R407). -/
def execReadSlotAttr (dt : Nat) (p : Port) (ctr : Word) (slot : Byte) (s : State) : Out :=
  hostFrame dt p s (fun s => vaultRequest s p ctr 0x09 slot.toNat 0 [])
/-- READ_LOG (R424). -/
def execReadLog (dt : Nat) (p : Port) (ctr : Word) (index : Byte) (s : State) : Out :=
  hostFrame dt p s (fun s => vaultRequest s p ctr 0x0A index.toNat 0 [])
/-- SIGN (R415). -/
def execSign (dt : Nat) (p : Port) (ctr : Word) (challenge : List Byte) (s : State) : Out :=
  hostFrame dt p s (fun s => vaultRequest s p ctr 0x0B 0 0 (fit 12 0 challenge))
/-- READ_OUT (R414). -/
def execReadOut (dt : Nat) (p : Port) (ctr : Word) (buffer part : Byte) (s : State) : Out :=
  hostFrame dt p s (fun s => vaultRequest s p ctr 0x0C buffer.toNat part.toNat [])
/-- SAVE_CONFIG (R452). -/
def execSaveConfig (dt : Nat) (p : Port) (ctr : Word) (s : State) : Out :=
  hostFrame dt p s (fun s => vaultRequest s p ctr 0x0D 0 0 [])
/-- PROV_PART (R416). -/
def execProvPart (dt : Nat) (p : Port) (ctr : Word) (part : Byte) (bytes : List Byte) (s : State) : Out :=
  hostFrame dt p s (fun s => vaultRequest s p ctr 0x20 part.toNat 0 (fit 8 0 bytes))
/-- PROV_COMMIT (R417). -/
def execProvCommit (dt : Nat) (p : Port) (ctr : Word) (s : State) : Out :=
  hostFrame dt p s (fun s => vaultRequest s p ctr 0x21 0 0 [])
/-- VAULT_RESULT (R399). -/
def execVaultResult (dt : Nat) (p : VaultEnd) (s : State) : Out := run dt s (fun s => vaultComplete s p.port p.puf)

end Sys2Proof.Machine
end

