-- ==== Sys2Proof/Machine/Snapshot.lean ====
section
/-!
DEFINITION. The completion of a snapshot (R232): the state, value, age and status of every record (R234
to R237), the last-value store and error counts, the header (R239), and what a complete snapshot sets
off: streams (R258), routes (R271), the hoard's digest (R486) and the end of SOW (R459).
-/

namespace Sys2Proof.Machine

/-- The snapshot under way with the store as it is being updated. -/
structure Resolve where
  st : State
  recs : List Rec
  dropped : Nat
  /-- Regions with a lost record. -/
  lost : List Nat
  kept : List (Nat × Entry × Int)
  deriving DecidableEq, Repr

/-- Whether a lane's records are lost (R234, rule 2). -/
def lostLane (s : State) (b : Build) (n : Nat) : Bool :=
  let g := laneRegion n
  let c := (s.region g).closed
  b.lostRegions.contains g || (c.snap == b.num && c.lost) || b.lostLanes.contains n

/-- A lane's packets in the bank of a snapshot. -/
def bankPackets (s : State) (b : Build) (n : Nat) : List Packet :=
  let c := (s.region (laneRegion n)).closed
  if c.snap = b.num then c.pkts.filter (fun p => p.lane == n) else []

/-- Whether an entry can be a late entry (R234). -/
def lateState : RecState → Bool
  | .valid | .sprout | .range => true
  | _ => false

/-- The late entries of an endpoint, newest last, each with the time of its packet's grid instant
(R234). -/
def lateEntries (s : State) (b : Build) (i : Nat) : List (Entry × Int) :=
  (s.asm_.keptLate.filterMap (fun x => if x.1 = i then some x.2 else none)) ++
    ((bankPackets s b (i / 16)).filter (fun p => p.tag != b.num)).flatMap (fun p =>
      (p.entries.filter (fun e => e.pos == i % 16 && lateState e.prov)).map (fun e => (e, p.inst)))

/-- Whether a late entry's packet precedes a change of its endpoint's PROTO, SIGN or slice (R234). -/
def outdated (e : EpState) (x : Entry × Int) : Bool :=
  match e.changedAt with
  | some c => decide (x.2 < (c : Int))
  | none => false

/-- The changes of an endpoint's PROTO, SIGN or slice that a snapshot is the first to reach: the last-value
store holds no value, and after a change of PROTO the endpoint counts as not in RANGE (R171, R235). -/
def settleClears (s : State) (b : Build) (i : Nat) : State :=
  let e := s.ep i
  let (now_, rest) := (e.clears.filter (fun c => decide (c.1 ≤ b.at_)), e.clears.filter (fun c => !decide (c.1 ≤ b.at_)))
  match now_.getLast? with
  | none => s
  | some c => s.setEp i { e with
      clears := rest, changedAt := some c.1, store := none
      inRange := e.inRange && !now_.any (fun c => c.2) }

/-- What a record takes from its entry: its state, whether the value and age are the entry's, and the
entry that bits 3 and 4 come from (R234 to R236). -/
def recState (gap lost : Bool) (lane : LaneCond) (due : Bool) (on late : Option Entry) :
    RecState × Option Entry × Option Entry :=
  let entryGap := match on with
    | some e => e.prov == .gap
    | none => false
  if gap then (.gap, none, none)
  else if lost then (.missing, none, none)
  else if lane == .gap || entryGap then (.gap, none, none)
  else if lane == .fault then (.fault, none, on)
  else match due, on, late with
    | true, some e, _ => (e.prov, if e.hasValue && e.prov != .stale then some e else none, some e)
    | _, _, some e => (.late, some e, some e)
    | true, none, none => (.missing, none, none)
    | false, _, none => (.stale, none, on)

/-- The error count after a record (R237). -/
def errAfter (st : RecState) (err : Nat) : Nat :=
  match st with
  | .valid => 0
  | .missing | .late | .fault => min 3 (err + 1)
  | _ => err

/-- THRESHOLD at a change between RANGE and any other state (R171). -/
def threshold (s : State) (i : Nat) (st : RecState) (v : Word) : State :=
  let now_ := st == .range
  if (s.ep i).inRange = now_ then s
  else raise (s.onEp i (fun e => { e with inRange := now_ })) 21 (handle s i + 0x8000 * b2n now_) v

/-- The condition that a lane's on-time packets carry. -/
def condOfPackets (ps : List Packet) : LaneCond :=
  if ps.any (fun p => p.cond == .gap) then .gap else if ps.any (fun p => p.cond == .fault) then .fault else .none

/-- One endpoint's record (R234 to R237). -/
def resolveRec (b : Build) (r : Resolve) (i : Nat) : Resolve :=
  let s := settleClears r.st b i
  let n := i / 16
  let gap := b.flags.toNat / 4 % 4 != 0
  let lost := lostLane s b n
  let onPk := (bankPackets s b n).filter (fun p => p.tag == b.num)
  let on := (onPk.flatMap (fun p => p.entries.filter (fun e => e.pos == i % 16))).getLast?
  let lates := lateEntries s b i
  let newest := (lates.filter (fun x => !outdated (s.ep i) x)).getLast?
  let late := newest.map Prod.fst
  let stale := (lates.filter (outdated (s.ep i))).length
  if gap then
    let e := s.ep i
    let (v, a) := match e.store with
      | some (v, S) => (v, ageOf b.at_ S)
      | none => (0, noAge)
    let status := BitVec.ofNat 8 (7 + 32 * (b.flags.toNat % 2) + 64 * e.err)
    { r with st := threshold s i .gap v, dropped := r.dropped + stale
             recs := r.recs ++ [{ idx := i, value := v, age := a, status := status }]
             kept := match newest with
               | some x => r.kept ++ [(i, x)]
               | none => r.kept }
  else
    let due := epDue s i b.num
    let (st, src, bits) := recState false lost (condOfPackets onPk) due on late
    let beaten := due && on.isSome && late.isSome && st != .late && !lost &&
      condOfPackets onPk == .none && st != .gap
    let e := s.ep i
    let (v, a) := match src with
      | some x => (x.value, ageOf b.at_ x.inst)
      | none => match e.store with
        | some (v, S) => (v, ageOf b.at_ S)
        | none => (0, noAge)
    let flag := fun (f : Entry → Bool) =>
      (match bits with
        | some x => f x
        | none => false) || (beaten && match late with
        | some x => f x
        | none => false)
    let err := errAfter st e.err
    let status := BitVec.ofNat 8 (st.code + 8 * b2n (flag Entry.husk) + 16 * b2n (flag Entry.calStep) +
      32 * (b.flags.toNat % 2) + 64 * err)
    let store := match st, src with
      | .valid, some x | .sprout, some x | .range, some x | .late, some x => some (x.value, x.inst)
      | _, _ => e.store
    let s := s.onEp i (fun e => { e with err := err, store := store })
    { r with st := threshold s i st v, dropped := r.dropped + stale + b2n beaten
             recs := r.recs ++ [{ idx := i, value := v, age := a, status := status }]
             lost := if lost && !r.lost.contains (laneRegion n) then r.lost ++ [laneRegion n] else r.lost }

/-- The closed banks of a snapshot are drained (R225). -/
def drained (num : BitVec 48) (s : State) (g : Nat) : State :=
  let c := (s.region g).closed
  if c.snap = num then s.onRegion g (fun r => r.setClosed { c with pkts := [], closedAt := none }) else s

/-- The record numbers of the endpoints that a list names. -/
def recNumbers (recs : List Rec) (is_ : List Nat) : List Nat :=
  (List.range recs.length).filter (fun j => match recs[j]? with
    | some x => is_.contains x.idx
    | none => false)

/-- Steps 2 to 5 of R232 for the oldest snapshot under way, under its configuration: the records, the
substitutes of R243, and the header. -/
def assemble (s : State) (b : Build) (fixed : Nat) (badEcc decayed flips : List Nat) : State × Snap :=
  let r := (population s).foldl (resolveRec b) { st := s, recs := [], dropped := 0, lost := [], kept := [] }
  let recs := r.recs.map (fun x => if badEcc.contains x.idx then substRec x else x)
  let subst := (r.recs.filter (fun x => badEcc.contains x.idx)).length
  let snap : Snap :=
    { num := b.num
      flags := b.flags ||| BitVec.ofNat 8 (16 * b2n (!r.lost.isEmpty) + 32 * b2n (subst != 0))
      pkg := s.grid.pkg, pexp := b.pexp, at_ := b.at_, recs := recs, configDigest := configDigest s
      recordDigest := recDigest recs
      regionLost := BitVec.ofNat 8 (r.lost.foldl (fun a g => a + 2 ^ g) 0)
      lateDropped := r.dropped, doneTime := (s.grid.now - b.at_) / 4, eccSubst := subst
      decayed := recNumbers recs decayed, eccRaised := [], flips := recNumbers recs flips }
  let top := 4294967295
  let s := r.st.onAsm (fun a => { a with
    latest := some snap, prev := a.latest, build := a.build.drop 1, keptLate := r.kept
    cnt := { a.cnt with
      eccFixed := satAdd top a.cnt.eccFixed fixed, eccSubst := satAdd top a.cnt.eccSubst subst
      lateDropped := satAdd top a.cnt.lateDropped r.dropped, snapshots := satAdd top a.cnt.snapshots } })
  ((List.range 8).foldl (drained b.num) s, snap)

/-- A DIGEST block (R486). -/
def digestBody (s : State) (x : Snap) : Bytes :=
  let rs := x.recs.filter (fun r => s.hoard.lanes.contains (r.idx / 16))
  beBytes 6 x.num.toNat ++ [x.flags, 0] ++ beBytes 2 rs.length ++ [0, 0] ++ countBytes rs ++
    beBytes 4 (recDigest rs).toNat ++ beBytes 4 x.recordDigest.toNat

/-- SOW ends with the first snapshot (R437, R454, R459); after a boot commit that fell back, the device
goes on to RECOVER (R453). -/
def endSow (s : State) : State :=
  if s.mode.dev = .sow then
    let s := setDev s .run
    let s := if s.mode.fallback then setDev s .recover else s
    supervise (supervise s .h) .m
  else s

/-- A snapshot is complete (R232, step 5). -/
def snapDone (s : State) (b : Build) (fixed : Nat) (badEcc decayed flips : List Nat) : State :=
  let (s, x) := assemble s b fixed badEcc decayed flips
  let s := glb (raise s 1 0 (BitVec.ofNat 32 x.recs.length)) 16
  let s := (streamOrder s).foldl (streamSnap x) s
  let s := routesSnap s x
  hoardDigest s b.num (digestBody s x)

/-- SNAPSHOT_DONE (R232): the assembler completes the oldest snapshot under way; `decayed` are the
records in which its later readers find an uncorrectable error (R243). -/
def execSnapshotDone (dt : Nat) (single : EccFound) (badEcc decayed : List Idx) (s : State) : Out :=
  run dt s (fun s =>
    match s.asm_.build with
    | [] => s
    | b :: _ =>
      let s := s.under b.at_ (fun s =>
        snapDone s b single.fixed (badEcc.map Fin.val) (decayed.map Fin.val) (single.flips.map Fin.val))
      endSow (refreshStreams (sealAll s)))

end Sys2Proof.Machine
end

