-- ==== Sys2Proof/Machine/Commit.lean ====
section
/-!
DEFINITION. Commits (R308, R317 to R319): the request, the values taken at T_c with the merge of both
ports, the checks of R318, sowing with its reports and its changeover (R178, R182, R183, R33), and what
every group does when it takes effect (R28, R134, R135, R187, R211, R255, R259, R271, R384, R387). LOCK
(R320) and DISCARD (R335) stand beside them.
-/

namespace Sys2Proof.Machine

/-! ### Fields of the staged words -/

/-- The fields of a configuration word, as bit ranges: the merge of R308 runs over them. -/
def wordFields : Word4 → List (Nat × Nat)
  | .desc _ 0x00 => [(31, 29), (28, 26), (25, 25), (24, 24), (23, 19), (18, 14), (13, 12), (11, 10), (9, 9), (8, 8), (7, 0)]
  | .desc _ 0x04 => [(31, 8), (7, 0)]
  | .desc _ 0x08 => [(31, 16), (15, 0)]
  | .desc _ _ => [(31, 0)]
  | .lane _ 0x00 => [(31, 29), (28, 27), (26, 25), (24, 24)]
  | .lane _ 0x04 => [(31, 31), (30, 21), (20, 19), (18, 16), (15, 15), (14, 13), (12, 12), (11, 11), (10, 9), (8, 6)]
  | .lane _ 0x08 => [(31, 22), (21, 14)]
  | .lane _ 0x0C => [(31, 31), (30, 30), (29, 24), (23, 19), (18, 13), (12, 12)]
  | .lane _ _ => [(31, 21), (20, 18)]
  | .cluster _ off =>
    if off < 0x20 then [(31, 31), (30, 20), (19, 15), (14, 14)]
    else [(31, 31), (30, 25), (24, 21), (20, 20), (19, 17), (16, 16)]
  | .region _ _ => [(30, 18), (17, 16), (15, 12), (11, 0)]
  | .matrix _ _ => [(31, 0)]
  | .chan _ 0x0 => [(31, 31), (30, 29), (28, 28), (27, 24)]
  | .chan _ _ => [(15, 8), (7, 0)]
  | .src _ => [(31, 24), (2, 0)]
  | .monRegion _ 0x0 => [(31, 16), (15, 8)]
  | .monRegion _ 0x4 => [(31, 24), (23, 16)]
  | .monRegion _ _ => [(31, 0)]
  | .monUplink _ _ => [(31, 0)]
  | .stream _ 0x00 => [(31, 31), (30, 29), (28, 28), (27, 27), (26, 26), (25, 25), (24, 24), (23, 23), (22, 20), (19, 19),
      (18, 15), (14, 12), (11, 0)]
  | .stream _ _ => [(31, 0)]
  | .member _ => [(31, 0)]
  | .deadband _ => [(31, 0)]
  | .uplink _ 0x00 => [(31, 30), (29, 28), (27, 27), (26, 26), (25, 25)]
  | .uplink _ _ => [(31, 0)]
  | .route _ 0x0 => [(31, 31), (30, 29), (28, 27), (26, 14), (13, 1)]
  | .route _ 0x8 => [(31, 16), (15, 8), (7, 2)]
  | .route _ _ => [(31, 0)]
  | .calLane _ => [(31, 30), (29, 24), (23, 16), (15, 8), (7, 1), (0, 0)]
  | .calRegion _ => [(31, 30), (29, 24), (23, 16), (15, 8), (7, 1), (0, 0)]
  | .calGlobal => [(0, 0)]
  | .hoardSel _ => [(31, 0)]
  | .laneCal _ off =>
    if off = 0x00 then [(31, 20), (19, 8), (7, 0)]
    else if off = 0x04 then [(31, 24)]
    else if off = 0x10 then [(31, 16)]
    else if off < 0x10 then [(31, 0)]
    else if off < 0x24 then [(31, 22), (21, 12)]
    else [(31, 16), (15, 0)]
  | .regionCal _ _ => [(23, 16), (7, 0)]
  | .epCal _ _ => [(16, 0)]
  | .alarmPolicy => [(3, 2), (5, 4), (7, 6), (9, 8), (11, 10), (13, 12), (15, 14), (17, 16), (19, 18), (21, 20)]
  | .supplyThresh => [(2, 0), (5, 3), (8, 6), (11, 9), (14, 12), (17, 15), (20, 18), (23, 21), (26, 24), (29, 27)]
  | .gridCtl => [(30, 30), (29, 29), (28, 28), (27, 27), (26, 24), (23, 14), (13, 7), (6, 5), (2, 0)]
  | .other => []

/-! ### The values taken at T_c (R308, R317) -/

/-- Whether groups name a word's group. -/
def takes (groups : BitVec 16) (a : Nat) : Bool :=
  match cfgGroup a with
  | some k => groups.getLsbD k
  | none => false

/-- One word of a commit, merged field by field: Port M's value where it sets the field, then Port H's,
then the value in force (R308). -/
def mergeWord (s : State) (gh gm : BitVec 16) (a : Nat) : Word :=
  let old := calNow s a
  let h := if takes gh a then s.staged .h a else old
  let m := if takes gm a then s.staged .m a else old
  (wordFields (word4 a)).foldl (fun w f =>
    let k := ones f.1 f.2
    merge w (if (m ^^^ old) &&& k ≠ 0 then m else h) k) old

/-- Every key at which a port's staging copy or the values in force may differ from reset. -/
def commitKeys (s : State) : List Nat :=
  (s.cfg.stgH.map Prod.fst ++ s.cfg.stgM.map Prod.fst ++ s.cfg.live.map Prod.fst).eraseDups

/-- Whether a word is a load value of the calibration state, which only a LOAD puts to use (R211). -/
def isLoadValue (a : Nat) : Bool :=
  match word4 a with
  | .laneCal _ _ | .regionCal _ _ | .epCal _ _ => true
  | _ => false

/-- Whether a word carries a LOAD bit (R210). -/
def hasLoad (a : Nat) : Bool :=
  match word4 a with
  | .calLane _ | .calRegion _ => true
  | _ => false

/-- The words that a commit puts in force; LOAD bits are not kept (R210). -/
def commitDiff (s : State) (gh gm : BitVec 16) : List (Nat × Word) :=
  (commitKeys s).filterMap (fun a =>
    if isLoadValue a || !takes (gh ||| gm) a then none
    else
      let w := if hasLoad a then mergeWord s gh gm a &&& 0xFFFFFFFE else mergeWord s gh gm a
      if w = s.inForce a then none else some (a, w))

/-- The configuration that a commit would leave: the values in force, the commits taken before it, and
its own values. -/
def candidate (s : State) (before : List CommitRun) (d : List (Nat × Word)) : State :=
  { s with cfg := { s.cfg with live := applyDiff s.cfg.live (before.flatMap CommitRun.diff ++ d) } }

/-- The words of a lane's calibration entry that a LOAD reads. -/
def laneLoadOffs : List Nat := [0x00, 0x04, 0x08, 0x0C, 0x10, 0x14, 0x18, 0x1C, 0x20, 0x24, 0x28, 0x2C, 0x30]

/-- Lanes and regions whose LOAD bit a commit takes. -/
def loadLanes (s : State) (gh gm : BitVec 16) : List Nat :=
  (List.range 512).filter (fun n => bit (mergeWord s gh gm (aCalLane n)) 0)
def loadRegions (s : State) (gh gm : BitVec 16) : List Nat :=
  (List.range 8).filter (fun g => bit (mergeWord s gh gm (aCalRegion g)) 0)

/-- The load values that a commit takes, in the candidate configuration `c` (R211). -/
def commitLoads (s c : State) (gh gm : BitVec 16) : List (Nat × Word) :=
  let at_ := fun (a : Nat) => (a, mergeWord s gh gm a)
  (loadLanes s gh gm).flatMap (fun n =>
    laneLoadOffs.map (fun off => at_ (aLaneCal n off)) ++
      (if bit (c.inForce (aCalLane n)) 18 then
        (lanePositions c n).flatMap (fun p => [at_ (aEpCal (epIdx n p) 0), at_ (aEpCal (epIdx n p) 4)]) else [])) ++
    (loadRegions s gh gm).map (fun g => at_ (aRegionCal g 0))

/-- The region whose programs a word concerns (R178). -/
def sowRegion (a : Nat) : Option Nat :=
  match word4 a with
  | .desc i _ => some (i / 1024)
  | .lane n _ => some (n / 64)
  | .cluster c _ => some (c / 8)
  | _ => none

/-- k once a set of words is in force. -/
def kAfter (s : State) (d : List (Nat × Word)) : Nat :=
  match loadWord d kGridCtl with
  | some w => fld w 2 0
  | none => pexp s

/-- Whether a commit triggers sowing: any of CG0 to CG8, or a change of k (R178). -/
def triggers (s : State) (groups : BitVec 16) (d : List (Nat × Word)) : Bool :=
  groups.toNat % 512 != 0 || kAfter s d != pexp s

/-- The regions that a sowing covers, as bits (R33, R178). -/
def coverage (s : State) (d : List (Nat × Word)) : BitVec 8 :=
  if kAfter s d != pexp s then 0xFF
  else (List.range 8).foldl (fun b g =>
    if d.any (fun e => sowRegion e.1 == some g) then b ||| BitVec.ofNat 8 (2 ^ g) else b) 0

/-! ### Checks (R318, R319) -/

/-- A refusal: REASON and ITEM. -/
abbrev Reason := Nat × Nat

/-- The lanes of the region groups that a commit names. -/
def groupLanes (groups : BitVec 16) : List Nat :=
  (List.range 8).flatMap (fun g => if groups.getLsbD g then regionLanes g else [])

/-- MODE_POSITION (R134). -/
def badPosition (c : State) (n : Nat) : Bool :=
  (cfgMode c n == .psi5 && lanePlace n != 0) || (cfgMode c n == .lin && lanePlace n != 1)

/-- SOURCE_MODES (R166). -/
def badSource (c : State) (n : Nat) : Bool :=
  !bit (c.inForce (aLane n 0)) 25 &&
    (cfgMode c n == .aknun || (cfgMode c n == .sent && (sentSpc c n || bit (sentA c n) 12)))

/-- The checks of R212 on a CG14 commit. -/
def calCheck (s c : State) (gh gm : BitVec 16) (loads : List (Nat × Word)) : Option Reason :=
  let loadL := loadLanes s gh gm
  let loadG := loadRegions s gh gm
  let active := !loadL.isEmpty || !loadG.isEmpty || bit (c.inForce aCalGlobal) 0 ||
    (List.range 512).any (fun n => calActive (c.inForce (aCalLane n))) ||
    (List.range 8).any (fun g => calActive (c.inForce (aCalRegion g)))
  let w := fun (a : Nat) => (loadWord loads a).getD 0
  if active && s.mode.dev != .test && s.mode.dev != .replay then some (6, 0)
  else
    match loadL.find? (fun n => !laneLoadOk c n (c.inForce (aCalLane n)) (fun off => w (aLaneCal n off))) with
    | some n => some (7, n)
    | none =>
      match loadL.find? (fun n => (lanePositions c n).any (fun p =>
          let i := epIdx n p
          bit (c.inForce (aCalLane n)) 18 && !epLoadOk (w (aEpCal i 0)) (w (aEpCal i 4)))) with
      | some n =>
        match (lanePositions c n).find? (fun p =>
            let i := epIdx n p
            !epLoadOk (w (aEpCal i 0)) (w (aEpCal i 4))) with
        | some p => some (8, epIdx n p)
        | none => none
      | none =>
        match loadG.find? (fun g =>
            let og := sgn 8 (fld (w (aRegionCal g 0)) 23 16)
            bit (c.inForce (aCalRegion g)) 22 && decide (og < -32 ∨ 32 < og)) with
        | some g => some (9, g)
        | none => none

/-- GRID_FIELD (R336). -/
def badGrid (c : State) : Bool :=
  let w := c.inForce kGridCtl
  fld w 26 24 == 7 || decide (1000 < fld w 23 14)

/-- A trim of SUPPLY_THRESH (R332). -/
def trim (w : Word) (i : Nat) : Int := sgn 3 (fld w (3 * i + 2) (3 * i))

/-- The warning thresholds of SUPPLY_THRESH in order from bit 0, each with the nominal distance to its
rail's second threshold in steps (R332). -/
def supplyGaps : List (Nat × Int) := [(0, 6), (2, 10), (4, 8), (6, 6), (8, 6)]

/-- SUPPLY_RANGE: the warning threshold at fault (R332). -/
def badSupply (c : State) : Option Nat :=
  let w := c.inForce kSupplyThresh
  match supplyGaps.find? (fun x => decide (x.2 + trim w x.1 - trim w (x.1 + 1) < 2)) with
  | some x => some x.1
  | none => none

/-- Whether a word changes a field whose LOCK bit is set (R320). -/
def lockedChange (s : State) (e : Nat × Word) : Bool :=
  let (m, b) := word4Lock (word4 e.1)
  s.lock.getLsbD b && (e.2 ^^^ s.inForce e.1) &&& m != 0

/-- The lowest group of a commit that passes a test. -/
def lowestGroup (f : Nat → Bool) : Option Nat := (List.range 16).find? f

/-- The checks of R318, before sowing, in their order: the first that fails. -/
def commitCheck (s : State) (groups gh gm : BitVec 16) (d loads : List (Nat × Word)) : Option Reason :=
  let others := s.commits.filter (fun c => c.ports != 0)
  let c := candidate s s.commits d
  match lowestGroup (fun k => groups.getLsbD k && others.any (fun o => o.groups.getLsbD k)) with
  | some k => some (5, k)
  | none =>
  if triggers s groups d && s.commits.any (fun o => !o.sown) then some (4, 0)
  else match lowestGroup (fun k => d.any (fun e => cfgGroup e.1 == some k && lockedChange s e)) with
  | some k => some (0x0E, k)
  | none =>
  match (groupLanes groups).find? (badPosition c) with
  | some n => some (1, n)
  | none =>
  match (groupLanes groups).find? (badSource c) with
  | some n => some (2, n)
  | none =>
  match if groups.getLsbD 14 then calCheck s c gh gm loads else none with
  | some r => some r
  | none =>
  match if groups.getLsbD 9 || groups.getLsbD 12 then streamCheck c else none with
  | some k => some (0x0A, k)
  | none =>
  match if groups.getLsbD 8 || groups.getLsbD 10 then routeCheck c else none with
  | some r => some (0x0B, r)
  | none =>
  if groups.getLsbD 12 && badGrid c then some (0x0C, 0)
  else match if groups.getLsbD 15 then badSupply c else none with
  | some i => some (0x0D, i)
  | none => none

/-! ### Status (R319) -/

/-- COMMIT_STATUS as a word. -/
def cstatWord (x : CommitStatus) : Word :=
  pack [(29, 3, x.state.code), (24, 5, x.reason.toNat), (22, 2, x.port.toNat), (9, 13, x.item.toNat), (0, 8, x.cseq.toNat)]

/-- COMMIT_STATUS reports a commit. -/
def commitStatus (s : State) (c : CommitRun) (st : CommitState) (r : Reason) : State :=
  { s with cstat := { state := st, reason := BitVec.ofNat 5 r.1, port := c.ports, item := BitVec.ofNat 13 r.2, cseq := c.cseq } }

/-- A commit ends: COMMIT_STATUS, COMMIT_DONE and COMMIT in GLB_STATUS (R319, R374). -/
def commitEnd (s : State) (c : CommitRun) (st : CommitState) (r : Reason) : State :=
  let s := commitStatus s c st r
  glb (raise s 41 c.cseq.toNat (cstatWord s.cstat)) 18

/-! ### Requests (R317, R318) -/

/-- The states in which a COMMIT write is accepted (R318); not between a request for OFF or SENTINEL and
its entry (R438), nor from an accepted ACTIVATE to the end of its migration (R506, R509). -/
def commitState (s : State) : Bool :=
  (match s.mode.dev with
    | .sow | .run | .recover | .test | .replay | .lockdown => true
    | _ => false) && !s.mode.entering && s.upd.ustate != .activating &&
  match s.mode.req with
  | some (.off, _) | some (.sentinel, _) => false
  | _ => true

/-- A COMMIT write: the commit tick is the first that begins at least 10 us later (R317). -/
def commitWrite (s : State) (p : Port) (groups : BitVec 16) : State :=
  if groups = 0 then s else { s with creqs := s.creqs ++ [{ port := p, groups := groups, due := s.grid.now + 4000 }] }

/-! ### T_c -/

/-- The groups that a port's due requests name. -/
def dueGroups (rs : List CommitReq) (p : Port) : BitVec 16 :=
  (rs.filter (fun r => decide (r.port = p))).foldl (fun g r => g ||| r.groups) 0

/-- The session-staged words that a commit has taken are no longer the session's (R300). -/
def takeSec (s : State) (p : Port) (g : BitVec 16) : State :=
  s.setSecStaged p ((s.secStaged p).filter (fun e => !takes g e.1))

/-- LOAD bits that a commit has taken read 0 in the staging copy (R352). -/
def takeLoad (s : State) (p : Port) (g : BitVec 16) : State :=
  if g.getLsbD 14 then
    (stagedKeys s p).foldl (fun s a => if hasLoad a then s.setStaged p a (s.staged p a &&& 0xFFFFFFFE) else s) s
  else s

/-- The regions that a sowing covers. -/
def CommitRun.regions (c : CommitRun) : List Nat := (List.range 8).filter (fun g => c.sow.getLsbD g)

/-- SOWING of the covered regions (R342). -/
def setSowing (s : State) (c : CommitRun) (b : Bool) : State :=
  c.regions.foldl (fun s g => s.onRegion g (fun r => { r with sowing := b })) s

/-- A commit at its T_c: values taken, checks, and refusal or sowing (R317, R318). -/
def takeCommit (s : State) (gh gm : BitVec 16) : State :=
  let groups := gh ||| gm
  let d := commitDiff s gh gm
  let c0 := candidate s s.commits d
  let loads := if groups.getLsbD 14 then commitLoads s c0 gh gm else []
  let sows := triggers s groups d
  let c : CommitRun :=
    { cseq := s.cseq + 1, ports := BitVec.ofNat 2 (b2n (gh != 0) + 2 * b2n (gm != 0)), groups := groups, diff := d
      tc := s.grid.tick, sow := if sows then coverage s d else 0, loads := loads, kNew := BitVec.ofNat 3 (kAfter s d)
      eff := if sows then none else some (s.grid.tick + 8), sown := !sows }
  let s := { s with cseq := c.cseq }
  if s.mode.restarting then commitEnd s c .notApplied (0x0F, 0)
  else match commitCheck s groups gh gm d loads with
  | some r =>
    let s := commitEnd s c .refused r
    if r.1 = 0x0E then lockViolation s else s
  | none =>
    let s := takeLoad (takeLoad (takeSec (takeSec s .h gh) .m gm) .h gh) .m gm
    let s := { s with commits := s.commits ++ [c] }
    if sows then setSowing (commitStatus s c .sowing (0, 0)) c true else commitStatus s c .pending (0, 0)

/-! ### Sowing (R178, R182, R183, R33) -/

/-- The configuration that a commit in flight is sown from: the values in force with those of the
commits up to it. -/
def sownFrom (s : State) (c : CommitRun) : State :=
  candidate s (s.commits.takeWhile (fun o => o.cseq != c.cseq || o.ports != c.ports)) c.diff

/-- G_e of a sowing whose loading completes at the latest tick, as the number that the grid will give
it: the first grid instant at least P_new later that is a multiple of both periods (R33, R183). -/
def changeover (s : State) (c : CommitRun) : BitVec 48 :=
  let t1 := s.grid.tickAt + s.grid.gap
  let wait := max (2 ^ c.kNew.toNat - 1) ((s.grid.instFrom - t1 + 49999) / 50000)
  BitVec.ofNat 48 (alignUp ((nextNumber s).toNat + wait) (2 ^ max (pexp s) c.kNew.toNat))

/-- A tick number to come, in the numbering of the latest tick: where the next tick changes the
numbering, GRID_TICK moves it by the change. -/
def inOldNumbers (s : State) (n : BitVec 48) : BitVec 48 := n - nextNumber s + s.grid.tick + 1

/-- The reports of the covered regions (R182). -/
def writeReports (s k : State) (c : CommitRun) (eff : BitVec 48) : State :=
  c.regions.foldl (fun s g => s.onRegion g (fun r => { r with report := sowReport k g c.tc eff })) s

/-- One commit in a list replaced. -/
def putCommit (s : State) (c c' : CommitRun) : State :=
  { s with commits := s.commits.map (fun o => if o = c then c' else o) }

/-- One commit taken out. -/
def dropCommit (s : State) (c : CommitRun) : State := { s with commits := s.commits.filter (fun o => decide (o ≠ c)) }

/-- Both staging copies equal the values in force (R313, R453). -/
def syncStaging (s : State) : State := { s with cfg := { s.cfg with stgH := s.cfg.live, stgM := s.cfg.live } }

/-- The boot commit's table is refused: CG0 to CG8 take their reset values, which leaves every lane OFF,
and the device will enter RECOVER after its first snapshot (R453). -/
def bootFallback (s : State) (c : CommitRun) (r : Reason) : State :=
  let keep := s.cfg.live.filter (fun e => match cfgGroup e.1 with
    | some g => decide (8 < g)
    | none => true)
  let s : State := { s with cfg := { s.cfg with live := keep } }
  let s := (List.range 512).foldl (fun s n =>
    if (s.lane n).lstate = .unpowered ∧ !(s.lane n).coldWait then s
    else (unpower s n).onLane n (fun l => { l with mode := .off })) s
  (commitEnd s c .refused r).onMode (fun m => { m with fallback := true })

/-- The sowing of a commit ends (R182, R183). -/
def endSowing (s : State) (c : CommitRun) : State :=
  let k := sownFrom s c
  let s := setSowing s c false
  let e := changeover s c
  let loaded := fun (s : State) => putCommit s c { c with sown := true, eff := some (inOldNumbers s e) }
  match c.regions.find? (fun g => !(regionFails k g).isEmpty) with
  | none => loaded (writeReports s k c e)
  | some g =>
    let s := writeReports s k c 0
    if c.ports = 0 then bootFallback (loaded s) c (3, g) else commitEnd (dropCommit s c) c .refused (3, g)

/-! ### Taking effect -/

/-- A word as it was before the commit and as it is now. -/
def changed (old : Tbl Word) (s : State) (a : Nat) (m : Word) : Bool := (cfgGet old a ^^^ s.inForce a) &&& m != 0

/-- What takes effect with one endpoint's descriptor (R169, R203, R209, R235, R366): EXPECT_ID counts on
Aknun lanes only (R139, R172), a sprout entry waits for the next frame boundary, and the last-value store
and the RANGE state are void from the snapshot at G_e on. -/
def descEffect (old : Tbl Word) (s : State) (i : Nat) : State :=
  let proto := changed old s (aDesc i 0) 0xE0000000
  let shape := changed old s (aDesc i 0) 0xE2FFC000
  let id := changed old s (aDesc i 0x10) 0xFFFFFFFF || changed old s (aDesc i 0x14) 0xFFFFFFFF
  let trust := changed old s (aDesc i 0) 0x00000C00
  let aknun := cfgMode s (i / 16) == .aknun
  let s := if shape then s.onEp i (fun e => { e with clears := e.clears ++ [(s.grid.tickAt, proto)] }) else s
  let s := if proto then s.onEp i (fun e => { e with msg := 0 }) else s
  let s := if aknun && id || trust then s.onEp i (fun e => { e with sproutAt := some s.grid.tickAt }) else s
  if aknun && id && (s.ep i).hold == .ident && descId s i != 0 && descId s i == (s.ep i).lastId then releaseHold s i else s

/-- A pending endpoint access whose lane changed its mode or whose position lost its descriptor (R187). A
diagnostic request whose pair is under way as the mode changes ends with NO_RESPONSE (R164, log entry 124). -/
def accessEffect (old : Tbl Word) (s : State) (n : Nat) (modeChanged : Bool) : State :=
  let a := (s.lane n).acc
  let i := epIdx n a.pos.toNat
  let had := fld (cfgGet old (aDesc i 0)) 31 29 != 0
  if modeChanged then accComplete s n (if diagBegun s n then .noResponse else .refused) none none
  else if a.op != 3 && had && descProto s i == 0 then refuseAccess s n
  else s

/-- A lane whose MODE changes (R135): it completes the frames of earlier snapshots first, and a LIN lane sends
go-to-sleep after them (R162). -/
def modeEffect (old : Tbl Word) (s : State) (n : Nat) : State :=
  let u := { s with cfg := { s.cfg with live := old } }
  let t := (oldWork u n).getD s.grid.now + sleepLen u n
  if s.grid.now < t then s.onLane n (fun l => { l with leaveAt := some t }) else leaveMode s n s.grid.now

/-- A request for a strong window that waits on a lane whose permission a commit takes away is refused: the lane
never requests one (R88). -/
def spuEffect (s : State) (n : Nat) : State :=
  match (s.lane n).spu with
  | some q => if q.window.isNone ∧ !spuOk s n then raise (endSpu s n) 18 n 0 else s
  | none => s

/-- Whether a lane drives its LIN bus on the fast slope (R522). -/
def slopeOf (s : State) (n : Nat) : Bool := decide (1040 < linRate s n)

/-- The chain's new end (R118, R187): an OPEN_PASS is owed where it lies below the highest enumerated
position, and nothing above it is enumerated any more. -/
def topEffect (s : State) (n : Nat) : State :=
  let l := s.lane n
  let owed := match topPos s n with
    | some t => if t + 1 < l.enumN then some t else none
    | none => none
  let above := fun (p : Nat) => match topPos s n with
    | some t => decide (t < p)
    | none => true
  let s := s.setLane n { l with
    openOwed := owed
    enumFail := l.enumFail && !above l.failPos.toNat
    failPos := if l.enumFail && above l.failPos.toNat then 0 else l.failPos }
  match l.enumPos with
  | some p => if above p || l.enumStep == 2 && above (p + 1) then enumDone s n else s
  | none => s

/-- What takes effect with one lane of a sown region: MODE, the chain's new end, the slope, and the sown
layout (R135, R187, R356, R181, R522). -/
def laneEffect (old : Tbl Word) (s : State) (n : Nat) : State :=
  let modeChanged := changed old s (aLane n 0) 0xE0000000
  let s := accessEffect old s n modeChanged
  let slots := if cfgMode s n = .lin then linSlots s n else []
  let s := if slots = (s.lane n).linSched then s else keepFlight s n s.grid.tickAt
  let s := if modeChanged then modeEffect old s n else s
  let s := topEffect (spuEffect s n) n
  s.onLane n (fun l => { l with sown := sownLayout s n, fastSlope := slopeOf s n, linSched := slots })

/-- A cluster's new program (R167). -/
def clusterEffect (s : State) (c : Nat) : State :=
  let (i, s) := s.draw
  s.onCluster c (fun x => { x with
    prog := BitVec.ofNat 13 (1 + (Config.progBytes i).toNat), sowTick := s.grid.tick })

/-- The sown regions' programs take effect (R183). -/
def sowEffect (old : Tbl Word) (s : State) (c : CommitRun) : State :=
  let s := c.regions.foldl (fun s g => (regionLanes g).foldl (laneEffect old) s) s
  c.regions.foldl (fun s g => (List.range 8).foldl (fun s j => clusterEffect s (8 * g + j)) s) s

/-- The state under the values that were in force before. -/
def underOld (s : State) (old : Tbl Word) : State := { s with cfg := { s.cfg with live := old } }

/-- One stream under its new configuration (R248, R255, R256). -/
def streamEffect (old : Tbl Word) (s : State) (k : Nat) : State :=
  let was := underOld s old
  let on := strEnable s k && !strEnable was k
  let sel := selection s k
  let dead := sel.any (fun i =>
    let m := fld (s.inForce (aDesc i 0)) 7 0
    changed old s (aDeadband m) 0xFFFFFFFF)
  let again := on || strDb s k != strDb was k || decide (sel ≠ selection was k) || dead
  let s := s.onStream k (fun x => { x with
    tokens := if on then strBurst s k else x.tokens
    resyncAt := if again then x.resyncAt ++ [s.grid.tickAt] else x.resyncAt })
  if ownPort s k ≠ ownPort was k ∨ mayMove s ≠ mayMove was then choosePort s k else s

/-- CG9 and the selections that CG8 changes take effect (R249, R259). -/
def streamsEffect (old : Tbl Word) (s : State) : State :=
  let s := [Ul.ul0, Ul.ul1].foldl (fun s u =>
    if pmode s u = 0 ∧ pmode (underOld s old) u ≠ 0 then portDown (macs s) u 3 else s) s
  refreshStreams ((List.range 32).foldl (streamEffect old) s)

/-- A route that the commit enables starts with a false condition (R271). -/
def routesEffect (old : Tbl Word) (s : State) : State :=
  (routesOn s).foldl (fun s r =>
    if bit (cfgGet old (aRoute r 0)) 31 then s
    else s.onRoute r (fun x => { x with cond := false, value := none, gate := (s.chan (rtGate s r % 32)).gate })) s

/-- CG11 takes effect: a disabled channel discards its remembered event (R387). -/
def channelsEffect (s : State) : State :=
  (List.range 32).foldl dropHeld s

/-- CG13 takes effect: histograms whose edges changed restart (R385). -/
def monitorsEffect (old : Tbl Word) (s : State) : State :=
  let s := (List.range 8).foldl (fun s g =>
    let dev := changed old s (aMonRegion g 0) 0xFFFFFFFF
    let low := changed old s (aMonRegion g 4) 0xFFFFFFFF
    let ct := changed old s (aMonRegion g 8) 0xFFFFFFFF || changed old s (aMonRegion g 12) 0xFFFFFFFF
    let s := if dev || low then
        (regionLanes g).foldl (fun s n => s.onLane n (fun l => { l with mon := { l.mon with
          devHist := if dev then [] else l.mon.devHist, loHist := if low then [] else l.mon.loHist } })) s
      else s
    if ct then s.onRegion g (fun r => { r with mon := { r.mon with ctHist := [] } }) else s) s
  [Ul.ul0, Ul.ul1].foldl (fun s u =>
    if changed old s (aMonUplink u.num 0) 0xFFFFFFFF || changed old s (aMonUplink u.num 4) 0xFFFFFFFF then
      s.onUplink u (fun x => { x with mon := { x.mon with latHist := [] } })
    else s) s

/-- The load values of one lane. -/
def loadsOf (loads : List (Nat × Word)) (n : Nat) : List (Nat × Word) :=
  loads.filter (fun e => match word4 e.1 with
    | .laneCal m _ => m == n
    | .epCal i _ => i / 16 == n
    | _ => false)

/-- CG14 takes effect: STEP_N counts, and LOADs for each loop's first boundary (R211, R317). -/
def calEffect (s : State) (loads : List (Nat × Word)) : State :=
  let s := (List.range 512).foldl (fun s n =>
    let k := stepsOf (s.inForce (aCalLane n))
    let ls := loadsOf loads n
    if (s.lane n).cal.steps = k ∧ ls = [] then s
    else s.onLane n (fun l => { l with cal := { l.cal with
      steps := k, load := if ls = [] then l.cal.load else ls } })) s
  (List.range 8).foldl (fun s g =>
    let s := s.onRegion g (fun r => { r with steps := stepsOf (s.inForce (aCalRegion g)) })
    match loadWord loads (aRegionCal g 0) with
    | some w => regionLoad s g w (s.inForce (aCalRegion g))
    | none => s) s

/-- A CG14 commit of the host in REPLAY, for the replayed lanes (R218): their controls and STEP_N counts
are those of the commit, and its LOADs wait for their frame boundaries. -/
def replayControls (s : State) (c : CommitRun) : State :=
  if s.mode.dev = .replay then
    s.onReplay (fun r =>
      let live := (c.diff.filter (fun e => isCalCtl e.1)).foldl (fun t e => cfgSet t e.1 e.2) r.cfg.live
      let put := fun (t : Tbl LaneState) (n : Nat) =>
        let l : LaneState := Tbl.get (fun _ => {}) t n
        let ls := loadsOf c.loads n
        Tbl.set (fun _ => {}) t n { l with cal := { l.cal with
          steps := stepsOf (s.inForce (aCalLane n)), load := if ls = [] then l.cal.load else ls } }
      { r with cfg := { r.cfg with live := live }, lstates := r.lanes.foldl put r.lstates })
  else s

/-- The descriptors that a commit changes. -/
def changedDescs (d : List (Nat × Word)) : List Nat :=
  (d.filterMap (fun e => match word4 e.1 with
    | .desc i _ => some i
    | _ => none)).eraseDups

/-- One commit takes effect at the latest tick (R317). -/
def effect (s : State) (c : CommitRun) : State :=
  let old := s.cfg.live
  let has := fun (k : Nat) => c.groups.getLsbD k && c.ports != 0
  let s := dropCommit s c
  let s := { s with cfg := { s.cfg with live := applyDiff old c.diff } }
  let s := (changedDescs c.diff).foldl (descEffect old) s
  let s := dropIneligible (sowEffect old s c)
  let s := if has 8 || has 9 then streamsEffect old s else s
  let s := if has 10 then routesEffect old s else s
  let s := if has 11 then retick (channelsEffect s) else s
  let s := if changed old s kGridCtl 0x10000000 then
      s.onGrid (fun g => { g with timePort := ulOf (bit (s.inForce kGridCtl) 28) }) else s
  let s := if has 13 then monitorsEffect old s else s
  let s := if has 14 then replayControls (calEffect s c.loads) c else s
  let s := supervise (supervise s .h) .m
  let s := hoardCommit s c.tc s.grid.tick c.groups
  if c.ports = 0 ∧ s.mode.fallback then s else commitEnd s c .applied (0, 0)

/-- Whether a commit takes effect at the latest tick (R317, R183, R33). -/
def effective (s : State) (c : CommitRun) : Bool :=
  c.sown && match c.eff with
  | none => false
  | some e =>
    decide (e.toNat ≤ s.grid.tick.toNat) &&
      (!triggers s c.groups c.diff ||
        (s.grid.tick.toNat % 2 ^ max (pexp s) c.kNew.toNat == 0 && s.grid.gridAt == s.grid.tickAt))

/-- Every commit that is due at the latest tick takes effect, before the events of the tick are delivered
(R317: CG11 acts from the tick). -/
def commitsEffect (s : State) : State :=
  let cs := s.commits.filter (effective s)
  if cs.isEmpty then s
  else
    let s := if captureDue s then captureSample s else s
    let s := { s with cfg := { s.cfg with hist := (s.grid.tickAt, s.cfg.live) :: s.cfg.hist } }
    let s := cs.foldl effect s
    if cs.any (fun c => (c.groups.getLsbD 9 || c.groups.getLsbD 10 || c.groups.getLsbD 11)) then
      ruleChange s else s

/-! ### LOCK and DISCARD -/

/-- A secure write of LOCK: ones set their bits, and a bit newly set is a rule change (R320, R321). -/
def lockWrite (s : State) (bits : BitVec 6) : State :=
  if s.lock ||| bits = s.lock then s else ruleChange { s with lock := s.lock ||| bits }

/-- Every key at which a loop's present value may differ from its reset value (R368). -/
def calKeys (s : State) : List Nat :=
  s.lanes.flatMap (fun e => laneLoadOffs.map (aLaneCal e.1)) ++ s.regions.map (fun e => aRegionCal e.1 0) ++
    s.eps.flatMap (fun e => [aEpCal e.1 0, aEpCal e.1 4])

/-- DISCARD: a port's staging copy of the named groups takes the values in force, which for a load
value is the loop's present value (R335, R368). -/
def discardWrite (s : State) (p : Port) (groups : BitVec 16) : State :=
  let keys := stagedKeys s p ++ if groups.getLsbD 14 then calKeys s else []
  let s := keys.foldl (fun s a => if takes groups a then s.setStaged p a (calNow s a &&& cfgMask a) else s) s
  takeSec s p groups

/-! ### Meanings -/

/-- COMMIT (R317, R318): a write of COMMIT on Port H or M in a state that accepts it. -/
def execCommit (dt : Nat) (p : Port) (groups : BitVec 16) (s : State) : Out :=
  hostWrite dt p s (fun s => if p ≠ .u ∧ commitState s then commitWrite s p groups else s)

/-- COMMIT_TAKE (R318): at the commit tick, the requests of both ports form one commit. -/
def execCommitTake (s : State) : Out :=
  .next (
    let due := s.creqs.filter (fun r => decide (r.due ≤ s.grid.now))
    if s.grid.on ∧ s.grid.now = s.grid.tickAt ∧ !due.isEmpty then
      let s := { s with creqs := s.creqs.filter (fun r => decide (s.grid.now < r.due)) }
      takeCommit s (dueGroups due .h) (dueGroups due .m)
    else s)

/-- SOWING_COMPLETE (R183): at a grid tick, the sowing in progress ends; that of the boot commit runs
once discovery has ended (R460). -/
def execSowingComplete (s : State) : Out :=
  .next (
    if s.grid.on ∧ s.grid.now = s.grid.tickAt ∧ !s.mode.restarting ∧ !s.mode.inDisc then
      match s.commits.find? (fun c => !c.sown) with
      | some c => endSowing s c
      | none => s
    else s)

/-- COMMIT_EFFECTIVE (R317): at the effective tick all groups of the commit take effect. -/
def execCommitEffective (s : State) : Out :=
  .next (if s.grid.on ∧ s.grid.now = s.grid.tickAt then commitsEffect s else s)

/-- LOCK_SET (R320): a secure write of LOCK. -/
def execLockSet (dt : Nat) (p : Port) (bits : BitVec 6) (s : State) : Out :=
  hostWrite dt p s (fun s => if (s.port p).sess = .opened then lockWrite s bits else s)

/-- DISCARD (R335): a write of DISCARD bits in IND_CTL. -/
def execDiscard (dt : Nat) (p : Port) (groups : BitVec 16) (s : State) : Out :=
  hostWrite dt p s (fun s => if p = .u then s else discardWrite s p groups)

end Sys2Proof.Machine
end

