-- ==== Sys2Proof/Machine/Hoard.lean ====
section
/-!
DEFINITION. The hoard's states and controls (R347, R471 to R474), the start of recording, the freeze,
the export of a trace under the hoard export key (R476, R477), and the trace file that the hoard window
presents (R475). What is recorded, and how, stands in Record.
-/

namespace Sys2Proof.Machine

/-! ### Selection (R471, R472) -/

/-- The lanes that HOARD_SEL selects, ascending. -/
def hoardSelected (s : State) : List Nat :=
  (List.range 512).filter (fun n => bit (s.inForce (aHoardSel (n / 32))) (n % 32))

/-- The most lanes recorded (R472). -/
def laneLimit (raw expo : Bool) : Nat := if raw then 8 else if expo then 128 else 64

/-! ### The export key (R476, R418) -/

/-- The port that EXPORT_PORT names. -/
def exportPort (s : State) : Ul := ulOf s.hoard.expoPort

/-- Export stops once its key is at its limits or gone (R418, R476). -/
def checkExport (s : State) : State := if exportKeyOk s then s else stopExport s

/-- One trace segment sealed and handed to its MAC (R476). A port that is down loses its frame. -/
def sealTrace (s : State) (body : Bytes) : State :=
  let h := s.hoard
  let flags := b2n (strEnc s 31) + 2 * b2n (strTag64 s 31) + 8 * b2n h.startNext
  let hdr := segHeader 3 flags (s.slot 10).gen.toNat s.grid.tick h.segIdx s.grid.pkg.toNat 31 (pexp s) 0
    h.lanes.length (body.length / 8) (configDigest s) []
  let x := s.stream 31
  let f : TxFrame :=
    { pcp := BitVec.ofNat 3 (strPcp s 31), stream := none, at_ := s.grid.now, g := none
      bytes := streamFrame s 31 x.seqNum (sealBytes s 31 (s.slot 10).key s.grid.tick h.segIdx hdr body) }
  let s := s.setStream 31 { x with seqNum := x.seqNum + 1 }
  let s := s.onHoard (fun h => { h with segIdx := h.segIdx + 1, startNext := false, keySegs := h.keySegs + 1 })
  checkExport (if (s.uplink (exportPort s)).up then handMac s f (exportPort s) else s)

/-- Segments sealed of the waiting byte stream: 1,408 bytes each, and at the end of a tick what whole
8-byte units remain. -/
def sealStream : Nat → State → State
  | 0, s => s
  | fuel + 1, s =>
    let n := min 1408 (s.hoard.stream.length / 8 * 8)
    if n = 0 ∨ s.hoard.hstate ≠ .exporting then s
    else if !exportKeyOk s then stopExport s
    else if freeRunOver s s.grid.tick then s
    else
      let body := s.hoard.stream.take n
      sealStream fuel (sealTrace (s.onHoard (fun h => { h with stream := h.stream.drop n })) body)

/-- The end of a tick of an export: everything that waits is sealed (R476, R477). -/
def exportTick (s : State) : State :=
  let s := if s.hoard.hstate = .exporting then sealStream (s.hoard.stream.length / 1408 + 2) s else s
  s.onHoard (fun h => { h with segIdx := 0 })

/-! ### The start of recording (R474, R476, R477) -/

/-- Whether the snapshot of the latest tick is GAP for a re-phase or an activation (R484, bit 3). -/
def gapTick (s : State) : Bool :=
  s.grid.gridNum == s.grid.tick && s.asm_.gapSnaps.any (fun x => x.1 == s.grid.tick)

/-- What every recording starts with: its counters and its lanes (R474, R478). What was recorded before is
discarded. -/
def beginTrace (s : State) (lanes : List Nat) : State :=
  s.onHoard (fun h => { h with
    lanes := lanes, seq := 0, gapNext := false, ring := [], held := false, stream := [], digests := []
    freezeTick := 0, owe := [], startOwed := true })

/-- The grid instant of a lane's next frame: by the schedule where the lane starts its frames itself, or else
of a frame that ended now (R137, R481). -/
def nextTag (s : State) (n : Nat) : BitVec 48 :=
  let timed := match cfgMode s n with
    | .aknun => true
    | .sent => sentSpc s n
    | .psi5 => psi5Sync s n
    | _ => false
  if !timed then (freeSnap s s.grid.now).1
  else
    let nx := nextInstant s
    let ahead := fun (G : Int) => decide ((s.grid.now : Int) ≤ G + frameStart (s.seenAt G) n)
    if ahead s.grid.gridAt then s.grid.gridNum
    else if ahead nx.2 then nx.1
    else nx.1 + BitVec.ofNat 48 (2 ^ pexp s)

/-- Every recorded lane's checkpoint at the start of recording. -/
def checkpointAll (s : State) : State :=
  (s.hoard.lanes.filter (modeOn s)).foldl (fun s n => checkpoint s n (nextTag s n)) s

/-- Recording begins at a grid tick in a state that records (R473, R479, R480): what TRACE_START holds is fixed,
and the first blocks of the trace are written, which are the tick in which it starts and a checkpoint of every
lane. -/
def beginBlocks (s : State) : State :=
  if s.hoard.startOwed && recordsIn s.mode.dev && (s.hoard.hstate == .armed || s.hoard.hstate == .exporting) then
    let info := [BitVec.ofNat 32 (pexp s), s.inForce kGridCtl, configDigest s,
      BitVec.ofNat 32 s.upd.fwVersion.toNat, BitVec.ofNat 32 s.grid.pkg.toNat]
    let s := s.onHoard (fun h => { h with startOwed := false, startTick := s.grid.tick, startInfo := info })
    let s := if s.hoard.hstate = .exporting then hoardBlock s 0x10 0xFFFF (traceStartBody s) else s
    checkpointAll (hoardBlock s 0x20 0xFFFF (tickBody s (s.grid.gridNum == s.grid.tick) (gapTick s) none))
  else s

/-- The ring starts (R474). -/
def startRing (s : State) : State :=
  let s := beginTrace s (s.hoard.sel.take (laneLimit (s.hoard.hmodeNow == 1) false))
  beginBlocks (setHState s .armed)

/-- Export starts, if there is a key for it (R476). -/
def startExport (s : State) : State :=
  let s := beginTrace s (s.hoard.sel.take (laneLimit (s.hoard.hmodeNow == 1) true))
  if exportKeyOk s then
    beginBlocks ((setHState s .exporting).onHoard (fun h => { h with startNext := true, segIdx := 0 }))
  else setHState s .exportStopped

/-- HOARD_CTL's HMODE; a reserved code acts as symbol mode (R351). -/
def hmodeOf (w : Word) : BitVec 2 := if fld w 27 26 = 1 then 1 else 0

/-- ARM changes from 0 to 1 (R347, R471). -/
def arm (s : State) (w : Word) : State :=
  let sel := hoardSelected s
  let s := s.onHoard (fun h => { h with
    arm := true, gap := false, expo := bit w 29, expoPort := bit w 28, hmode := BitVec.ofNat 2 (fld w 27 26)
    pre := BitVec.ofNat 8 (fld w 23 16), hmodeNow := hmodeOf w, preNow := BitVec.ofNat 8 (fld w 23 16), sel := sel
    ctlNext := none })
  if bit w 29 then startExport s else startRing s

/-- EXPORT changes while ARM is 1 (R477): from 1 to 0 the ring starts as at an arming. HMODE and PRE take effect
at the next arming (R347). -/
def exportChange (s : State) (w : Word) : State :=
  if bit w 29 then
    startExport (s.onHoard (fun h => { h with
      expo := true, expoPort := bit w 28, hmode := BitVec.ofNat 2 (fld w 27 26), pre := BitVec.ofNat 8 (fld w 23 16)
      ctlNext := none }))
  else arm s w

/-- ARM written 0 (R474): IDLE; a frozen trace is kept. -/
def disarm (s : State) : State :=
  setHState (s.onHoard (fun h => { h with
    arm := false, stream := [], digests := [], startOwed := false, ring := if h.held then h.ring else []
    freezeNext := none })) .idle

/-! ### The freeze (R474, R490) -/

/-- A freeze in ARMED, with the event that caused it. -/
def freeze (s : State) (it : Option Item) : State :=
  if s.hoard.hstate ≠ .armed then s.onHoard (fun h => { h with freezeNext := none })
  else
    let s := hoardBlock s 0x3F 0xFFFF (freezeBody s it)
    setHState (s.onHoard (fun h => { h with
      freezeNext := none, freezeTick := s.grid.tick, postLeft := (256 - h.preNow.toNat) * 8192 })) .post

/-- At a grid tick the freeze that waits is carried out (R347, R376): that of an event, or that of the FREEZE bit
of the word that acts now. -/
def freezeTick (s : State) (w : Word) : State :=
  match s.hoard.freezeNext with
  | some it => freeze s it
  | none => if bit w 30 then freeze s none else s

/-- HOARD_CTL as it stands, without FREEZE: what a write of it has set, or what is in effect. -/
def hoardCtl (s : State) : Word :=
  let h := s.hoard
  match h.ctlNext with
  | some w => w
  | none => pack [(31, 1, b2n h.arm), (29, 1, b2n h.expo), (28, 1, b2n h.expoPort), (26, 2, h.hmode.toNat),
      (16, 8, h.pre.toNat)]

/-- A write of HOARD_CTL; it acts at the next grid tick (R347). -/
def hoardWrite (s : State) (w : Word) : State :=
  let fz := bit w 30 || match s.hoard.ctlNext with
    | some o => bit o 30
    | none => false
  s.onHoard (fun h => { h with ctlNext := some (merge w (pack [(30, 1, b2n fz)]) 0x40000000) })

/-- HOARD_CTL at a grid tick (R347): every change of it but a rise of ARM and a change of EXPORT, which
rows of their own carry out at the same tick. In REPLAY, ARM has no effect (R494). -/
def hoardCtlTick (s : State) : State :=
  match s.hoard.ctlNext with
  | none => freezeTick s 0
  | some w =>
    let rows := bit w 31 && (!s.hoard.arm || bit w 29 != s.hoard.expo) && s.mode.dev != .replay
    let s := if rows then s else freezeTick s w
    let fields := fun (h : HoardState) => { h with
      expoPort := bit w 28, hmode := BitVec.ofNat 2 (fld w 27 26), pre := BitVec.ofNat 8 (fld w 23 16) }
    if s.mode.dev = .replay then
      s.onHoard (fun h => { fields h with arm := bit w 31, expo := bit w 29, ctlNext := none })
    else if !bit w 31 then
      let s := if s.hoard.arm then disarm s else s
      s.onHoard (fun h => { fields h with arm := false, expo := bit w 29, ctlNext := none })
    else if rows then s
    else s.onHoard (fun h => { fields h with ctlNext := none })

/-- Export resumes once there is a key again (R476). -/
def exportResume (s : State) : State :=
  if s.hoard.hstate = .exportStopped ∧ s.hoard.arm ∧ s.hoard.expo ∧ exportKeyOk s ∧ s.mode.dev ≠ .replay then startExport s
  else s

/-- One more grid tick of use of the export key, at whose limit export stops (R418, R267). -/
def exportKeyTick (s : State) : State :=
  checkExport (if (s.slot 10).typ = 0 then s
    else s.onHoard (fun h => { h with keyTicks := min 1073741823 (h.keyTicks + 1) }))

/-! ### Raw edges (R489) -/

/-- The RAW_EDGES block of one lane for the period that ends at step `stop`. -/
def rawPeriod (num : BitVec 48) (at_ stop : Nat) (s : State) (n : Nat) : State :=
  let l := s.lane n
  let now_ := l.raw.filter (fun e => decide (e < 8 * (stop : Int)))
  let s := hoardBlock s 0x32 n (rawBody s n num at_ now_ l.rawLev l.rawFlip)
  s.onLane n (fun l => { l with
    raw := l.raw.filter (fun e => decide (8 * (stop : Int) ≤ e)), rawLev := [], rawFlip := false
    rawPrev := (now_, l.rawLev, l.rawFlip) })

/-- The DIGEST blocks that waited for their period's RAW_EDGES blocks (R491). -/
def putDigests (s : State) : State :=
  s.hoard.digests.foldl (fun s b => hoardBlock s 0x22 0xFFFF b) (s.onHoard (fun h => { h with digests := [] }))

/-- The RAW_EDGES blocks of every recorded lane at a grid instant. -/
def rawPeriods (s : State) (num : BitVec 48) (at_ stop : Nat) : State :=
  if hoarding s && s.hoard.hmodeNow == 1 then
    putDigests ((s.hoard.lanes.filter (modeOn s)).foldl (rawPeriod num at_ stop) s)
  else s

/-! ### The presented trace (R475) -/

/-- The trace file: TRACE_START, then every block still in the ring, the oldest first. -/
def presented (s : State) : Bytes :=
  if s.hoard.held && (s.hoard.hstate == .frozen || s.hoard.hstate == .idle) then
    let first := match s.hoard.ring with
      | b :: _ => beNat ((b.drop 6).take 2)
      | [] => s.hoard.seq.toNat
    traceBlock 0x10 0 0xFFFF ((first + 65535) % 65536) (traceStartBody s) ++ s.hoard.ring.flatten
  else []

/-- Entry to REPLAY (R494): the ring is discarded. -/
def hoardToReplay (s : State) : State :=
  setHState (s.onHoard (fun h => { h with
    ring := [], held := false, stream := [], freezeNext := none, lanes := [], owe := [], digests := []
    startOwed := false })) .idle

/-! ### Meanings -/

/-- HOARD_ARM (R474): at a grid tick, ARM changes from 0 to 1 and recording or export starts. A freeze that acts at
the same tick finds the hoard ARMED (R499). -/
def execHoardArm (s : State) : Out :=
  .next (
    match s.hoard.ctlNext with
    | none => s
    | some w =>
      if s.grid.on ∧ s.grid.now = s.grid.tickAt ∧ bit w 31 ∧ !s.hoard.arm ∧ s.mode.dev ≠ .replay then freezeTick (arm s w) w
      else s)

/-- HOARD_FREEZE (R347, R474): a write of 1 to FREEZE, which acts at the next grid tick; what else HOARD_CTL holds
stays. -/
def execHoardFreeze (dt : Nat) (p : Port) (s : State) : Out :=
  hostWrite dt p s (fun s => if p = .u then s else hoardWrite s (hoardCtl s ||| 0x40000000))

/-- HOARD_EXPORT (R477): at a grid tick, EXPORT changes while ARM is 1. -/
def execHoardExport (s : State) : Out :=
  .next (
    match s.hoard.ctlNext with
    | none => s
    | some w =>
      if s.grid.on ∧ s.grid.now = s.grid.tickAt ∧ bit w 31 ∧ s.hoard.arm ∧ bit w 29 ≠ s.hoard.expo ∧
          s.mode.dev ≠ .replay then
        freezeTick (exportChange s w) w
      else s)

/-- HOARD_FROZEN (R474): the post-trigger amount has been recorded. -/
def execHoardFrozen (dt : Nat) (s : State) : Out :=
  run dt s (fun s =>
    if s.hoard.hstate = .post ∧ s.hoard.postLeft = 0 then
      setHState (s.onHoard (fun h => { h with held := true })) .frozen
    else s)

end Sys2Proof.Machine
end

