-- ==== Sys2Proof/Machine/Aknun.lean ====
section
/-!
DEFINITION. Aknun frames at the lane (R67 to R79, R94 to R108, R125 to R129): how the lane measures its
own pips and classifies an endpoint's, the answer checks, the rolling counter, husk assembly, the
frame boundary with the lane's loops (R188 to R197), stretch and shedding (R184 to R186), and the
harvest frame as a whole with its lane packet.
-/

namespace Sys2Proof.Machine

/-! ### Pips -/

/-- A number of `n` bits as symbols of two bits, most significant first (R96). -/
def symsOf (n v : Nat) : List Nat := (List.range (n / 2)).map (fun i => v / 4 ^ (n / 2 - 1 - i) % 4)

/-- The number that symbols spell. -/
def symsNat (xs : List Nat) : Nat := xs.foldl (fun a x => 4 * a + x) 0

/-- Nominal length of a symbol in steps (R70). -/
def symSteps (s : State) (n x : Nat) : Nat := graded s n (200 + 120 * x)

/-- The header's six symbols (R97). -/
def headerSyms (cmd pos : Nat) : List Nat :=
  symsOf 4 cmd ++ symsOf 4 pos ++ symsOf 4 (crc4 (msb 4 cmd ++ msb 4 pos))

/-- What the lane decodes an answer with: o_g latched, d_E in force, the grade, whether the sprout
windows apply, AS in force at the frame's start, and whether the answer is stretched. -/
structure DecodeWith where
  og : Int
  dE : Int
  grade : Nat
  sprout : Bool
  asc : Int
  stretched : Bool
  deriving DecidableEq, Repr

/-- A measured pulse as the hoard records it (R488): the symbol, the deviation of a decoded or driven
pip, the measured difference before d_E, and the pulse itself; `push` is the push start that ends a low
without a release (R70, R184). -/
structure PipRec where
  sym : Nat
  dev : Option Int
  raw : Option Int
  pulse : Pulse
  push : Nat
  deriving DecidableEq, Repr

/-- How an answer ends at the lane (R78, R98, R104). -/
inductive AnswerEnd where
  | accepted | empty | hole | late | timing | check
  deriving DecidableEq, Repr

/-- A decoded answer: how it ended, l_m of its accepted tempo pip, its symbols and its pips. -/
structure Decoded where
  fin : AnswerEnd
  tempo : Option Int
  syms : List Nat
  recs : List PipRec
  deriving DecidableEq, Repr

/-- The measured difference of a pulse, rising less falling stamp (R75, R199). -/
def pulseLen (og : Int) (p : Pulse) : Option Int :=
  match p.rise with
  | some r => some (stamp25 og r - stamp25 og p.fall)
  | none => none

/-- A time of standard grade in the grade of a decode. -/
def DecodeWith.scale (q : DecodeWith) (t : Nat) : Int := (t * 2 ^ q.grade / 2 : Nat)

/-- The push start of a slot: 1.08 times as late in a stretched answer (R70, R184). -/
def DecodeWith.push (q : DecodeWith) : Nat :=
  (620 * 2 ^ q.grade / 2 * (if q.stretched then 108 else 100) + 99) / 100

/-- n(11) of a decode. -/
def DecodeWith.n11 (q : DecodeWith) : Int := q.scale 560

/-- Whether a length lies in the window of symbol `x` (R77, R197): `lt` is the tempo pip's l_m. -/
def inSymWindow (q : DecodeWith) (lt lm : Int) (x : Nat) : Bool :=
  let c := q.scale (200 + 120 * x)
  if q.sprout then
    let w := q.scale 56 * q.n11
    decide (c * lt - w ≤ lm * q.n11 ∧ lm * q.n11 < c * lt + w)
  else
    let w := q.scale 40 * 65536
    decide (c * q.asc - w ≤ lm * 65536 ∧ lm * 65536 < c * q.asc + w)

/-- Whether a length is a late release (R78, R184). -/
def isLate (q : DecodeWith) (lm : Int) : Bool :=
  decide ((if q.stretched then 108 else 100) * q.scale 600 < 100 * lm)

/-- The outcome of one struck endpoint pip (R76, R78): a symbol, or why the answer ends there.
`tempo` is l_m of the answer's tempo pip; without it the pip is the tempo pip. -/
def classify (q : DecodeWith) (tempo : Option Int) (p : Pulse) : AnswerEnd ⊕ Nat :=
  match pulseLen q.og p with
  | none => .inl .late
  | some raw =>
    let lm := raw - q.dE
    if lm < q.scale 128 then .inl (if tempo.isNone then .empty else .hole)
    else if isLate q lm then .inl .late
    else match tempo with
      | none => if 94 * q.n11 ≤ 100 * lm ∧ 100 * lm ≤ 106 * q.n11 then .inr 3 else .inl .timing
      | some lt =>
        match (List.range 4).find? (inSymWindow q lt lm) with
        | some x => .inr x
        | none => .inl .timing

/-- The deviation of a decoded pip (R488). -/
def pipDev (q : DecodeWith) (tempo : Option Int) (x : Nat) (lm : Int) : Int :=
  match tempo with
  | none => lm - rnd (q.n11 * q.asc) 65536
  | some lt =>
    let sc := if q.sprout then scaleIn q.n11 lt else q.asc
    lm - rnd (q.scale (200 + 120 * x) * sc) 65536

/-- The pips of an answer in slot order, up to `k` pips after the tempo pip or the first that ends the
answer. -/
def decodePips (q : DecodeWith) : Option Int → Nat → List Pulse → Decoded
  | tempo, 0, _ => { fin := .accepted, tempo := tempo, syms := [], recs := [] }
  | tempo, k + 1, ps =>
    let p := ps.headD { fall := 0, rise := some 0 }
    let raw := pulseLen q.og p
    match classify q tempo p with
    | .inl e =>
      { fin := e, tempo := tempo, syms := [], recs := [{ sym := if tempo.isNone then 3 else 0, dev := none, raw := raw, pulse := p, push := q.push }] }
    | .inr x =>
      let lm := raw.getD 0 - q.dE
      let r : PipRec := { sym := x, dev := some (pipDev q tempo x lm), raw := raw, pulse := p, push := q.push }
      let d := decodePips q (if tempo.isNone then some lm else tempo) k ps.tail
      { d with syms := (if tempo.isNone then d.syms else x :: d.syms), recs := r :: d.recs }

/-- An answer of `k` symbols after its tempo pip, with its check (R98, R104). A pip that the wire does
not list measures as an empty one. -/
def decodeAnswer (q : DecodeWith) (k : Nat) (ok : List Nat → Bool) (ps : List Pulse) : Decoded :=
  let d := decodePips q none (k + 1) ps
  if d.fin = .accepted ∧ !ok d.syms then { d with fin := .check } else d

/-- The CRC-8 check of an answer (R98): `pre` are the bits covered before the word of `n` bits. -/
def answerCrc (pre : List Bool) (n : Nat) (syms : List Nat) : Bool :=
  let v := symsNat syms
  crc8 (pre ++ msb n (v / 256)) == v % 256

/-- A status answer's check: two complementary symbols (R104). -/
def statusOk (syms : List Nat) : Bool := syms.getD 0 0 + syms.getD 1 0 == 3

/-! ### The lane's own pips (R74, R79) -/

/-- What a frame has measured so far. -/
structure FrameRun where
  recs : List PipRec := []
  /-- Differences of master pips and bare strikes (R74). -/
  diffs : List Int := []
  /-- Timing errors on the lane's own pips (R79). -/
  errs : Nat := 0
  deriving DecidableEq, Repr

/-- Whether the frame is abandoned (R79). -/
def FrameRun.over_ (a : FrameRun) : Bool := decide (2 ≤ a.errs)

/-- One own pip with its symbol and driven length, without a deviation where it is a timing error, which the trace
escapes (R488); nothing more is driven once the frame is
abandoned. A pip without a rising edge, which the spec does not name, counts as a timing error of its own
(log entry 94). -/
def ownPip (q : DecodeWith) (a : FrameRun) (x : Nat × Nat × Pulse) : FrameRun :=
  if a.over_ then a
  else
    let raw := pulseLen q.og x.2.2
    let rec_ := fun (dev : Option Int) => ({ sym := x.1, raw := raw, pulse := x.2.2, push := q.push, dev := dev } : PipRec)
    match raw with
    | some m =>
      let diff := m - (x.2.1 : Int)
      let wrong := decide (q.scale 40 < (diff - q.dE).natAbs)
      { recs := a.recs ++ [rec_ (if wrong then none else some (diff - q.dE))], diffs := a.diffs ++ [diff]
        errs := a.errs + b2n wrong }
    | none => { a with recs := a.recs ++ [rec_ none], errs := a.errs + 1 }

/-- Master pips with their symbols, in slot order. -/
def masterPips (s : State) (n : Nat) (syms : List Nat) (ps : List Pulse) : List (Nat × Nat × Pulse) :=
  (List.range syms.length).map (fun i =>
    let x := syms.getD i 0
    (x, symSteps s n x, ps.getD i { fall := 0, rise := none }))

/-- The frame mark's entry of the trace. -/
def markRec (q : DecodeWith) (driven : Nat) (p : Pulse) : PipRec :=
  let raw := pulseLen q.og p
  { sym := 0, raw := raw, pulse := p, push := q.push
    dev := match raw with
      | some m => some (m - (driven : Int) - q.dE)
      | none => none }

/-- Frame mark and header (R94, R97), and the seed of d_E after them (R194): what the frame has
measured, and d_E for its answers. -/
def frameHead (s : State) (n : Nat) (q : DecodeWith) (cmd pos : Nat) (mark : Pulse) (header : List Pulse) :
    FrameRun × Int :=
  let m := markRec q (graded s n 2000) mark
  let a := (masterPips s n (headerSyms cmd pos) header).foldl (ownPip q) { recs := [m] }
  if (s.lane n).cal.seedNext && !a.over_ then
    let first := match m.raw with
      | some r => [r - (graded s n 2000 : Nat)]
      | none => []
    (a, medianI (first ++ a.diffs))
  else (a, q.dE)

/-! ### Trace blocks (R487, R488) -/

/-- The symbol byte of one pulse, or its escape. -/
def symByte (r : PipRec) : Bytes :=
  let esc := [BitVec.ofNat 8 (64 * r.sym + 0x20)] ++ beBytes 2 (match r.raw with
    | some m => uns 16 m
    | none => 0xFFFF)
  match r.dev with
  | some d => if -31 ≤ d ∧ d ≤ 31 then [BitVec.ofNat 8 (64 * r.sym + uns 6 d)] else esc
  | none => esc

/-- An AKNUN_FRAME body. -/
def frameBody (num : BitVec 48) (kind cmd pos : Nat) (mark strike : Int) (hi lo : Nat) (hasLow ab : Bool)
    (recs : List PipRec) : Bytes :=
  beBytes 6 num.toNat ++ [BitVec.ofNat 8 kind, BitVec.ofNat 8 (16 * cmd + pos)] ++ int4 mark ++ int4 strike ++
    [BitVec.ofNat 8 hi, BitVec.ofNat 8 lo, BitVec.ofNat 8 (b2n hasLow + 2 * b2n ab), 0] ++ recs.flatMap symByte

/-- The line reset that follows an abandoned frame, as the trace records it (R79, R487). -/
def traceReset (s : State) (n : Nat) (num : BitVec 48) (kind : Nat) : State :=
  if recorded s n && s.hoard.hmodeNow == 0 then
    hoardBlock s 0x30 n (frameBody num kind 0 0 0 0 0 0 false false [])
  else s

/-- The transitions of a frame's pulses. -/
def recEdges (recs : List PipRec) : List Int :=
  recs.flatMap (fun r => r.pulse.fall :: (match r.pulse.rise with
    | some x => [x]
    | none => []))

/-- A frame in the trace: symbols or raw edges, and the line reset after an abandoned one. -/
def traceFrame (s : State) (n : Nat) (num : BitVec 48) (at_ : Int) (kind cmd pos : Nat) (mark strike : Int)
    (hi lo : Nat) (hasLow : Bool) (a : FrameRun) : State :=
  let s := keepRaw s n at_ (recEdges a.recs) (hi, lo)
  let s := if recorded s n && s.hoard.hmodeNow == 0 then
      hoardBlock s 0x30 n (frameBody num kind cmd pos mark strike hi lo hasLow a.over_ a.recs)
    else s
  if a.over_ then traceReset s n num 3 else s

/-! ### Low time (R177) -/

/-- The low time of measured pulses, in 10 ns, rounded up: a pulse without a release lasts to push
start. -/
def lowTime10 (recs : List PipRec) : Nat :=
  (recs.foldl (fun a r => a + (match r.raw with
    | some m => m.toNat
    | none => r.push)) 0 + 3) / 4

/-! ### Values (R170, R171) -/

/-- The record value of a raw word (R170). -/
def recordValue (s : State) (i : Nat) (raw : Word) : Word :=
  let w := s.inForce (aDesc i 0)
  let lo := fld w 18 14
  let width := fld w 23 19 - lo + 1
  let v := raw.toNat / 2 ^ lo % 2 ^ width
  if bit w 25 then BitVec.ofInt 32 (sgn width v) else BitVec.ofNat 32 v

/-- Whether a value is out of range (R171). -/
def outOfRange (s : State) (i : Nat) (v : Word) : Bool :=
  let w := s.inForce (aDesc i 0)
  let x : Int := if bit w 25 then v.toInt else v.toNat
  bit w 24 && decide (x < rangeNum s i 0x18 ∨ rangeNum s i 0x1C < x)

/-- VALID, RANGE or SPROUT for an accepted value (R206, R221). -/
def trustState (s : State) (i : Nat) (sprout : Bool) (v : Word) : RecState :=
  if sprout then .sprout else if outOfRange s i v then .range else .valid

/-! ### Rolling counter and husk -/

/-- What the rolling counter of an accepted answer shows (R108). -/
inductive CounterFinding where
  | found | slip | frozen | unchecked
  deriving DecidableEq, Repr

/-- The rolling counter check (R108); `k` includes this answer's strike. -/
def counterCheck (e : EpState) (c : Nat) : CounterFinding :=
  if !e.ctrKnown || decide (16 ≤ e.k) then .unchecked
  else if c = (e.ctr + e.k) % 16 then .found
  else if 1 ≤ e.k ∧ c = e.ctr then .frozen
  else .slip

/-- The ID read from the husk identity group (R129, R207, R209): it does not release a JUMP hold. -/
def groupRead (s : State) (i : Nat) (v : BitVec 64) : State :=
  if (s.ep i).hold = .jump ∧ v = descId s i then s.onEp i (fun e => { e with lastId := v })
  else idRead s i v

/-- A message of an endpoint is stored, and HUSK_READY raised (R129, R146, R366). -/
def storeMessage (s : State) (i : Nat) (m : Word) : State :=
  let s := s.onEp i (fun e => { e with msg := m, msgCount := (e.msgCount + 1) % 16 })
  raise s 22 (handle s i) (if fld (s.inForce (aDesc i 0)) 13 12 = 1 then m else 0)

/-- The identity group with one more message; anything but the next of ID0 to ID3 begins again. -/
def idGroupStep (l : List (BitVec 16)) (m : Word) : List (BitVec 16) :=
  let id := fld m 31 24
  let d := BitVec.ofNat 16 (fld m 23 8)
  if id = 1 then [d] else if 2 ≤ id ∧ id ≤ 4 ∧ l.length = id - 1 then l ++ [d] else []

/-- A complete husk message (R129): its CRC-4, its sequence number, the message store, the identity
group and the DIAG bit of R203. Answers whether status bit 3 is set. -/
def huskMessage (s : State) (n i : Nat) (m : Word) : State × Bool :=
  let bits := msb 8 (fld m 31 24) ++ msb 16 (fld m 23 8) ++ msb 4 (fld m 3 0)
  if crc4 bits != fld m 7 4 then
    (s.onLane n (fun l => { l with mon := { l.mon with huskCrc := satAdd 65535 l.mon.huskCrc } }), false)
  else
    let e := s.ep i
    let q := fld m 3 0
    let slip : Bool := match e.huskSeq with
      | some p => q != (p + 1) % 16
      | none => false
    let grp := idGroupStep e.idGroup m
    let s := s.setEp i { e with huskSeq := some q, idGroup := grp }
    let s := if slip then s.onLane n (fun l => { l with mon := { l.mon with huskSlip := satAdd 65535 l.mon.huskSlip } })
      else s
    let s := storeMessage s i m
    let s := if grp.length = 4 then
        (groupRead s i (BitVec.ofNat 64 (grp.foldl (fun a x => a * 65536 + x.toNat) 0))).onEp i
          (fun e => { e with idGroup := [] })
      else s
    let s := if fld m 31 24 = 7 ∧ bit m 23 ∧ !(s.ep i).sprout then becomeSprout s i else s
    (s, true)

/-- The husk bit of an accepted answer (R125, R129). -/
def huskBit (s : State) (n i : Nat) (word : Word) : State × Bool :=
  let e := s.ep i
  let b := b2n (bit word 5)
  let e' := if bit word 4 then { e with huskN := 1, husk := BitVec.ofNat 32 b }
    else if e.huskN = 0 then e
    else { e with huskN := e.huskN + 1, husk := BitVec.ofNat 32 (2 * e.husk.toNat + b) }
  if e'.huskN = 32 then
    huskMessage (s.setEp i { e' with huskN := 0, husk := 0 }) n i e'.husk
  else (s.setEp i e', false)

/-- A partial husk message is discarded (R129). -/
def huskDrop (s : State) (i : Nat) : State := s.onEp i (fun e => { e with huskN := 0, husk := 0 })

/-! ### One answer of a harvest -/

/-- The endpoint's part in deciding how an answer is decoded. -/
def decodeWith (s : State) (n p : Nat) (dE : Int) : DecodeWith :=
  let e := s.ep (epIdx n p)
  { og := (s.lane n).cal.og, dE := dE, grade := cfgGrade s n, sprout := e.sprout, asc := e.asc
    stretched := e.stretch }

/-- The late-release histories after an answer (R184, R185). -/
def lateStep (e : EpState) (d : Decoded) : EpState :=
  let late := d.fin == .late
  { e with lateHist := (late :: e.lateHist).take 64
           stretchHist := if e.stretch then (late :: e.stretchHist).take 8 else e.stretchHist }

/-- A bin of a histogram (R384). -/
def binOf (x base width top : Int) : Nat := (clampI 0 top ((x - base) / width)).toNat

/-- One more in a bin. -/
def binAdd (cap : Nat) (h : Tbl Nat) (b : Nat) : Tbl Nat :=
  Tbl.set (fun _ => 0) h b (satAdd cap (Tbl.get (fun _ => 0) h b))

/-- A deviation sample of a lane (R383). -/
def devSample (s : State) (n : Nat) (d : Int) : State :=
  let w := s.inForce (aMonRegion (laneRegion n) 0)
  let x := clampI (-32768) 32767 d
  let b := binOf x (sgn 16 (fld w 31 16)) (ranged 1 255 (fld w 15 8)) 15
  s.onLane n (fun l => { l with mon := { l.mon with
    devMin := min l.mon.devMin x, devMax := max l.mon.devMax x, devHist := binAdd 65535 l.mon.devHist b } })

/-- The monitors of an answer: timing errors, CRC failures, and the deviations of a calibrated
endpoint's pips. -/
def answerMonitors (s : State) (n : Nat) (q : DecodeWith) (d : Decoded) : State :=
  let s := s.onLane n (fun l => { l with mon := { l.mon with
    timing := satAdd 4294967295 l.mon.timing (b2n (d.fin == .late || d.fin == .timing))
    crc := satAdd 4294967295 l.mon.crc (b2n (d.fin == .check)) } })
  if q.sprout then s
  else d.recs.foldl (fun s r => match r.dev with
    | some x => devSample s n x
    | none => s) s

/-- The scale sample of an answer's tempo pip (R195, R196, R207): the endpoint, whether AS is seeded at
the boundary, and whether the answer is a jump. -/
def scaleSample (may : Bool) (e : EpState) (n11 lm : Int) : EpState × Bool × Bool :=
  let x := scaleIn n11 lm
  if !e.seeded then ({ e with ts := scaleClamp x, seeded := true }, true, false)
  else if isJump x e.ts then (e, true, true)
  else if may then ({ e with ts := scaleClamp (e.ts + asr (x - e.ts) 2) }, false, false)
  else (e, false, false)

/-- A swap suspicion of a jump, with TS seeded again from the suspect sample (R207, R208). -/
def jumpSuspect (s : State) (i : Nat) (x : Int) : State :=
  (swapSuspect s i .jump).onEp i (fun e => { e with ts := scaleClamp x, seeded := true })

/-- The sample of an answer outside a harvest (R195, R196, R207): the state, and the position whose AS is seeded
at the boundary. -/
def tempoSample (s : State) (n p : Nat) (q : DecodeWith) (d : Decoded) : State × List Nat :=
  match d.tempo with
  | none => (s, [])
  | some lm =>
    let i := epIdx n p
    let (e, seed, jump) := scaleSample (laneMay s n 18).1 (s.ep i) q.n11 lm
    let s := s.setEp i e
    (if jump then jumpSuspect s i (scaleIn q.n11 lm) else s, if seed then [p] else [])

/-- Whether the answers of an endpoint are STALE for a conversion that waits (R432). -/
def staleWait (s : State) (n p : Nat) : Bool :=
  let l := s.lane n
  l.spuStale && match l.spu with
    | some q => q.all || q.pos.val == p
    | none => false

/-- One struck answer of a harvest (R78, R108, R129, R204, R207, R208, R221): the state after it, its
entry if it has one, and whether AS is seeded at the boundary. -/
def takeAnswer (s : State) (n p : Nat) (num : BitVec 48) (base : Int) (q : DecodeWith) (d : Decoded) :
    State × Option Entry × Bool :=
  let i := epIdx n p
  let due := descProto s i != 0 && epDue s i num
  let s := answerMonitors s n q d
  let e0 := lateStep (s.ep i) d
  let stepped := e0.stepped
  let e0 := { e0 with stepped := false }
  let word := BitVec.ofNat 32 (symsNat d.syms / 256)
  let cnt := word.toNat % 16
  let find := counterCheck e0 cnt
  let ok := d.fin == .accepted && find != .frozen
  let (e1, seedAs, jump) := match d.tempo with
    | some lm => scaleSample (laneMay s n 18).1 e0 q.n11 lm
    | none => (e0, false, false)
  let clean := ok && find != .slip && !jump
  let e2 := { e1 with
    clean := if clean then min 15 (e1.clean + 1) else 0
    quiet := if !due then e1.quiet else if ok then 0 else min 8 (e1.quiet + 1)
    k := if ok then 0 else e1.k, ctr := if ok then cnt else e1.ctr, ctrKnown := ok || e1.ctrKnown }
  let s := s.setEp i e2
  let s := s.onLane n (fun l => { l with mon := { l.mon with
    slips := satAdd 65535 l.mon.slips (b2n (ok && find == .slip))
    frozen := satAdd 65535 l.mon.frozen (b2n (d.fin == .accepted && find == .frozen)) } })
  let (s, rdy) := if ok then huskBit s n i word else (huskDrop s i, false)
  let s := if jump then jumpSuspect s i (scaleIn q.n11 (d.tempo.getD 0)) else s
  if !ok || descProto s i == 0 then (s, none, seedAs)
  else
    let v := recordValue s i word
    let st := fld word 7 6
    let prov : RecState :=
      if staleWait s n p then .stale
      else if !due then .stale
      else if st = 2 then .fault
      else if st = 3 then .missing
      else trustState s i (q.sprout || jump) v
    (s, some { pos := p, value := v, inst := base + descLatency s i, hasValue := true, husk := rdy
               calStep := stepped, prov := prov }, seedAs)

/-! ### Frame boundary (R189) -/

/-- The stretch need of an endpoint at a frame boundary (R184). -/
def stretchNeed (e : EpState) : Bool :=
  let lates := fun (k : Nat) => ((e.lateHist.take k).filter id).length
  if e.stretch then !(decide (100 * e.asc ≤ 102 * 65536) && lates 64 == 0)
  else decide (103 * 65536 < 100 * e.asc) || decide (2 ≤ lates 8)

/-- The stretched endpoint at the lowest position of a lane (R185). -/
def reserveHolder (s : State) (n : Nat) : Option Nat :=
  (List.range 16).find? (fun p => decide (p < (s.lane n).enumN) && (s.ep (epIdx n p)).stretch)

/-- The SLOW marks of a lane at a frame boundary, with EP_SLOW (R185). -/
def slowMarks (s : State) (n : Nat) : State :=
  let holder := reserveHolder s n
  (List.range 16).foldl (fun s p =>
    let i := epIdx n p
    let e := s.ep i
    let slow := decide (p < (s.lane n).enumN) &&
      ((e.stretch && holder != some p) || decide (2 ≤ (e.stretchHist.filter id).length))
    if slow = e.slow then s
    else
      let s := s.setEp i { e with slow := slow }
      if slow then raise s 19 (handle s i) (BitVec.ofInt 32 e.asc) else s) s

/-- Every endpoint of a lane decodes its next frame under a stepped lane value (R189). -/
def stepLane (s : State) (n : Nat) : State :=
  (List.range 16).foldl (fun s p => s.onEp (epIdx n p) (fun e => { e with stepped := true })) s

/-- The swing and edge-skew conditions at a frame boundary (R74, R89): LINE_SWING and LINE_SLOW end
when the limit is met again. -/
def lineCounts (s : State) (n : Nat) : State :=
  let l := s.lane n
  let c := l.cal
  let small := decide (c.h16 - c.l16 < 1280)
  let slow := decide (skewLimit s n < c.dE)
  let s := s.setLane n { l with
    swing := l.swing && small, slowLine := l.slowLine && slow
    cal := { c with swingCnt := if small then min 8 (c.swingCnt + 1) else 0
                    slowCnt := if slow then min 8 (c.slowCnt + 1) else 0 } }
  if l.swing && !small then happenLine s n 0x10 0 else s

/-- The level monitors of a frame (R383). -/
def levelSample (s : State) (n hi lo : Nat) : State :=
  let w := s.inForce (aMonRegion (laneRegion n) 4)
  let b := binOf lo (fld w 31 24) (ranged 1 255 (fld w 23 16)) 15
  s.onLane n (fun l => { l with mon := { l.mon with
    hiMin := min l.mon.hiMin hi, hiMax := max l.mon.hiMax hi
    loMin := min l.mon.loMin lo, loMax := max l.mon.loMax lo, loHist := binAdd 65535 l.mon.loHist b } })

/-- A lane's frame boundary (R189): every loop of the lane and of its endpoints, the stretch needs and
marks, sprout exits and a waiting LOAD. `lo` is the low sample, if the frame has one. -/
def aknunBoundary (s : State) (n : Nat) (before : LaneCal) (hi markLow : Nat) (lo : Option Nat) (diffs : List Int)
    (seeds : List Nat) : State :=
  let l := s.lane n
  let c := latchOg s n l.cal
  let c := thrBoundary (laneMay s n 16) l.swing c hi (match lo with
    | some x => some (x : Int)
    | none => none) markLow
  let c := skewBoundary (laneMay s n 17) c diffs
  let may := (laneMay s n 18).2
  let step := c.d != before.d || c.dE != l.cal.dE || c.og != before.og
  let s := s.setLane n { l with cal := c }
  let s := (List.range 16).foldl (fun s p =>
    let i := epIdx n p
    let s := s.onEp i (fun e => scaleBoundary may e (seeds.contains p))
    let s := sproutExit s i
    s.onEp i (fun e => { e with stretch := stretchNeed e })) s
  let s := lineCounts (slowMarks s n) n
  let s := applyLoad s n before
  let step := step || (s.lane n).cal.stepped
  let s := s.onLane n (fun l => { l with cal := { l.cal with stepped := false, steps := l.cal.steps - 1 } })
  let s := levelSample s n hi (lo.getD markLow)
  enterSprouts (if step then stepLane s n else s) n none

/-! ### Shedding (R186) -/

/-- The stretched answers that a frame would strike. -/
def stretchedCount (s : State) (n top : Nat) (shed : List Nat) : Nat :=
  ((List.range (top + 1)).filter (fun p =>
    let e := s.ep (epIdx n p)
    e.stretch && !e.asleep && !shed.contains p)).length

/-- Whether both demands of R186 are met, in 1/100 step: `high` is h(n), and the frame strikes the answers up to
`top`. -/
def demandsFit (s : State) (n high top : Nat) (shed : List Nat) : Bool :=
  let t : Int := pipSteps s n
  let x := 176 * t * (max 1 (stretchedCount s n top shed) : Nat)
  let a : Int := (high : Nat)
  let o := descOffset s (epIdx n ((lanePositions s n).headD 0))
  decide (100 * t * (10 + 22 * (a + 1) + 37) + x ≤ 100 * (period s : Nat)) &&
    decide (100 * (o + t + 22 * t * (a + 1)) + x ≤ 100 * ((period s : Nat) - 8000))

/-- SLOW answers in shedding order: not due before due, largest j first, highest position first. -/
def shedOrder (s : State) (n top : Nat) (num : BitVec 48) : List Nat :=
  let holder := reserveHolder s n
  let slow := ((List.range (top + 1)).filter (fun p =>
    (s.ep (epIdx n p)).slow && !(s.ep (epIdx n p)).asleep && holder != some p)).reverse
  let due := fun p => epDue s (epIdx n p) num && descProto s (epIdx n p) != 0
  let byRate := fun (ps : List Nat) => (List.range 8).reverse.flatMap (fun j =>
    ps.filter (fun p => descRate s (epIdx n p) == j))
  byRate (slow.filter (fun p => !due p)) ++ byRate (slow.filter due)

/-- The answers shed, one at a time until both demands fit. -/
def shedding (s : State) (n high top : Nat) (order : List Nat) : List Nat :=
  order.foldl (fun shed p => if demandsFit s n high top shed then shed else shed ++ [p]) []

/-! ### The harvest frame -/

/-- What a harvest frame leaves: the state, the base stamp, the entries and the answers' raw words by
position (for a poll). -/
structure HarvestDone where
  st : State
  base : Int
  entries : List Entry
  deriving DecidableEq, Repr

/-- Endpoints that abandon a frame count it, and a failed header (R102, R110). -/
def missFrame (s : State) (n : Nat) (missed : List (Fin 16 × Bool)) : State :=
  missed.foldl (fun s x => s.onEndpoint (epIdx n x.1.val) (fun e =>
    if e.ready s.grid.now then
      { e with frameErr := satInc e.frameErr, hdrErr := if x.2 then satInc e.hdrErr else e.hdrErr }
    else e)) s

/-- Whether the endpoint at a place takes no part in a frame it has abandoned. -/
def missedBy (missed : List (Fin 16 × Bool)) (j : Nat) : Bool := missed.any (fun x => x.1.val == j)

/-- The sample strike (R105): the lane counts it for every awake position up to `top` (R108). Every
positioned, awake endpoint takes part in a HARVEST, and in a HARVEST_PARTIAL those up to `top`: it
latches, advances its rolling counter and takes its next husk bit. -/
def sampleStrike (s : State) (n top : Nat) (whole : Bool) (missed : List (Fin 16 × Bool)) : State :=
  let s := (List.range (top + 1)).foldl (fun s p =>
    let e := s.ep (epIdx n p)
    if e.asleep then s else s.setEp (epIdx n p) { e with k := min 16 (e.k + 1) }) s
  (List.range 16).foldl (fun s j => s.onEndpoint (epIdx n j) (fun x =>
    match x.pos with
    | some p =>
      if x.ready s.grid.now && !x.asleep && (whole || decide (p ≤ top)) && !missedBy missed j then
        { x with ctr := x.ctr + 1, huskAt := (x.huskAt + 1) % 32 }
      else x
    | none => x)) s

/-- The pacing strike of an answer whose last CRC slot is left unstruck (R107). -/
def paceRun (s : State) (n : Nat) (q : DecodeWith) (a : FrameRun) (w : AnswerWire) (struck : Nat) : FrameRun :=
  if 21 ≤ struck then a
  else ownPip q a (0, graded s n 100, w.pace.getD { fall := 0, rise := none })

/-- The progress of a harvest through its answers. -/
structure HarvestRun where
  st : State
  run : FrameRun
  entries : List Entry
  seeds : List Nat
  lows : List Nat
  deriving DecidableEq, Repr

/-- One position of a harvest: shed or asleep, or struck. -/
def harvestPos (n : Nat) (num : BitVec 48) (base : Int) (dE : Int) (shed : List Nat) (ws : List AnswerWire)
    (h : HarvestRun) (p : Nat) : HarvestRun :=
  let i := epIdx n p
  let w := ws.getD p { low := 0, pips := [], pace := none }
  let q := decodeWith h.st n p dE
  if h.run.over_ then { h with st := huskDrop h.st i }
  else if shed.contains p || (h.st.ep i).asleep then
    { h with st := huskDrop h.st i, run := paceRun h.st n { q with stretched := false } h.run w 0 }
  else
    let d := decodeAnswer q 20 (answerCrc (msb 4 p) 32) w.pips
    let run := { h.run with recs := h.run.recs ++ d.recs }
    let run := paceRun h.st n q run w d.recs.length
    let (s, e, seed) := takeAnswer h.st n p num base q d
    { st := s, run := run
      entries := h.entries ++ e.toList
      seeds := if seed then h.seeds ++ [p] else h.seeds
      lows := if d.fin = .empty then h.lows else h.lows ++ [w.low] }

/-- The lane's line after a frame that has ended: the next frame mark may follow at once (R100), and after
an abandoned frame only after a line reset (R79). -/
def lineAfter (s : State) (n : Nat) (cut : Bool) : State :=
  s.onLane n (fun l => { l with readyAt := if cut then afterReset s n s.grid.now else max l.readyAt s.grid.now })

/-- A harvest frame from its frame mark to its frame boundary, without handing over its packet. The seed of
d_E after a bus clear empties the history of its differences (log entry 96). -/
def harvestFrame (s : State) (n top cmd kind : Nat) (num : BitVec 48) (at_ : Int) (w : HarvestWire) : HarvestDone :=
  let s := frameBoundary s n num
  let before := (s.lane n).cal
  let q := { decodeWith s n 0 before.dE with stretched := false }
  let pos := if cmd = 0 then 15 else top
  let (a, dE) := frameHead s n q cmd pos w.mark w.header
  let seeded := dE != before.dE
  let s := s.onLane n (fun l => { l with cal := { l.cal with
    dE := dE, dEHist := if l.cal.seedNext && !a.over_ then [] else l.cal.dEHist } })
  let s := if seeded then stepLane s n else s
  let struck := !a.over_
  let a := ownPip { q with dE := dE } a (0, graded s n 100, w.strike)
  let base := at_ + stamp25 before.og w.strike.fall
  let shed := shedding s n ((topDue s n num).getD top) top (shedOrder s n top num)
  let s := missFrame s n w.missed
  let s := if struck then sampleStrike s n top (cmd == 0) w.missed else s
  let h := (List.range (top + 1)).foldl (harvestPos n num base dE shed w.answers)
    { st := s, run := a, entries := [], seeds := [], lows := [] }
  let lo := h.lows.foldl max 0
  let hasLow := !h.lows.isEmpty
  let s := h.st.onLane n (fun l => { l with
    lowTime := lowTime10 h.run.recs, gapUntilFrame := false
    mon := { l.mon with frames := satAdd 4294967295 l.mon.frames
                        timing := satAdd 4294967295 l.mon.timing h.run.errs
                        shed := satAdd 65535 l.mon.shed shed.length } })
  let s := traceFrame s n num at_ kind cmd pos (stamp25 before.og w.mark.fall)
    (if struck then stamp25 before.og w.strike.fall else 0) w.hi (if hasLow then lo else w.markLow) hasLow h.run
  let s := aknunBoundary s n before w.hi w.markLow (if hasLow then some lo else none) h.run.diffs h.seeds
  { st := lineAfter s n h.run.over_, base := base, entries := h.entries }

/-! ### When a harvest runs (R175) -/

/-- Whether a snapshot's frames and commands have their place at all: in the states of the data path, at
the exit from SENTINEL, and in BOOT once the image check of a warm start has passed (R45, R439, R455,
R462); from the first grid instant on only for snapshots that are built. -/
def framePlace (s : State) (num : BitVec 48) : Bool :=
  s.grid.on && (s.mode.dev.dataPath || s.mode.resume.isSome || (s.mode.warm && s.mode.booted)) &&
    !suppressed s num && (!s.mode.firstDone || built s num)

/-- Whether frames of a snapshot are run now (R507). -/
def frameRuns (s : State) (num : BitVec 48) : Bool := framePlace s num && s.upd.pauseA.isNone

/-- The highest position that a harvest of a period strikes: h(n), or the highest enumerated position
where that is lower (R124, R175). -/
def harvestTop (s : State) (n : Nat) (num : BitVec 48) : Option Nat :=
  match topDue s n num with
  | some h => if (s.lane n).enumN = 0 then none else some (min h ((s.lane n).enumN - 1))
  | none => none

/-- Whether the period's frame is a HARVEST rather than a HARVEST_PARTIAL (R124, R175). -/
def harvestWhole (s : State) (n : Nat) (num : BitVec 48) : Bool :=
  match topDue s n num with
  | some h => h + 1 == (s.lane n).enumN && (s.lane n).enumPos.isNone
  | none => false

/-- Whether a lane runs its harvest of a snapshot: its frame mark falls in no strong window (R82) and when
the line is ready for it (R79, R90, R100). -/
def harvestReady (s : State) (n : Nat) (num : BitVec 48) (at_ : Int) : Bool :=
  let l := s.lane n
  l.mode == .aknun && cfgMode s n == .aknun && l.lstate == .run && laneClocked s n && frameRuns s num &&
    decide ((l.readyAt : Int) ≤ at_ + frameStart s n) &&
    !windowed s n at_ && l.lastTag != some num && (harvestTop s n num).isSome && s.mode.dev != .boot

/-- A harvest frame run for its snapshot, with its packet handed over (R220). -/
def runHarvest (s : State) (n top cmd : Nat) (num : BitVec 48) (at_ : Int) (w : HarvestWire) : State :=
  let s := enterSprouts s n (some (at_ + frameStart s n))
  let d := harvestFrame s n top cmd (if cmd = 0 then 0 else 1) num at_ w
  handOver d.st n num at_ true (d.base - at_) d.entries

/-! ### The lanes and frames of polls (R440, R442) -/

/-- The positions of a lane that WAKE routes name, ascending (R440). -/
def pollSources (s : State) (n : Nat) : List Nat :=
  (List.range 16).filter (fun p =>
    (routesOn s).any (fun r => rtAction s r == 2 && rtSrc s r == epIdx n p && routeEn s (rtSrc s r)))

/-- Whether a lane is in the poll set. -/
def polled (s : State) (n : Nat) : Bool := s.mode.polls.any (fun x => x.1 == n)

/-- The ticks since the latest poll tick of a lane (R441). -/
def sincePoll (s : State) (n : Nat) : Nat :=
  match s.mode.polls.find? (fun x => x.1 == n) with
  | some x => s.grid.tick.toNat % x.2
  | none => 0

/-- The number of a lane's latest poll tick (R441). -/
def pollNum (s : State) (n : Nat) : BitVec 48 := s.grid.tick - BitVec.ofNat 48 (sincePoll s n)

/-- The time of a lane's latest poll tick (R441). -/
def pollAt (s : State) (n : Nat) : Nat := s.grid.tickAt - 50000 * sincePoll s n

/-- Whether the poll of a lane's latest poll tick, since SENTINEL was entered, is still to come; with VBAT below its
second threshold LIN lanes do not poll (R440, R442, R451). -/
def pollDue (s : State) (n : Nat) : Bool :=
  s.mode.dev == .sentinel && polled s n && (s.lane n).lastTag != some (pollNum s n) && laneClocked s n &&
    !(cfgMode s n == .lin && s.mode.vbatSusp) && decide (s.mode.pollFrom ≤ pollAt s n)

/-- The top position of the harvest of an Aknun lane's poll of the tick at `at_`, where its frame is run: the
line is ready for its frame mark, which falls in no strong window (R70, R82, R90, R442). -/
def pollTop (s : State) (n : Nat) (at_ : Int) : Option Nat :=
  let l := s.lane n
  if l.mode = .aknun ∧ l.lstate = .run ∧ 0 < l.enumN ∧ (l.readyAt : Int) ≤ at_ + frameStart s n ∧ !windowed s n at_ then
    (pollSources s n).getLast?.map (fun p => min p (l.enumN - 1))
  else none

/-- The length of a harvest up to position `top`, from its frame mark on (R94, R175). -/
def harvestSteps (s : State) (n top : Nat) : Nat := (10 + 22 * (top + 1)) * pipSteps s n

/-! ### Frames that a stuck low cuts (R89) -/

/-- A harvest with its frame mark at `mark` that a stuck low from `t0` on cuts: its sample strike, where the
lane had driven it, counts at the lane and at the endpoints (R105, R108), and the answers are absent (R129). -/
def cutAt (s : State) (n t0 top : Nat) (whole : Bool) (mark : Int) : State :=
  if mark + (9 * pipSteps s n : Nat) ≤ t0 ∧ (t0 : Int) < mark + (harvestSteps s n top : Nat) then
    let s := (sampleStrike s n top whole []).onLane n (fun l =>
      { l with mon := { l.mon with frames := satAdd 4294967295 l.mon.frames } })
    (List.range (top + 1)).foldl (fun s p => huskDrop s (epIdx n p)) s
  else s

/-- The harvest of a period or of a poll that a stuck low from time `t0` on cuts (R89). -/
def cutHarvest (s : State) (n t0 : Nat) : State :=
  if pollDue s n then
    match pollTop s n (pollAt s n) with
    | some top => cutAt s n t0 top false (pollAt s n + frameStart s n)
    | none => s
  else
    let f := laneSnap s n
    s.under f.2 (fun s =>
      match harvestTop s n f.1 with
      | some top =>
        if harvestReady s n f.1 f.2 then cutAt s n t0 top (harvestWhole s n f.1) (f.2 + frameStart s n) else s
      | none => s)

/-! ### Meanings -/

/-- STUCK_LOW (R89): the line has been low for 20 us without the master driving it. The lane abandons
its frame and starts a bus clear counted from the beginning of the low; a strong window ends (R88). -/
def execStuckLow (dt : Nat) (n : Lane) (s : State) : Out :=
  run dt s (fun s => onAknun s n (fun s =>
    let t0 := s.grid.now - graded s n 8000
    let open_ : Bool := match (s.lane n).spu with
      | some q => match q.window with
        | some w => decide (s.grid.now < w.2)
        | none => false
      | none => false
    let s := if (s.lane n).lstate = .clearing then s else happenLine s n 1 1
    let s' := cutHarvest s n t0
    let s' := reclear (if open_ then endSpu s' n else s') n (some t0)
    withFaults [n.val] s (s'.onLane n (fun l => { l with stuck := true }))))

/-- HARVEST (R105, R175): the lane's harvest of a period whose highest due position is its highest
enumerated one. -/
def execHarvest (dt : Nat) (n : Lane) (w : HarvestWire) (s : State) : Out :=
  run dt s (fun s =>
    let s := passCutoff s
    let f := laneSnap s n
    s.under f.2 (fun s =>
      if harvestReady s n f.1 f.2 && harvestWhole s n f.1 then runHarvest s n ((s.lane n).enumN - 1) 0x0 f.1 f.2 w
      else s))

/-- HARVEST_PARTIAL (R105, R124, R175): the lane's harvest of any other period, or while it
enumerates. -/
def execHarvestPartial (dt : Nat) (n : Lane) (top : Pos) (w : HarvestWire) (s : State) : Out :=
  run dt s (fun s =>
    let s := passCutoff s
    let f := laneSnap s n
    s.under f.2 (fun s =>
      if harvestReady s n f.1 f.2 && !harvestWhole s n f.1 && harvestTop s n f.1 == some top.val then
        runHarvest s n top 0xB f.1 f.2 w
      else s))

/-- Eight consecutive due periods without an accepted answer or frame make a sprout (R203). -/
def silentSprout (s : State) (i : Nat) : State :=
  if 8 ≤ (s.ep i).quiet then s.onEp i (fun e => { e with sproutAt := some (e.sproutAt.getD s.grid.now) }) else s

/-- SPROUT_ON_SILENCE (R203): eight consecutive due periods without an accepted answer or frame. -/
def execSproutOnSilence (i : Idx) (s : State) : Out := .next (silentSprout s i)

end Sys2Proof.Machine
end

