-- ==== Sys2Proof/Machine/Register.lean ====
section
/-!
DEFINITION. The register-access slot of an Aknun lane (R176, R177) and the commands that run in it:
READ, WRITE, IDENT, ENUM, CLOSE_PASS, OPEN_PASS, CONVERT, COMMIT_NV, SLEEP, WAKE_PING and ATTEST (R101 to
R117), enumeration with its failures and its growth (R118 to R124, R456 to R458), and the attestation
of an endpoint (R405).
-/

namespace Sys2Proof.Machine

/-! ### A register-access frame -/

/-- A command frame's fixed part: code, POS, the body's symbols, and the answer's symbols after its
tempo pip with their check; `echo` marks ENUM, whose answer no endpoint scale applies to. -/
structure CmdFrame where
  cmd : Nat
  pos : Nat
  body : List Nat
  answer : Nat
  deriving DecidableEq, Repr

/-- Slots of a command frame, the frame mark as three (R101). -/
def CmdFrame.slots (c : CmdFrame) : Nat :=
  9 + c.body.length + (if c.answer = 0 then 0 else c.answer + 2)

/-- The answer slots that a frame struck: the pips and the pacing strike that the wire lists. -/
def CmdFrame.struck (c : CmdFrame) (w : FrameWire) : Nat :=
  if c.answer = 0 then 0 else min (c.answer + 1) w.answer.pips.length + b2n w.answer.pace.isSome

/-- The answer's check (R98, R104). -/
def CmdFrame.ok (c : CmdFrame) (addr : Nat) (syms : List Nat) : Bool :=
  if c.cmd = 1 then answerCrc (msb 4 c.pos ++ msb 8 addr) 32 syms
  else if c.cmd = 4 then answerCrc (msb 4 c.pos) 64 syms
  else if c.cmd = 3 then true
  else statusOk syms

/-- The worst-case low time of a command in 1/1000 t_PIP (R177). -/
def CmdFrame.worst (c : CmdFrame) : Nat :=
  2500 + 700 * (6 + c.body.length) + (if c.answer = 0 then 0 else 756 * (c.answer + 1))

/-- A command frame run on the line (R94, R101): own pips, the seed of d_E, the answer, the trace and
the frame boundary. Answers the decoded answer, unless the frame was abandoned before it, and whether the
lane has driven the whole of its own part. -/
def accessFrame (s : State) (n : Nat) (num : BitVec 48) (at_ : Int) (c : CmdFrame) (addr : Nat) (w : FrameWire) :
    State × Option Decoded × Bool :=
  let s := frameBoundary s n num
  let before := (s.lane n).cal
  let q0 := decodeWith s n c.pos before.dE
  let q := { q0 with stretched := false }
  let (a, dE) := frameHead s n q c.cmd c.pos w.mark w.header
  let seeded := dE != before.dE
  let s := s.onLane n (fun l => { l with cal := { l.cal with
    dE := dE, dEHist := if l.cal.seedNext && !a.over_ then [] else l.cal.dEHist } })
  let s := if seeded then stepLane s n else s
  let a := (masterPips s n c.body w.body).foldl (ownPip { q with dE := dE }) a
  let sent := !a.over_
  let s := missFrame s n w.missed
  let q := { q0 with dE := dE, sprout := q0.sprout || c.cmd == 3, stretched := q0.stretched && c.cmd != 3 }
  let d : Option Decoded :=
    if a.over_ || c.answer = 0 then none else some (decodeAnswer q c.answer (c.ok addr) w.answer.pips)
  let (s, recs, low, seeds) : State × List PipRec × Option Nat × List Nat := match d with
    | some d =>
      let s := answerMonitors s n q d
      let (s, seeds) := if c.cmd = 3 then (s, []) else
        tempoSample (s.onEp (epIdx n c.pos) (fun e => lateStep e d)) n c.pos q d
      (s, d.recs, if d.fin == AnswerEnd.empty then none else some w.answer.low, seeds)
    | none => (s, [], none, [])
  let a := { a with recs := a.recs ++ recs }
  let a := match d with
    | some x => if x.recs.length < c.answer + 1 then
        ownPip q a (0, graded s n 100, w.answer.pace.getD { fall := 0, rise := none }) else a
    | none => a
  let s := s.onLane n (fun l => { l with
    lowTime := l.lowTime + lowTime10 a.recs
    mon := { l.mon with frames := satAdd 4294967295 l.mon.frames
                        timing := satAdd 4294967295 l.mon.timing a.errs } })
  let s := traceFrame s n num at_ 2 c.cmd c.pos (stamp25 before.og w.mark.fall) 0 w.hi (low.getD w.markLow)
    low.isSome a
  (lineAfter (aknunBoundary s n before w.hi w.markLow low a.diffs seeds) n a.over_, d, sent)

/-! ### The command frames (R101) -/

def readFrame (pos addr : Nat) : CmdFrame :=
  { cmd := 1, pos := pos, body := symsOf 8 addr ++ symsOf 4 (crc4 (msb 4 pos ++ msb 8 addr)), answer := 20 }
def writeFrame (pos addr : Nat) (v : Word) : CmdFrame :=
  { cmd := 2, pos := pos, answer := 2
    body := symsOf 8 addr ++ symsOf 32 v.toNat ++ symsOf 8 (crc8 (msb 4 pos ++ msb 8 addr ++ msb 32 v.toNat)) }
def enumFrame (pos : Nat) : CmdFrame := { cmd := 3, pos := pos, body := [], answer := 2 }
def identFrame (pos : Nat) : CmdFrame := { cmd := 4, pos := pos, body := [], answer := 36 }
/-- CONVERT, COMMIT_NV, SLEEP and WAKE_PING with their control byte (R103): ALL sends POS 0xF. -/
def controlFrame (cmd pos ctl answer : Nat) : CmdFrame :=
  { cmd := cmd, pos := pos, body := symsOf 8 ctl ++ symsOf 4 (crc4 (msb 4 pos ++ msb 8 ctl)), answer := answer }
def closeFrame (pos : Nat) : CmdFrame := { cmd := 9, pos := pos, body := [], answer := 2 }
def openFrame (pos : Nat) : CmdFrame := { cmd := 0xA, pos := pos, body := [], answer := 2 }
def attestFrame (pos : Nat) (c : BitVec 64) : CmdFrame :=
  { cmd := 0xC, pos := pos, answer := 2
    body := symsOf 64 c.toNat ++ symsOf 8 (crc8 (msb 4 pos ++ msb 64 c.toNat)) }

/-- The accepted symbols of an answer. -/
def accepted (d : Option Decoded) : Option (List Nat) :=
  match d with
  | some d => if d.fin = .accepted then some d.syms else none
  | none => none

/-- The accepted status of an answer (R104). -/
def status (d : Option Decoded) : Option Nat :=
  match accepted d with
  | some xs => some (xs.getD 0 0)
  | none => none

/-! ### The register-access slot (R176, R177) -/

/-- Whether 1 ms has not passed since an OPEN_PASS (R124). -/
def openWaits (s : State) (n : Nat) : Bool :=
  match (s.lane n).opened with
  | some (_, t) => decide (s.grid.now < t + 400000)
  | none => false

/-- Whether a position is one the lane may enumerate (R118). -/
def withinTop (s : State) (n p : Nat) : Bool :=
  match topPos s n with
  | some t => decide (p ≤ t)
  | none => false

/-- Growth of the chain in RUN is wanted (R124, R187): the lane has a descriptor above its highest
enumerated position, the chain has not ended there, and no wait holds it back. -/
def growthReady (s : State) (n : Nat) : Bool :=
  let l := s.lane n
  withinTop s n l.enumN && !l.chainEnd && !l.enumFail && !l.enumOwed && !openWaits s n

/-- The position being enumerated: growth begins with CLOSE_PASS of the highest enumerated position, or
with ENUM of position 0 (R124). -/
def LaneState.enumerating (l : LaneState) : Option (Nat × Nat) :=
  match l.enumPos with
  | some p => some (p, l.enumStep)
  | none => none

/-- Growth put under way where it is wanted. -/
def startGrowth (s : State) (n : Nat) : State :=
  let l := s.lane n
  if l.lstate = .run ∧ l.enumPos = none ∧ growthReady s n then
    if l.enumN = 0 then
      s.setLane n { l with enumPos := some 0, enumStep := 0, enumTry := 0, enumAt := s.grid.now }
    else s.setLane n { l with enumPos := some (l.enumN - 1), enumStep := 2, enumTry := 0 }
  else s

/-- Whether the wait of step 2 of R121 has passed, measured to the start of the slot. -/
def enumWaited (l : LaneState) (start : Nat) : Bool :=
  decide (l.enumStep ≠ 0) || decide (l.enumAt + 128000 ≤ start)

/-- The positions of a lane that owe an IDENT for a JUMP hold (R209). -/
def identOwedPos (s : State) (n : Nat) : Option Nat :=
  (lanePositions s n).find? (fun p => (s.ep (epIdx n p)).identOwed && decide (p < (s.lane n).enumN))

/-- The slot of the pairing root that serves a maker code (R404). -/
def pairingRoot (s : State) (maker : Nat) : Option Nat :=
  (List.range 16).find? (fun k =>
    let x := s.slot (16 + k)
    !slotEmpty s (16 + k) && x.info.toNat == maker)

/-- Whether an endpoint owes an ATTEST (R405): a sprout with TRUST = ATTEST whose ID read last equals
EXPECT_ID, and whose attestation has had no outcome since sprout entry. -/
def attestOwed (s : State) (i : Nat) : Bool :=
  let e := s.ep i
  descProto s i == 1 && descAttest s i && e.sprout && !e.attested && !e.attDone && descId s i != 0 &&
    e.lastId == descId s i && decide (i % 16 < (s.lane (i / 16)).enumN)

/-- The first position of a lane whose ATTEST can be sent, or whose tag can be read, by a frame that begins at
`start`. -/
def attestPos (s : State) (n start : Nat) : Option Nat :=
  (List.range 16).find? (fun p =>
    let i := epIdx n p
    attestOwed s i && (match (s.ep i).chal with
      | some (_, t) => decide (t + 1600000 ≤ start)
      | none => (pairingRoot s ((descId s i).toNat / 2 ^ 48)).isSome))

/-- A lane's pending route write: the lowest position that holds one (R272). -/
def routeWrite (s : State) (n : Nat) : Option (Nat × Nat × BitVec 8 × Word) :=
  (List.range 16).findSome? (fun p => match (s.ep (epIdx n p)).rtWrite with
    | some (r, a, v) => some (p, r, a, v)
    | none => none)

/-- Whether a request is pending that a frame from `start` on can still serve: within 256 periods of GO
(R364). -/
def accLive (s : State) (n start : Nat) : Bool :=
  let a := (s.lane n).acc
  a.rstate == .pending && decide (start < a.at_ + 256 * period s)

/-- The position that OPEN_PASS is owed to: by a commit that has taken effect, or by one whose G_e the slot
belongs to (R28, R187). -/
def openDue (s : State) (n : Nat) : Option Nat :=
  match (s.lane n).openOwed with
  | some p => some p
  | none => match topPos s n with
    | some t => if t + 1 < (s.lane n).enumN then some t else none
    | none => none

/-- The class of R176 that a lane's next command belongs to; 5 where none waits, and 0 for the OPEN_PASS
that R187 puts into the first slot (log entry 97). `start` is when the command's frame began. -/
def slotClass (s : State) (n start : Nat) : Nat :=
  let l := s.lane n
  let spu : Bool := match l.spu with
    | some q => q.admitted.isSome && q.window.isNone
    | none => false
  if (openDue s n).isSome then 0
  else if spu then 1
  else if (identOwedPos s n).isSome || (l.enumPos.isSome && enumWaited l start) ||
      (l.enumPos.isNone && growthReady s n) then 2
  else if (attestPos s n start).isSome then 3
  else if (routeWrite s n).isSome || accLive s n start && decide (l.acc.op.toNat < 3) then 4
  else 5

/-- The snapshot whose period window a lane's register-access frame falls in, by its end (R176). -/
def slotSnap (s : State) (n : Nat) : BitVec 48 × Int := laneSnap s n

/-- Whether a lane's harvest of a period is over, so that the register-access slot is open (R176). -/
def slotOpen (s : State) (n : Nat) (num : BitVec 48) : Bool :=
  (s.lane n).lastTag == some num || (harvestTop s n num).isNone

/-- The low time measured in the period window so far. -/
def lowSoFar (s : State) (n : Nat) (num : BitVec 48) : Nat :=
  if (s.lane n).lastTag = some num ∨ (s.lane n).slotUsed = some num then (s.lane n).lowTime else 0

/-- Whether the line-high test of R177 lets a command start. -/
def lowFits (s : State) (n : Nat) (num : BitVec 48) (c : CmdFrame) : Bool :=
  decide (10 * (1000 * lowSoFar s n num + c.worst * pip10 s n) ≤ 6 * 1000 * period10 s)

/-- The frame's length in steps: struck slots of a stretched answer last 1.08 t_PIP (R184). -/
def cmdSteps (s : State) (n : Nat) (c : CmdFrame) (w : FrameWire) : Nat :=
  c.slots * pipSteps s n +
    (if (s.ep (epIdx n c.pos)).stretch && c.cmd != 3 then 8 * c.struck w * pipSteps s n / 100 else 0)

/-- Whether a lane may drive a command now that needs no slot: it enumerates back to back (R131). -/
def backToBack (s : State) (n : Nat) : Bool :=
  let l := s.lane n
  l.mode == .aknun && l.lstate == .enumerating && laneClocked s n

/-- A command of class `k` in the register-access slot (R176, R177): `f` runs it where the slot is
open, after the end of the harvest and of any other frame, outside every strong window (R82), its class is
the first that waits, the line-high test holds and no activation pause cuts into it (R507); otherwise nothing
happens, or the command is deferred. A lane outside RUN enumerates without slots. -/
def inSlot (s : State) (n k : Nat) (c : CmdFrame) (x : FrameWire) (f : State → BitVec 48 → Int → State) : State :=
  let w := slotSnap s n
  s.under w.2 (fun s =>
    let l := s.lane n
    let start := s.grid.now - cmdSteps s n c x
    let clear := s.upd.pauseA.isNone && !inPause s start s.grid.now
    if k = 2 ∧ backToBack s n ∧ l.readyAt ≤ start ∧ clear then f (enterSprouts s n (some start)) w.1 w.2
    else if l.mode = .aknun ∧ cfgMode s n = .aknun ∧ l.lstate = .run ∧ laneClocked s n ∧ framePlace s w.1 ∧
        !inWindow s n start ∧ l.readyAt ≤ start ∧ l.slotUsed ≠ some w.1 ∧ slotOpen s n w.1 ∧
        w.2 + frameStart s n ≤ start ∧ slotClass s n start = k then
      let low := lowSoFar s n w.1
      if lowFits s n w.1 c ∧ clear then
        f ((enterSprouts s n (some start)).onLane n (fun l => { l with slotUsed := some w.1, lowTime := low })) w.1 w.2
      else
        s.onLane n (fun l => { l with
          slotUsed := some w.1, lowTime := low, mon := { l.mon with deferred := satAdd 65535 l.mon.deferred } })
    else s)

/-! ### Conforming endpoints on the chain (R130) -/

/-- The place of the ready endpoint that holds a position and has not abandoned the frame. -/
def placeOf (s : State) (n pos : Nat) (missed : List (Fin 16 × Bool)) : Option Nat :=
  (List.range 16).find? (fun j =>
    let e := s.endpoint (epIdx n j)
    e.ready s.grid.now && e.pos == some pos && !missedBy missed j)

/-- The endpoint at a position changed, where one is there. -/
def atPos (s : State) (n pos : Nat) (missed : List (Fin 16 × Bool)) (f : Endpoint → Endpoint) : State :=
  match placeOf s n pos missed with
  | some j => s.onEndpoint (epIdx n j) f
  | none => s

/-- The endpoint at a position changed, unless it sleeps: a sleeping endpoint ignores every frame but a
WAKE_PING (R113, R130). -/
def atAwake (s : State) (n pos : Nat) (missed : List (Fin 16 × Bool)) (f : Endpoint → Endpoint) : State :=
  atPos s n pos missed (fun e => if e.asleep then e else f e)

/-- Whether an answer came from an endpoint at all: its tempo pip was not empty (R78). -/
def answered (d : Option Decoded) : Bool :=
  match d with
  | some x => x.fin != .empty
  | none => false

/-- ENUM at the chain (R122): the endpoint that is ready and has no position takes it, and answers. -/
def takePos (s : State) (n pos : Nat) (missed : List (Fin 16 × Bool)) (d : Option Decoded) : State :=
  if !answered d then s
  else match (List.range 16).find? (fun j =>
    let e := s.endpoint (epIdx n j)
    e.ready s.grid.now && e.pos == none && !missedBy missed j) with
  | some j => s.onEndpoint (epIdx n j) (fun e => { e with pos := some pos })
  | none => s

/-- The grade's highest position (R62, R115). -/
def gradeTop (s : State) (n : Nat) : Nat := if cfgGrade s n = 0 then 7 else 15

/-! ### Enumeration -/

/-- A step of enumeration has failed (R123): the third failure stops it with ENUM_FAIL. An empty tempo pip
to IDENT or CLOSE_PASS and a frame abandoned under R79 count as failures too (log entry 95). -/
def enumFailed (s : State) (n p : Nat) : State :=
  let l := s.lane n
  if l.enumTry < 2 then s.setLane n { l with enumTry := l.enumTry + 1 }
  else
    let s := (leaveWave s n).onLane n (fun l => { l with
      enumTry := 0, enumStep := 0, enumPos := none, enumN := min l.enumN p, enumFail := true
      failPos := BitVec.ofNat 4 p, enumAt := s.grid.now
      lstate := if l.lstate = .enumerating then .run else l.lstate })
    raise s 16 n (BitVec.ofNat 32 p)

/-- The answer to ENUM at position `p` (R121, step 3); an abandoned frame is a failed attempt (log entry
95). -/
def enumAnswer (s : State) (n p : Nat) (d : Option Decoded) : State :=
  match d with
  | some x =>
    if x.fin = .empty then
      let s := s.onLane n (fun l => { l with enumN := p, chainEnd := true, repollAt := s.grid.now })
      enumDone s n
    else if x.fin = .accepted ∧ symsNat x.syms = p then
      let s := becomeSprout s (epIdx n p)
      let s := s.onEp (epIdx n p) (fun e => { e with asleep := false, k := 0, huskN := 0, husk := 0 })
      s.onLane n (fun l => { l with enumStep := 1, enumTry := 0, chainEnd := false, enumFail := false })
    else enumFailed s n p
  | none => enumFailed s n p

/-- A warm start's saved values of an endpoint, used where the ID read equals the saved one (R216); AS is
loaded with TS (DESIGN CHOICE, log entry 106). -/
def warmEp (s : State) (i : Nat) (v : BitVec 64) : State :=
  if (s.lane (i / 16)).warm then
    match savedEp s i with
    | some (ts, id, st) => if id = v then s.onEp i (fun e => { e with ts := ts, asc := ts, stretch := st, seeded := false }) else s
    | none => s
  else s

/-- The answer to IDENT in enumeration (R121, steps 4 and 5). -/
def identAnswer (s : State) (n p : Nat) (d : Option Decoded) : State :=
  match accepted d with
  | some xs =>
    let i := epIdx n p
    let v := BitVec.ofNat 64 (symsNat xs / 256)
    let s := idRead (warmEp s i v) i v
    let s := s.onLane n (fun l => { l with enumN := p + 1, enumTry := 0, enumStep := 2 })
    match topPos s n with
    | some t => if t ≤ p then enumDone s n else s
    | none => enumDone s n
  | none => enumFailed s n p

/-- The answer to CLOSE_PASS in enumeration (R121, steps 5 and 6). -/
def closeAnswer (s : State) (n p : Nat) (d : Option Decoded) : State :=
  if status d = some 0 then
    s.onLane n (fun l => { l with
      enumPos := some (p + 1), enumStep := 0, enumTry := 0, enumAt := s.grid.now, enumN := max l.enumN (p + 1) })
  else enumFailed s n p

/-! ### Completing host requests (R364) -/

/-- RSTATE for a status answer. -/
def accOf : Nat → AccState
  | 0 => .done
  | 1 => .refused
  | 2 => .busy
  | _ => .unsupported

/-- A host request's answer word, or NO_RESPONSE. -/
def accAnswer (s : State) (n : Nat) (d : Option Decoded) (w : List Nat → State → State) : State :=
  match accepted d with
  | some xs => w xs s
  | none => accComplete s n .noResponse none none

/-! ### Meanings: READ, WRITE, IDENT -/

/-- READ (R109, R364): the lane serves a host's READ in its register-access slot. -/
def execRead (dt : Nat) (n : Lane) (w : FrameWire) (s : State) : Out :=
  run dt s (fun s =>
    let a := (s.lane n).acc
    if a.op = 0 ∧ routeWrite s n = none ∧
        accLive s n (s.grid.now - cmdSteps s n (readFrame a.pos.toNat a.addr.toNat) w) then
      inSlot s n 4 (readFrame a.pos.toNat a.addr.toNat) w (fun s num at_ =>
        let s := s.onLane n (fun l => { l with acc := { l.acc with begun := true } })
        let (s, d, _) := accessFrame s n num at_ (readFrame a.pos.toNat a.addr.toNat) a.addr.toNat w
        accAnswer s n d (fun xs s => accComplete s n .done (some (BitVec.ofNat 32 (symsNat xs / 256))) none))
    else s)

/-- A WRITE applied at the endpoint that has answered DONE (R109); the registers below 0x20 are read-only
(R110). -/
def endpointWrite (s : State) (n pos addr : Nat) (v : Word) (missed : List (Fin 16 × Bool)) (d : Option Decoded) : State :=
  if status d = some 0 ∧ 0x20 ≤ addr then
    atAwake s n pos missed (fun e => { e with regs := Tbl.set (fun _ => 0) e.regs addr v })
  else s

/-- WRITE (R109, R272, R364): the lane sends a waiting route write, or serves a host's WRITE. -/
def execWrite (dt : Nat) (n : Lane) (w : FrameWire) (s : State) : Out :=
  run dt s (fun s =>
    match routeWrite s n with
    | some (p, _, a, v) =>
      inSlot s n 4 (writeFrame p a.toNat v) w (fun s num at_ =>
        let s := s.onEp (epIdx n p) (fun e => { e with rtWrite := none })
        let (s, d, _) := accessFrame s n num at_ (writeFrame p a.toNat v) a.toNat w
        endpointWrite s n p a.toNat v w.missed d)
    | none =>
      let a := (s.lane n).acc
      if a.op = 1 ∧ accLive s n (s.grid.now - cmdSteps s n (writeFrame a.pos.toNat a.addr.toNat a.data0) w) then
        inSlot s n 4 (writeFrame a.pos.toNat a.addr.toNat a.data0) w (fun s num at_ =>
          let s := s.onLane n (fun l => { l with acc := { l.acc with begun := true } })
          let (s, d, _) := accessFrame s n num at_ (writeFrame a.pos.toNat a.addr.toNat a.data0) a.addr.toNat w
          let s := endpointWrite s n a.pos.toNat a.addr.toNat a.data0 w.missed d
          accAnswer s n d (fun xs s => accComplete s n (accOf (xs.getD 0 0)) none none))
      else s)

/-- The ID that a host's IDENT reads (R205, R209): it releases an ID hold that it matches, and raises no
suspicion. -/
def hostIdent (s : State) (i : Nat) (v : BitVec 64) : State :=
  let s := s.onEp i (fun e => { e with lastId := v })
  if descId s i != 0 && v == descId s i && (s.ep i).hold == .ident then releaseHold s i else s

/-- IDENT (R116, R121, R209, R364): of an enumeration, for a JUMP hold, or for a host. -/
def execIdent (dt : Nat) (n : Lane) (w : FrameWire) (s : State) : Out :=
  run dt s (fun s =>
    let l := s.lane n
    match l.enumerating with
    | some (p, 1) =>
      inSlot s n 2 (identFrame p) w (fun s num at_ =>
        let (s, d, _) := accessFrame s n num at_ (identFrame p) 0 w
        identAnswer s n p d)
    | _ =>
      match identOwedPos s n with
      | some p =>
        inSlot s n 2 (identFrame p) w (fun s num at_ =>
          let (s, d, _) := accessFrame s n num at_ (identFrame p) 0 w
          match accepted d with
          | some xs => idRead s (epIdx n p) (BitVec.ofNat 64 (symsNat xs / 256))
          | none => s)
      | none =>
        if l.acc.op = 2 ∧ routeWrite s n = none ∧
            accLive s n (s.grid.now - cmdSteps s n (identFrame l.acc.pos.toNat) w) then
          let p := l.acc.pos.toNat
          inSlot s n 4 (identFrame p) w (fun s num at_ =>
            let s := s.onLane n (fun l => { l with acc := { l.acc with begun := true } })
            let (s, d, _) := accessFrame s n num at_ (identFrame p) 0 w
            accAnswer s n d (fun xs s =>
              let v := symsNat xs / 256
              let s := hostIdent s (epIdx n p) (BitVec.ofNat 64 v)
              accComplete s n .done (some (BitVec.ofNat 32 (v / 2 ^ 32))) (some (BitVec.ofNat 32 v))))
        else s)

/-! ### Meanings: enumeration -/

/-- A chain reset (R120): the line is low for 1.20 ms from `t` on, which every endpoint takes as a loss of
power (R119). Answers when the line is high again. -/
def chainReset (s : State) (n t : Nat) : State × Nat :=
  let s := traceReset s n (slotSnap s n).1 4
  (chainSettle (chainOff s n t) n (t + 480000), t + 480000)

/-- Whether a lane begins enumeration: in ENUMERATING, or in RUN where the device entered RUN first (R131). -/
def enumStarts (s : State) (n : Nat) : Bool :=
  let l := s.lane n
  backToBack s n || l.mode == .aknun && l.lstate == .run && l.enumOwed && laneClocked s n

/-- ENUMERATION_START (R120, R121): once the line reset has ended the lane begins at position 0, with a
chain reset unless its source has been off for at least 1 ms immediately before. -/
def execEnumerationStart (dt : Nat) (n : Lane) (s : State) : Out :=
  run dt s (fun s =>
    let l := s.lane n
    let high := l.readyAt - graded s n 16000
    if enumStarts s n ∧ l.enumPos = none ∧ l.clearAt = none ∧ high ≤ s.grid.now then
      let (s, t) := if l.rested then (s, high) else chainReset s n s.grid.now
      let s := s.setLane n { s.lane n with
        enumPos := some 0, enumStep := 0, enumTry := 0, enumN := 0, enumFail := false, chainEnd := false
        rested := false, enumOwed := false, enumAt := t, readyAt := max l.readyAt t }
      if (topPos s n).isNone then enumDone s n else s
    else s)

/-- ENUM (R121 step 3, R122): the lane assigns a position and expects its echo. -/
def execEnum (dt : Nat) (n : Lane) (w : FrameWire) (s : State) : Out :=
  run dt s (fun s =>
    let s := startGrowth s n
    match (s.lane n).enumerating with
    | some (p, 0) =>
      let c := enumFrame p
      if enumWaited (s.lane n) (s.grid.now - cmdSteps s n c w) ∧ withinTop s n p then
        inSlot s n 2 c w (fun s num at_ =>
          let (s, d, _) := accessFrame s n num at_ c 0 w
          enumAnswer (takePos s n p w.missed d) n p d)
      else s
    | _ => s)

/-- CLOSE_PASS (R115, R121 step 5, R124): a cold lane waits for its wave before it powers a second
endpoint (R457). An endpoint that answers DONE closes its pass switch at the end of the frame. -/
def execClosePass (dt : Nat) (n : Lane) (w : FrameWire) (s : State) : Out :=
  run dt s (fun s =>
    let s := startGrowth s n
    match (s.lane n).enumerating with
    | some (p, 2) =>
      if (s.lane n).coldWait ∨ !withinTop s n (p + 1) then s
      else inSlot s n 2 (closeFrame p) w (fun s num at_ =>
        let (s, d, _) := accessFrame s n num at_ (closeFrame p) 0 w
        let s := if p = gradeTop s n ∨ status d ≠ some 0 then s
          else chainSettle (atAwake s n p w.missed (fun e => { e with pass := true })) n s.grid.now
        closeAnswer s n p d)
    | _ => s)

/-- An OPEN_PASS at the endpoint, which has answered DONE (R115): its pass switch opens, and the endpoints
above it lose their power (R119). -/
def openPass (s : State) (n p : Nat) (missed : List (Fin 16 × Bool)) : State :=
  chainSettle (atAwake s n p missed (fun e => { e with pass := false })) n s.grid.now

/-- Positions above `p` are absent after an OPEN_PASS sent to `p` (R124, R187). -/
def openedAt (s : State) (n p : Nat) : State :=
  s.onLane n (fun l => { l with
    enumN := min l.enumN (p + 1), opened := some (p, s.grid.now), openOwed := none, chainEnd := false
    enumFail := l.enumFail && decide (l.failPos.toNat ≤ p)
    failPos := if l.failPos.toNat ≤ p then l.failPos else 0
    enumPos := none, enumStep := 0, enumTry := 0 })

/-- OPEN_PASS (R115, R124, R187): sent to the new highest position after a commit has lowered it, or in
the entry steps of SENTINEL (R444). -/
def execOpenPass (dt : Nat) (n : Lane) (p : Pos) (w : FrameWire) (s : State) : Out :=
  run dt s (fun s =>
    if openDue (s.seenAt (slotSnap s n).2) n = some p.val then
      inSlot s n 0 (openFrame p) w (fun s num at_ =>
        let (s, d, sent) := accessFrame s n num at_ (openFrame p) 0 w
        let s := if status d = some 0 then openPass s n p w.missed else s
        if sent then openedAt s n p else s)
    else s)

/-- ENUM_RETRY (R123): 256 ms after ENUM_FAIL, enumeration resumes at the failed position, where the lane
still has a descriptor at or above it (R118) and 1 ms has passed since an OPEN_PASS (R124). -/
def execEnumRetry (dt : Nat) (n : Lane) (s : State) : Out :=
  run dt s (fun s =>
    let l := s.lane n
    if l.lstate = .run ∧ l.enumFail ∧ l.enumPos = none ∧ withinTop s n l.failPos.toNat ∧ !openWaits s n ∧
        l.enumAt + 102400000 ≤ s.grid.now then
      s.setLane n { l with enumPos := some l.failPos.toNat, enumStep := 0, enumTry := 0, enumFail := false }
    else s)

/-- ENUM_REPOLL (R458): 64 ms after ENUM found the end of the chain below the highest descriptor, the
lane enumerates that position again. -/
def execEnumRepoll (n : Lane) (s : State) : Out :=
  .next (
    let l := s.lane n
    if l.lstate = .run ∧ l.chainEnd ∧ l.enumPos = none ∧ withinTop s n l.enumN ∧ !openWaits s n ∧
        l.repollAt + 25600000 ≤ s.grid.now then
      s.setLane n { l with enumPos := some l.enumN, enumStep := 0, enumTry := 0, enumAt := s.grid.now - 128000
                           repollAt := s.grid.now }
    else s)

/-- LANE_MODE_START (R135): 2 ms after a mode change released the lane, it starts its new mode at a grid
tick; a lane whose region's stage is still to power it waits for its lane step (R446). -/
def execLaneModeStart (n : Lane) (s : State) : Out :=
  .next (
    let l := s.lane n
    let r := s.region (laneRegion n)
    let stage := r.stageReq && (r.stageAt.isNone || decide (r.stageStep ≤ n.val % 64 / 2))
    match l.modeAt with
    | none => s
    | some t =>
      if s.grid.now = s.grid.tickAt ∧ t ≤ s.grid.now then
        let s := s.setLane n { l with modeAt := none }
        if stage then s else tryPower s n
      else s)

/-! ### Meanings: strong pull-up commands, SLEEP and WAKE_PING -/

/-- The end of a strong window's command: E is the frame's end, and the window lasts (code + 1) ms
(R82, R112). -/
def openWindow (s : State) (n : Nat) (q : SpuState) : State :=
  let e := s.grid.now
  let wEnd := e + 400000 * (q.code.toNat + 1)
  s.onLane n (fun l => { l with
    spu := some { q with window := some (e, wEnd) }, spuSpan := some (e, wEnd + 8000) })

/-- A request for a strong window (R85, R86), or SPU_DENIED where the lane has no permission (R88). A
waiting CONVERT in a region below its warning threshold makes its endpoints' answers STALE (R432). -/
def requestSpu (s : State) (n : Nat) (nv : Bool) (p : Pos) (all : Bool) (code : BitVec 6) : State :=
  let l := s.lane n
  if !spuOk s n then raise s 18 n 0
  else if l.mode ≠ .aknun ∨ l.lstate ≠ .run then s
  else s.setLane n { l with
    spu := some { reqTick := s.grid.tick, nv := nv, pos := p, all := all, code := code, admitted := none
                  window := none }
    spuStale := (s.region (laneRegion n)).warn && !nv }

/-- The endpoints that a CONVERT or COMMIT_NV addresses have their conversion or commit in progress, within
the permitted phase of the window (R82, R112); a commit takes the written maker registers into non-volatile
storage (log entry 119). One that does not implement the command ignores it. -/
def spuBusy (s : State) (n : Nat) (q : SpuState) (missed : List (Fin 16 × Bool)) : State :=
  let until_ := s.grid.now + 400000 * (q.code.toNat + 1) - 40000
  let s := (List.range 16).foldl (fun s j => s.onEndpoint (epIdx n j) (fun e =>
    if e.ready s.grid.now && !e.asleep && e.pos.isSome && (q.all || e.pos == some q.pos.val) && !missedBy missed j &&
        bit e.caps (if q.nv then 28 else 27) then
      { e with busyTo := min until_ (s.grid.now + Config.endpointTime s.fresh (epIdx n j))
               nvRegs := if q.nv then e.regs else e.nvRegs }
    else e)) s
  s.draw.2

/-- CONVERT or COMMIT_NV: a lane without a request makes it; an admitted lane sends the command, and the
window opens at its end (R82, R86, R112). None is sent before RUN (R459). -/
def spuCommand (s : State) (n : Nat) (nv : Bool) (p : Pos) (all : Bool) (code : BitVec 6) (w : FrameWire) : State :=
  if s.mode.dev = .boot ∨ s.mode.dev = .sow then s else
  match (s.lane n).spu with
  | none => requestSpu s n nv p all code
  | some q =>
    if q.admitted.isSome ∧ q.window = none ∧ q.nv = nv ∧ q.pos = p ∧ q.all = all ∧ q.code = code then
      let c := controlFrame (if nv then 6 else 5) (if all then 15 else p.val) (b2n all * 128 + code.toNat) 0
      inSlot s n 1 c w (fun s num at_ =>
        let (s, _, sent) := accessFrame s n num at_ c 0 w
        if sent then spuBusy (openWindow s n q) n q w.missed else s)
    else s

/-- CONVERT (R88, R112). -/
def execConvert (dt : Nat) (n : Lane) (p : Pos) (all : Bool) (code : BitVec 6) (w : FrameWire) (s : State) : Out :=
  run dt s (fun s => spuCommand s n false p all code w)

/-- COMMIT_NV (R88, R112). -/
def execCommitNv (dt : Nat) (n : Lane) (p : Pos) (all : Bool) (code : BitVec 6) (w : FrameWire) (s : State) : Out :=
  run dt s (fun s => spuCommand s n true p all code w)

/-- The enumerated positions that a SLEEP addresses. -/
def sleepPositions (s : State) (n p : Nat) (all : Bool) : List Nat :=
  if all then List.range (s.lane n).enumN else if p < (s.lane n).enumN then [p] else []

/-- Every positioned endpoint that a SLEEP addresses enters sleep, whether the lane has enumerated it or not
(R103, R113). -/
def sleepChain (s : State) (n p : Nat) (all : Bool) (missed : List (Fin 16 × Bool)) : State :=
  (List.range 16).foldl (fun s j => s.onEndpoint (epIdx n j) (fun e =>
    if e.ready s.grid.now && e.pos.isSome && (all || e.pos == some p) && !missedBy missed j then
      { e with asleep := true }
    else e)) s

/-- SLEEP (R113): the addressed endpoints enter sleep, and the lane strikes them no more. -/
def execSleep (dt : Nat) (n : Lane) (p : Pos) (all : Bool) (w : FrameWire) (s : State) : Out :=
  run dt s (fun s =>
    let c := controlFrame 7 (if all then 15 else p.val) (b2n all * 128) 0
    inSlot s n 5 c w (fun s num at_ =>
      let (s, _, sent) := accessFrame s n num at_ c 0 w
      if sent then
        (sleepPositions (sleepChain s n p all w.missed) n p all).foldl (fun s p =>
          s.onEp (epIdx n p) (fun e => { e with asleep := true, huskN := 0, husk := 0 }))
          (sleepChain s n p all w.missed)
      else s))

/-- A WAKE_PING's answer (R114): with WAKE the endpoint leaves sleep and becomes a sprout (R203). In SENTINEL
a pending wake request is a wake condition (R273). -/
def wakeAnswer (s : State) (n p : Nat) (wake : Bool) (missed : List (Fin 16 × Bool)) (d : Option Decoded) : State :=
  let i := epIdx n p
  match status d with
  | some x =>
    let s := s.onEp i (fun e => { e with wakeReq := x == 1 && !wake, wakeOwed := e.wakeOwed && !wake })
    let s := if wake then
        let s := becomeSprout (s.onEp i (fun e => { e with asleep := false, k := 0 })) i
        atPos s n p missed (fun e => { e with asleep := false, wake := false })
      else s
    if x = 1 ∧ s.mode.dev = .sentinel then wakeCond s else s
  | none => s

/-- WAKE_PING (R114, R445): one that the exit from SENTINEL owes the position carries WAKE = 1. -/
def execWakePing (dt : Nat) (n : Lane) (p : Pos) (wake : Bool) (w : FrameWire) (s : State) : Out :=
  run dt s (fun s =>
    let c := controlFrame 8 p (b2n wake) 2
    if p.val < (s.lane n).enumN ∧ ((s.ep (epIdx n p)).wakeOwed → wake = true) then
      inSlot s n 5 c w (fun s num at_ =>
        let (s, d, _) := accessFrame s n num at_ c 0 w
        wakeAnswer s n p wake w.missed d)
    else s)

/-! ### Meanings: ATTEST (R117, R405) -/

/-- The pairing key of an endpoint with ID `v` under root `root` (R404). -/
def pairingKey (root : Bytes) (v : BitVec 64) : Bytes := cmac2 root (0x50 :: beBytes 8 v.toNat)

/-- The tag that an ATTEST of challenge `c` is to leave (R117). -/
def attestTag (root : Bytes) (v c : BitVec 64) : BitVec 64 :=
  BitVec.ofNat 64 (beNat ((cmac (pairingKey root v) (beBytes 8 v.toNat ++ beBytes 8 c.toNat)).take 8))

/-- An attestation has its outcome (R405): equal, differ or no root, with the trace's happening. A tag
that differs, or UNSUPPORTED, sets hold ID and raises SWAP_SUSPECT with DATA 2. -/
def attestOutcome (s : State) (n p : Nat) (code : Nat) : State :=
  let i := epIdx n p
  let s := happenNow s n 0x0C p [BitVec.ofNat 8 code]
  if code = 1 then s.onEp i (fun e => { e with attested := true, attDone := true, chal := none })
  else if code = 2 then
    let s := s.onEp i (fun e => { e with hold := .ident, attDone := true, chal := none })
    raise s 20 (handle s i) 2
  else s

/-- The tag that the endpoint at a place computes under the pairing key that its maker gave it (R117). -/
def endpointTag (i : Nat) (c : BitVec 64) : BitVec 64 :=
  BitVec.ofNat 64 (beNat ((cmac (beBytes 32 (Config.makerKey i).toNat)
    (beBytes 8 (Config.makerId i).toNat ++ beBytes 8 c.toNat)).take 8))

/-- An endpoint that answers DONE to an ATTEST of challenge `c` (R117): ATT_READY is clear, and its tag stands in
ATT_TAG within 4 ms. -/
def attestBegun (s : State) (n p : Nat) (c : BitVec 64) (missed : List (Fin 16 × Bool)) : State :=
  let s' := match placeOf s n p missed with
    | some j =>
      let t := s.grid.now + min 1600000 (Config.endpointTime s.fresh (epIdx n j))
      atAwake s n p missed (fun e => { e with
        attReady := false, attTag := (e.attest s.grid.now).2, busyTo := t, attNew := some (t, endpointTag (epIdx n j) c) })
    | none => s
  s'.draw.2

/-- ATTEST (R117, R405): the device draws a challenge and the lane sends it; without a root for the
maker code no ATTEST is sent. -/
def execAttest (dt : Nat) (n : Lane) (p : Pos) (w : FrameWire) (s : State) : Out :=
  run dt s (fun s =>
    let i := epIdx n p
    if attestOwed s i ∧ (s.ep i).chal = none then
      match pairingRoot s ((descId s i).toNat / 2 ^ 48) with
      | none => attestOutcome s n p 3
      | some _ =>
        let (k, s) := s.draw
        let c : BitVec 64 := (Config.random k).setWidth 64
        if attestPos s n (s.grid.now - cmdSteps s n (attestFrame p c) w) = some p.val then
          inSlot s n 3 (attestFrame p c) w (fun s num at_ =>
            let s := happen s n num 0x0B p (beBytes 8 c.toNat)
            let (s, d, _) := accessFrame s n num at_ (attestFrame p c) 0 w
            match status d with
            | some 0 =>
              (attestBegun s n p c w.missed).onEp i (fun e => { e with chal := some (c, s.grid.now), tagHi := none })
            | some 3 => attestOutcome s n p 2
            | _ => s)
        else s
    else s)

/-- A READ of an attestation tag register that its endpoint has answered. -/
def tagRead (s : State) (n p : Nat) (num : BitVec 48) (at_ : Int) (addr : Nat) (w : FrameWire) : State × Option Word :=
  let (s, d, _) := accessFrame s n num at_ (readFrame p addr) addr w
  match accepted d with
  | some x => (s, some (BitVec.ofNat 32 (symsNat x / 256)))
  | none => (s, none)

/-- ATTEST_TAG_CHECK (R117, R405): no earlier than 4 ms after the ATTEST, the lane reads ATT_TAG_HI in the
slot of one period (`hi`) and ATT_TAG_LO in that of a later one (`lo`), and the slow engine compares the
tag (log entry 98). -/
def execAttestTagCheck (dt : Nat) (n : Lane) (p : Pos) (hi lo : FrameWire) (s : State) : Out :=
  run dt s (fun s =>
    let i := epIdx n p
    match (s.ep i).chal with
    | none => s
    | some (c, t) =>
      let start := s.grid.now - cmdSteps s n (readFrame p 8) (if (s.ep i).tagHi.isSome then lo else hi)
      if t + 1600000 ≤ start ∧ attestOwed s i ∧ attestPos s n start = some p.val then
        match (s.ep i).tagHi with
        | none =>
          inSlot s n 3 (readFrame p 8) hi (fun s num at_ =>
            let (s, x) := tagRead s n p num at_ 8 hi
            s.onEp i (fun e => { e with tagHi := x }))
        | some x =>
          inSlot s n 3 (readFrame p 9) lo (fun s num at_ =>
            match tagRead s n p num at_ 9 lo with
            | (s, none) => s
            | (s, some y) =>
              let tag : BitVec 64 := x ++ y
              match pairingRoot s ((descId s i).toNat / 2 ^ 48) with
              | some k =>
                attestOutcome s n p (if tag = attestTag (s.slot (16 + k)).key (descId s i) c then 1 else 2)
              | none => attestOutcome s n p 3)
      else s)

end Sys2Proof.Machine
end

