-- ==== Sys2Proof/Machine/Sensor.lean ====
section
/-!
DEFINITION. The standard sensor buses (R133 to R164): SENT frames, triggers and serial messages, PSI5
sync pulses and slots, LIN frame slots with their published words, the diagnostic pair and sleep, and
their loops and records (R200 to R202, R204, R207).
-/

namespace Sys2Proof.Machine

/-! ### What the three buses share -/

/-- Whether a lane of a mode runs its traffic now: a lane that is to leave its mode completes the frames of
earlier snapshots, under whose configuration its MODE is still the one it runs (R28, R135). -/
def busRuns (s : State) (n : Nat) (m : LaneMode) : Bool :=
  let l := s.lane n
  l.mode == m && cfgMode s n == m && l.lstate == .run && laneClocked s n && s.grid.on

/-- The phases of a sync pulse (R151). -/
inductive SyncPhase where
  | rise | plateau | fall | base
  deriving DecidableEq, Repr

/-- What a standard bus lane drives at its pin (R133, R135, R141, R142, R150, R151): nothing; the normal
source as pull-up; the low driver; a supply output towards a voltage in 0.1 V, with its phase; or the LIN
transceiver with its termination, on the slope of R522. -/
inductive BusDrive where
  | released
  | pullUp
  | low
  | supply (tenths : Nat) (phase : SyncPhase)
  | lin (fast : Bool)
  deriving DecidableEq, Repr

/-- The base output V_B and the sync step V_S of a PSI5 lane in 0.1 V, and SYNC_LEN in steps (R150,
R355). -/
def psi5Base (s : State) (n : Nat) : Nat := 50 + min 40 (fld (psi5Cfg s n) 29 24)
def psi5Step (s : State) (n : Nat) : Nat := 10 + min 30 (fld (psi5Cfg s n) 23 19)
def syncLen (s : State) (n : Nat) : Nat := 400 * ranged 10 40 (fld (psi5Cfg s n) 18 13)

/-- How long a sync pulse rises or falls, V_S / slew, in steps: the slew is 0.5 to 2.0 V/us and is otherwise
open (R150, R151, log entry 99). -/
def syncSlew (s : State) (n : Nat) : Nat :=
  let v := psi5Step s n
  max (20 * v) (min (80 * v) (Config.syncSlew n))

/-- The phase of a PSI5 lane's sync pulse at a time (R151). -/
def syncPhase (s : State) (n : Nat) (t : Int) : SyncPhase :=
  match (s.lane n).trig with
  | some x =>
    let d := t - x.at_
    if d < 0 then .base
    else if d < syncSlew s n then .rise
    else if d < syncLen s n then .plateau
    else if d < syncLen s n + syncSlew s n then .fall
    else .base
  | none => .base

/-- What a lane in SENT, PSI5 or LIN mode drives at its pin now. -/
def busDrive (s : State) (n : Nat) : BusDrive :=
  let l := s.lane n
  if l.lstate ≠ .run ∨ !laneClocked s n then .released
  else match l.mode with
    | .sent => if trigLow s n then .low else if sentSpc s n || bit (sentA s n) 12 then .pullUp else .released
    | .psi5 =>
      let ph := if psi5Sync s n then syncPhase s n s.grid.now else .base
      .supply (psi5Base s n + if ph = .rise ∨ ph = .plateau then psi5Step s n else 0) ph
    | .lin => .lin l.fastSlope
    | _ => .released

/-- A frame counts in the lane's monitors, and as discarded where it is not accepted (R371). -/
def frameCount (s : State) (n : Nat) (ok : Bool) : State :=
  s.onLane n (fun l => { l with
    mon := { l.mon with frames := satAdd 4294967295 l.mon.frames
                        discarded := satAdd 4294967295 l.mon.discarded (b2n (!ok)) } })

/-- An accepted frame of an endpoint, or one that is not (R139, R204): `clean` says whether it counts
towards leaving the sprout state. -/
def cleanStep (s : State) (i : Nat) (ok clean : Bool) : State :=
  s.onEp i (fun e => { e with
    clean := if clean then min 15 (e.clean + 1) else 0
    accepted := if ok then (e.accepted + 1) % 16 else e.accepted })

/-- The record entry of an accepted frame (R221). -/
def busEntry (s : State) (n p : Nat) (num : BitVec 48) (raw : Word) (inst : Int) (husk sprout stepped : Bool) :
    Entry :=
  let i := epIdx n p
  let v := recordValue s i raw
  { pos := p, value := v, inst := inst, hasValue := true, husk := husk, calStep := stepped
    prov := if epDue s i num then trustState s i sprout v else .stale }

/-- The trace's EDGES block of a frame in symbol mode, and its transitions in raw-edge mode (R472,
R489). -/
def traceEdges (s : State) (n : Nat) (num : BitVec 48) (at_ : Int) (edges : List Int) (all : List Int) (a b : Int) :
    State :=
  let s := keepRaw s n at_ all (a, b)
  if recorded s n && s.hoard.hmodeNow == 0 then
    hoardBlock s 0x31 n (edgesBody num (edges.map (stamp25 (s.lane n).cal.og)) a b)
  else s

/-- A frame boundary's common end (R189, R211): a waiting LOAD, a STEP_N boundary, the bit-4 marks of
a lane step, and sprout exits. -/
def busBoundary (s : State) (n : Nat) (before : LaneCal) (step : Bool) : State :=
  let s := applyLoad s n before
  let step := step || (s.lane n).cal.stepped
  let s := s.onLane n (fun l => { l with cal := { l.cal with stepped := false, steps := l.cal.steps - 1 } })
  let s := if step then stepLane s n else s
  let s := (lanePositions s n).foldl (fun s p => sproutExit s (epIdx n p)) s
  enterSprouts s n none

/-- A stuck standard lane is so no longer at an accepted frame (R148). -/
def unstick (s : State) (n : Nat) : State :=
  let l := s.lane n
  if l.stuck then happenLine (s.setLane n { l with stuck := false }) n 1 0 else s

/-! ### SENT (R143 to R146) -/

/-- Falling and rising transitions in time order. -/
def mergeEdges : Nat → List Int → List Int → List (Int × Bool)
  | 0, _, _ => []
  | _, [], rs => rs.map (fun r => (r, false))
  | _, fs, [] => fs.map (fun f => (f, true))
  | k + 1, f :: fs, r :: rs =>
    if f ≤ r then (f, true) :: mergeEdges k fs (r :: rs) else (r, false) :: mergeEdges k (f :: fs) rs

/-- The transitions left once every low or high shorter than the glitch limit is ignored (R141). -/
def unglitch (g : Int) (xs : List (Int × Bool)) : List (Int × Bool) :=
  (xs.foldl (fun (acc : List (Int × Bool)) x =>
    match acc with
    | y :: ys => if x.1 - y.1 < g then ys else x :: acc
    | [] => [x]) []).reverse

/-- SENT_GLITCH in fine units of 0.3125 ns: (code + 1) × 0.25 us. -/
def sentGlitch (s : State) (n : Nat) : Int := 800 * (fld (sentA s n) 8 6 + 1)

/-- The transitions of a frame in time order. -/
def sentMerged (w : SentWire) : List (Int × Bool) := mergeEdges (w.edges.length + w.rises.length + 1) w.edges w.rises

/-- The transitions of a frame that are not glitches, as fine stamps (R141). -/
def sentClean (s : State) (n : Nat) (w : SentWire) : List (Int × Bool) := unglitch (sentGlitch s n) (sentMerged w)

/-- The falling edges of a frame that are not glitches, as fine stamps (R141, R143). -/
def sentEdges (s : State) (n : Nat) (w : SentWire) : List Int :=
  ((sentClean s n w).filter (fun x => x.2)).map Prod.fst

/-- The falling edges of a frame in steps, with o_g taken off (R143, R199). -/
def sentFalls (s : State) (n : Nat) (w : SentWire) : List Int :=
  (sentEdges s n w).map (stamp25 (s.lane n).cal.og)

/-- The differences of neighbours. -/
def gaps : List Int → List Int
  | a :: b :: r => (b - a) :: gaps (b :: r)
  | _ => []

/-- Whether a calibration pulse is accepted (R143, step 1). -/
def calPulseOk (s : State) (n : Nat) (lcal : Int) : Bool :=
  let nom : Int := 56 * 40 * sentTick s n
  let tol : Int := sentTol s n
  let prev := (s.lane n).cal.lcal
  decide (nom * (100 - tol) ≤ 100 * lcal ∧ 100 * lcal ≤ nom * (100 + tol)) &&
    (!bit (sentA s n) 11 || prev == 0 || decide (64 * (lcal - prev).natAbs ≤ prev))

/-- A nibble interval's tick count, where it is accepted (R143, step 2). -/
def nibbleOf (lcal i : Int) : Option Nat :=
  let x := rnd (56 * i) lcal
  if 10 * (56 * i - x * lcal).natAbs ≤ 4 * lcal ∧ 12 ≤ x ∧ x ≤ 27 then some (x - 12).toNat else none

/-- Nibbles of a list of intervals, up to the first that is not accepted. -/
def nibblesOf (lcal : Int) : List Int → List Nat
  | [] => []
  | i :: r => match nibbleOf lcal i with
    | some x => x :: nibblesOf lcal r
    | none => []

/-- Whether a frame's pause meets the lane's PAUSE field (R143, step 3): `xs` are the intervals after
the CRC nibble's, `whole` the frame with them. -/
def pauseOk (s : State) (n : Nat) (lcal whole : Int) (xs : List Int) : Bool :=
  let mode := if sentSpc s n then 0 else fld (sentA s n) 14 13
  if mode ≠ 1 ∧ mode ≠ 2 then true
  else match xs with
    | i :: _ =>
      let ticks : Int := ranged 100 1000 (fld (sentB s n) 31 22)
      decide (12 * lcal ≤ 56 * i ∧ 56 * i ≤ 768 * lcal) &&
        (mode != 2 || decide ((ticks - 1) * lcal ≤ 56 * whole ∧ 56 * whole ≤ (ticks + 1) * lcal))
    | [] => false

/-- A SENT frame decoded (R143, R144): status nibble first, then the data nibbles and the CRC. -/
def sentDecode (s : State) (n : Nat) (lcal : Int) (ivs : List Int) : Option (List Nat) :=
  let k := sentNibbles s n + 2
  let ns := nibblesOf lcal (ivs.take k)
  let whole := (lcal :: ivs.take (k + 1)).sum
  if ns.length = k ∧ pauseOk s n lcal whole (ivs.drop k) ∧
      sentCrc (bit (sentA s n) 15) ((ns.drop 1).take (k - 2)) = ns.getD (k - 1) 16 then some ns
  else none

/-- The raw word of a SENT frame (R136). -/
def sentRaw (ns : List Nat) (nibbles count : Nat) : Word :=
  let data := (ns.drop 1).take nibbles
  let left := data.foldl (fun a x => a * 16 + x) 0 * 16 ^ (6 - nibbles)
  pack [(8, 24, left), (4, 4, ns.headD 0), (0, 4, count)]

/-- A serial message of the assembled status bits (R146, log entry 32): bits 3 and 2 by frame, oldest
first. -/
def serialDone (mode : Nat) (bs : List (Bool × Bool)) : Option Word :=
  let b3 := bs.map Prod.fst
  let b2 := bs.map Prod.snd
  if mode = 1 then
    if bs.length = 16 ∧ b3 = true :: List.replicate 15 false then
      let v := bitsNat b2
      if sentCrc true [v / 4096, v / 256 % 16, v / 16 % 16] = v % 16 then
        some (pack [(24, 8, v / 4096), (8, 16, v / 16 % 256), (4, 4, 1)])
      else none
    else none
  else if bs.length = 18 ∧ b3.take 7 = [true, true, true, true, true, true, false] ∧ b3.getD 12 true = false ∧
      b3.getD 17 true = false then
    let body := (bs.drop 6).flatMap (fun x => [x.2, x.1])
    if serialCrc 6 0x19 0x15 body = bitsNat (b2.take 6) then
      let hi := bitsNat ((b3.drop 8).take 4)
      let lo := bitsNat ((b3.drop 13).take 4)
      let data := bitsNat (b2.drop 6)
      if b3.getD 7 false then some (pack [(24, 8, hi), (8, 16, lo * 4096 + data), (4, 4, 3)])
      else some (pack [(24, 8, hi * 16 + lo), (8, 16, data), (4, 4, 2)])
    else none
  else none

/-- One accepted frame's status bits (R146): answers whether a message was stored. -/
def serialStep (s : State) (n : Nat) (st : Nat) : State × Bool :=
  let mode := fld (sentA s n) 10 9
  if mode ≠ 1 ∧ mode ≠ 2 then (s, false)
  else
    let i := epIdx n 0
    let len := if mode = 1 then 16 else 18
    let bs := (s.ep i).serial ++ [(st / 8 % 2 == 1, st / 4 % 2 == 1)]
    let bs := bs.drop (bs.length - len)
    match serialDone mode bs with
    | some m =>
      let s := s.onEp i (fun e => { e with serial := [] })
      (storeMessage s i (m + BitVec.ofNat 32 (((s.ep i).msgCount + 1) % 16)), true)
    | none => (s.onEp i (fun e => { e with serial := bs }), false)

/-- The calibration pulse's part in the loops (R200, R207): the jump test, then the filter. -/
def sentPulse (s : State) (n : Nat) (lcal : Int) : State × Bool :=
  let c := (s.lane n).cal
  let jump := c.tcSeeded && isJump (16 * lcal) c.tc16
  let s := if jump then swapSuspect s (epIdx n 0) .jump else s
  (s.onLane n (fun l => { l with cal := { sentFilter (laneMay s n 19).1 l.cal lcal with lcal := lcal } }), jump)

/-- A SENT lane's frame boundary (R189, R192, R200). -/
def sentEnd (s : State) (n : Nat) (before : LaneCal) (hi lo : Nat) : State :=
  let l := s.lane n
  let c := latchOg s n l.cal
  let c := thrBoundary (laneMay s n 16) l.swing c hi (some lo) lo
  let c := sentBoundary (laneMay s n 19).2 c
  let s := s.setLane n { l with cal := c }
  let s := levelSample (lineCounts s n) n hi lo
  busBoundary s n before (c.d != before.d || c.og != before.og || c.at16 != before.at16)

/-- The snapshot of a SENT frame (R137): that of its trigger, or of its completing edge. -/
def sentSnap (s : State) (n : Nat) : BitVec 48 × Int :=
  match (s.lane n).trig with
  | some t =>
    let u := s.seenAt t.inst
    let over_ := !sentSpc s n && decide (t.at_ + sentO u n / 250 < s.grid.now)
    if t.done || !sentSpc u n || over_ then freeSnap s s.grid.now else (t.num, t.inst)
  | none => freeSnap s s.grid.now

/-- The deviations of the accepted nibbles of a frame, whatever its later nibbles, its pause or its CRC show
(R143, R383). -/
def nibbleDevs (s : State) (n : Nat) (lcal : Int) (ivs : List Int) : State :=
  (ivs.takeWhile (fun x => (nibbleOf lcal x).isSome)).foldl (fun s x =>
    devSample s n (rnd (56 * x - rnd (56 * x) lcal * lcal) 56)) s

/-- What a received SENT frame does before its boundary: decoded or discarded, with its loops, its monitors and
its entry. The stamps of `w` are relative to the grid instant at `at_`. -/
def sentTake (s : State) (n : Nat) (num : BitVec 48) (at_ : Int) (w : SentWire) : State × List Entry :=
  let i := epIdx n 0
  let falls := sentFalls s n w
  let ivs := gaps falls
  let lcal := ivs.headD 0
  let good := calPulseOk s n lcal
  let frame := if good then sentDecode s n lcal ivs.tail else none
  let ok := frame.isSome
  let e := s.ep i
  let s := if good then nibbleDevs s n lcal (ivs.tail.take (sentNibbles s n + 2)) else s
  let (s, jump) := if good then sentPulse s n lcal else (s, false)
  let s := frameCount s n ok
  let s := s.onLane n (fun l => { l with
    lastEdge := s.grid.now, silent := false, gapUntilFrame := false
    trig := match l.trig with
      | some t => some { t with done := true }
      | none => none })
  let s := cleanStep s i ok (ok && !jump)
  let inst := at_ + falls.headD 0 + (if sentSpc s n then descLatency s i else - descLatency s i)
  match frame with
  | some ns =>
    let (s, stored) := serialStep (unstick s n) n (ns.headD 0)
    let s := s.onEp i (fun e => { e with stepped := false })
    (s, [busEntry s n 0 num (sentRaw ns (sentNibbles s n) (s.ep i).accepted) inst stored (e.sprout || jump) e.stepped])
  | none => (s.onEp i (fun e => { e with serial := [] }), [])

/-- A received SENT frame of a snapshot, with its trace and its packet, to its frame boundary. -/
def sentReceive (s : State) (n : Nat) (num : BitVec 48) (at_ : Int) (w : SentWire) : State :=
  let s := frameBoundary (enterSprouts s n (some (at_ + w.edges.headD 0 / 8))) n num
  let before := (s.lane n).cal
  let edges := (sentClean s n w).map Prod.fst
  let base := (sentFalls s n w).headD 0
  let (s, entries) := sentTake s n num at_ w
  let s := traceEdges s n num at_ edges ((sentMerged w).map Prod.fst) w.hi w.low
  let s := if sentSpc s n || !entries.isEmpty then handOver s n num at_ true base entries else s
  leaveNow (sentEnd s n before w.hi w.low) n

/-! ### PSI5 (R150 to R156, R201, R202) -/

/-- Whether the bits of a frame pass its slot's check (R149, R153). -/
def psi5Check (s : State) (n k : Nat) (bits : List Bool) : Bool :=
  let m := ranged 10 28 (slotBits s n k)
  if slotCrc s n k then
    bits.length == m + 3 && crc3 (bits.take m) == bitsNat (bits.drop m)
  else bits.length == m + 1 && (bits.filter id).length % 2 == 0

/-- The length of a PSI5 frame in steps: its two start bits and the bits after them. -/
def psi5Len (w : Psi5Wire) : Int := (2 + w.bits.length : Nat) * (w.bitTime : Int) / 16

/-- The enabled slots after slot `k` whose windows a frame runs into (R153). -/
def overlapped (s : State) (n k : Nat) (w : Psi5Wire) : List Nat :=
  (List.range 4).filter (fun j => slotEn s n j && decide (slotStart s n k < slotStart s n j) &&
    decide (200 * (slotStart s n j : Int) - 1600 < w.edge + psi5Len w))

/-- Whether a slot's frame is discarded with an earlier one that overlapped its window (R153). -/
def dropped (s : State) (n k : Nat) : Bool :=
  match (s.lane n).trig with
  | some t => t.drop.contains k
  | none => false

/-- Whether a lane accepts a frame in slot `k` (R153, R154). -/
def psi5Ok (s : State) (n k : Nat) (w : Psi5Wire) : Bool :=
  let nom : Int := if psi5Fast s n then 33862 else 51200
  let start : Int := 200 * slotStart s n k
  (!psi5Sync s n || decide (start - 1600 ≤ w.edge ∧ w.edge ≤ start + 4800) && (overlapped s n k w).isEmpty &&
      !dropped s n k) &&
    decide (92 * nom ≤ 100 * (w.bitTime : Int) ∧ 100 * (w.bitTime : Int) ≤ 108 * nom) && w.codingOk &&
    psi5Check s n k w.bits

/-- The raw word of a PSI5 frame (R136): data bits arrive least significant first. -/
def psi5Raw (bits : List Bool) (m count : Nat) : Word :=
  pack [(4, 28, bitsNat (bits.take m).reverse * 2 ^ (28 - m)), (0, 4, count)]

/-- The base stamp of a PSI5 frame's packet: its sync start, or its first start-bit edge (R35, R221). -/
def psi5BaseStamp (s : State) (n : Nat) (at_ : Int) (w : Psi5Wire) : Int :=
  match (s.lane n).trig with
  | some t => if psi5Sync s n then t.at_ - at_ else stamp25 (s.lane n).cal.og w.stamp
  | none => stamp25 (s.lane n).cal.og w.stamp

/-- The snapshot of a PSI5 frame (R137): that of its sync pulse, or of its completing edge. -/
def psi5Snap (s : State) (n : Nat) : BitVec 48 × Int :=
  match (s.lane n).trig with
  | some t => if psi5Sync (s.seenAt t.inst) n then (t.num, t.inst) else freeSnap s s.grid.now
  | none => freeSnap s s.grid.now

/-- The last slot of a synchronous lane, at whose frame a sync cycle ends (R152, R220). -/
def lastSlot (s : State) (n : Nat) : Nat :=
  (List.range 4).foldl (fun a k =>
    if slotEn s n k && (!slotEn s n a || decide (slotStart s n a ≤ slotStart s n k)) then k else a) 0

/-- An accepted frame's entry joins its sync cycle's packet, or makes up a packet of its own. -/
def psi5Entry (s : State) (n : Nat) (num : BitVec 48) (at_ base : Int) (e : Entry) : State :=
  match (s.lane n).trig with
  | some t =>
    if psi5Sync s n && !t.done then
      s.onLane n (fun l => { l with trig := some { t with entries := t.entries.filter (fun x => x.pos != e.pos) ++ [e] } })
    else handOver s n num at_ true base [e]
  | none => handOver s n num at_ true base [e]

/-- A frame of a sync cycle is over: the slots that it overlapped are discarded with it, and after the last
slot's frame the cycle hands over its packet (R153, R220). -/
def slotOver (s : State) (n k : Nat) (over_ : List Nat) : State :=
  if psi5Sync s n then
    let s := s.onLane n (fun l => { l with trig := match l.trig with
      | some t => some { t with drop := t.drop ++ over_ }
      | none => none })
    if k = lastSlot s n then closeCycle s n else s
  else s

/-- A PSI5 frame boundary (R202): the slots' thresholds and bit-time references, with bit 4 for the
endpoints whose slot stepped. -/
def psi5End (s : State) (n : Nat) (before : LaneCal) : State :=
  let l := s.lane n
  let c := psi5Boundary (laneMay s n 20).2 (latchOg s n l.cal)
  let s := s.setLane n { l with cal := c }
  let s := (List.range 4).foldl (fun s k =>
    let a := before.slots.getD k {}
    let b := c.slots.getD k {}
    if a.thr != b.thr || a.btRef != b.btRef then
      s.onEp (epIdx n k) (fun e => { e with stepped := true })
    else s) s
  busBoundary s n before (c.og != before.og)

/-- A received PSI5 frame in slot `k`, accepted or discarded. -/
def psi5Receive (s : State) (n k : Nat) (num : BitVec 48) (at_ : Int) (w : Psi5Wire) : State :=
  let i := epIdx n k
  let base := psi5BaseStamp s n at_ w
  let s := enterSprouts s n (some (at_ + w.stamp / 8))
  let s := frameBoundary s n num
  let before := (s.lane n).cal
  let sync := psi5Sync s n
  let good := psi5Ok s n k w
  let unwanted := sync && psi5Every s n && !epDue s i num
  let took := good && !unwanted
  let ok := took && descProto s i != 0
  let e := s.ep i
  let slot := before.slots.getD k {}
  let jump := ok && slot.btSeeded && isJump w.bitTime slot.bt16
  let s := frameCount s n good
  let s := s.onLane n (fun l => { l with gapUntilFrame := l.gapUntilFrame && !took })
  let s := if unwanted then s else cleanStep s i ok (ok && !jump)
  let s := traceEdges s n num at_ w.edges w.edges w.iLo w.iHi
  let s := if jump then swapSuspect s i .jump else s
  let s := if took then
      let s := s.onLane n (fun l => { l with
        lastEdge := s.grid.now, silent := false
        cal := psi5Filter (laneMay s n 20).1 l.cal k w.iLo w.iHi w.bitTime })
      devSample s n (rnd (w.bitTime - slot.btRef) 16)
    else s
  let s := if ok then
      let s := s.onEp i (fun e => { e with stepped := false })
      let raw := psi5Raw w.bits (ranged 10 28 (slotBits s n k)) (s.ep i).accepted
      let inst := at_ + base + (if sync then descLatency s i else - descLatency s i)
      psi5Entry s n num at_ base (busEntry s n k num raw inst false (e.sprout || jump) e.stepped)
    else s
  leaveNow (psi5End (slotOver s n k (overlapped s n k w)) n before) n

/-! ### LIN (R157 to R163) -/


/-- The enabled node-list entries of a frame identifier, by position. -/
def linNodes (s : State) (n fid : Nat) : List Nat :=
  (List.range 16).filter (fun p => nodeEn s n p && nodeFid s n p == fid)

/-- The bytes of a published response (R365): the entry at the highest position that covers a byte
supplies it. -/
def publishBytes (s : State) (n fid len : Nat) : Bytes :=
  (List.range len).map (fun b =>
    match ((linNodes s n fid).filter (fun p => decide (nodeOff s n p ≤ b ∧ b ≤ nodeOff s n p + 3))).getLast? with
    | some p => BitVec.ofNat 8 ((s.ep (epIdx n p)).out.toNat / 256 ^ (3 - (b - nodeOff s n p)))
    | none => 0xFF)

/-- The raw word of a LIN frame for an entry (R136). -/
def linRaw (s : State) (n p : Nat) (bs : Bytes) : Word :=
  BitVec.ofNat 32 (beNat ((List.range 4).map (fun j => bs.getD (nodeOff s n p + j) 0)))

/-- The checksum of a response: the enhanced model covers the protected identifier (R158). -/
def linCheck (s : State) (n p fid : Nat) (bs : Bytes) : Byte :=
  linSum (if nodeEnhanced s n p then linPid fid :: bs else bs)

/-- The output words that a slot sends for the first time since they were set (R485, LIN_OUT). -/
def tellOuts (s : State) (n fid : Nat) (num : BitVec 48) : State :=
  (linNodes s n fid).foldl (fun s p =>
    let e := s.ep (epIdx n p)
    if e.outNew then
      (happen s n num 0x04 p (beBytes 4 e.out.toNat)).onEp (epIdx n p) (fun e => { e with
        outNew := false, rtWrite := none })
    else s) s

/-- A break that the lane has sent counts towards a short to VBAT where it read back recessive (R163). -/
def countBreaks (s : State) (n k : Nat) (recessive : Bool) : State :=
  s.onLane n (fun l => { l with linBreaks := if recessive then min 3 (l.linBreaks + k) else 0 })

/-- A LIN lane's frame boundary (R189, R199). -/
def linEnd (s : State) (n : Nat) (before : LaneCal) : State :=
  let s := s.onLane n (fun l => { l with cal := latchOg s n l.cal })
  busBoundary s n before ((s.lane n).cal.og != before.og)

/-- One frame of the diagnostic pair, which hands over no packet (R161, R189, R220). -/
def diagFrame (s : State) (n : Nat) (start : Int) (num : BitVec 48) (at_ : Int) (ok : Bool) (edges : List Int) : State :=
  let s := frameBoundary (enterSprouts s n (some start)) n num
  let before := (s.lane n).cal
  linEnd (traceEdges (frameCount s n ok) n num at_ edges edges 0 0) n before

/-- A LIN frame slot (R160): accepted or not, with its entries and its packet. -/
def linReceive (s : State) (n fid : Nat) (num : BitVec 48) (at_ : Int) (w : LinWire) : State :=
  let p0 := (linNodes s n fid).headD 0
  let len := ranged 1 8 (nodeLen s n p0)
  let publish := nodePublish s n p0
  let s := enterSprouts s n (some (at_ + w.brk / 8))
  let s := frameBoundary s n num
  let before := (s.lane n).cal
  let s := if publish then tellOuts s n fid num else s
  let bytes := if publish then publishBytes s n fid len else w.bytes.map Prod.fst
  let sound := w.readbackOk && !w.breakRecessive
  let ok := sound && (publish || (w.inSlot && bytes.length == len && w.bytes.all (fun b => b.2) &&
    w.check == some (linCheck s n p0 fid bytes)))
  let s := frameCount s n ok
  let s := if publish then
      s.onLane n (fun l => { l with linTx := some (fid, bytes ++ [linCheck s n p0 fid bytes]) }) else s
  let s := countBreaks (s.onLane n (fun l => { l with gapUntilFrame := l.gapUntilFrame && !ok })) n 1 w.breakRecessive
  let brk := stamp25 before.og w.brk
  let ps := (lanePositions s n).filter (fun p => nodeEn s n p && nodeFid s n p == fid)
  let (s, es) := ps.foldl (fun (a : State × List Entry) p =>
    let i := epIdx n p
    let e := a.1.ep i
    let s := cleanStep a.1 i ok ok
    if ok then
      let s := s.onEp i (fun e => { e with stepped := false })
      let inst := at_ + brk - (if publish then 0 else descLatency s i)
      (s, a.2 ++ [busEntry s n p num (linRaw s n p bytes) inst false e.sprout e.stepped])
    else (s, a.2)) (s, [])
  let s := traceEdges s n num at_ w.edges w.edges 0 0
  let s := handOver s n num at_ (!(s.lane n).gapUntilFrame) brk es (some fid)
  linEnd s n before

/-! ### Meanings: SENT -/

/-- The trigger or sync pulse of a lane's snapshot, sent at `at_`. -/
def startTrig (s : State) (n : Nat) (at_ : Int) (num : BitVec 48) (inst : Int) : State :=
  s.onLane n (fun l => { l with trig := some { at_ := at_, num := num, inst := inst } })

/-- Whether a lane has already started its trigger or sync pulse of a snapshot. -/
def trigSent (s : State) (n : Nat) (num : BitVec 48) : Bool :=
  match (s.lane n).trig with
  | some t => t.num == num
  | none => false

/-- Whether the trigger of a SENT lane's probe is due: at the first tick after 1 ms (R456). -/
def probeDue (s : State) (n : Nat) : Bool :=
  let l := s.lane n
  l.probeOwed && busRuns s n .sent && s.grid.now == s.grid.tickAt && match l.poweredAt with
    | some t => decide (t + 400000 ≤ s.grid.now)
    | none => false

/-- Whether a lane's probe is over: it ends within 2 ms of the lane step (R456). -/
def probeOver (s : State) (n : Nat) : Bool :=
  let l := s.lane n
  !l.probeOwed || match l.poweredAt with
    | some t => decide (t + 800000 ≤ s.grid.now)
    | none => true

/-- The trigger of a probe. -/
def probeTrig (s : State) (n : Nat) : State :=
  s.onLane n (fun l => { l with
    probeOwed := false
    trig := some { at_ := s.grid.now, num := s.grid.tick, inst := s.grid.now, probe := true } })

/-- SPC_TRIGGER (R142): in each due period the lane drives the trigger at G + offset. The first trigger of
a lane may be that of its probe (R456). -/
def execSpcTrigger (dt : Nat) (n : Lane) (stamp : Int) (s : State) : Out :=
  run dt s (fun s =>
    if probeDue s n then probeTrig s n else
    let f := laneSnap s n
    s.under f.2 (fun s =>
      let l := s.lane n
      if probeOver s n ∧ busRuns s n .sent ∧ sentSpc s n ∧ frameRuns s f.1 ∧ epDue s (epIdx n 0) f.1 ∧ descProto s (epIdx n 0) ≠ 0 ∧
          l.lastTag ≠ some f.1 ∧ !trigSent s n f.1 ∧ !windowed s n f.2 then
        startTrig s n (f.2 + stamp25 l.cal.og stamp) f.1 f.2
      else s))

/-- Whether a lane awaits a frame of the kind that has ended: with SPC or a sync pulse, that of its latest
one. -/
def awaits (s : State) (n : Nat) (master : Bool) (num : BitVec 48) : Bool :=
  match (s.lane n).trig with
  | some t => !master || t.num == num
  | none => !master

/-- Whether the latest trigger is a probe's. -/
def probing (s : State) (n : Nat) : Bool :=
  match (s.lane n).trig with
  | some t => t.probe && !t.done
  | none => false

/-- The frame that answers a probe's trigger feeds the loops and ends in a frame boundary as every received
frame (R189, R456). It belongs to no snapshot, so that it makes up no record and no EDGES block (DESIGN CHOICE,
log entry 123). -/
def probeFrame (s : State) (n : Nat) (w : SentWire) : State :=
  match (s.lane n).trig with
  | some t =>
    let s := enterSprouts s n (some (t.inst + w.edges.headD 0 / 8))
    let before := (s.lane n).cal
    sentEnd (sentTake s n t.num t.inst w).1 n before w.hi w.low
  | none => s

/-- SENT_FRAME (R143): a frame completes and is decoded from its falling edges, or discarded. -/
def execSentFrame (dt : Nat) (n : Lane) (w : SentWire) (s : State) : Out :=
  run dt s (fun s =>
    let s := passCutoff s
    if probing s n ∧ busRuns s n .sent then probeFrame s n w else
    let f := sentSnap s n
    s.under f.2 (fun s =>
      let t := fun (e : Int) => f.2 + e / 8
      let begin_ := t (w.edges.headD 0)
      if busRuns s n .sent ∧ awaits s n (sentSpc s n) f.1 ∧ ((s.lane n).readyAt : Int) ≤ begin_ ∧
          (sentSpc s n ∨ !edgeInPause s ((w.edges ++ w.rises).map t)) then
        sentReceive s n f.1 f.2 w
      else s))

/-! ### Meanings: PSI5 -/

/-- SYNC_PULSE (R151, R152): the lane sends its sync pulse at G + offset in each period in which an
endpoint is due, or in every period with SYNC_EVERY. -/
def execSyncPulse (dt : Nat) (n : Lane) (stamp : Int) (s : State) : Out :=
  run dt s (fun s =>
    let f := laneSnap s n
    s.under f.2 (fun s =>
      let l := s.lane n
      if busRuns s n .psi5 ∧ psi5Sync s n ∧ frameRuns s f.1 ∧ l.syncFrom ≤ s.grid.now ∧
          (psi5Every s n || (lanePositions s n).any (fun p => epDue s (epIdx n p) f.1)) ∧ !trigSent s n f.1 ∧
          !windowed s n f.2 then
        startTrig (closeCycle s n) n (f.2 + stamp25 l.cal.og stamp) f.1 f.2
      else s))

/-- PSI5_FRAME (R153, R154): a frame in slot 1 to 4, or the frame of an asynchronous sensor. -/
def execPsi5Frame (dt : Nat) (n : Lane) (slot : Fin 4) (w : Psi5Wire) (s : State) : Out :=
  run dt s (fun s =>
    let s := passCutoff s
    let f := psi5Snap s n
    s.under f.2 (fun s =>
      let sync := psi5Sync s n
      let t := fun (e : Int) => f.2 + e / 8
      if busRuns s n .psi5 ∧ awaits s n sync f.1 ∧ (if sync then slotEn s n slot = true else slot.val = 0) ∧
          ((s.lane n).readyAt : Int) ≤ t w.stamp ∧
          (sync ∨ !edgeInPause s ((w.stamp :: w.edges).map t)) then
        psi5Receive s n slot f.1 f.2 w
      else s))

/-! ### Meanings: LIN -/

/-- A LIN slot that is over: its frame has been sent. -/
def linOver (s : State) (n fid t : Nat) : State :=
  s.onLane n (fun l => { l with linServed := (fid, t) :: l.linServed.filter (fun x => x.1 != fid) })

/-- LIN_FRAME_SLOT (R159, R160): the slot of a frame identifier, at the end of its response or of the
slot, under the configuration that it began in (R164, R187). -/
def execLinFrameSlot (dt : Nat) (n : Lane) (fid : BitVec 6) (w : LinWire) (s : State) : Out :=
  run dt s (fun s =>
    let s := passCutoff s
    match linSlotNow s n fid.toNat with
    | some t =>
      s.under (t : Nat) (fun s =>
        let l := s.lane n
        let f := freeSnap s s.grid.now
        if busRuns s n .lin ∧ l.linRun ∧ !l.stuck ∧ fid.toNat < 0x3C ∧ l.readyAt ≤ t ∧ !inPause s (t : Nat) (t : Nat) ∧
            !edgeInPause s (w.edges.map (fun e => f.2 + e / 8)) then
          leaveFlight (linOver (linReceive s n fid.toNat f.1 f.2 w) n fid.toNat t) n
        else s)
    | none => s)

/-- The eight data bytes of a pending diagnostic request (R363). -/
def diagBytes (a : AccGroup) : Bytes := beBytes 4 a.data0.toNat ++ beBytes 4 a.data1.toNat

/-- Whether the response of the pair's second frame passes. -/
def diagOk (w : LinWire) : Bool :=
  let bs := w.bytes.map Prod.fst
  w.inSlot && bs.length == 8 && w.bytes.all (fun b => b.2) && w.check == some (linSum bs)

/-- The transitions of a pair's two frames, split at the begin `t1` of the second slot. -/
def diagEdges (t1 at_ : Int) (w : LinWire) : List Int × List Int := w.edges.partition (fun e => decide (e < 8 * (t1 - at_)))

/-- Whether an update pause abandons a pair: its second slot begins in the pause, or a frame has an edge there
(R507). -/
def diagCut (s : State) (t1 at_ : Int) (w : LinWire) : Bool :=
  inPause s t1 t1 || edgeInPause s (w.edges.map (fun e => at_ + e / 8))

/-- The two frames of a diagnostic pair whose slots began at `t` and `t1`: the request's bytes, and the header of
the response. -/
def diagFrames (s : State) (n : Nat) (t t1 : Int) (num : BitVec 48) (at_ : Int) (w : LinWire) : State :=
  let bs := diagBytes (s.lane n).acc
  let es := diagEdges t1 at_ w
  let cut := diagCut s t1 at_ w
  let s := (countBreaks s n 2 w.breakRecessive).onLane n (fun l => { l with linTx := some (0x3C, bs ++ [linSum bs]) })
  let s := diagFrame s n t num at_ (!cut) es.1
  diagFrame s n t1 num at_ (diagOk w && !cut) es.2

/-- How the pair's request completes (R161, R364). A 0x3D response that is short, late or has a framing error gets
CHECKSUM (log entry 100); that of an abandoned pair NO_RESPONSE (log entry 125). -/
def diagResult (s : State) (n : Nat) (cut : Bool) (w : LinWire) : State :=
  let bs := w.bytes.map Prod.fst
  let data := fun (k : Nat) => some (BitVec.ofNat 32 (beNat (fit 4 0 (bs.drop k))))
  if bs.isEmpty || cut then accComplete s n .noResponse none none
  else accComplete s n (if diagOk w then .done else .checksum) (data 0) (data 4)

/-- LIN_DIAG_PAIR (R161, R364): the pair serves the request that waited when it began, within 256 periods of GO. -/
def execLinDiagPair (dt : Nat) (n : Lane) (w : LinWire) (s : State) : Out :=
  run dt s (fun s =>
    let s := passCutoff s
    match pairNow s n with
    | some t =>
      let l := s.lane n
      if busRuns (s.seenAt (t : Nat)) n .lin ∧ l.linRun ∧ !l.stuck ∧ l.acc.rstate = .pending ∧ l.acc.op = 3 ∧
          l.acc.at_ ≤ t ∧ t < l.acc.at_ + 256 * period s ∧ !inPause s (t : Nat) (t : Nat) then
        let f := freeSnap s s.grid.now
        let t1 := t + pairGap l
        let cut := diagCut s (t1 : Nat) f.2 w
        let s := s.under (t : Nat) (fun s => diagFrames (linOver s n 0x3C t) n (t : Nat) (t1 : Nat) f.1 f.2 w)
        leaveFlight (diagResult s n cut w) n
      else s
    | none => s)

/-- LIN_WAKE_UP (R162, R456): a lane whose schedule is to restart drives the dominant wake-up pulse of 1.0 ms,
once its bus is recessive and no short of it stands declared (R163). -/
def execLinWakeUp (dt : Nat) (n : Lane) (s : State) : Out :=
  run dt s (fun s =>
    let l := s.lane n
    if busRuns s n .lin ∧ !l.linRun ∧ !l.stuck ∧ l.linWoke = none ∧ s.mode.dev ≠ .sentinel then
      s.setLane n { l with linWoke := some (s.grid.now + 400000) }
    else s)

/-- LIN_SCHEDULE_START (R162): 100 ms after the wake-up pulse the schedule starts at a grid tick, and
the lane's endpoints are sprouts (R203). -/
def execLinScheduleStart (n : Lane) (s : State) : Out :=
  .next (
    let l := s.lane n
    match l.linWoke with
    | some t =>
      if busRuns s n .lin ∧ t + 40000000 ≤ s.grid.now ∧ s.grid.now = s.grid.tickAt then
        laneSprouts (s.setLane n { l with linRun := true, linWoke := none }) n
      else s
    | none => s)

/-- LIN_WAKE (R162, R273): a node's wake-up on a lane whose schedule is stopped. -/
def execLinWake (dt : Nat) (n : Lane) (lowUs : Nat) (s : State) : Out :=
  run dt s (fun s =>
    let l := s.lane n
    if l.mode = .lin ∧ l.lstate = .run ∧ !l.linRun ∧ 150 ≤ lowUs ∧ lowUs ≤ 5000 then
      let s := raise s 25 n 0
      if (s.mode.dev = .sentinel ∨ s.mode.entering) ∧ s.mode.polls.any (fun x => x.1 == n.val) then wakeCond s else s
    else s)

end Sys2Proof.Machine
end

