-- ==== Sys2Proof/Machine/Update.lean ====
section
/-!
DEFINITION. Firmware update: block transfer (R502, R503), verification (R504), activation with its pause
(R506 to R508), migration of the stores (R509, R510), CONFIRM (R511) and ROLLBACK (R512).
-/

namespace Sys2Proof.Machine

/-! ### Transfer -/

/-- Whether buffer writes, TAKE_BLOCK and VERIFY are accepted (R502); the boot ROM accepts them while
neither bank passes (R505). -/
def transferOpen (s : State) : Bool :=
  let u := s.upd
  let free := u.taking.isNone && (u.ustate == .idle || u.ustate == .receiving || u.ustate == .ready || u.ustate == .failed)
  free && (u.romOnly || (u.uEnable &&
    match s.mode.dev with
    | .run | .recover | .test | .lockdown => true
    | _ => false))

/-- The 4,096 bytes of the block buffer (R502). -/
def bufferBytes (s : State) : Bytes :=
  (List.range 1024).flatMap (fun j => beBytes 4 (Tbl.get (fun _ => (0 : Word)) s.upd.buffer (4 * j)).toNat)

/-- The trailer word of the block buffer (R502). -/
def trailer (s : State) : Word := Tbl.get (fun _ => (0 : Word)) s.upd.buffer 0x1000

/-- A write of TAKE_BLOCK (R502). -/
def takeWrite (s : State) (block : Byte) : State := s.onUpd (fun u => { u with taking := some block, block := block })

/-- An error is recorded if there is none yet (R503). -/
def noteError (s : State) (e : BitVec 5) : State :=
  s.onUpd (fun u => { u with error := if u.error = 0 then e else u.error })

/-- A take ends (R503): outside RECEIVING it erases the inactive bank's boot-digest record, and from IDLE
it also begins a new count. -/
def endTake (s : State) (block : Byte) (readBackOk : Bool) : State :=
  let b := inactiveB s
  let fresh := s.upd.ustate == .idle
  let s := if s.upd.ustate = .receiving then s else s.setBank b { s.bank b with digest := none }
  let s := s.onUpd (fun u => { u with taking := none, taken := if fresh then [] else u.taken })
  let bytes := bufferBytes s
  let s :=
    if crc32 bytes ≠ trailer s then noteError s 0x01
    else
      let s := s.setBank b { s.bank b with blocks := Tbl.set (fun _ => []) (s.bank b).blocks block.toNat bytes }
      if readBackOk then
        s.onUpd (fun u => { u with
          lastBlock := block, taken := if u.taken.contains block.toNat then u.taken else u.taken ++ [block.toNat] })
      else noteError (s.onUpd (fun u => { u with taken := u.taken.filter (· != block.toNat) })) 0x02
  setUState s .receiving

/-- ABORT (R503). -/
def abortWrite (s : State) : State :=
  match s.upd.ustate with
  | .receiving | .verifying | .ready | .failed =>
    setUState (s.onUpd (fun u => { u with taking := none, taken := [], error := 0 })) .idle
  | _ => s

/-! ### Verification (R504) -/

/-- A write of VERIFY. -/
def verifyWrite (s : State) : State := setUState (s.onUpd (fun u => { u with error := 0 })) .verifying

/-- MIG_FROM and CFG_FORMAT of an image (R500). -/
def migFrom (b : ImgBank) : Nat := imgNat b 12 2
def imgFormat (b : ImgBank) : Nat := imgNat b 10 2

/-- The checks of R504 in their order: the code of the first that fails, or 0. -/
def verifyChecks (s : State) : Nat :=
  let b := s.bank (inactiveB s)
  let missing := !s.upd.taken.contains 0 ||
    (List.range (min 257 (imgBlocks b))).any (fun i => !s.upd.taken.contains i)
  if missing then 0x03
  else if imgVerify s b != 0 then imgVerify s b
  else match newerCfg s with
  | some c => if c.format.toNat < migFrom b ∨ imgFormat b < c.format.toNat then 0x0C else 0
  | none => 0

/-- Verification ends (R504). The boot ROM starts a verified image by a device reset into it (R505). -/
def endVerify (s : State) : State :=
  let code := verifyChecks s
  if code ≠ 0 then setUState (s.onUpd (fun u => { u with error := BitVec.ofNat 5 code })) .failed
  else
    let b := inactiveB s
    let s := s.setBank b { s.bank b with digest := digestRecord s (s.bank b) }
    if s.upd.romOnly then
      (deviceReset { s with nv := { s.nv with bootB := b, unconfirmed := false } } s.mode.cause.toNat
        s.grid.lead).onMode (fun m => { m with leadOwed := true })
    else setUState s .ready

/-! ### Activation (R506 to R508) -/

/-- Whether a commit is PENDING or SOWING, from its T_c on (R319, R506). -/
def commitPending (s : State) : Bool := s.commits.any (fun c => c.ports != 0 || !c.sown)

/-- Whether a commit that was asked for has not settled yet (R438). -/
def commitBusy (s : State) : Bool := !s.creqs.isEmpty || commitPending s

/-- Whether a mode request stands against an activation (R506). -/
def modeBusy (s : State) : Bool := s.mode.req.isSome || s.mode.entering || s.mode.leaving.isSome

/-- Whether an ACTIVATE write is accepted (R506). -/
def activateOk (s : State) : Bool :=
  s.upd.ustate == .ready && (s.mode.dev == .recover || (s.mode.dev == .run && s.upd.runActivate)) &&
    !commitPending s && !modeBusy s

/-- A write of ACTIVATE, or of ROLLBACK: A is the first grid instant at least 1 ms later. USTATE reads ACTIVATING
from an accepted ROLLBACK on too (R506, R512; DESIGN CHOICE, log entry 126). -/
def activateWrite (s : State) (rolling : Bool) : State :=
  setUState (s.onUpd (fun u => { u with activateAt := some (s.grid.now + 400000), rolling := rolling })) .activating

/-- Whether a ROLLBACK write is accepted (R512). -/
def rollbackOk (s : State) : Bool :=
  s.upd.ustate == .unconfirmed && (s.mode.dev == .run || s.mode.dev == .recover)

/-- The pause begins, A − 20 us (R507). -/
def beginPause (s : State) (a : Nat) : State :=
  stopBursts (s.onUpd (fun u => { u with pauseA := some a, activateAt := none, pauseSpan := some (a - 8000, a + 100000) }))

/-- FW_VERSION and CFG_FORMAT of the running bank. -/
def runningImage (s : State) : State :=
  let b := s.bank s.upd.bankB
  s.onUpd (fun u => { u with fwVersion := BitVec.ofNat 16 (imgNat b 8 2), cfgFormat := BitVec.ofNat 16 (imgFormat b) })

/-- A configuration copy, or a calibration copy, that was converted is invalid (R512). -/
def dropConvertedCfg (c : Option CfgCopy) : Option CfgCopy :=
  match c with
  | some x => some (if x.converted then { x with valid := false } else x)
  | none => none
def dropConvertedCal (c : Option CalCopy) : Option CalCopy :=
  match c with
  | some x => some (if x.converted then { x with valid := false } else x)
  | none => none

/-- The pause ends, A + 250 us (R507, R512): the new bank runs. -/
def endPause (s : State) : State :=
  let b := inactiveB s
  let rolling := s.upd.rolling
  let s := s.onUpd (fun u => { u with pauseA := none, bankB := b, rolling := false, pauseTick := s.grid.tick })
  let s := runningImage { s with nv := { s.nv with bootB := b, unconfirmed := !rolling } }
  if rolling then
    let s := { s with nv := { s.nv with
      cfgA := dropConvertedCfg s.nv.cfgA, cfgB := dropConvertedCfg s.nv.cfgB
      calA := dropConvertedCal s.nv.calA, calB := dropConvertedCal s.nv.calB, oldCfg := false } }
    setUState (s.onUpd (fun u => { u with taken := [] })) .idle
  else s.onUpd (fun u => { u with migrating := true })

/-! ### Migration (R509) -/

/-- Whether a store's newer copy is in an older format that the running image migrates. -/
def migrates (s : State) (format : BitVec 16) : Bool :=
  decide (migFrom (s.bank s.upd.bankB) ≤ format.toNat ∧ format.toNat < s.upd.cfgFormat.toNat)

/-- Whether copy A is the newer valid copy. -/
def newerIsA (tick : α → BitVec 48) (valid : α → Bool) (a b : Option α) : Bool :=
  match a, b with
  | some x, some y => valid x && (!valid y || decide ((tick y).toNat < (tick x).toNat))
  | some x, none => valid x
  | none, _ => false

/-- Whether the configuration store's newer copy, or the calibration store's, is to be converted. -/
def cfgDue (s : State) : Bool :=
  match newerCfg s with
  | some c => migrates s c.format
  | none => false
def calDue (s : State) : Bool :=
  match newerCal s with
  | some c => migrates s c.format
  | none => false

/-- The configuration store converted: the converted copy goes into the other place. A write that fails
twice leaves that place invalid (log entry 35). -/
def migrateCfg (s : State) (writeOk : Bool) : State :=
  match newerCfg s with
  | none => s
  | some c =>
    if !migrates s c.format then s
    else
      let n : CfgCopy := { c with format := s.upd.cfgFormat, tick := s.upd.pauseTick, converted := true, valid := writeOk }
      let toB := newerIsA CfgCopy.tick CfgCopy.valid s.nv.cfgA s.nv.cfgB
      { s with nv := { s.nv with
        cfgA := if toB then s.nv.cfgA else some n, cfgB := if toB then some n else s.nv.cfgB
        oldCfg := s.nv.oldCfg || writeOk } }

/-- The calibration store converted. -/
def migrateCal (s : State) (writeOk : Bool) : State :=
  match newerCal s with
  | none => s
  | some c =>
    if !migrates s c.format then s
    else
      let n : CalCopy := { c with format := s.upd.cfgFormat, tick := s.upd.pauseTick, converted := true, valid := writeOk }
      let toB := newerIsA CalCopy.tick CalCopy.valid s.nv.calA s.nv.calB
      { s with nv := { s.nv with
        calA := if toB then s.nv.calA else some n, calB := if toB then some n else s.nv.calB
        oldCfg := s.nv.oldCfg || writeOk } }

/-- Migration ends, with the outcome of each store's write (R509). -/
def endMigration (s : State) (w : MigWrite) : State :=
  let bad := cfgDue s && !w.cfgOk || calDue s && !w.calOk
  let s := migrateCal (migrateCfg s w.cfgOk) w.calOk
  let s := if bad then noteError s 0x0D else s
  setUState (s.onUpd (fun u => { u with migrating := false })) .unconfirmed

/-! ### CONFIRM (R511) -/

/-- No copy counts as converted any more. -/
def settleCfg (c : Option CfgCopy) : Option CfgCopy :=
  match c with
  | some x => some { x with converted := false }
  | none => none
def settleCal (c : Option CalCopy) : Option CalCopy :=
  match c with
  | some x => some { x with converted := false }
  | none => none

/-- CONFIRM in UNCONFIRMED. -/
def confirmWrite (s : State) : State :=
  let idx := imgNat (s.bank s.upd.bankB) 16 4
  setUState { s with nv := { s.nv with
    rollback := if s.nv.rollback.toNat < idx then BitVec.ofNat 32 idx else s.nv.rollback
    unconfirmed := false, oldCfg := false
    cfgA := settleCfg s.nv.cfgA, cfgB := settleCfg s.nv.cfgB
    calA := settleCal s.nv.calA, calB := settleCal s.nv.calB } } .idle

/-! ### Meanings -/

/-- TAKE_BLOCK (R502): Port U asks for the buffer to be taken as a block. -/
def execTakeBlock (dt : Nat) (block : Byte) (s : State) : Out :=
  hostFrame dt .u s (fun s => if transferOpen s then takeWrite s block else s)

/-- TAKE_COMPLETE (R503): the take ends within 2 ms. -/
def execTakeComplete (dt : Nat) (readBackOk : Bool) (s : State) : Out :=
  run dt s (fun s =>
    match s.upd.taking with
    | some b => endTake s b readBackOk
    | none => s)

/-- VERIFY (R504): Port U asks for the whole image to be verified. -/
def execVerify (dt : Nat) (s : State) : Out := hostFrame dt .u s (fun s => if transferOpen s then verifyWrite s else s)

/-- VERIFY_COMPLETE (R504): verification ends within 10 ms. -/
def execVerifyComplete (dt : Nat) (s : State) : Out :=
  run dt s (fun s => if s.upd.ustate = .verifying then endVerify s else s)

/-- ABORT (R503): the transfer in progress is discarded, from any port. -/
def execAbort (dt : Nat) (p : Port) (s : State) : Out := hostWrite dt p s abortWrite

/-- ACTIVATE (R506): a secure write on Port H or Port M. -/
def execActivate (dt : Nat) (p : Port) (s : State) : Out :=
  hostWrite dt p s (fun s => if (s.port p).sess = .opened ∧ p ≠ .u ∧ activateOk s then activateWrite s false else s)

/-- ACTIVATION_PAUSE (R507): 20 us before A, the first grid instant that may be it, the pause begins. -/
def execActivationPause (dt : Nat) (s : State) : Out :=
  run dt s (fun s =>
    match s.upd.activateAt with
    | none => s
    | some t =>
      let a := (nextInstant s).2
      if s.grid.on ∧ s.grid.gridAt < t ∧ t ≤ a ∧ a = s.grid.now + 8000 then beginPause s a else s)

/-- ACTIVATION_PAUSE_END (R507): 250 us after A, the pause ends. -/
def execActivationPauseEnd (dt : Nat) (s : State) : Out :=
  run dt s (fun s =>
    match s.upd.pauseA with
    | none => s
    | some a => if a + 100000 ≤ s.grid.now then endPause s else s)

/-- MIGRATION_COMPLETE (R509): migration of the stores ends, and USTATE becomes UNCONFIRMED. -/
def execMigrationComplete (dt : Nat) (w : MigWrite) (s : State) : Out :=
  run dt s (fun s => if s.upd.migrating ∧ !s.mode.restarting then endMigration s w else s)

/-- CONFIRM (R511): a secure write in UNCONFIRMED, once migration has ended. -/
def execConfirm (dt : Nat) (p : Port) (s : State) : Out :=
  hostWrite dt p s (fun s =>
    if (s.port p).sess = .opened ∧ p ≠ .u ∧ s.upd.ustate = .unconfirmed then confirmWrite s else s)

/-- ROLLBACK (R512): a secure write in UNCONFIRMED. -/
def execRollback (dt : Nat) (p : Port) (s : State) : Out :=
  hostWrite dt p s (fun s => if (s.port p).sess = .opened ∧ p ≠ .u ∧ rollbackOk s then activateWrite s true else s)

end Sys2Proof.Machine
end

