-- ==== Sys2Proof/Machine/Mode.lean ====
section
/-!
DEFINITION. The device states (R436 to R439), SENTINEL with its polls (R440 to R445), and the restart
of the warden (R22, R466, R467).
-/

namespace Sys2Proof.Machine

/-! ### Requests (R348, R438) -/

/-- The transitions that MODE_REQ may ask for (R437). -/
def permitted : DevState → DevState → Bool
  | .run, .off | .run, .sentinel | .run, .recover | .run, .test | .run, .replay => true
  | .sentinel, .run | .sentinel, .off => true
  | .recover, .run | .recover, .off | .recover, .test => true
  | .test, .run | .test, .recover | .test, .off => true
  | .replay, .run | .replay, .off => true
  | _, _ => false

/-- The lanes of the poll set with their poll intervals in ticks (R440, R441). -/
def pollSet (s : State) : List (Nat × Nat) :=
  let rs := (routesOn s).filter (fun r => rtAction s r == 2 && routeEn s (rtSrc s r))
  (List.range 512).filterMap (fun n =>
    let mine := rs.filter (fun r => rtSrc s r / 16 == n)
    let ok : Bool := match cfgMode s n with
      | .aknun | .lin => true
      | .sent => sentSpc s n
      | _ => false
    match mine.map (fun r => descRate s (rtSrc s r)) with
    | [] => none
    | j :: js => if ok then some (n, min 512 (max 64 (2 ^ (pexp s + js.foldl min j)))) else none)

/-- Whether MODE_REQ is refused with RESULT STATE (R348, R438, R445, R506): BOOT, SOW and LOCKDOWN are never
requested. -/
def modeRefused (s : State) (d : DevState) : Bool :=
  s.mode.leaving.isSome || s.mode.req.isSome || s.mode.entering || s.upd.activateAt.isSome ||
    d == .boot || d == .sow || d == .lockdown ||
    (d != s.mode.dev && (!permitted s.mode.dev d || (d == .sentinel && decide (32 < (pollSet s).length))))

/-- A request takes its place: at the first grid tick or grid instant that begins at least 10 us later,
or from SENTINEL to RUN once the exit steps have run (R438, R445). -/
def modeRequest (s : State) (d : DevState) : State :=
  if modeRefused s d then s.onMode (fun m => { m with result := .refused })
  else
    let s := s.onMode (fun m => { m with target := BitVec.ofNat 4 d.code })
    if d = s.mode.dev then s.onMode (fun m => { m with result := .done })
    else s.onMode (fun m => { m with
      result := .pending
      req := some (d, s.grid.now + 4000)
      leaving := if m.dev = .sentinel ∧ d = .run then some (s.grid.now, .run) else m.leaving })

/-- A write of MODE_REQ on a host port. TEST and REPLAY take a secure frame (R348). -/
def modeWrite (s : State) (p : Port) (secure : Bool) (d : DevState) : State :=
  if p = .u ∨ (d = .test ∨ d = .replay) ∧ !secure ∨ s.mode.restarting ∨ s.upd.pauseA.isSome then s else modeRequest s d

/-! ### Transitions at a tick (R438) -/

/-- Replayed lanes reconnect: their regions stage them, in ascending order (R497). -/
def reconnect (s : State) : State :=
  let ns := (List.range 512).filter (fun n => (s.lane n).replayed)
  let s := ns.foldl (fun s n => s.onLane n (fun l => { l with replayed := false })) s
  (List.range 8).foldl (fun s g => if ns.any (fun n => laneRegion n == g) then requestStage s g else s) s

/-- A pending request that the present state no longer permits ends REFUSED, and its entry steps end; snapshots
are built again (R437). -/
def dropRequest (s : State) : State :=
  match s.mode.req with
  | some (d, _) =>
    if permitted s.mode.dev d then s
    else
      let s := if s.mode.entering then s.onAsm (fun a => { a with stopped := none }) else s
      s.onMode (fun m => { m with
        req := none, result := .refused, entering := false, polls := [], wakeOwed := false, entryCal := none })
  | none => s

/-- DEV_STATE changes on a request, which is then done. -/
def enterState (s : State) (d : DevState) : State :=
  let from_ := s.mode.dev
  let s := (leaveDev s d).onMode (fun m => { m with result := .done, req := none })
  let s := if from_ = .replay then reconnect s else s
  if d = .replay then { hoardToReplay s with replay := {} } else s

/-- The states that a request enters at a grid tick. -/
def tickState (s : State) (d : DevState) : Bool :=
  match d with
  | .recover | .test | .replay => true
  | .run => s.mode.dev != .sentinel
  | _ => false

/-- A requested transition takes effect at the grid tick (R438), where the present state permits it (R437). -/
def modeChange (s : State) : State :=
  match s.mode.req with
  | some (d, due) =>
    if s.grid.on ∧ s.grid.now = s.grid.tickAt ∧ due ≤ s.grid.now ∧ tickState s d ∧ permitted s.mode.dev d then
      enterState s d
    else s
  | none => s

/-! ### OFF and SENTINEL (R439, R443, R444) -/

/-- At a grid instant the entry steps begin, once every earlier commit has settled: no snapshot of
this instant or later is built, and the poll set is taken (R438, R439, R440, R444). -/
def beginEntry (s : State) : State :=
  match s.mode.req with
  | some (d, due) =>
    if (d = .off ∨ d = .sentinel) ∧ due ≤ s.grid.tickAt ∧ !commitBusy s ∧ !s.mode.entering then
      let polls := if d = .sentinel then pollSet s else []
      (s.onMode (fun m => { m with entering := true, polls := polls })).onAsm (fun a =>
        if a.stopped.isNone then { a with stopped := some s.grid.gridNum } else a)
    else s
  | none => s

/-- An uplink powers down: frames handed to its MAC are discarded (R439, R443). -/
def parkUplink (s : State) (u : Ul) : State :=
  s.onUplink u (fun x => { x with parked := true, up := false, queue := [], pdelay := none })

/-- Lanes without power: every LIN lane sends go-to-sleep first (R162, R428). -/
def lanesDown (s : State) (ns : List Nat) : State :=
  ns.foldl (fun s n =>
    if (s.lane n).lstate = .unpowered ∧ (s.lane n).modeAt = none ∧ (s.lane n).coldWait = false then s
    else unpower (linSleep s n) n) s

/-- Whether a polled lane's OPEN_PASS of the entry to SENTINEL can be sent: in no strong window, and when its
line is ready (R82, R100; log entry 118). -/
def openable (s : State) (n : Nat) : Bool :=
  (s.lane n).mode != .aknun || (!inWindow s n s.grid.now && decide ((s.lane n).readyAt ≤ s.grid.now))

/-- Whether the entry steps of a state have come to their end: earlier snapshots are complete, and on the way
to SENTINEL every polled lane can send its OPEN_PASS. -/
def entryDone (s : State) (d : DevState) : Bool :=
  s.mode.entering && s.asm_.build.isEmpty && (d != .sentinel || s.mode.polls.all (fun x => openable s x.1)) &&
    match s.mode.req with
    | some (t, _) => t == d
    | none => false

/-- The orderly shutdown ends in OFF (R439). -/
def enterOff (s : State) : State :=
  let s := calSaveEntry s
  let s := lanesDown s (List.range 512)
  let s := (List.range 8).foldl dropStage s
  let s := refreshStreams (parkUplink (parkUplink s .ul0) .ul1)
  let replay := s.mode.dev = .replay
  let s := (leaveDev s .off).onMode (fun m => { m with
    result := .done, req := none, entering := false, wakeOut := false, leaving := none, resume := none })
  if replay then
    (List.range 512).foldl (fun s n =>
      if (s.lane n).replayed then s.onLane n (fun l => { l with replayed := false }) else s) s
  else s

/-- The entry to SENTINEL ends (R444). -/
def enterSentinel (s : State) : State :=
  let s := calSaveEntry s
  let s := lanesDown s ((List.range 512).filter (fun n => !polled s n))
  let s := s.mode.polls.foldl (fun s x =>
    let n := x.1
    match (s.lane n).mode with
    | .aknun =>
      match (pollSources s n).getLast? with
      | some p => if p < (s.lane n).enumN then openedAt (openPass s n p []) n p else s
      | none => s
    | .lin => linStop s n
    | _ => s) s
  let s := (List.range 8).foldl (fun s g =>
    if (regionLanes g).any (polled s) then s else dropStage s g) s
  let s := parkUplink (parkUplink s .ul0) .ul1
  let s := (changeFreq s 100).onGrid (fun g => { g with standbyOk := false })
  let owed := s.mode.wakeOwed
  let s := setDev (s.onMode (fun m => { m with
    result := .done, req := none, entering := false, wakeOwed := false, pollFrom := s.grid.now })) .sentinel
  let s := refreshStreams s
  let s := if owed then wakeCond s else s
  if s.alarm.lockdown then
    s.onMode (fun m => { m with result := .refused, leaving := some (s.grid.now, .lockdown) })
  else s

/-! ### Polls (R442) -/

/-- A source's record of a poll, in place of a snapshot record (R221, R234, R442). A poll counts as a due
period towards a sprout by silence (R203, R442). `ran` says whether the lane ran its frames. -/
def pollRec (s : State) (n p : Nat) (num : BitVec 48) (at_ : Nat) (ran : Bool) (es : List Entry) : State × Rec :=
  let i := epIdx n p
  let on := (es.filter (fun e => e.pos == p)).getLast?
  let asleep := (asleepEntries s n).find? (fun e => e.pos == p)
  let (st, src, bits) := recState false false (packetCond s n ran at_) true (if on.isSome then on else asleep) none
  let e := s.ep i
  let (v, a) := match src with
    | some x => (x.value, ageOf at_ x.inst)
    | none => match e.store with
      | some (v, S) => (v, ageOf at_ S)
      | none => (0, noAge)
  let err := errAfter st e.err
  let flag := fun (f : Entry → Bool) => match bits with
    | some x => f x
    | none => false
  let status := BitVec.ofNat 8 (st.code + 8 * b2n (flag Entry.husk) + 16 * b2n (flag Entry.calStep) +
    32 * b2n s.grid.unlocked + 64 * err)
  let store := match st, src with
    | .valid, some x | .sprout, some x | .range, some x => some (x.value, x.inst)
    | _, _ => e.store
  let bus := (s.lane n).mode != .aknun && (s.lane n).lstate == .run && !(s.lane n).stuck
  let s := s.onEp i (fun e => { e with
    err := err, store := store
    quiet := if !bus then e.quiet else if on.isSome then 0 else min 8 (e.quiet + 1) })
  let s := s.onLane n (fun l => { l with lastTag := some num })
  (threshold s i st v, { idx := i, value := v, age := a, status := status })

/-- A frame of a polled bus lane received, with the entries that it would hand over. -/
def pollBus (s : State) (n : Nat) (num : BitVec 48) (at_ : Nat) (f : State → State) : State × List Entry :=
  let g := laneRegion n
  let r := s.region g
  let s := f (s.setRegion g (r.setOpen { snap := num, at_ := at_ }))
  let es := ((s.region g).open_.pkts.filter (fun p => p.lane == n)).flatMap (fun p => p.entries)
  (s.onRegion g (fun x => { x with openB := r.openB, bankA := r.bankA, bankB := r.bankB, lastWrite := r.lastWrite }), es)

/-- The steps by which a frame that has just been abandoned holds up the next frame of its poll (R79, R100). -/
def afterCut (s : State) (n : Nat) : State × Int :=
  let l := s.lane n
  (s.setLane n { l with readyAt := min l.readyAt s.grid.now }, ((l.readyAt - s.grid.now : Nat) : Int))

/-- The WAKE_PINGs of an Aknun poll, in ascending position, one after another from `t` on and none in a strong
window (R82): the state, and when the last of them is over. -/
def pollPings (s : State) (n : Nat) (num : BitVec 48) (at_ : Nat) (t : Int) (pings : List (Pos × FrameWire)) :
    State × Int :=
  (pollSources s n).foldl (fun (a : State × Int) p =>
    match pings.find? (fun x => x.1.val == p) with
    | some (_, w) =>
      if p < (a.1.lane n).enumN ∧ !inWindow a.1 n a.2.toNat then
        let c := controlFrame 8 p 0 2
        let len := cmdSteps a.1 n c w
        let (s, d, _) := accessFrame a.1 n num at_ c 0 w
        let (s, more) := afterCut (wakeAnswer s n p false w.missed d) n
        (s, a.2 + (len : Nat) + more)
      else a
    | none => a) (s, t)

/-- What a poll leaves: the state, the entries, whether the lane ran its frames, and when they are over. -/
structure PollDone where
  st : State
  entries : List Entry
  ran : Bool
  over_ : Int
  deriving DecidableEq, Repr

/-- What a poll of a lane measures, in the lane's mode (R442); a lane that is not in RUN runs no frame. -/
def pollLane (s : State) (n : Nat) (num : BitVec 48) (at_ : Nat) (w : HarvestWire) (pings : List (Pos × FrameWire))
    (sent : Option SentWire) (lin : List (BitVec 6 × LinWire)) : PollDone :=
  let idle : PollDone := { st := s, entries := [], ran := false, over_ := at_ }
  if (s.lane n).lstate ≠ .run then idle
  else match (s.lane n).mode with
  | .aknun =>
    match pollTop s n at_ with
    | some top =>
      let t := (at_ : Int) + frameStart s n + (harvestSteps s n top : Nat)
      let d := harvestFrame s n top 0xB 1 num at_ w
      let (s, more) := afterCut d.st n
      let (s, t) := pollPings s n num at_ (t + more) pings
      { st := s, entries := d.entries, ran := true, over_ := t }
    | none => idle
  | .sent =>
    match sent with
    | some x =>
      let s := s.onLane n (fun l => { l with
        trig := some { at_ := (at_ : Int) + descOffset s (epIdx n 0), num := num, inst := at_ } })
      let (s, es) := pollBus s n num at_ (fun s => sentReceive s n num at_ x)
      { idle with st := s, entries := es, ran := true }
    | none => { idle with ran := true }
  | .lin =>
    let a := lin.foldl (fun (a : State × List Entry) x =>
      if !(a.1.lane n).stuck && (pollSources a.1 n).any (fun p => nodeEn a.1 n p && nodeFid a.1 n p == x.1.toNat) then
        let (s, es) := pollBus a.1 n num at_ (fun s => linReceive s n x.1.toNat num at_ x.2)
        (s, a.2 ++ es)
      else a) (s, [])
    { idle with st := a.1, entries := a.2, ran := true }
  | _ => idle

/-- The WAKE routes of a lane evaluated at the end of its poll, in ascending number (R271, R442). -/
def pollRoutes (s : State) (n : Nat) (recs : List Rec) : State :=
  (routesOn s).foldl (fun s r =>
    if rtAction s r == 2 && rtSrc s r / 16 == n then routeEval s r (recs.find? (fun y => y.idx == rtSrc s r)) else s) s

/-- One poll of one lane (R442), which comes once its last frame is over. -/
def poll (s : State) (n : Nat) (w : HarvestWire) (pings : List (Pos × FrameWire)) (sent : Option SentWire)
    (lin : List (BitVec 6 × LinWire)) : State :=
  let num := pollNum s n
  let at_ := pollAt s n
  let d := pollLane s n num at_ w pings sent lin
  if (s.grid.now : Int) < d.over_ then s
  else
    let (s, rs) := (pollSources d.st n).foldl (fun (a : State × List Rec) p =>
      let (s, r) := pollRec a.1 n p num at_ d.ran d.entries
      (s, a.2 ++ [r])) (d.st, [])
    pollRoutes s n rs

/-! ### Leaving SENTINEL (R445) -/

/-- Every source of a polled lane whose last answer showed a pending wake request is owed a WAKE_PING with
WAKE = 1 (R445, step 5). -/
def oweWakes (s : State) (n : Nat) : State :=
  if (s.lane n).mode ≠ .aknun then s
  else (pollSources s n).foldl (fun s p =>
    if (s.ep (epIdx n p)).wakeReq then s.onEp (epIdx n p) (fun e => { e with wakeOwed := true }) else s) s

/-- The exit steps: the clocks and the uplinks return, G_r is fixed, and WAKE_PINGs are owed (R445, steps 1
to 3 and 5). -/
def leaveSentinel (s : State) : State :=
  match s.mode.leaving with
  | some _ =>
    if s.mode.dev = .sentinel ∧ s.mode.resume = none then
      let s := (changeFreq s 400).onGrid (fun g => { g with standbyOk := true })
      let s := (s.onUplink .ul0 (fun x => { x with parked := false })).onUplink .ul1 (fun x => { x with parked := false })
      let s := s.mode.polls.foldl (fun s x => oweWakes s x.1) s
      s.onMode (fun m => { m with resume := some (instantFrom s (s.grid.clkBack.getD s.grid.now + 40000)).1.toNat })
    else s
  | none => s

/-- At G_r, snapshots resume, regions stage their unpowered lanes and DEV_STATE changes (R445, steps 3
to 6). -/
def resumeAt (s : State) : State :=
  match s.mode.leaving, s.mode.resume with
  | some (_, d), some r =>
    if s.grid.gridNum.toNat = r ∧ s.grid.gridAt = s.grid.tickAt then
      let s := s.onAsm (fun a => { a with stopped := none })
      let s := setDev (s.onMode (fun m => { m with
        leaving := none
        resume := none
        polls := []
        wakeOut := false
        req := none
        result := if d = .run then .done else m.result })) d
      (List.range 8).foldl (fun s g =>
        if (regionLanes g).any (fun n => mayPower s n && (s.lane n).lstate == .unpowered) then requestStage s g else s) s
    else s
  | _, _ => s

/-! ### The warden (R22, R466, R467) -/

/-- The commits of a warden that restarts: host commits end NOT_APPLIED, and the boot sowing is
repeated (R29, R466, R470). -/
def wardenCommit (s : State) (c : CommitRun) : State :=
  if c.ports = 0 then
    if c.sown then s else putCommit (setSowing s c true) c { c with eff := none }
  else commitEnd (dropCommit (setSowing s c false) c) c .notApplied (0x0F, 0)

/-- A port when the warden restarts: its vault operation ends BUSY, and a challenge that waits is gone
(R425, R466). -/
def wardenPort (s : State) (p : Port) : State :=
  let s := vaultBusy s p
  if (s.port p).sess = .challenged then s.onPort p clearSession else s

/-- A lockstep mismatch: the warden restarts (R466). -/
def wardenStop (s : State) : State :=
  if s.mode.restarting then s
  else
    let s := stopBursts (s.onMode (fun m => { m with restarting := true }))
    let s := s.commits.foldl wardenCommit s
    let s := if s.cap.copying.isSome then
        { s with cap := { s.cap with copying := none, cstate := .idle } }
      else s
    abandonActivation (wardenPort (wardenPort s .h) .m)

/-- The warden resumes; at its third restart within 60 s in RUN the device enters RECOVER, where a request
that RECOVER does not permit ends (R437, R466, R467). -/
def wardenResume (s : State) : State :=
  if s.mode.restarting then
    let now := s.grid.now
    let ts := recent now (60 * second) s.mode.restarts ++ [now]
    let s := s.onMode (fun m => { m with restarting := false, restarts := ts })
    let s := glb (raise s 43 0 0) 6
    if 3 ≤ ts.length ∧ s.mode.dev = .run then dropRequest (setDev s .recover) else s
  else s

/-! ### Meanings -/

/-- MODE_REQ_OFF (R438): a write of MODE_REQ with TARGET OFF. -/
def execModeReqOff (dt : Nat) (p : Port) (s : State) : Out := hostFrame dt p s (fun s => modeWrite s p false .off)
/-- MODE_REQ_SENTINEL (R438). -/
def execModeReqSentinel (dt : Nat) (p : Port) (s : State) : Out := hostFrame dt p s (fun s => modeWrite s p false .sentinel)
/-- MODE_REQ_RUN (R438). -/
def execModeReqRun (dt : Nat) (p : Port) (s : State) : Out := hostFrame dt p s (fun s => modeWrite s p false .run)
/-- MODE_REQ_RECOVER (R438). -/
def execModeReqRecover (dt : Nat) (p : Port) (s : State) : Out := hostFrame dt p s (fun s => modeWrite s p false .recover)
/-- MODE_REQ_TEST (R438): only in a secure frame (R348). -/
def execModeReqTest (dt : Nat) (p : Port) (secure : Bool) (s : State) : Out :=
  hostFrame dt p s (fun s => modeWrite s p secure .test)
/-- MODE_REQ_REPLAY (R438): only in a secure frame (R348). -/
def execModeReqReplay (dt : Nat) (p : Port) (secure : Bool) (s : State) : Out :=
  hostFrame dt p s (fun s => modeWrite s p secure .replay)

/-- MODE_CHANGE (R438): at the grid tick, a transition to RUN, RECOVER, TEST or REPLAY. -/
def execModeChange (s : State) : Out := .next (modeChange s)

/-- OFF_ENTRY (R439): the orderly shutdown runs to OFF. -/
def execOffEntry (dt : Nat) (s : State) : Out := run dt s (fun s => if entryDone s .off then enterOff s else s)

/-- SENTINEL_ENTRY (R444): the entry to SENTINEL ends. -/
def execSentinelEntry (dt : Nat) (s : State) : Out :=
  run dt s (fun s => if entryDone s .sentinel then enterSentinel s else s)

/-- SENTINEL_POLL (R442): a polled lane polls at its poll tick; stamps are relative to that tick. -/
def execSentinelPoll (dt : Nat) (n : Lane) (w : HarvestWire) (pings : List (Pos × FrameWire)) (sent : Option SentWire)
    (lin : List (BitVec 6 × LinWire)) (s : State) : Out :=
  run dt s (fun s => if pollDue s n then poll s n w pings sent lin else s)

/-- SENTINEL_EXIT (R445): the exit steps run, and snapshots resume at G_r. -/
def execSentinelExit (dt : Nat) (s : State) : Out := run dt s leaveSentinel

/-- LOCKSTEP_MISMATCH (R466). -/
def execLockstepMismatch (dt : Nat) (s : State) : Out := run dt s wardenStop

/-- WARDEN_RESTART (R466). -/
def execWardenRestart (dt : Nat) (s : State) : Out := run dt s wardenResume

end Sys2Proof.Machine
end

