-- ==== Sys2Proof/Machine/Boot.lean ====
section
/-!
DEFINITION. BOOT with its shell test, KEK, start decision, image check and boot commit (R410, R411,
R452 to R455, R505, R513), and the end of discovery (R463, R464).
-/

namespace Sys2Proof.Machine

/-! ### The steps of BOOT -/

/-- The reference is absent: the device runs on the internal oscillator (R59, R427). -/
def noReference (s : State) : State :=
  if s.grid.degraded then s
  else glb (raise (s.onGrid (fun g => { g with degraded := true })) 49 0 1) 4

/-- After a device reset of the device's own, BOOT reads LEAD (R521). -/
def takeLead (s : State) (lead : Bool) : State :=
  if s.mode.leadOwed then
    (s.onGrid (fun g => { g with lead := lead, tstate := if lead then .free else .followLost })).onMode
      (fun m => { m with leadOwed := false })
  else s

/-- The health tests of the random number generator, which the model makes once in BOOT (R393, R414, DESIGN
CHOICE, log entry 138). -/
def testRng (s : State) (ok : Bool) : State := s.onVault (fun v => { v with rngFail := !ok })

/-- KEK rebuilt from the helper data, or the vault in KEK_FAIL (R410); a rebuild after a failed one finds the vault
as it was provisioned. Without helper data there is no KEK. -/
def rebuildKek (s : State) (ok : Bool) : State :=
  s.onVault (fun v => { v with
    kek := if ok && v.helper != 0 then beBytes 32 (Config.kek v.helper).toNat else []
    state := if !ok then .kekFail
      else if v.state = .kekFail then
        (if (Tbl.get (fun _ => {}) v.slots 6).typ = 0 then .unprovisioned else .provisioned)
      else v.state })

/-- CHECK of every slot at BOOT (R407, R411): BAD, CORRECTED or GOOD. `bad` are the words with a double error, by
slot and word, and `corrected` the slots with a single one. -/
def checkSlots (s : State) (bad : List (Nat × Nat)) (corrected : List Nat) : State :=
  (List.range 32).foldl (fun s i =>
    let h := slotHealth s.vault.kek i (s.slot i) ((bad.filter (fun x => x.1 == i)).map Prod.snd) (corrected.contains i)
    if (s.slot i).health = h then s
    else s.onVault (fun v => { v with slots := Tbl.set (fun _ => {}) v.slots i { s.slot i with health := h } })) s

/-- Whether a bank's boot-digest record is authentic and equals the image's SHA-384 (R455). -/
def digestOk (s : State) (isB : Bool) : Bool :=
  (s.bank isB).digest.isSome && (s.bank isB).digest == digestRecord s (s.bank isB)

/-- The start is warm (R455). -/
def startWarm (s : State) : Bool :=
  s.vault.state == .provisioned && digestOk s s.nv.bootB &&
    match newerCfg s, newerCal s with
    | some c, some k => c.format.toNat == imgFormat (s.bank s.nv.bootB) && decide (c.tick.toNat ≤ k.tick.toNat)
    | _, _ => false

/-- The bank of the boot pointer runs. -/
def startBank (s : State) : State := runningImage (s.onUpd (fun u => { u with bankB := s.nv.bootB }))

/-- A full verification that passed writes the bank's boot-digest record, where there is a KEK for it (R455,
R501). -/
def recordDigest (s : State) (isB : Bool) : State :=
  s.setBank isB { s.bank isB with digest := digestRecord s (s.bank isB) }

/-- The other bank starts in place of one that failed: USTATE FAILED with BOOT_FALLBACK, and the copies
that a migration wrote no longer count (R505, R513). -/
def fallbackBank (s : State) : State :=
  let b := !s.nv.bootB
  let s := { s with nv := { s.nv with
    bootB := b, unconfirmed := false, oldCfg := false
    cfgA := dropConvertedCfg s.nv.cfgA, cfgB := dropConvertedCfg s.nv.cfgB
    calA := dropConvertedCal s.nv.calA, calB := dropConvertedCal s.nv.calB } }
  setUState ((startBank (recordDigest s b)).onUpd (fun u => { u with error := 0x0E })) .failed

/-- The image check of a cold start (R505): the state with a bank started, or none where neither bank
passes. -/
def coldImage (s : State) : Option State :=
  let b := s.nv.bootB
  if imgVerify s (s.bank b) = 0 then some (startBank (recordDigest s b))
  else if imgVerify s (s.bank !b) = 0 then some (fallbackBank s)
  else none

/-- A saved copy that the running image reads: a valid one of its format version, the newer first
(R452, R505). -/
def bootCopy (s : State) : Option CfgCopy :=
  let ok := fun (c : CfgCopy) => c.valid && c.format == s.upd.cfgFormat
  newer CfgCopy.tick ok s.nv.cfgA s.nv.cfgB

/-- The boot commit: all sixteen groups, PORT 00, the sowing of all eight regions (R453, R460). -/
def bootRun (s : State) : CommitRun :=
  { cseq := s.cseq, ports := 0, groups := 0xFFFF, diff := [], tc := s.grid.tick, sow := 0xFF, loads := []
    kNew := BitVec.ofNat 3 (pexp s), eff := none, sown := false }

/-- The boot commit applied (R453): the saved configuration, or the reset values where no copy is
valid. Events of BOOT before it are delivered under the matrix of before it (R387). -/
def bootCommit (s : State) : State :=
  let s := flushCycle s
  let copy := bootCopy s
  let words := match copy with
    | some c => c.words
    | none => []
  let s := syncStaging { s with cfg := { s.cfg with live := words } }
  let s := s.onGrid (fun g => match copy with
    | some c => { g with savedHop := c.hop, followers := c.followers }
    | none => g)
  let s := streamsEffect [] s
  let s := s.onGrid (fun g => { g with timePort := ulOf (bit (s.inForce kGridCtl) 28) })
  let c := bootRun s
  let s := { s with commits := [c] }
  if copy.isSome then commitStatus s c .pending (0, 0)
  else (commitEnd s c .refused (0x0F, 0)).onMode (fun m => { m with fallback := true })

/-- The lanes before power-up: in a warm start a lane whose validity CRC-32 matches takes its saved
values and is warm, and every other Aknun lane waits for its wave (R216, R455, R457). -/
def startLanes (s : State) (warm : Bool) : State :=
  let copy := if warm then usableCal s else none
  let s := match copy with
    | some c =>
      (List.range 8).foldl (fun s g =>
        match c.regions[g]? with
        | some (dll, og) => s.onRegion g (fun r => { r with dll := dll, og := og })
        | none => s) s
    | none => s
  (List.range 512).foldl (fun s n =>
    if cfgMode s n = .off then s
    else
      let saved : Option (Nat × LaneSaved) := match copy with
        | some c => c.lanes.find? (fun x => x.1 == n)
        | none => none
      match saved with
      | some (_, x) =>
        if x.crc = validityCrc s n then
          ((loadSavedLane s n x).onLane n (fun l => { l with warm := true })).onRegion (laneRegion n)
            (fun r => { r with warmStage := true })
        else s.onLane n (fun l => { l with coldWait := (cfgMode s n == LaneMode.aknun) })
      | none => s.onLane n (fun l => { l with coldWait := (cfgMode s n == LaneMode.aknun) })) s

/-- The free-run counter advances after a device reset, and the grid starts on tick 0 of the free-run
numbering (R31, R462). -/
def startGrid (s : State) : State :=
  let s := if s.grid.frcDone then s else { s with nv := { s.nv with frc := frcNext s.nv.frc } }
  let t := freeNum s.grid.pkg s.nv.frc 0
  s.onGrid (fun g => { g with
    on := true, tick := t, tickAt := g.now, gap := 50000, gridNum := t, gridAt := g.now, frcTicks := 0
    frcDone := false, ownNum := true, discAt := g.now })

/-- The end of BOOT's image check: the grid runs, the boot commit stands, and discovery begins; a warm
start requests its stages at once, but a follower with no saved hop count stages nothing until it joins (R460,
R462 to R464). -/
def bootEnd (s : State) (warm : Bool) : State :=
  let s := startLanes (bootCommit (startGrid s)) warm
  let s := s.onMode (fun m => { m with booted := true, warm := warm, inDisc := true })
  let s := if s.nv.unconfirmed then setUState s .unconfirmed else s
  if warm && (s.grid.lead || s.grid.savedHop != 0) then (List.range 8).foldl requestStage s else s

/-- BOOT after the shell test (R410, R411, R455, R505). -/
def bootRest (s : State) (test : SelfTest) (refPresent : Bool) (bad : List (Nat × Nat)) (corrected : List Nat) :
    State :=
  let s := if refPresent then s else noReference s
  let s := checkSlots (rebuildKek (testRng s test.rng) test.puf) bad corrected
  if startWarm s then bootEnd (startBank s) true
  else match coldImage s with
  | some s => bootEnd s false
  | none => s.onUpd (fun u => { u with romOnly := true })

/-! ### The end of discovery (R463, R464) -/

/-- SOW begins: the boot commit's sowing, and the stages of the regions, unless a warm start has requested
them already (R460, R462, R464). -/
def startSow (s : State) : State :=
  let s := s.onMode (fun m => { m with inDisc := false })
  let s := if s.mode.dev = .boot then setDev s .sow else s
  let s := s.commits.foldl (fun s c =>
    if c.ports = 0 ∧ !c.sown then
      let s := setSowing s c true
      if s.mode.fallback then s else commitStatus s c .sowing (0, 0)
    else s) s
  if s.mode.warm && (s.mode.stageLast.isSome || (List.range 8).any (fun g => (s.region g).stageReq)) then s
  else (List.range 8).foldl requestStage s

/-- A follower is marked absent (R52, R337). -/
def markAbsent (s : State) (h : Nat) : State :=
  let s := s.onGrid (fun g => { g with
    absent := g.absent ||| BitVec.ofNat 3 (2 ^ (h - 1)), members := g.members.filter (· != h)
    joinedCnt := BitVec.ofNat 2 (g.members.filter (· != h)).length })
  glb (raise s 10 h 0) 8

/-- Whether the lead's discovery ends at the latest tick. -/
def discoveryOver (s : State) : Bool :=
  let g := s.grid
  g.on && g.lead && s.mode.inDisc && g.now == g.tickAt &&
    (if g.followers = 0 then decide (g.discAt + 800000 ≤ g.now)
      else g.joinedCnt == g.followers || decide (g.discAt + 40000000 ≤ g.now))

/-- The hops that have not joined are marked absent, and the device enters SOW (R463). -/
def endDiscovery (s : State) : State :=
  let silent := ((List.range 4).drop 1).filter (fun h =>
    decide (h ≤ s.grid.followers.toNat) && !s.grid.members.contains h)
  startSow (silent.foldl markAbsent s)

/-! ### Meanings -/

/-- The alarm sources that a shell test fires (R411, R419). -/
def shellSources (t : ShellTest) : List Nat := (if t.opened then [1] else []) ++ (if t.shorted then [2] else [])

/-- BOOT (R455). `shellTest` is what the shell test finds, `pufOk` whether KEK and the random number generator pass,
`refPresent` the reference and the LEAD strap; `bad` are the words with a double error, by slot and word, and
`corrected` the slots with a corrected word. A response of ERASE-2 resets the device before the rest of BOOT. -/
def execBoot (shellTest : ShellTest) (pufOk : SelfTest) (refPresent : BootPins) (bad : List (Fin 32 × Fin 6))
    (corrected : List (Fin 32)) (s : State) : Out :=
  .next (
    if s.mode.inReset ∨ s.mode.booted ∨ s.mode.dev = .off ∨ s.upd.romOnly then s
    else
      let s := takeLead s refPresent.lead
      let ns := shellSources shellTest
      if (ns.map (alarmResponse s)).contains 3 then fireAlarms s ns
      else bootRest (fireAlarms s ns) pufOk refPresent.ref (bad.map (fun x => (x.1.val, x.2.val)))
        (corrected.map Fin.val))

/-- DISCOVERY_END (R463). -/
def execDiscoveryEnd (s : State) : Out := .next (if discoveryOver s then endDiscovery s else s)

/-- FOLLOWER_START_TIMEOUT (R464): no tick mark within 100 ms of the image check. -/
def execFollowerStartTimeout (s : State) : Out :=
  .next (
    let g := s.grid
    if g.on ∧ !g.lead ∧ s.mode.inDisc ∧ g.marks = 0 ∧ !g.joined ∧ g.discAt + 40000000 ≤ g.now ∧ g.savedHop ≠ 0 then
      startSow (setTState (s.onGrid (fun g => { g with pkg := g.savedHop, hop := g.savedHop })) .followLost)
    else s)

end Sys2Proof.Machine
end

