-- ==== Sys2Proof/Machine/GridLink.lean ====
section
/-!
DEFINITION. The grid link: its tick frames and messages (R47 to R50), joining with its delay measurement
(R51), losing and regaining the tick (R52, R53). A downstream message comes after the GRID_TICK of the tick
it follows (log entry 40).
-/

namespace Sys2Proof.Machine

/-! ### Messages (R48, R49) -/

/-- A message field as a number. -/
def msgNat (m : Bytes) (off n : Nat) : Nat := beNat ((m.drop off).take n)

/-- A message with its CRC-32 (R48, R49). Its fields of several bytes and the CRC-32 travel with the most
significant byte first: neither R8 nor R48 gives their byte order (DESIGN CHOICE, log entry 115). -/
def sealMsg (m : Bytes) : Bytes := let b := fit 36 0 m; b ++ beBytes 4 (crc32 b).toNat

/-- Whether a message is whole and its CRC passes. -/
def msgOk (m : Bytes) : Bool := m.length == 40 && (crc32 (m.take 36)).toNat == msgNat m 36 4

/-- Whether a package sends tick frames: a follower does so once it has a hop count (R51). -/
def sendsFrames (s : State) : Bool := s.grid.on && (s.grid.lead || s.grid.hop != 0)

/-- The alarm that a message carries in its one ALARM_PKG and ALARM_SRC: the package's own before one it
relays, which then goes in a later frame; of several the oldest (DESIGN CHOICE, log entry 108; R48 to R50). -/
def alarmField (g : GridState) (relay : List (Byte × Byte)) : Bool × Byte × Byte :=
  match g.alarmOut, relay with
  | a :: _, _ => (true, BitVec.ofNat 8 g.pkg.toNat, a)
  | [], (p, a) :: _ => (true, p, a)
  | [], [] => (false, 0, 0)

/-- The downstream message of the tick frame that follows the latest tick (R48): a follower that has no
hop count yet sends none. The alarm that it carries is `alarmField`'s. -/
def downMessage (s : State) : Bytes :=
  let g := s.grid
  if !g.lead && g.hop = 0 then []
  else
    let degraded := if g.lead then g.degraded else g.leadDegraded
    let (alarm, ap, as_) := alarmField g g.relayDown
    let (re, step, c) : Bool × Nat × Int := match g.rephase with
      | some r => (true, r.stepTick.toNat, r.c)
      | none => (false, 0, 0)
    let flags := b2n (unlockedNow s) + 2 * b2n degraded + 8 * b2n re + 16 * b2n alarm
    sealMsg ([BitVec.ofNat 8 (if g.lead then 0 else g.hop.toNat), BitVec.ofNat 8 flags] ++ beBytes 6 g.tick.toNat ++
      beBytes 6 step ++ int4 c ++ beBytes 2 g.segOut.toNat ++ [ap, as_])

/-- The joined packages below a follower, as the latest upstream message says: its sender, where it is JOINED,
and those below the sender, which stay joined to a package that has lost the tick (R49, R52). -/
def joinedBelow (g : GridState) : Nat := min 2 (msgNat g.upIn 1 1 % 2 + msgNat g.upIn 4 1)

/-- The joined packages that an upstream message speaks of: its sender where it is JOINED, and below it BELOW
packages, those whose segments have a delay within 500 ns first (DEDUCED, log entry 116; R49). -/
def joinedHops (m : Bytes) : List Nat :=
  let h := msgNat m 0 1
  let measured := [1, 2].filter (fun k => decide (msgNat m (6 + 2 * k) 2 ≤ 2000))
  let below := (measured.take (msgNat m 4 1)).map (h + ·)
  ((if msgNat m 1 1 % 2 = 1 then [h] else []) ++ below).filter (fun x => decide (1 ≤ x ∧ x ≤ 3))

/-- A follower's upstream message (R49). -/
def upMessage (s : State) : Bytes :=
  let g := s.grid
  if g.lead || g.hop = 0 then []
  else
    let (alarm, ap, as_) := alarmField g g.relayUp
    let d := fun (k : Nat) => if g.upIn.isEmpty then 0xFFFF else msgNat g.upIn (6 + 2 * k) 2
    sealMsg ([BitVec.ofNat 8 g.hop.toNat, BitVec.ofNat 8 (b2n g.joined + 2 * b2n (unlockedNow s) + 4 * b2n alarm), ap, as_,
      BitVec.ofNat 8 (joinedBelow g), 0] ++ beBytes 2 g.segIn.toNat ++ beBytes 2 (d 0) ++ beBytes 2 (d 1))

/-- The messages of a tick frame; the alarms that they carry have then been sent (R48 to R50). -/
def sendMessages (s : State) : State :=
  let down := downMessage s
  let up := upMessage s
  s.onGrid (fun g =>
    let own := !g.alarmOut.isEmpty
    { g with
      downMsg := down, upMsg := up, upIn := if g.lead then g.upIn else []
      alarmOut := if down.isEmpty then g.alarmOut else g.alarmOut.drop 1
      relayDown := if own then g.relayDown else g.relayDown.drop 1
      relayUp := if own then g.relayUp else g.relayUp.drop 1 })

/-! ### The line (R47) -/

/-- What a package drives on a pair of the grid link. -/
inductive LinkDrive where
  | released | preamble | tickMark | downstream | echoMark | upstream
  deriving DecidableEq, Repr

/-- GRID_OUT now: the preamble 0.40 us before the own tick, the tick mark, whose leading edge is the tick, and
the downstream message. -/
def gridOut (s : State) : LinkDrive :=
  let d := s.grid.now - s.grid.tickAt
  if !sendsFrames s then .released
  else if s.grid.gap ≤ d + 160 then .preamble
  else if d < 40 then .tickMark
  else if d < 1640 then .downstream
  else .released

/-- GRID_IN of a follower now: the echo mark of a follower that is not joined, and the upstream message, whose
place in the frame counts from the upstream package's tick. -/
def gridIn (s : State) : LinkDrive :=
  let d := ((s.grid.now : Int) - s.grid.upTick) % (s.grid.rate : Int)
  let echo : Bool := match s.grid.echoAt with
    | some t => decide (t ≤ (s.grid.now : Int) ∧ (s.grid.now : Int) < t + 40)
    | none => false
  if s.grid.lead || !sendsFrames s then .released
  else if echo then .echoMark
  else if 24000 ≤ d ∧ d < 25760 then .upstream
  else .released

/-- A message is discarded for its CRC (R49). -/
def badMessage (s : State) : State :=
  (s.onGrid (fun g => { g with glCrcErr := g.glCrcErr + 1 })).onAsm (fun a =>
    { a with cnt := { a.cnt with glCrc := satAdd 4294967295 a.cnt.glCrc } })

/-! ### Losing and regaining the tick (R51 to R53) -/

/-- A follower loses the tick: its grid goes on at the rate it last tracked, and it changes to its own
numbering at its next grid instant (R52). To rejoin it repeats frames 3 to 12 of R51. -/
def loseTick (s : State) : State :=
  setTState (s.onGrid (fun g => { g with
    joined := false, marks := 2, echoSent := 0, echoAt := none, segIn := 0xFFFF, gap := g.rate })) .followLost

/-- GL_LONG, at its first finding (R51). -/
def longSegment (s : State) (d : Nat) : State :=
  if s.grid.glLong then s
  else glb (raise (s.onGrid (fun g => { g with glLong := true })) 50 s.grid.hop.toNat (BitVec.ofNat 32 d)) 8

/-- How far a follower's tick lies before the received mark less the measured delay d of its segment, in
steps (R51): an unmeasured segment corrects nothing. -/
def tickError (g : GridState) (arrival : Int) : Int :=
  if g.segIn = 0xFFFF then arrival else arrival - rnd (g.segIn.toNat : Int) 10

/-- A shift of whole ticks taken off: the shortest that moves the ticks onto the same multiples (R45). -/
def nearTick (e : Int) : Int := (e + halfTick) % 50000 - halfTick

/-- Frame 12 of R51: the follower takes the lead's tick, `e` from its own, and its hop count as its package
number: at once at its start, and by a re-phase once its grid has numbers of its own (R52). -/
def joinGrid (s : State) (e : Int) : State :=
  if s.mode.inDisc then
    startSow (setTState (s.onGrid (fun g => { g with
      joined := true, pkg := g.hop, glLong := false, echoAt := none, rate := 50000
      gap := (50000 + e).toNat })) .follow)
  else if s.grid.rephase.isNone then startRephase s (nearTick e) none
  else s

/-- The count of frames and echo marks after one more mark that a follower that is not joined accepts (R51):
from the third frame on it drives an echo mark 50.00 us after the tick mark. While the lead's time is degraded
the count does not pass its second frame (R53). SEG_DELAY counts once eight echo marks have been sent. -/
def joiningFrame (g : GridState) (consecutive : Bool) (arrival : Int) (seg : BitVec 16) : GridState :=
  let n := if consecutive || 2 ≤ g.marks then min 12 (g.marks + 1) else 1
  let g := { g with markAt := g.now }
  if g.leadDegraded then { g with marks := min 2 n, echoSent := 0, echoAt := none, segIn := 0xFFFF }
  else if n < 3 then { g with marks := n, echoSent := 0, echoAt := none, segIn := 0xFFFF }
  else
    { g with
      marks := n, echoSent := min 8 (g.echoSent + 1), echoAt := some (g.tickAt + arrival + 20000)
      segIn := if g.echoSent < 8 then 0xFFFF else seg }

/-- A mark accepted by a follower that is not joined (R51). -/
def joiningMark (s : State) (arrival : Int) (m : Bytes) : State :=
  let consecutive := decide (s.grid.now ≤ s.grid.markAt + 50400)
  let hop := BitVec.ofNat 2 (msgNat m 0 1 + 1)
  let s := s.onGrid (fun g => joiningFrame g consecutive arrival (BitVec.ofNat 16 (msgNat m 18 2)))
  let s := if 2 ≤ s.grid.marks then
      s.onGrid (fun g => { g with hop := hop })
    else s
  if s.grid.marks < 12 ∨ s.grid.segIn = 0xFFFF then
    if s.mode.inDisc then s.onGrid (fun g => { g with gap := (50000 + arrival).toNat }) else s
  else if 2000 < s.grid.segIn.toNat then longSegment s s.grid.segIn.toNat
  else joinGrid (s.onGrid (fun g => { g with glLong := false })) (tickError s.grid arrival)

/-- A mark accepted by a joined follower: its tick follows at the mark's rate, and a re-phase is relayed
(R45, R52). A step that its grid makes at this tick stays (R45). -/
def joinedMark (s : State) (e : Int) (m : Bytes) : State :=
  let s := s.onGrid (fun g => { g with
    markAt := g.now, gap := if g.markAt < g.tickAt then (g.gap + e).toNat else g.gap, rate := (50000 + e).toNat })
  if s.grid.leadDegraded then loseTick s
  else if msgNat m 1 1 / 8 % 2 = 1 ∧ s.grid.rephase = none ∧ s.grid.tick.toNat < msgNat m 8 6 then
    let r : Rephase :=
      { stepTick := BitVec.ofNat 48 (msgNat m 8 6), c := clampI (-halfTick) halfTick (sgn 32 (msgNat m 14 4))
        offset := none, relayed := true }
    s.onGrid (fun g => { g with rephase := some r })
  else s

/-- A downstream message at a follower (R48, R50 to R53); `arrival` is when its tick mark arrived, in steps
after the follower's own latest tick. Where the tick that it marks lies nearer to the follower's next one, the
latest one has the number before it. -/
def downRx (s : State) (arrival : Int) (m : Bytes) : State :=
  if s.grid.lead || !s.mode.booted then s
  else if !msgOk m then badMessage s
  else if msgNat m 0 1 = 3 then s
  else if s.grid.joined && decide (400 < (tickError s.grid arrival).natAbs) then s
  else
    let flags := msgNat m 1 1
    let alarm := flags / 16 % 2 == 1
    let e := tickError s.grid arrival
    let late := !s.grid.joined && !s.mode.inDisc && decide (halfTick < e)
    let s := s.onGrid (fun g => { g with
      upTick := g.tickAt + e
      trueNum := BitVec.ofNat 48 (msgNat m 2 6) - (if late then 1 else 0), leadTick := BitVec.ofNat 48 (msgNat m 2 6)
      leadUnlocked := flags % 2 == 1, leadDegraded := flags / 2 % 2 == 1
      relayDown := if alarm then g.relayDown ++ [(BitVec.ofNat 8 (msgNat m 20 1), BitVec.ofNat 8 (msgNat m 21 1))]
        else g.relayDown })
    let s := if s.grid.joined then joinedMark s e m else joiningMark s arrival m
    if alarm then fireAlarm s 11 else s

/-! ### Upstream (R49, R51, R52) -/

/-- The lead has heard from a joined follower. -/
def heard (m : Bytes) (s : State) (h : Nat) : State :=
  let new_ := !s.grid.members.contains h
  let s := s.onGrid (fun g =>
    let ms := if new_ then g.members ++ [h] else g.members
    { g with
      members := ms, joinedCnt := BitVec.ofNat 2 ms.length
      upAt := Tbl.set (fun _ => 0) g.upAt h g.now
      absent := g.absent &&& ~~~BitVec.ofNat 3 (2 ^ (h - 1)) })
  if new_ then glb (raise s 11 h (BitVec.ofNat 32 (msgNat m (6 + 2 * (h - msgNat m 0 1)) 2))) 8 else s

/-- What an upstream message says of the segment below: once the package there is no longer JOINED, its
segment is to be measured again, and d is not measured until eight new echo marks have arrived (R51, R52). -/
def belowState (g : GridState) (h : Nat) (joined : Bool) : GridState :=
  let own := if g.lead then 0 else g.hop.toNat
  if h ≠ own + 1 then g
  else if joined then { g with belowJoined := true }
  else if g.belowJoined then { g with belowJoined := false, segOut := 0xFFFF, echoes := [] }
  else g

/-- An upstream message (R49, R50, R51). -/
def upRx (s : State) (m : Bytes) : State :=
  if !s.mode.booted then s
  else if !msgOk m then badMessage s
  else
    let h := msgNat m 0 1
    let joined := msgNat m 1 1 % 2 = 1
    let alarm := msgNat m 1 1 / 4 % 2 == 1
    let s := s.onGrid (fun g => { g with
      upIn := m
      relayUp := if alarm && !g.lead then g.relayUp ++ [(BitVec.ofNat 8 (msgNat m 2 1), BitVec.ofNat 8 (msgNat m 3 1))]
        else g.relayUp })
    let s := s.onGrid (fun g => belowState g h (decide joined))
    let s := if s.grid.lead then (joinedHops m).foldl (heard m) s else s
    if alarm then fireAlarm s 11 else s

/-- An echo mark's arrival in 0.25 ns steps after the package's own tick; after eight, the delay d
(R51). -/
def echoRx (s : State) (a : Nat) : State :=
  let es := s.grid.echoes ++ [a]
  if es.length < 8 then s.onGrid (fun g => { g with echoes := es })
  else
    let hi := es.foldl max 0
    let lo := es.foldl min hi
    let d := rnd ((es.sum : Int) - 1600000) 16
    s.onGrid (fun g => { g with
      echoes := [], segOut := if 20 < hi - lo then g.segOut else BitVec.ofNat 16 (clampI 0 65534 d).toNat })

/-! ### Meanings -/

/-- DOWNSTREAM_MESSAGE (R48): a tick mark with its message arrives on GRID_IN. -/
def execDownstreamMessage (dt : Nat) (arrival : Int) (msg : List Byte) (s : State) : Out :=
  run dt s (fun s => downRx s arrival msg)

/-- UPSTREAM_MESSAGE (R49): an upstream message arrives on GRID_OUT. -/
def execUpstreamMessage (dt : Nat) (msg : List Byte) (s : State) : Out := run dt s (fun s => upRx s msg)

/-- ECHO_MARK (R51): the upstream package stamps an echo arrival. -/
def execEchoMark (dt : Nat) (arrival : Nat) (s : State) : Out :=
  run dt s (fun s => if s.mode.booted then echoRx s arrival else s)

/-- FOLLOW_LOST (R52): two consecutive tick frames without an accepted mark. -/
def execFollowLost (s : State) : Out :=
  .next (
    if s.grid.on ∧ s.grid.joined ∧ s.grid.tstate = .follow ∧ s.grid.markAt + 100400 ≤ s.grid.now then loseTick s else s)

/-- FOLLOWER_LOST (R52): eight tick frames without a good upstream message from a follower. -/
def execFollowerLost (hop : Fin 4) (s : State) : Out :=
  .next (
    if s.grid.lead ∧ s.grid.members.contains hop.val ∧ s.grid.now = s.grid.tickAt ∧
        Tbl.get (fun _ => 0) s.grid.upAt hop + 400000 ≤ s.grid.now then
      markAbsent s hop
    else s)

/-- REPHASE (R42): a write of 1 to REPHASE on a host port. -/
def execRephase (dt : Nat) (p : Port) (s : State) : Out :=
  hostWrite dt p s (fun s => if p = .u ∨ s.mode.restarting ∨ s.upd.pauseA.isSome ∨ s.mode.dev = .off then s else hostRephase s)

end Sys2Proof.Machine
end

