-- ==== Sys2Proof/Machine/Views.lean ====
section
/-!
DEFINITION. What a read returns: the direct registers (R310 to R348) and the words of the indirect
space (R350 to R372), with the holding area (R370, R371), the latest-snapshot window (R242), and the
hoard window in both of its uses (R475, R498).
-/

namespace Sys2Proof.Machine

/-! ### Direct registers -/

/-- DEV_STATE (R324). -/
def devStateWord (s : State) : Word :=
  pack [(28, 4, s.mode.dev.code), (26, 2, s.grid.pkg.toNat), (25, 1, b2n s.grid.lead),
    (24, 1, b2n (!s.mode.dev.readClears)), (20, 4, s.mode.cause.toNat), (0, 16, s.upd.fwVersion.toNat)]

/-- PORT_INFO (R325). -/
def portInfoWord (s : State) (p : Port) : Word :=
  let host := p != .u
  pack [(30, 2, portNum p), (28, 2, (s.port p).pstate.code), (27, 1, b2n ((s.port p).sess == .opened)),
    (24, 2, if host then (s.port p.other).pstate.code else 0), (0, 16, s.epoch.toNat)]

/-- ALARM_STATUS of a port (R329). -/
def alarmWord (s : State) (p : Port) : Word :=
  let copy := if p = .u then
      pack ((List.range 23).map (fun n => (n, 1, b2n ((Tbl.get (fun _ => none) s.alarm.lastAt n).any (fun t => decide (0 ≤ t))))))
    else sqWord (s.port p).alarm
  copy ||| pack [(23, 1, b2n s.alarm.lockdown)]

/-- SUPPLY_STATUS of a port (R331). -/
def supplyWord (s : State) (p : Port) : Word :=
  sqWord (s.port p).supply ||| pack [(2, 1, b2n s.mode.vbatWarn), (1, 1, b2n s.mode.vbatSusp)]

/-- CAPTURE_STATUS (R334). -/
def captureWord (s : State) : Word :=
  pack [(30, 2, s.cap.cstate.code), (24, 6, s.cap.ccount.toNat), (0, 24, s.cap.tick.toNat)]

/-- IND_STATUS (R335). -/
def indStatusWord (x : IndStatus) : Word :=
  pack [(31, 1, b2n x.torn), (30, 1, b2n x.busy), (29, 1, b2n x.burstCrc), (28, 1, b2n x.denied),
    (27, 1, b2n x.addr), (5, 22, x.first.toNat), (0, 5, x.count.toNat)]

/-- GRID_STATUS (R337). -/
def gridStatusWord (s : State) : Word :=
  let g := s.grid
  pack [(29, 3, g.tstate.code), (28, 1, b2n g.degraded), (27, 1, b2n g.unlocked), (26, 1, b2n g.glLong),
    (24, 2, if g.lead then g.joinedCnt.toNat else g.hop.toNat), (21, 3, g.absent.toNat), (16, 5, g.glCrcErr.toNat),
    (0, 16, uns 16 g.phaseErr)]

/-- SESSION_CTL of a port (R339). -/
def sessionWord (s : State) (p : Port) : Word :=
  let x := s.port p
  pack [(26, 2, x.sess.code), (20, 6, min 63 (recent s.grid.now second x.fails).length), (10, 10, x.lease.toNat),
    (0, 10, x.hb.toNat)]

/-- LANE_FAULT_SUMn (R341). -/
def laneFaultSum (s : State) (n : Nat) : Word :=
  pack ((List.range 32).map (fun b => (b, 1, b2n (laneFault s (32 * n + b)))))

/-- REGION_STATUSg of a port (R342). -/
def regionStatusWord (s : State) (p : Port) (g : Nat) : Word :=
  let r := s.region g
  sqWord (Tbl.get (fun _ => {}) (s.port p).region g) |||
    pack [(14, 2, r.power.code), (13, 1, b2n r.warn), (12, 1, b2n r.sowing), (0, 8, uns 8 r.dll)]

/-- EVQ_DATA of a port (R344). -/
def evqWord (x : PortState) : Word := pack [(24, 8, if x.evq.isEmpty then 0 else 2), (0, 16, x.evq.length)]

/-- EVQ_CTL of a port (R344). -/
def evqCtlWord (x : PortState) : Word := pack [(16, 8, x.dropped.toNat), (0, 8, x.stall.toNat)]

/-- UPDATE_CTL (R345): Port U sees the block-transfer fields, the other ports the policy fields. -/
def updateCtlWord (s : State) (p : Port) : Word :=
  if p = .u then pack [(0, 8, s.upd.block.toNat)]
  else pack [(23, 1, b2n s.upd.uEnable), (22, 1, b2n s.upd.runActivate)]

/-- UPDATE_STATUS (R346). -/
def updateStatusWord (s : State) : Word :=
  let u := s.upd
  pack [(29, 3, u.ustate.code), (24, 5, u.error.toNat), (23, 1, b2n u.bankB), (22, 1, b2n s.nv.oldCfg),
    (12, 9, u.taken.length), (0, 8, u.lastBlock.toNat)]

/-- HOARD_CTL (R347). -/
def hoardCtlWord (s : State) : Word :=
  let h := s.hoard
  pack [(31, 1, b2n h.arm), (29, 1, b2n h.expo), (28, 1, b2n h.expoPort), (26, 2, h.hmode.toNat), (16, 8, h.pre.toNat)]

/-- HOARD_STATUS (R347). -/
def hoardStatusWord (s : State) : Word :=
  let h := s.hoard
  pack [(29, 3, h.hstate.code), (28, 1, b2n h.gap), (16, 12, ringBytes h.ring / 1024), (0, 16, h.drops.toNat)]

/-- MODE_REQ (R348). -/
def modeReqWord (s : State) : Word := pack [(8, 2, s.mode.result.code), (0, 4, s.mode.target.toNat)]

/-- What a port reads of a staged word: the values in force with VIEW = 1, else its staging copy
(R313). -/
def viewWord (s : State) (p : Port) (k : Nat) : Word :=
  if (s.port p).view then calNow s k &&& cfgMask k else s.staged p k &&& cfgMask k

/-- Whether an offset is a direct register (R310, R311). -/
def dirMapped (off : Nat) : Bool :=
  decide (off % 4 = 0 ∧ off ≤ 0x1FC) &&
    !(off == 0x03C || off == 0x0EC || off == 0x0F8 || off == 0x0FC || off == 0x108 || off == 0x10C ||
      decide (0x114 ≤ off ∧ off ≤ 0x17C))

/-- Whether a port reads a direct register (R306, R311). -/
def dirReads (p : Port) (off : Nat) : Bool :=
  match p with
  | .u => off == 0x000 || off == 0x004 || off == 0x008 || off == 0x00C || off == 0x040 || off == 0x044 || off == 0x048 ||
      off == 0x04C || off == 0x0F0 || off == 0x0F4 || off == 0x104
  | _ => dirMapped off

/-- Whether a port writes a direct register (R306, R311, R344). -/
def dirWrites (p : Port) (off : Nat) : Bool :=
  match p with
  | .u => off == 0x00C || off == 0x040 || off == 0x044 || off == 0x048 || off == 0x04C || off == 0x0F0
  | _ => dirMapped off && off != 0x0E4

/-- A direct register as a port reads it (R310); IND_DATA is read through the indirect space. -/
def dirWord (s : State) (p : Port) (off : Nat) : Word :=
  let x := s.port p
  if off = 0x000 then devId
  else if off = 0x004 then devStateWord s
  else if off = 0x008 then portInfoWord s p
  else if off = 0x00C then sqWord x.crcErr
  else if off = 0x010 then sqWord x.glb
  else if off = 0x014 then x.irqEn
  else if off = 0x018 then alarmWord s p
  else if off = 0x01C then viewWord s p kAlarmPolicy
  else if off = 0x020 then supplyWord s p
  else if off = 0x024 then viewWord s p kSupplyThresh
  else if off = 0x028 then s.lock.setWidth 32
  else if off = 0x030 then cstatWord s.cstat
  else if off = 0x038 then captureWord s
  else if off = 0x040 then x.indAddr.setWidth 32
  else if off = 0x048 then pack [(0, 1, b2n x.view)]
  else if off = 0x04C then indStatusWord x.indStat
  else if off = 0x050 then viewWord s p kGridCtl
  else if off = 0x054 then gridStatusWord s
  else if off = 0x058 then BitVec.ofNat 32 (gridTime s.grid.tick)
  else if off = 0x05C then BitVec.ofNat 32 (gridTime s.grid.tick / 4294967296)
  else if off = 0x060 then sessionWord s p
  else if 0x064 ≤ off ∧ off ≤ 0x07C then x.words.getD ((off - 0x064) / 4) 0
  else if 0x080 ≤ off ∧ off < 0x0C0 then laneFaultSum s ((off - 0x080) / 4)
  else if 0x0C0 ≤ off ∧ off < 0x0E0 then regionStatusWord s p ((off - 0x0C0) / 4)
  else if off = 0x0E0 then sqWord x.queue
  else if off = 0x0E4 then evqWord x
  else if off = 0x0E8 then evqCtlWord x
  else if off = 0x0F0 then updateCtlWord s p
  else if off = 0x0F4 then updateStatusWord s
  else if off = 0x100 then hoardCtlWord s
  else if off = 0x104 then hoardStatusWord s
  else if off = 0x110 then modeReqWord s
  else if 0x180 ≤ off ∧ off ≤ 0x1FC then Tbl.get (fun _ => 0) s.mode.wb off
  else 0

/-! ### Bytes as words -/

/-- The word at an offset of a byte string, zeros beyond its end (R8). -/
def wordOf (bs : Bytes) (off : Nat) : Word := BitVec.ofNat 32 (beNat (fit 4 0 ((bs.drop off).take 4)))

/-- A word of two 16-bit halves. -/
def halves (hi lo : Nat) : Word := pack [(16, 16, hi), (0, 16, lo)]

/-- The high or low word of a 48-bit number (R357, R360, R367, R370). -/
def hiWord (x : BitVec 48) : Word := BitVec.ofNat 32 (x.toNat / 4294967296)
def loWord (x : BitVec 48) : Word := BitVec.ofNat 32 x.toNat

/-! ### The latest-snapshot window (R239, R242) -/

/-- The word of the population map from table index `i` on: four bytes of eight indices each. -/
def mapWord (x : Snap) (i : Nat) : Word :=
  pack ((List.range 32).map (fun b => (24 - 8 * (b / 8) + b % 8, 1, b2n (x.recs.any (fun r => r.idx == i + b)))))

/-- A word of a snapshot in its layout. -/
def snapWord (x : Snap) (off : Nat) : Word :=
  if off < 0x40 then wordOf (snapHeader x) off
  else if off < 0x440 then mapWord x (8 * (off - 0x40))
  else
    let k := (off - 0x440) / 8
    match x.recs[k]? with
    | some r => wordOf (recBytes (x.read k r)) (off % 8)
    | none => 0

/-- A word of the window; zeros before the first snapshot. -/
def windowWord (x : Option Snap) (off : Nat) : Word :=
  match x with
  | some x => snapWord x off
  | none => 0

/-! ### The holding area (R370, R371) -/

/-- Two bins of a 16-bit histogram. -/
def binPair (h : Tbl Nat) (off : Nat) : Word :=
  halves (Tbl.get (fun _ => 0) h (off / 2)) (Tbl.get (fun _ => 0) h (off / 2 + 1))

/-- A bin of a 32-bit histogram. -/
def binWord (h : Tbl Nat) (off : Nat) : Word := BitVec.ofNat 32 (Tbl.get (fun _ => 0) h (off / 4))

/-- A word of a lane block. -/
def laneMonWord (m : LaneMon) (off : Nat) : Word :=
  if off = 0x00 then halves (uns 16 m.devMin) (uns 16 m.devMax)
  else if off < 0x24 then binPair m.devHist (off - 0x04)
  else if off = 0x24 then pack [(24, 8, m.hiMin), (16, 8, m.hiMax), (8, 8, m.loMin), (0, 8, m.loMax)]
  else if off < 0x48 then binPair m.loHist (off - 0x28)
  else if off = 0x48 then BitVec.ofNat 32 m.timing
  else if off = 0x4C then BitVec.ofNat 32 m.crc
  else if off = 0x50 then halves m.slips m.frozen
  else if off = 0x54 then halves m.huskCrc m.huskSlip
  else if off = 0x58 then halves m.shed m.deferred
  else if off = 0x5C then BitVec.ofNat 32 m.discarded
  else if off = 0x60 then BitVec.ofNat 32 m.frames
  else 0

/-- A word of a region block. -/
def regionMonWord (m : RegionMon × Word) (off : Nat) : Word :=
  if off = 0x00 then halves m.1.fillMin m.1.fillMax
  else if off = 0x04 then BitVec.ofNat 32 m.1.ctMin
  else if off = 0x08 then BitVec.ofNat 32 m.1.ctMax
  else if off < 0x4C then binWord m.1.ctHist (off - 0x0C)
  else if off = 0x4C then m.2
  else 0

/-- A word of an uplink block. -/
def uplinkMonWord (m : UplinkMon × List Word) (off : Nat) : Word :=
  if off = 0x00 then BitVec.ofNat 32 m.1.latMin
  else if off = 0x04 then BitVec.ofNat 32 m.1.latMax
  else if off < 0x88 then binWord m.1.latHist (off - 0x08)
  else if off < 0x94 then m.2.getD ((off - 0x88) / 4) 0
  else if off = 0x94 then BitVec.ofNat 32 m.1.downs
  else 0

/-- A device counter. -/
def devCounter (c : DevCounters) (off : Nat) : Word :=
  BitVec.ofNat 32 ([c.linkRetries, c.linkLost, c.eccFixed, c.eccSubst, c.lateDropped, c.snapshots, c.glCrc,
    c.sessFails].getD ((off - 0x40) / 4) 0)

/-- A word of the holding area for a capture. -/
def captureAt (c : Capture) (off : Nat) : Word :=
  if off = 0x00 then pack [(24, 8, 1), (0, 6, c.ccount.toNat)]
  else if off = 0x04 then hiWord c.tick
  else if off = 0x08 then loWord c.tick
  else if off = 0x0C then pack [(0, 1, b2n c.restarted)]
  else if off = 0x10 then c.epoch.setWidth 32
  else if off = 0x14 then c.digest
  else if off < 0x40 then 0
  else if off < 0x60 then devCounter c.dev off
  else if off < 0x1000 then 0
  else if off < 0x11000 then
    laneMonWord (Tbl.get (fun _ => {}) c.lanes ((off - 0x1000) / 128)) (off % 128)
  else if off < 0x11800 then
    regionMonWord (Tbl.get (fun _ => ({}, 0)) c.regions ((off - 0x11000) / 256)) (off % 256)
  else if off < 0x12000 then 0
  else if off < 0x12200 then
    uplinkMonWord (Tbl.get (fun _ => ({}, [])) c.uplinks ((off - 0x12000) / 256)) (off % 256)
  else if off < 0x12400 then
    (Tbl.get (fun _ => []) c.streams ((off - 0x12200) / 16)).getD (off % 16 / 4) 0
  else if off < 0x13400 then Tbl.get (fun _ => 0) c.routes ((off - 0x12400) / 4)
  else if off < 0x13500 then
    let w := Tbl.get (fun _ => ((0 : Word), (0 : Word))) c.channels ((off - 0x13400) / 8)
    if off % 8 = 0 then w.1 else w.2
  else 0

/-- A word of the holding area: the latest capture, zeros before the first. -/
def holdingWord (s : State) (off : Nat) : Word :=
  match s.cap.held with
  | c :: _ => captureAt c off
  | [] => 0

/-! ### The hoard window (R475, R498) -/

/-- The status of a replay, 64 bytes (R498). -/
def replayStatus (r : ReplayRun) : Bytes :=
  fit 64 0 ([BitVec.ofNat 8 r.rstate.code, r.reason] ++ beBytes 2 r.lanes.length ++ beBytes 6 r.tick.toNat ++
    beBytes 6 r.gs.toNat ++ beBytes 4 r.compared ++ beBytes 4 r.mismatches ++ beBytes 6 r.firstBad.toNat ++
    beBytes 4 r.taken)

/-- One result entry, 64 bytes (R498). -/
def resultBytes (x : Option ReplayResult) : Bytes :=
  match x with
  | none => []
  | some x => beBytes 6 x.num.toNat ++ [x.matchByte, 0] ++ beBytes 2 x.records.toNat ++ [0, 0] ++
      beBytes 4 x.laneDigest.toNat ++ beBytes 4 x.digest.toNat ++ fit 16 0 x.counts

/-- A word of the result area (R498). -/
def resultWord (r : ReplayRun) (off : Nat) : Word :=
  if off < 0x40 then wordOf (replayStatus r) off
  else if off < 0x100 then 0
  else if off < 0x40100 then
    wordOf (resultBytes (Tbl.get (fun _ => none) r.results ((off - 0x100) / 64))) (off % 64)
  else if off < 0x41000 then 0
  else windowWord r.snap (off - 0x41000)

/-- A word of the hoard window: the frozen trace, or in REPLAY the result area. -/
def hoardWord (s : State) (off : Nat) : Word :=
  if s.mode.dev = .replay then resultWord s.replay off else wordOf (presented s) off

/-! ### The indirect space (R350) -/

/-- Whether an address of Ports H and M is mapped (R350). -/
def indMapped (a : Nat) : Bool :=
  decide (a < 0x04E000 ∨ 0x050000 ≤ a ∧ a < 0x062880 ∨ 0x070000 ≤ a ∧ a < 0x0C9080 ∨ 0x0CA000 ≤ a ∧ a < 0x0EA000 ∨
    0x100000 ≤ a ∧ a < 0x300000)

/-- Whether an address of Port U is mapped (R307). -/
def indMappedU (a : Nat) : Bool :=
  decide (a < 0x1008 ∨ 0x100000 ≤ a ∧ a < 0x300000 ∨ 0x400000 ≤ a ∧ a < 0x800000)

/-- A stream's read-only words (R360). -/
def streamWord (s : State) (k off : Nat) : Word :=
  let x := s.stream k
  let pendId := match x.pend with
    | some y => y.id.toNat
    | none => 0
  let act : BitVec 48 := match x.pend with
    | some y => y.actSnap
    | none => 0
  let high := x.high.getD 0
  if off = 0x20 then pack [(29, 3, x.sstate.code), (28, 1, b2n x.pend.isSome), (16, 8, keyId x), (8, 8, pendId)]
  else if off = 0x24 then BitVec.ofNat 32 x.segUsed
  else if off = 0x28 then BitVec.ofNat 32 x.keyTicks
  else if off = 0x2C then x.sealed
  else if off = 0x30 then x.dropped
  else if off = 0x34 then BitVec.ofNat 32 (selection s k).length
  else if off = 0x38 then hiWord high
  else if off = 0x3C then loWord high
  else if off = 0x40 then hiWord act
  else if off = 0x44 then loWord act
  else 0

/-- An uplink's read-only words (R361). -/
def uplinkWord (s : State) (u : Ul) (off : Nat) : Word :=
  let x := s.uplink u
  if off = 0x0C then pack [(31, 1, b2n x.up), (30, 1, b2n (carrying s u))]
  else if off = 0x10 then x.rxDiscard
  else if off = 0x14 then x.pauseRx
  else if off = 0x18 then x.txFrames
  else 0

/-- A cluster's read-only words (R357). -/
def clusterWord (x : ClusterState) (off : Nat) : Word :=
  if off = 0x00 then pack [(30, 2, x.seq.code), (22, 8, x.parity.toNat), (0, 13, x.prog.toNat)]
  else if off = 0x04 then hiWord x.sowTick
  else if off = 0x08 then loWord x.sowTick
  else 0

/-- A region's read-only words (R231, R359, R182). -/
def regionWord (s : State) (g off : Nat) : Word :=
  let r := s.region g
  if off = 0x3C4 then qstatWord s g
  else if off = 0x3C8 then r.admits
  else if 0x3E0 ≤ off then r.report.getD ((off - 0x3E0) / 4) 0
  else 0

/-- A channel's read-only fields (R378). -/
def chanWord (x : ChanState) (off : Nat) : Word :=
  if off = 0x0 then pack [(23, 1, b2n x.held.isSome)]
  else if off = 0x8 then x.delivered
  else if off = 0xC then x.overflow
  else 0

/-- A word of a lane's access group (R363). -/
def accWord (a : AccGroup) (off : Nat) : Word :=
  if off = 0x0 then pack [(28, 3, a.op.toNat), (24, 4, a.pos.toNat), (16, 8, a.addr.toNat), (12, 4, a.rstate.code),
    (11, 1, b2n a.goBusy), (9, 2, a.port.toNat)]
  else if off = 0x4 then a.data0
  else if off = 0x8 then a.data1
  else 0

/-- The save status words (R367). -/
def saveWord (s : State) (off : Nat) : Word :=
  let c := newerCal s
  let isB := c.isSome && !newerIsA CalCopy.tick CalCopy.valid s.nv.calA s.nv.calB
  let tick : BitVec 48 := match c with
    | some x => x.tick
    | none => 0
  let format : Nat := match c with
    | some x => x.format.toNat
    | none => 0
  if off = 0x824 then pack [(31, 1, b2n s.mode.saveRefused), (30, 1, b2n isB), (0, 16, format)]
  else if off = 0x828 then hiWord tick
  else if off = 0x82C then loWord tick
  else 0

/-- The read-only and live words and fields of the indirect space, by address (R352). -/
def ownWord (s : State) (a : Nat) : Word :=
  if 0x0C0824 ≤ a ∧ a ≤ 0x0C082C then saveWord s (a - 0x0C0000)
  else if 0x074000 ≤ a ∧ a < 0x075000 then routeWord (s.route ((a - 0x074000) / 4))
  else if 0x075000 ≤ a ∧ a < 0x077000 then accWord (s.lane ((a - 0x075000) / 16)).acc (a % 16)
  else if 0x077000 ≤ a ∧ a < 0x078000 then
    (s.ep (epIdx (8 * ((a - 0x077000) / 64) + 1) (a % 64 / 4))).out
  else if 0x078000 ≤ a ∧ a < 0x080000 then (s.ep ((a - 0x078000) / 4)).msg
  else if 0x080000 ≤ a ∧ a < 0x0A0000 then holdingWord s (a - 0x080000)
  else if 0x0A0000 ≤ a ∧ a < 0x0C0000 then windowWord s.asm_.latest (a - 0x0A0000)
  else if 0x100000 ≤ a ∧ a < 0x300000 then hoardWord s (a - 0x100000)
  else match word4 a with
    | .lane n 0x20 => lstatusWord s n
    | .lane n off => if 0x24 ≤ off ∧ off ≤ 0x30 then (s.lane n).sown.getD ((off - 0x24) / 4) 0 else 0
    | .cluster c off => clusterWord (s.cluster c) off
    | .region g off => regionWord s g off
    | .chan c off => chanWord (s.chan c) off
    | .stream k off => streamWord s k off
    | .uplink u off => uplinkWord s (ulOf (u == 1)) off
    | .laneCal _ _ | .regionCal _ _ | .epCal _ _ => calNow s a &&& ~~~(cfgMask a)
    | _ => 0

/-- A word of the indirect space as Port H or M reads it (R350 to R352). -/
def indWord (s : State) (p : Port) (a : Nat) : Word := viewWord s p a ||| ownWord s a

/-- Reading a record of the window finds an error that its bank has meanwhile taken (R243). -/
def indSeen (s : State) (a : Nat) : State :=
  match s.asm_.latest with
  | some x => if 0x0A0440 ≤ a ∧ a < 0x0C0000 then eccRead x.num s ((a - 0x0A0440) / 8) else s
  | none => s

end Sys2Proof.Machine
end

