-- ==== Sys2Proof/Machine/Access.lean ====
section
/-!
DEFINITION. What a write does: the access check of R289 with its RESULT (R284), the staging copies
(R313, R352), ownership (R252, R304, R379), the actions of the direct registers (R310 to R348), and
the endpoint access group (R363, R364).
-/

namespace Sys2Proof.Machine

/-! ### RESULT (R284) -/

/-- What STAT answers: a RESULT code, or BUSY. -/
inductive Result where
  | ok | crc | cmd | addr | owner | secure | locked | seqStale | noSession | auth | replay | state | busy
  deriving DecidableEq, Repr

/-- The RESULT code; BUSY has RESULT 0 (R283). -/
def Result.code : Result → Nat
  | .ok => 0 | .crc => 1 | .cmd => 2 | .addr => 3 | .owner => 4 | .secure => 5 | .locked => 6 | .seqStale => 7
  | .noSession => 8 | .auth => 9 | .replay => 10 | .state => 11 | .busy => 0

/-- The access check of one written word (R289): its result, and the bits that may change. -/
structure Judged where
  res : Result
  mask : Word
  deriving DecidableEq, Repr

def allOnes : Word := 0xFFFFFFFF
/-- A word that is accepted whole. -/
def accepted_ : Judged := { res := .ok, mask := allOnes }
/-- A word whose write is accepted and ignored (R291, R351). -/
def ignored : Judged := { res := .ok, mask := 0 }
/-- A word that is refused whole. -/
def refused (r : Result) : Judged := { res := r, mask := 0 }

/-! ### Ownership (R252, R304, R379) -/

/-- The port that an OWNER code names; the warden owns by any other code. -/
def ownerPort : Nat → Option Port
  | 1 => some .h
  | 2 => some .m
  | _ => none

/-- OWNER and SEC in force of the stream or channel that a word belongs to. -/
def ownerOf (s : State) (a : Nat) : Option (Nat × Bool) :=
  match word4 a with
  | .stream k _ => some (streamOwner s k, bit (s.inForce (aStream k 0)) 28)
  | .matrix c _ => some (chanOwner s c, bit (s.inForce (aChan c 0)) 28)
  | .chan c _ => some (chanOwner s c, bit (s.inForce (aChan c 0)) 28)
  | _ => none

/-- Whether a word holds an OWNER field. -/
def isOwnerWord (a : Nat) : Bool :=
  match word4 a with
  | .stream _ 0x00 => true
  | .chan _ 0x0 => true
  | _ => false

/-- The bits that ownership lets a port write; `none` answers OWNER. -/
def ownerMask (s : State) (p : Port) (a : Nat) (secure : Bool) : Option Word :=
  match ownerOf s a with
  | none => some allOnes
  | some (o, _) =>
    match ownerPort o with
    | none => if secure then some allOnes else none
    | some q =>
      match (s.port q).pstate with
      | .lost => none
      | .reverted => if secure && isOwnerWord a then some 0x60000000 else none
      | _ => if q = p then some allOnes else none

/-! ### The check of a word of the indirect space -/

/-- The bits of a staged area that act at once (R210, R231). -/
def liveMask (a : Nat) : Word :=
  match word4 a with
  | .region _ 0x3C0 => 0x80000000
  | .calGlobal => 0x00000002
  | _ => 0

/-- The secure bits of a word: all of them while SEC = 1 (R360, R378). -/
def secureMask (s : State) (a : Nat) : Word :=
  match ownerOf s a with
  | some (_, true) => allOnes
  | _ => word4Secure (word4 a)

/-- The locked fields that a write would change from their value in force (R10). -/
def lockedBits (s : State) (a : Nat) (d m : Word) : Word :=
  let lk := word4Lock (word4 a)
  if s.lock.getLsbD lk.2 then
    (wordFields (word4 a)).foldl (fun w f =>
      let k := ones f.1 f.2 &&& lk.1 &&& m
      if (d ^^^ s.inForce a) &&& k ≠ 0 then w ||| k else w) 0
  else 0

/-- Whether an address is a live word that acts at once (R352). -/
def isLive (a : Nat) : Bool := decide (0x075000 ≤ a ∧ a < 0x078000)

/-- Whether Port U may write a word of its map now (R307, R439, R494, R502). -/
def judgeU (s : State) (a : Nat) : Judged :=
  if s.mode.dev = .off then refused .state
  else if a < 0x1004 then (if transferOpen s then accepted_ else refused .state)
  else if 0x400000 ≤ a ∧ a < 0x800000 then
    if s.mode.dev = .replay ∧ s.replay.buffer.length + 4 ≤ 1048576 ∧ s.replay.taken % 0x400000 = a - 0x400000 then accepted_
    else refused .state
  else ignored

/-- The check of a staged word: owner, security, state and lock, in that order (R289). -/
def judgeStaged (s : State) (p : Port) (a : Nat) (d : Word) (secure : Bool) : Judged :=
  match ownerMask s p a secure with
  | none => refused .owner
  | some om =>
    let m := (cfgMask a ||| liveMask a) &&& om
    let sec := secureMask s a
    if m = 0 then ignored
    else if !secure && m &&& ~~~sec == 0 then refused .secure
    else
      let m := if secure then m else m &&& ~~~sec
      if s.mode.dev = .off then refused .state
      else if s.upd.migrating && d &&& 2 != 0 && a == aCalGlobal then refused .busy
      else
        let hit := lockedBits s a d m
        if hit ≠ 0 then { res := .locked, mask := m &&& ~~~hit } else { res := .ok, mask := m }

/-- The check of a word that a port writes in its indirect map (R289, R291, R351, R352). -/
def judgeInd (s : State) (p : Port) (a : Nat) (d : Word) (secure : Bool) : Judged :=
  match p with
  | .u => judgeU s a
  | _ =>
    if !indMapped a then ignored
    else if isLive a then (if s.mode.dev = .off then refused .state else accepted_)
    else if cfgGroup a = none then ignored
    else judgeStaged s p a d secure

/-! ### The endpoint access group (R363, R364) -/

/-- Whether a request is refused at once. -/
def accRefused (s : State) (n : Nat) (secure : Bool) : Bool :=
  let a := (s.lane n).acc
  let i := epIdx n a.pos.toNat
  match a.op.toNat with
  | 3 => cfgMode s n != .lin || fld a.data0 31 24 == 0
  | 0 | 2 => cfgMode s n != .aknun || descProto s i == 0
  | 1 => cfgMode s n != .aknun || descProto s i == 0 || (descAttest s i && !secure)
  | _ => true

/-- GO (R364). -/
def submit (s : State) (p : Port) (n : Nat) (secure : Bool) : State :=
  let refuse := accRefused s n secure
  let s := s.onLane n (fun l => { l with acc := { l.acc with
    rstate := .pending, goBusy := false, begun := false, port := BitVec.ofNat 2 p.bits, at_ := s.grid.now } })
  if refuse then accComplete s n .refused none none
  else
    let a := (s.lane n).acc
    happen s n (slotInstant s n) 0x02 a.pos.toNat
      (beBytes 4 (accWord a 0).toNat ++ beBytes 4 a.data0.toNat ++ beBytes 4 a.data1.toNat)

/-- A write to a lane's access group (R363, R364). -/
def accWrite (s : State) (p : Port) (n off : Nat) (d : Word) (secure : Bool) : State :=
  let a := (s.lane n).acc
  let put := fun (f : AccGroup → AccGroup) => s.onLane n (fun l => { l with acc := f l.acc })
  if a.rstate = .pending then
    if off = 0 ∧ bit d 31 then put (fun a => { a with goBusy := true }) else s
  else if off = 0 then
    let s := put (fun a => { a with
      op := BitVec.ofNat 3 (fld d 30 28), pos := BitVec.ofNat 4 (fld d 27 24), addr := BitVec.ofNat 8 (fld d 23 16) })
    if bit d 31 then submit s p n secure else s
  else if off = 4 then put (fun a => { a with data0 := d })
  else if off = 8 then put (fun a => { a with data1 := d })
  else s

/-- A request that has not begun within 256 periods of GO expires (R364). -/
def expire (s : State) (n : Nat) : State :=
  let a := (s.lane n).acc
  if a.rstate = .pending ∧ !a.begun ∧ !diagBegun s n ∧ a.at_ + 256 * period s ≤ s.grid.now then accComplete s n .expired none none else s

/-- A host's write of a LIN output word (R365). -/
def linOutWrite (s : State) (i : Nat) (d : Word) : State :=
  if (s.ep i).routedAt = some s.grid.now then s else s.onEp i (fun e => { e with out := d, outNew := true })

/-! ### Words put in place -/

/-- The record of bits staged in a session, with the bits of one word added or taken away (R300). -/
def noteSecure (secure : Bool) (l : List (Nat × Word)) (a : Nat) (m : Word) : List (Nat × Word) :=
  let old := (l.filter (fun e => e.1 == a)).foldl (fun w e => w ||| e.2) 0
  let rest := l.filter (fun e => e.1 != a)
  let w := if secure then old ||| m else old &&& ~~~m
  if w = 0 then rest else (a, w) :: rest

/-- A word goes to the writing port's staging copy (R313). -/
def stage (s : State) (p : Port) (a : Nat) (d m : Word) (secure : Bool) : State :=
  let s := s.setStaged p a (merge (s.staged p a) d m)
  s.setSecStaged p (noteSecure secure (s.secStaged p) a m)

/-- The next word of a trace is taken (R494); the first begins the loading. -/
def injectWord (s : State) (d : Word) : State :=
  s.onReplay (fun r => { r with
    taken := r.taken + 4, buffer := r.buffer ++ beBytes 4 d.toNat
    rstate := if r.rstate = .waiting then .loading else r.rstate })

/-- A judged word of the indirect space takes effect at the last cycle of its frame (R310, R352). -/
def putInd (s : State) (p : Port) (a : Nat) (d m : Word) (secure : Bool) : State :=
  if m = 0 then s
  else match p with
  | .u =>
    if a < 0x1004 then s.onUpd (fun u => { u with buffer := Tbl.set (fun _ => 0) u.buffer a d })
    else injectWord s d
  | _ =>
    if 0x075000 ≤ a ∧ a < 0x077000 then accWrite s p ((a - 0x075000) / 16) (a % 16) d secure
    else if 0x077000 ≤ a ∧ a < 0x078000 then linOutWrite s (epIdx (8 * ((a - 0x077000) / 64) + 1) (a % 64 / 4)) d
    else
      let s := match word4 a with
        | .region g 0x3C0 => if bit (d &&& m) 31 then flushRegion s g else s
        | .calGlobal => if bit (d &&& m) 1 then calSaveWrite s else s
        | _ => s
      let k := m &&& cfgMask a
      if k = 0 then s else stage s p a d k secure

/-! ### SQ registers (R314 to R316) -/

/-- A port's copy of the SQ fields of a direct register. -/
def sqReg (x : PortState) (off : Nat) : Option SqReg :=
  if off = 0x00C then some x.crcErr
  else if off = 0x010 then some x.glb
  else if off = 0x018 then some x.alarm
  else if off = 0x020 then some x.supply
  else if off = 0x0E0 then some x.queue
  else if 0x0C0 ≤ off ∧ off < 0x0E0 then some (Tbl.get (fun _ => {}) x.region ((off - 0x0C0) / 4))
  else none

/-- The port with that copy replaced. -/
def setSqReg (x : PortState) (off : Nat) (r : SqReg) : PortState :=
  if off = 0x00C then { x with crcErr := r }
  else if off = 0x010 then { x with glb := r }
  else if off = 0x018 then { x with alarm := r }
  else if off = 0x020 then { x with supply := r }
  else if off = 0x0E0 then { x with queue := r }
  else if 0x0C0 ≤ off ∧ off < 0x0E0 then { x with region := Tbl.set (fun _ => {}) x.region ((off - 0x0C0) / 4) r }
  else x

/-- A counter loses what was read or named (R314, R316). -/
def sqSubtract (r : SqReg) (n : BitVec 24) : SqReg :=
  let b := r.bits - n
  { bits := b, seq := if b = 0 then 0 else r.seq }

/-- A sequence write-back whose SEQ is current clears the masked fields (R316). -/
def writeBack (x : PortState) (off : Nat) (d : Word) : PortState :=
  match sqReg x off with
  | none => x
  | some r =>
    let m := BitVec.ofNat 24 d.toNat
    if off = 0x00C then (if m = 0 then x else setSqReg x off (sqSubtract r r.bits)) else setSqReg x off (sqClear r m)

/-- A clear-on-read of what the read returned (R287, R314). -/
def readClear (x : PortState) (off : Nat) (returned : Word) : PortState :=
  match sqReg x off with
  | none => x
  | some r =>
    let m := BitVec.ofNat 24 returned.toNat
    setSqReg x off (if off = 0x00C then sqSubtract r m else sqClear r m)

/-! ### The direct registers -/

/-- The device state that a MODE_REQ TARGET names (R324, R348). -/
def targetState : Nat → Option DevState
  | 0 => some .off | 1 => some .boot | 2 => some .sow | 3 => some .run | 4 => some .sentinel | 5 => some .recover
  | 6 => some .test | 7 => some .replay | 8 => some .lockdown | _ => none

/-- Whether a MODE_REQ write is refused with STATE (R348, R438). -/
def targetRefused (s : State) (d : Word) : Bool :=
  match targetState (fld d 3 0) with
  | none => true
  | some t => modeRefused s t

/-- What an UPDATE_CTL write may not do now (R502, R506, R511, R512). -/
def updateRefused (s : State) (p : Port) (d : Word) (secure : Bool) : Bool :=
  match p with
  | .u => (bit d 27 || bit d 26) && !transferOpen s
  | _ => secure && ((bit d 31 && !activateOk s) || (bit d 30 && s.upd.ustate != .unconfirmed) || (bit d 29 && !rollbackOk s))

/-- The policy fields of UPDATE_CTL that a secure write would change against the lock (R320, R345). -/
def updateLocked (s : State) (p : Port) (d : Word) (secure : Bool) : Word :=
  if p != .u && secure && s.lock.getLsbD 5 then (d ^^^ updateCtlWord s p) &&& 0x00C00000 else 0

/-- Whether a secure frame is required (R305, R320, R330, R348). -/
def needsSecure (s : State) (p : Port) (off : Nat) (d : Word) : Bool :=
  off == 0x01C || off == 0x028 || (off == 0x110 && (fld d 3 0 == 6 || fld d 3 0 == 7)) ||
    (off == 0x060 && bit d 30 && reclaimSecure s p)

/-- Whether the device state forbids a write (R318, R438, R439, R502, R506): in OFF only MODE_REQ and status
clears have an effect. -/
def stateRefuses (s : State) (p : Port) (off : Nat) (d : Word) (secure : Bool) : Bool :=
  (s.mode.dev == .off && off != 0x110 && (sqReg {} off).isNone) ||
    (off == 0x02C && !commitState s) || (off == 0x110 && targetRefused s d) ||
    (off == 0x0F0 && updateRefused s p d secure)

/-- The locked fields of a direct register that a write would change. -/
def dirLocked (s : State) (p : Port) (off : Nat) (d : Word) (secure : Bool) : Word :=
  if off = 0x01C then lockedBits s kAlarmPolicy d allOnes
  else if off = 0x024 then lockedBits s kSupplyThresh d allOnes
  else if off = 0x0F0 then updateLocked s p d secure
  else 0

/-- The check of a write to a direct register (R289). -/
def judgeDir (s : State) (p : Port) (off : Nat) (d : Word) (secure : Bool) : Judged :=
  let hit := dirLocked s p off d secure
  let stale := match sqReg (s.port p) off with
    | some r => r.seq != BitVec.ofNat 8 (fld d 31 24)
    | none => false
  if !dirWrites p off then refused .addr
  else if !secure && needsSecure s p off d then refused .secure
  else if stateRefuses s p off d secure then refused .state
  else if hit ≠ 0 then { res := .locked, mask := ~~~hit }
  else if stale then refused .seqStale
  else accepted_

/-- SESSION_CTL (R302, R305, R339, R393, R395). -/
def sessionWrite (s : State) (p : Port) (d : Word) : State :=
  let s := s.onPort p (fun x => { x with
    lease := BitVec.ofNat 10 (fld d 19 10), hb := BitVec.ofNat 10 (fld d 9 0) })
  let s := if bit d 31 then portReset s p else s
  let s := if bit d 28 then closeWrite s p else s
  let s := if bit d 29 then openSession s p else s
  if bit d 30 then reclaimPort s p else s

/-- A session word (R340, R397): an ordinary write that completes at RESP1 is taken as a request in
CLOSED and as the response in CHALLENGED. -/
def wordWrite (s : State) (p : Port) (off : Nat) (d : Word) (secure : Bool) : State :=
  if off < 0x070 then s
  else
    let s := s.onPort p (fun x => { x with words := setWords x.words ((off - 0x064) / 4) [d] })
    if off = 0x07C ∧ !secure then
      match (s.port p).sess with
      | .closed => takeRequest s p none
      | .challenged => checkResponse s p
      | .opened => s
    else s

/-- EVQ_CTL (R344, R382). -/
def flushQueue (s : State) (p : Port) : State := s.onPort p (fun x => { x with evq := [] })
def evqWrite (s : State) (p : Port) (d : Word) : State :=
  let s := s.onPort p (fun x => { x with stall := BitVec.ofNat 8 (fld d 7 0) })
  if bit d 8 then flushQueue s p else s

/-- UPDATE_CTL from Port U (R345, R502, R503). -/
def updateWriteU (s : State) (d : Word) : State :=
  let b : Byte := BitVec.ofNat 8 (fld d 7 0)
  let s := s.onUpd (fun u => { u with block := b })
  let s := if bit d 28 then abortWrite s else s
  let s := if bit d 27 ∧ transferOpen s then takeWrite s b else s
  if bit d 26 ∧ transferOpen s then verifyWrite s else s

/-- UPDATE_CTL from Port H or M (R345): ABORT is normal, everything else secure. -/
def updateWriteHM (s : State) (d m : Word) (secure : Bool) : State :=
  let w := merge (updateCtlWord s .h) d m
  let s := if secure then s.onUpd (fun u => { u with uEnable := bit w 23, runActivate := bit w 22 }) else s
  let s := if bit d 28 then abortWrite s else s
  let s := if secure ∧ bit d 30 ∧ s.upd.ustate = .unconfirmed then confirmWrite s else s
  if secure ∧ bit d 31 ∧ activateOk s then activateWrite s false
  else if secure ∧ bit d 29 ∧ rollbackOk s then activateWrite s true
  else s

/-- HOARD_CTL (R347): EXPORT changes in a secure frame only. -/
def hoardCtlWrite (s : State) (d : Word) (secure : Bool) : State :=
  let now_ : Bool := match s.hoard.ctlNext with
    | some w => bit w 29
    | none => s.hoard.expo
  hoardWrite s (if secure then d else merge d (pack [(29, 1, b2n now_)]) 0x20000000)

/-- A write of a WB register applies its value, and outside TEST a change is a test-access attempt
(R11, R312). -/
def wbWrite (s : State) (off : Nat) (d : Word) : State :=
  if Tbl.get (fun _ => 0) s.mode.wb off = d then s
  else
    let s := s.onMode (fun m => { m with wb := Tbl.set (fun _ => 0) m.wb off d })
    if s.mode.dev = .test then s else fireAlarm s 10

/-- IND_CTL (R335). -/
def indCtlWrite (s : State) (p : Port) (d : Word) : State :=
  let s := s.onPort p (fun x => { x with view := bit d 0 })
  if p = .u then s else discardWrite s p (BitVec.ofNat 16 (fld d 31 16))

/-- A judged write to a direct register takes effect at its last cycle (R310). -/
def putDir (s : State) (p : Port) (off : Nat) (d m : Word) (secure : Bool) : State :=
  if (sqReg (s.port p) off).isSome then s.onPort p (fun x => writeBack x off d)
  else if off = 0x014 then s.onPort p (fun x => { x with irqEn := d &&& 0x00FFFFF8 })
  else if off = 0x01C then stage s p kAlarmPolicy d (cfgMask kAlarmPolicy &&& m) secure
  else if off = 0x024 then stage s p kSupplyThresh d (cfgMask kSupplyThresh &&& m) secure
  else if off = 0x028 then lockWrite s (BitVec.ofNat 6 d.toNat)
  else if off = 0x02C then commitWrite s p (BitVec.ofNat 16 d.toNat)
  else if off = 0x034 then (if bit d 0 then requestCapture s (bit d 1) else s)
  else if off = 0x040 then s.onPort p (fun x => { x with indAddr := BitVec.ofNat 24 d.toNat })
  else if off = 0x048 then indCtlWrite s p d
  else if off = 0x050 then
    let s := stage s p kGridCtl d (cfgMask kGridCtl &&& m) secure
    if bit d 31 then hostRephase s else s
  else if off = 0x060 then sessionWrite s p d
  else if 0x064 ≤ off ∧ off ≤ 0x07C then wordWrite s p off d secure
  else if off = 0x0E8 then evqWrite s p d
  else if off = 0x0F0 then (if p = .u then updateWriteU s d else updateWriteHM s d m secure)
  else if off = 0x100 then hoardCtlWrite s d secure
  else if off = 0x110 then
    match targetState (fld d 3 0) with
    | some t => modeRequest s t
    | none => s
  else if 0x180 ≤ off then wbWrite s off d
  else s

/-- What a refused direct write still does: a lock violation is an alarm source (R10), and a refused
request shows in MODE_REQ (R348). -/
def refusal (s : State) (off : Nat) (r : Result) : State :=
  match r with
  | .locked => lockViolation s
  | .state => if off = 0x110 then s.onMode (fun m => { m with result := .refused }) else s
  | _ => s

/-- An ordinary or secure write to a direct register, from its check to its last cycle. -/
def writeDir (s : State) (p : Port) (off : Nat) (d : Word) (secure : Bool) : Result × State :=
  let j := judgeDir s p off d secure
  (j.res, if j.res = .ok then putDir s p off d j.mask secure else refusal s off j.res)

/-! ### Meanings: the rows that name one action of a write -/

/-- SEQ_WRITE_BACK (R316): an ordinary WRITE to a register with SQ fields. -/
def execSeqWriteBack (dt : Nat) (p : Port) (off : BitVec 9) (data : Word) (s : State) : Out :=
  hostFrame dt p s (fun s => if (sqReg {} off.toNat).isSome then (writeDir s p off.toNat data false).2 else s)

/-- FLUSH (R228): FLUSH in QCTL. -/
def execFlush (dt : Nat) (p : Port) (g : Region) (s : State) : Out :=
  hostWrite dt p s (fun s => if p = .u then s else flushRegion s g.val)

/-- EVQ_FLUSH (R382): FLUSH in EVQ_CTL. -/
def execEvqFlush (dt : Nat) (p : Port) (s : State) : Out :=
  hostWrite dt p s (fun s => if p = .u then s else flushQueue s p)

/-- CAL_SAVE (R215): CAL_SAVE in CAL_GLOBAL; BUSY while the stores migrate (R509). -/
def execCalSave (dt : Nat) (p : Port) (s : State) : Out :=
  hostWrite dt p s (fun s => if p = .u ∨ s.upd.migrating then s else calSaveWrite s)

/-- RECLAIM (R305): in the frame that the port's items require. -/
def execReclaim (dt : Nat) (p : Port) (s : State) : Out :=
  hostWrite dt p s (fun s =>
    if p = .u ∨ (reclaimSecure s p ∧ (s.port p).sess ≠ .opened) then s else reclaimPort s p)

/-- GO with an OP: an ordinary write of EA_REQ (R363). -/
def goWith (dt : Nat) (p : Port) (n : Lane) (op pos addr : Nat) (s : State) : Out :=
  hostWrite dt p s (fun s =>
    if p = .u then s
    else accWrite s p n.val 0 (pack [(31, 1, 1), (28, 3, op), (24, 4, pos), (16, 8, addr)]) false)

/-- GO_READ (R364). -/
def execGoRead (dt : Nat) (p : Port) (n : Lane) (pos : Pos) (addr : Byte) (s : State) : Out :=
  goWith dt p n 0 pos.val addr.toNat s
/-- GO_WRITE (R364). -/
def execGoWrite (dt : Nat) (p : Port) (n : Lane) (pos : Pos) (addr : Byte) (s : State) : Out :=
  goWith dt p n 1 pos.val addr.toNat s
/-- GO_IDENT (R364). -/
def execGoIdent (dt : Nat) (p : Port) (n : Lane) (pos : Pos) (s : State) : Out := goWith dt p n 2 pos.val 0 s
/-- GO_LIN_DIAG (R364). -/
def execGoLinDiag (dt : Nat) (p : Port) (n : Lane) (s : State) : Out := goWith dt p n 3 0 0 s

/-- EXPIRED (R364). -/
def execExpired (n : Lane) (s : State) : Out := .next (expire s n.val)

end Sys2Proof.Machine
end

