-- ==== Sys2Proof/Machine/Ports.lean ====
section
/-!
DEFINITION. The frames of the control ports (R276 to R301): the header and its checks, STAT, ordinary
frames, bursts, the stall read, secure frames, and transactions that CSN cuts short. A frame of a fixed
length is one command; a burst or a stall read may come in pieces, so that anything else can happen between
two of them (log entry 50).
-/

namespace Sys2Proof.Machine

/-! ### The header (R279, R283, R289) -/

/-- OP of a CMD byte (R279). -/
def opOf (cmd : Byte) : Nat := cmd.toNat / 32

/-- Whether CMD's OP gives the frame the layout of OP `op` on a port: a reserved OP, or one the port does
not offer, takes the layout of a READ (R279, R306). -/
def layoutIs (p : Port) (cmd : Byte) (op : Nat) : Bool :=
  let odd := opOf cmd == 7 || (p == .u && decide (4 ≤ opOf cmd))
  if odd then op == 0 else opOf cmd == op

/-- Whether CMD is refused with RESULT CMD (R279, R284). -/
def badCmd (p : Port) (cmd : Byte) : Bool :=
  cmd.toNat % 32 / 2 != 0 || (cmd.toNat % 2 == 1 && opOf cmd != 4) || opOf cmd == 7 || (p == .u && decide (4 ≤ opOf cmd))

/-- Whether ADDR holds a reserved bit (R279). -/
def badAddr (addr : BitVec 16) : Bool := addr.toNat % 4 != 0 || decide (512 ≤ addr.toNat)

/-- The bytes of CMD and ADDR. -/
def headBytes (cmd : Byte) (addr : BitVec 16) : Bytes := cmd :: beBytes 2 addr.toNat

/-- Whether the device answers BUSY (R22, R285, R507): also above 10 MHz while the core logic runs on
the reference. -/
def busyNow (s : State) (fast : Bool) : Bool := portBusy s || (fast && clkNow s == .reference)

/-- The checks of a header before those of its address and its writes (R289). -/
def headCheck (s : State) (p : Port) (fast crcOk badLen : Bool) (cmd : Byte) : Result :=
  if busyNow s fast then .busy
  else if !crcOk then .crc
  else if badCmd p cmd || badLen then .cmd
  else .ok

/-- What a header does by itself: a failed CRC counts (R301), a good one is a heartbeat (R302). -/
def takeHeader (s : State) (p : Port) (r : Result) : State :=
  match r with
  | .busy => s
  | .crc => countCrc s p
  | _ => s.onPort p (fun x => { x with lastGood := s.grid.now })

/-- STAT (R283), of the view refreshed in state `v` and the rule epoch of the check. -/
def statByte (v : State) (p : Port) (r : Result) : Byte :=
  BitVec.ofNat 8 (128 * b2n (alarmWord v p != 0) + 64 * b2n (attn (v.port p)) + 32 * (v.epoch.toNat % 2) +
    16 * b2n (r == .busy) + r.code)

/-- What the device drove on SDO (R277). -/
def drive (s : State) (p : Port) (bs : Bytes) : State := s.onPort p (fun x => { x with sdo := bs })

/-! ### IND_ADDR and IND_STATUS (R291 to R293, R335) -/

/-- IND_STATUS is cleared at the access check. -/
def clearInd (s : State) (p : Port) : State := s.onPort p (fun x => { x with indStat := {} })

/-- IND_STATUS with FIRST, which the first word with a finding sets. -/
def noteFirst (x : IndStatus) (a : Nat) : IndStatus :=
  if x.denied || x.addr || x.burstCrc then x else { x with first := BitVec.ofNat 22 (a / 4) }

/-- A word in unmapped or vendor space. -/
def noteAddr (s : State) (p : Port) (a : Nat) : State :=
  s.onPort p (fun x => { x with indStat := { noteFirst x.indStat a with addr := true } })
/-- A refused word; for a word of a trace, FIRST is where the host resumes (R494). -/
def noteDenied (s : State) (p : Port) (a : Nat) : State :=
  let a := if p = .u ∧ 0x400000 ≤ a then 0x400000 + s.replay.taken % 0x400000 else a
  s.onPort p (fun x => { x with indStat := { noteFirst x.indStat a with denied := true } })
/-- A word of a snapshot or a capture that is being rewritten (R242, R322). -/
def noteTorn (s : State) (p : Port) : State := s.onPort p (fun x => { x with indStat := { x.indStat with torn := true } })
/-- A word whose CRC-8 failed. -/
def noteBurstCrc (s : State) (p : Port) (a : Nat) : State :=
  s.onPort p (fun x => { x with indStat := { noteFirst x.indStat a with burstCrc := true } })
/-- COUNT. -/
def noteCount (s : State) (p : Port) (n : Nat) : State :=
  s.onPort p (fun x => { x with indStat := { x.indStat with count := BitVec.ofNat 5 n } })
/-- IND_ADDR moves. -/
def setIndAddr (s : State) (p : Port) (a : Nat) : State := s.onPort p (fun x => { x with indAddr := BitVec.ofNat 24 a })

/-- The byte address at IND_ADDR, whose bits 1:0 are ignored (R291). -/
def indAt (s : State) (p : Port) : Nat := (s.port p).indAddr.toNat / 4 * 4

/-- Whether an address is mapped in a port's indirect map. -/
def mapped (p : Port) (a : Nat) : Bool := if p = .u then indMappedU a else indMapped a

/-- One word of the indirect space is read (R291, R307). -/
def readInd (s : State) (p : Port) (a : Nat) : Word × State :=
  if !mapped p a then (0, noteAddr s p a)
  else if p = .u then (if 0x100000 ≤ a ∧ a < 0x300000 then hoardWord s (a - 0x100000) else 0, s)
  else (indWord s p a, indSeen s a)

/-- One word of the indirect space is written in a frame of its own (R284, R291). -/
def writeInd (s : State) (p : Port) (a : Nat) (d : Word) (secure : Bool) : Result × State :=
  let s := if mapped p a then s else noteAddr s p a
  let j := judgeInd s p a d secure
  match j.res with
  | .ok => (.ok, setIndAddr (putInd s p a d j.mask secure) p (a + 4))
  | .locked => (.locked, lockViolation s)
  | r => (r, s)

/-! ### Ordinary frames (R280, R281) -/

/-- The effect of a READ after its header: RESULT, DATA and the state. -/
def readFrameOf (s : State) (p : Port) (addr : BitVec 16) : Result × Word × State :=
  let off := addr.toNat
  if badAddr addr || !dirReads p off then (.addr, 0, s)
  else if off = 0x044 then
    let a := indAt s p
    let (d, s) := readInd (clearInd s p) p a
    (.ok, d, setIndAddr s p (a + 4))
  else
    let d := dirWord s p off
    (.ok, d, if s.mode.dev.readClears then s.onPort p (fun x => readClear x off d) else s)

/-- The effect of a WRITE or SECURE_WRITE after its header. -/
def writeFrameOf (s : State) (p : Port) (addr : BitVec 16) (d : Word) (secure : Bool) : Result × State :=
  let off := addr.toNat
  if badAddr addr then (.addr, s)
  else if off = 0x044 ∧ dirWrites p off then writeInd (clearInd s p) p (indAt s p) d secure
  else writeDir s p off d secure

/-- PORT_READ (R281). -/
def execPortRead (dt : Nat) (p : Port) (fast : Bool) (cmd : Byte) (addr : BitVec 16) (crc : Byte) (s : State) : Out :=
  run dt s (fun s =>
    if !layoutIs p cmd 0 then s
    else
      let hd := headBytes cmd addr
      let r := headCheck s p fast (portCrc hd == crc) false cmd
      let s1 := takeHeader (csnRise s p) p r
      let (r, d, s2) := if r = .ok then readFrameOf s1 p addr else (r, 0, s1)
      let body := statByte s p r :: beBytes 4 d.toNat
      drive s2 p (body ++ [portCrc (hd ++ body)]))

/-- PORT_WRITE (R280). -/
def execPortWrite (dt : Nat) (p : Port) (fast : Bool) (cmd : Byte) (addr : BitVec 16) (data : Word) (crc : Byte)
    (s : State) : Out :=
  run dt s (fun s =>
    if !layoutIs p cmd 1 then s
    else
      let hd := headBytes cmd addr ++ beBytes 4 data.toNat
      let r := headCheck s p fast (portCrc hd == crc) false cmd
      let s1 := takeHeader (csnRise s p) p r
      let (r, s2) := if r = .ok then writeFrameOf s1 p addr data false else (r, s1)
      let st := statByte s p r
      drive s2 p [st, portCrc (hd ++ [st])])

/-! ### Bursts (R290 to R293) -/

/-- The address of word `w` of a burst (R291). -/
def burstAddr (ind : Bool) (base w : Nat) : Nat := if ind then (base + 4 * w) % 0x1000000 else base + 4 * w

/-- The address of a burst's next word. -/
def BurstRun.addr (r : BurstRun) : Nat := burstAddr r.ind r.base r.words
/-- The burst after that word. -/
def BurstRun.stepped (r : BurstRun) : BurstRun := { r with words := r.words + 1 }

/-- The CRC-8 of a burst word (R282). -/
def wordCrc (a : Nat) (d : Word) : Byte := portCrc (beBytes 3 a ++ beBytes 4 d.toNat)

/-- After a completed word: COUNT, and IND_ADDR in an indirect burst (R291, R335). -/
def wordDone (s : State) (p : Port) (ind : Bool) (base w : Nat) : State :=
  let s := noteCount s p (w + 1)
  if ind then setIndAddr s p (burstAddr ind base (w + 1)) else s

/-- The base of a burst: IND_ADDR for ADDR 0x044, otherwise ADDR (R291). -/
def burstBase (s : State) (p : Port) (addr : BitVec 16) : Nat := if addr = 0x044 then indAt s p else addr.toNat

/-- The words whose OWNER and SEC an access check fixes. -/
def ownerWords : List Nat := (List.range 32).map (fun k => aStream k 0) ++ (List.range 32).map (fun c => aChan c 0)

/-- The rules in force (R289). -/
def rulesOf (s : State) : Rules :=
  { lock := s.lock, h := s.h.pstate, m := s.m.pstate, dev := s.mode.dev, owners := ownerWords.map (fun a => (a, s.inForce a)) }

/-- The state under the rules of a header (R289, R292). -/
def underRules (r : Rules) (s : State) : State :=
  r.owners.foldl (fun s e => s.setInForce e.1 e.2)
    { s with
      lock := r.lock
      h := { s.h with pstate := r.h }
      m := { s.m with pstate := r.m }
      mode := { s.mode with dev := r.dev } }

/-- The direct registers of a port, by number, as its view shows them (R285). -/
def portView (s : State) (p : Port) : List Word :=
  (List.range 128).map (fun i => if dirReads p (4 * i) then dirWord s p (4 * i) else 0)

/-- The header of a burst: RESULT, IND_STATUS cleared where it is accepted, and the burst that begins, whose view
was refreshed in the state before the header (R285, R289). -/
def burstHead (s : State) (p : Port) (write fast : Bool) (cmd : Byte) (addr : BitVec 16) (crc : Byte) :
    Result × BurstRun × State :=
  let h := headCheck s p fast (portCrc (headBytes cmd addr) == crc) false cmd
  let s1 := takeHeader s p h
  let r := if h = .ok ∧ badAddr addr then .addr else h
  let num : Option (BitVec 48) := match s1.asm_.latest with
    | some x => some x.num
    | none => none
  let tick : Option (BitVec 48) := match s1.cap.held with
    | c :: _ => some c.tick
    | [] => none
  (r, { write := write, good := h != .busy && h != .crc, ok := r == .ok, ind := addr == 0x044
        base := burstBase s1 p addr, words := 0, failed := false, busy := false, rules := rulesOf s1
        view := portView s p, snap := num, cap := tick, cal := none },
    if r = .ok then (clearInd s1 p).onPort p PortState.viewed else s1)

/-- A capture that the holding area still keeps whole: the latest, or the one before it while nothing is copied
over it (R322). -/
def heldCapture (s : State) (tick : BitVec 48) : Option Capture :=
  match s.cap.held with
  | [] => none
  | c :: cs =>
    if c.tick = tick then some c
    else if s.cap.copying.isSome then none
    else cs.find? (fun c => c.tick == tick)

/-- The calibration entry that an address lies in: its own address and its words, with the values in force (R368,
R369). -/
def calEntry (a : Nat) : Option (Nat × Nat) :=
  match word4 a with
  | .laneCal n _ => some (aLaneCal n 0, 16)
  | .regionCal _ off => some (a - off, 4)
  | .epCal _ off => some (a - off, 4)
  | _ => none

/-- A burst read that comes to a calibration entry takes all its words from one instant (R368, R369, R373). -/
def BurstRun.tied (r : BurstRun) (s : State) (p : Port) : BurstRun :=
  if !r.ind ∨ p = .u then r
  else match calEntry (r.addr / 4 * 4) with
    | none => { r with cal := none }
    | some (b, k) => match r.cal with
      | some (b', ws) => if b' = b then { r with cal := some (b', ws) } else { r with cal := some (b, words b k) }
      | none => { r with cal := some (b, words b k) }
where
  words (b k : Nat) : List Word := (List.range k).map (fun j => (readInd s p (b + 4 * j)).1)

/-- An indirect word of a burst is read (R242, R291, R322): the window and the holding area show what was
latest at the header, and read 0 once its bank or buffer is rewritten; the words of a calibration entry are of one
instant. -/
def readTied (r : BurstRun) (s : State) (p : Port) (a : Nat) : Word × State :=
  if p ≠ .u ∧ 0x080000 ≤ a ∧ a < 0x0A0000 then
    match r.cap with
    | none => (0, s)
    | some t => match heldCapture s t with
      | some c => (captureAt c (a - 0x080000), s)
      | none => (0, noteTorn s p)
  else if p ≠ .u ∧ 0x0A0000 ≤ a ∧ a < 0x0C0000 then
    match r.snap with
    | none => (0, s)
    | some n => match heldSnap s n with
      | some x => (snapWord x (a - 0x0A0000), if 0x0A0440 ≤ a then eccRead n s ((a - 0x0A0440) / 8) else s)
      | none => (0, noteTorn s p)
  else match r.cal with
    | some (b, ws) => if b ≤ a ∧ a < b + 4 * ws.length then (ws.getD ((a - b) / 4) 0, s) else readInd s p a
    | none => readInd s p a

/-- What a word read in a burst clears: the bits that it returned as 1, but for one that an event has set since the
view was refreshed (R287). -/
def clearable (x : PortState) (a : Nat) (d : Word) : Word :=
  if a = 0x00C then d
  else match sqReg x a with
    | some q => d &&& ~~~ (q.again.setWidth 32)
    | none => d

/-- A direct word of a burst is read, from the view of the header (R285, R287); a register out of the port's
reach is refused (R292). -/
def readView (r : BurstRun) (s : State) (p : Port) (a : Nat) : Word × State :=
  if dirReads p a then
    let d := r.view.getD (a / 4) 0
    (d, if r.rules.dev.readClears then s.onPort p (fun x => readClear x a (clearable x a d)) else s)
  else (0, if dirMapped a then noteDenied s p a else s)

/-- The next word of a burst read; with STAT not OK, or during a restart, it is 0 (R290, R301). -/
def readWord (r : BurstRun) (p : Port) (s : State) : Word × State :=
  if !r.ok || r.busy then (0, s)
  else
    let a := r.addr
    let x := if r.ind then readTied r s p a else if a = 0x044 then (0, s) else readView r s p a
    (x.1, wordDone x.2 p r.ind r.base r.words)

/-- The next words of a burst read, each with its CRC. -/
def readWords (p : Port) : Nat → BurstRun → State → Bytes × BurstRun × State
  | 0, r, s => ([], r, s)
  | n + 1, r, s =>
    let r := r.tied s p
    let (d, s) := readWord r p s
    let (bs, r', s) := readWords p n r.stepped s
    (beBytes 4 d.toNat ++ [wordCrc r.addr d] ++ bs, r', s)

/-- One word of a burst, judged under the header's rules and put in place; a refused word sets DENIED, and
one at an offset that is not mapped, or beyond the direct map, is ignored (R291, R292, R311). -/
def burstPut (r : Rules) (p : Port) (ind secure : Bool) (a : Nat) (d : Word) (s : State) : State :=
  if ind then
    if !mapped p a then noteAddr s p a
    else
      let j := judgeInd (underRules r s) p a d secure
      let s := putInd s p a d j.mask secure
      match j.res with
      | .ok => s
      | .locked => lockViolation (noteDenied s p a)
      | _ => noteDenied s p a
  else if !dirMapped a ∨ a = 0x044 then s
  else
    let j := judgeDir (underRules r s) p a d secure
    let s := if j.mask = 0 then s else putDir s p a d j.mask secure
    if j.res = .ok then s else refusal (noteDenied s p a) a j.res

/-- The write of a word reset the device: the ERASE-2 response to a lock violation (R421). The words after
it find no transaction. -/
def resetHit (resets : Nat) (s : State) : Bool := s.mode.resets != resets

/-- The next words of a burst write; a word whose CRC fails ends it (R293), and so does a restart within an
indirect burst (R301). -/
def writeWords (resets : Nat) (p : Port) : List CrcWord → BurstRun → State → BurstRun × State
  | [], r, s => (r, s)
  | x :: xs, r, s =>
    if !r.ok || r.failed || r.busy then (r, s)
    else if wordCrc r.addr x.data ≠ x.crc then ({ r with failed := true }, noteBurstCrc s p r.addr)
    else
      let s := burstPut r.rules p r.ind false r.addr x.data s
      if resetHit resets s then (r, s) else writeWords resets p xs r.stepped (wordDone s p r.ind r.base r.words)

/-- The burst stays open until CSN rises, which ends the transaction (R302). -/
def keepBurst (s : State) (p : Port) (piece : Piece) (r : BurstRun) : State :=
  if piece.stays then s.onPort p (fun x => { x with burst := some r })
  else s.onPort p (fun x => { x with burst := none, lastGood := if r.good then s.grid.now else x.lastGood })

/-- The next completed words of a burst read. -/
def burstReadOn (p : Port) (piece : Piece) (head : Bytes) (words : Nat) (r : BurstRun) (s : State) : State :=
  let (bs, r, s) := readWords p words r s
  keepBurst (drive s p (head ++ bs)) p piece r

/-- The next completed words of a burst write. -/
def burstWriteOn (p : Port) (piece : Piece) (head : Bytes) (words : List CrcWord) (r : BurstRun) (s : State) : State :=
  let x := writeWords s.mode.resets p words r s
  if resetHit s.mode.resets x.2 then x.2 else keepBurst (drive x.2 p head) p piece x.1

/-- The open burst of a port that a part goes on with. -/
def openBurst (s : State) (p : Port) (write : Bool) : Option BurstRun :=
  match (s.port p).burst with
  | some r => if r.write = write then some r else none
  | none => none

/-- A burst read, or a part of one, with its completed words (R290). -/
def burstReadOf (s : State) (p : Port) (piece : Piece) (fast : Bool) (cmd : Byte) (addr : BitVec 16) (crc : Byte)
    (words : Nat) : State :=
  if piece.goesOn then
    match openBurst s p false with
    | some r => burstReadOn p piece [] words r s
    | none => s
  else if !layoutIs p cmd 2 then s
  else
    let (r, run, s1) := burstHead (csnRise s p) p false fast cmd addr crc
    burstReadOn p piece [statByte s p r, 0] words run s1

/-- A burst write, or a part of one, with its completed words (R290). -/
def burstWriteOf (s : State) (p : Port) (piece : Piece) (fast : Bool) (cmd : Byte) (addr : BitVec 16) (crc : Byte)
    (words : List CrcWord) : State :=
  if piece.goesOn then
    match openBurst s p true with
    | some r => burstWriteOn p piece [] words r s
    | none => s
  else if !layoutIs p cmd 3 then s
  else
    let (r, run, s1) := burstHead (csnRise s p) p true fast cmd addr crc
    burstWriteOn p piece [statByte s p r] words run s1

/-- BURST_READ (R290). -/
def execBurstRead (dt : Nat) (p : Port) (how : Clocking) (cmd : Byte) (addr : BitVec 16) (crc : Byte) (words : Nat)
    (s : State) : Out :=
  run dt s (fun s => burstReadOf s p how.piece how.fast cmd addr crc words)

/-- BURST_WRITE (R290). -/
def execBurstWrite (dt : Nat) (p : Port) (how : Clocking) (cmd : Byte) (addr : BitVec 16) (crc : Byte)
    (words : List CrcWord) (s : State) : Out :=
  run dt s (fun s => burstWriteOf s p how.piece how.fast cmd addr crc words)

/-! ### Stall read (R294, R295) -/

/-- The bytes of an item with its sync byte, LEN and CRC; no item is the EMPTY item. -/
def stallBytes (it : Option Item) : Bytes :=
  let body : Bytes := match it with
    | some it => 2 :: itemBytes it
    | none => [0]
  0x5A :: (body ++ [portCrc body])

/-- The header of a stall read. -/
def stallHead (s : State) (p : Port) (fast : Bool) (cmd : Byte) (addr : BitVec 16) (crc : Byte) : Result × State :=
  let r := headCheck s p fast (portCrc (headBytes cmd addr) == crc) false cmd
  let s := takeHeader s p r
  (if r = .ok ∧ addr ≠ 0x0E4 then .addr else r, s)

/-- STALL of a port: at least one byte time. -/
def stallLimit (x : PortState) : Nat := max 1 x.stall.toNat

/-- The stall read is over with these bytes. -/
def stallEnd (s : State) (p : Port) (bs : Bytes) : State :=
  drive (s.onPort p (fun x => { x with stallSent := none, lastGood := s.grid.now })) p bs

/-- A stall read from its byte boundary after STAT, or after `sent` fillers (R294): an item at the head goes at
once; else `fillers` more go, and at the boundary after STALL of them the EMPTY item. A part that ends the read sends
every filler left. -/
def stallOn (s : State) (p : Port) (stays : Bool) (head : Bytes) (sent fillers : Nat) : State :=
  let x := s.port p
  match x.evq with
  | it :: rest =>
    stallEnd (s.onPort p (fun x => { x with evq := rest, lastItem := some it })) p (head ++ stallBytes (some it))
  | [] =>
    let left := stallLimit x - sent
    if stays ∧ fillers ≤ left ∧ 0 < left then
      drive (s.onPort p (fun x => { x with stallSent := some (sent + fillers) })) p (head ++ List.replicate fillers 0)
    else stallEnd s p (head ++ List.replicate left 0 ++ stallBytes none)

/-- STALL_READ, or a part of one (R294, R295). -/
def execStallRead (dt : Nat) (p : Port) (how : StallPart) (cmd : Byte) (addr : BitVec 16) (crc : Byte) (s : State) :
    Out :=
  run dt s (fun s =>
    if how.piece.goesOn then
      match (s.port p).stallSent with
      | some n => stallOn s p how.piece.stays [] n how.fillers
      | none => s
    else if !layoutIs p cmd 4 then s
    else
      let (r, s1) := stallHead (csnRise s p) p how.fast cmd addr crc
      let st := statByte s p r
      if r ≠ .ok then drive s1 p (st :: stallBytes none)
      else if cmd.toNat % 2 = 1 then drive s1 p (st :: stallBytes (s1.port p).lastItem)
      else stallOn s1 p how.piece.stays [st] 0 how.fillers)

/-! ### Secure frames (R296 to R300) -/

/-- The tag of a secure frame (R298). -/
def frameTag (x : PortState) (p : Port) (cmd : Byte) (addr : BitVec 16) (len : Nat) (ctr : Word) (ds : List Word) : Bytes :=
  cmac64 x.kF (x.nonce ++ [portByte p, cmd] ++ beBytes 2 addr.toNat ++ [BitVec.ofNat 8 len] ++ beBytes 4 ctr.toNat ++
    ds.flatMap (fun d => beBytes 4 d.toNat))

/-- The checks of a secure frame: session, counter, tag (R299). An accepted frame sets the counter; a
REPLAY or AUTH is a session failure. -/
def secureCheck (s : State) (p : Port) (cmd : Byte) (addr : BitVec 16) (len : Nat) (ctr : Word) (ds : List Word)
    (tag : Bytes) : Result × State :=
  let x := s.port p
  if x.sess ≠ .opened then (.noSession, s)
  else match acceptCtr s p ctr with
  | none => (.replay, sessionFailure s p)
  | some s' => if frameTag x p cmd addr len ctr ds = tag then (.ok, s') else (.auth, sessionFailure s p)

/-- SECURE_WRITE (R296). -/
def execSecureWrite (dt : Nat) (p : Port) (fast : Bool) (cmd : Byte) (addr : BitVec 16) (data ctr : Word)
    (tag : BitVec 64) (crc : Byte) (s : State) : Out :=
  run dt s (fun s =>
    if !layoutIs p cmd 5 then s
    else
      let hd := headBytes cmd addr ++ beBytes 4 data.toNat ++ beBytes 4 ctr.toNat ++ beBytes 8 tag.toNat
      let r := headCheck s p fast (portCrc hd == crc) false cmd
      let s1 := takeHeader (csnRise s p) p r
      let (r, s2) := if r = .ok then secureCheck s1 p cmd addr 1 ctr [data] (beBytes 8 tag.toNat) else (r, s1)
      let (r, s3) :=
        if r = .ok then
          let (r, s) := writeFrameOf s2 p addr data true
          (r, endSecure s p ctr)
        else (r, s2)
      let st := statByte s p r
      drive s3 p [st, portCrc (hd ++ [st])])

/-- The words of a secure burst, written all together under the rules of its header (R297). -/
def securePuts (resets : Nat) (r : Rules) (p : Port) (ind : Bool) (base : Nat) : Nat → List CrcWord → State → State
  | _, [], s => s
  | w, x :: xs, s =>
    let s := burstPut r p ind true (burstAddr ind base w) x.data s
    if resetHit resets s then s else securePuts resets r p ind base (w + 1) xs (wordDone s p ind base w)

/-- Whether every word of a secure burst carries its CRC-8 (R290, R297). -/
def wordsOk (ind : Bool) (base : Nat) : Nat → List CrcWord → Bool
  | _, [] => true
  | w, x :: xs => wordCrc (burstAddr ind base w) x.data == x.crc && wordsOk ind base (w + 1) xs

/-- The header of a secure burst (R297). -/
def secureHead (s : State) (p : Port) (fast : Bool) (cmd : Byte) (addr : BitVec 16) (len : Byte) (ctr : Word)
    (crc : Byte) : Result × State :=
  let hd := headBytes cmd addr ++ [len] ++ beBytes 4 ctr.toNat
  let r := headCheck s p fast (portCrc hd == crc) (len == 0 || decide (64 < len.toNat)) cmd
  let s := takeHeader s p r
  let r := if r = .ok ∧ (s.port p).sess ≠ .opened then .noSession else r
  (r, if r = .ok then clearInd s p else s)

/-- What a secure burst comes to once its tag has arrived, before any word is written: word and tag CRC,
counter and tag (R297, R299). -/
def secureTag (s : State) (p : Port) (cmd : Byte) (addr : BitVec 16) (ctr : Word) (base : Nat) (words : List CrcWord)
    (tag : Bytes) (tagCrc : Byte) : Result × State :=
  if !wordsOk (addr == 0x044) base 0 words || portCrc tag != tagCrc then (.crc, s)
  else secureCheck s p cmd addr words.length ctr (words.map (fun x => x.data)) tag

/-- The write of an accepted secure burst; four words at 0x070 are a vault request (R397). -/
def secureWrites (v s : State) (p : Port) (addr : BitVec 16) (ctr : Word) (base : Nat) (words : List CrcWord) :
    Result × State :=
  if badAddr addr then (.addr, s)
  else
    let s := securePuts v.mode.resets (rulesOf v) p (addr == 0x044) base 0 words s
    let s := if addr = 0x070 ∧ words.length = 4 ∧ s.mode.dev ≠ .off ∧ !resetHit v.mode.resets s then takeRequest s p (some ctr) else s
    (.ok, s)

/-- SECURE_BURST (R297). -/
def execSecureBurst (dt : Nat) (p : Port) (fast : Bool) (cmd : Byte) (addr : BitVec 16) (len : Byte) (ctr : Word)
    (crc : Byte) (words : List CrcWord) (tag : BitVec 64) (tagCrc : Byte) (s : State) : Out :=
  run dt s (fun s =>
    if !layoutIs p cmd 6 then s
    else
      let (r, s1) := secureHead (csnRise s p) p fast cmd addr len ctr crc
      let st := statByte s p r
      if r ≠ .ok then drive s1 p [st]
      else if words.length ≠ len.toNat then s1
      else
        let tagB := beBytes 8 tag.toNat
        let base := burstBase s p addr
        let (r, s2) := secureTag s1 p cmd addr ctr base words tagB tagCrc
        let (r, s3) :=
          if r = .ok then
            let (r, s) := secureWrites s1 s2 p addr ctr base words
            (r, endSecure s p ctr)
          else (r, s2)
        let fin := statByte s p r
        drive s3 p [st, fin, portCrc (beBytes 4 ctr.toNat ++ tagB ++ [fin])])

/-! ### Transactions cut short (R301) -/

/-- TRANSACTION_ABORT (R301): CSN rises before the frame ends. Completed burst words stand; nothing
else is written, cleared or taken. A header or frame CRC that had been checked counts as in a whole frame, and
the counter of a secure frame is consumed only where its tag had been checked. -/
def execTransactionAbort (dt : Nat) (p : Port) (at_ : CutShort) (s : State) : Out :=
  run dt s (fun s =>
    let fast := at_.fast
    match at_.got with
    | .read cmd addr crc =>
      if !layoutIs p cmd 0 then s
      else
        let r := headCheck s p fast (portCrc (headBytes cmd addr) == crc) false cmd
        let s := takeHeader (csnRise s p) p r
        if r = .ok ∧ addr = 0x044 then clearInd s p else s
    | .write none => csnRise s p
    | .write (some (cmd, addr, data, crc)) =>
      if !layoutIs p cmd 1 then s
      else
        let r := headCheck s p fast (portCrc (headBytes cmd addr ++ beBytes 4 data.toNat) == crc) false cmd
        takeHeader (csnRise s p) p r
    | .burstRead cmd addr crc words => burstReadOf s p .whole fast cmd addr crc words
    | .burstWrite cmd addr crc words => burstWriteOf s p .whole fast cmd addr crc words
    | .stall cmd crc => if !layoutIs p cmd 4 then s else (stallHead (csnRise s p) p fast cmd 0x0E4 crc).2
    | .secureWrite none => csnRise s p
    | .secureWrite (some (cmd, addr, data, ctr, tag, crc)) =>
      if !layoutIs p cmd 5 then s
      else
        let hd := headBytes cmd addr ++ beBytes 4 data.toNat ++ beBytes 4 ctr.toNat ++ beBytes 8 tag.toNat
        let r := headCheck s p fast (portCrc hd == crc) false cmd
        let s1 := takeHeader (csnRise s p) p r
        if r = .ok then
          let (r, s2) := secureCheck s1 p cmd addr 1 ctr [data] (beBytes 8 tag.toNat)
          if r = .ok then endSecure s2 p ctr else s2
        else s1
    | .secureBurst cmd addr len ctr crc words tag =>
      if !layoutIs p cmd 6 then s
      else
        let (r, s1) := secureHead (csnRise s p) p fast cmd addr len ctr crc
        match tag with
        | none => s1
        | some (tagB, tagCrc) =>
          if r ≠ .ok ∨ words.length ≠ len.toNat then s1
          else
            let (r, s2) := secureTag s1 p cmd addr ctr (burstBase s p addr) words tagB tagCrc
            if r = .ok then endSecure s2 p ctr else s2)

/-! ### Any other write -/

/-- REGISTER_WRITE (R313, R352): an ordinary write of a direct register, or of a word of the indirect
space, without a row of its own. -/
def execRegisterWrite (dt : Nat) (p : Port) (indirect : Bool) (addr : BitVec 24) (data : Word) (s : State) : Out :=
  hostFrame dt p s (fun s =>
    let a := addr.toNat / 4 * 4
    if indirect then
      let j := judgeInd s p a data false
      match j.res with
      | .ok => putInd s p a data j.mask false
      | .locked => lockViolation s
      | _ => s
    else (writeDir s p a data false).2)

end Sys2Proof.Machine
end

