-- ==== Sys2Proof/Machine/Rebuild.lean ====
section
/-!
DEFINITION. The inputs of a replayed lane rebuilt from its trace (R218, R487 to R489, R492): symbol bytes
back to pulse lengths through the centres that the replayed loops have reproduced, and edge stamps back
to SENT, PSI5 and LIN frames.
-/

namespace Sys2Proof.Machine

/-! ### Reading bytes -/

/-- A field of a block's body as a number. -/
def fieldN (b : Bytes) (off n : Nat) : Nat := beNat (fit n 0 (b.drop off))

/-- A signed field of a block's body. -/
def fieldI (b : Bytes) (off n : Nat) : Int := sgn (8 * n) (fieldN b off n)

/-- Words of a block's body. -/
def fieldWords (b : Bytes) (off n : Nat) : List Word :=
  (List.range n).map (fun j => BitVec.ofNat 32 (fieldN b (off + 4 * j) 4))

/-- Edges from the first one and the intervals that follow it (R489). -/
def edgesFrom : Nat → Int → Bytes → List Int
  | 0, _, _ => []
  | fuel + 1, t, a :: b :: r =>
    let d := 256 * a.toNat + b.toNat
    if d = 0xFFFF then
      let t := t + (fieldN r 0 4 : Nat)
      t :: edgesFrom fuel t (r.drop 4)
    else (t + (d : Nat)) :: edgesFrom fuel (t + (d : Nat)) r
  | _, _, _ => []

/-! ### Pulses (R488) -/

/-- One measured pulse of a trace: a symbol with its deviation, an escape with the measured difference
(`raw`), or the stamped pulse itself. -/
structure Tok where
  sym : Nat
  dev : Option Int
  raw : Option Int
  pulse : Option Pulse
  deriving DecidableEq, Repr

/-- The symbol bytes of a frame (R488). -/
def toks : Nat → Bytes → List Tok
  | 0, _ => []
  | _, [] => []
  | fuel + 1, x :: r =>
    let sym := x.toNat / 64
    if x.toNat % 64 = 0x20 then
      let v := fieldN r 0 2
      { sym := sym, dev := none, raw := if v = 0xFFFF then none else some (v : Int), pulse := none } ::
        toks fuel (r.drop 2)
    else { sym := sym, dev := some (sgn 6 x.toNat), raw := none, pulse := none } :: toks fuel r

/-- The pulse of a token: `ref` is the measured length that deviation 0 stands for. -/
def tokPulse (og ref : Int) (t : Tok) : Pulse :=
  match t.pulse with
  | some p => p
  | none =>
    let m := match t.dev with
      | some d => some (ref + d)
      | none => t.raw
    { fall := og, rise := match m with
        | some m => some (og + 8 * m)
        | none => none }

/-- A pulse moved so that its falling edge has a given stamp, where the trace holds no stamp of its own. -/
def stampPulse (t : Tok) (stamp : Int) (p : Pulse) : Pulse :=
  if t.pulse.isSome then p
  else { fall := p.fall + 8 * stamp, rise := match p.rise with
          | some r => some (r + 8 * stamp)
          | none => none }

/-- What deviation 0 stands for at an endpoint's pip (R488): the reference and d_E. -/
def pipRef (q : DecodeWith) (tempo : Option Int) (x : Nat) : Int :=
  q.dE + match tempo with
    | none => rnd (q.n11 * q.asc) 65536
    | some lt => rnd (q.scale (200 + 120 * x) * (if q.sprout then scaleIn q.n11 lt else q.asc)) 65536

/-- The struck pips of an answer, up to `k` more, and the tokens after them. -/
def answerPips (q : DecodeWith) : Option Int → Nat → List Tok → List Pulse × List Tok
  | _, 0, ts => ([], ts)
  | _, _, [] => ([], [])
  | tempo, k + 1, t :: ts =>
    let p := tokPulse q.og (pipRef q tempo t.sym) t
    match classify q tempo p with
    | .inl _ => ([p], ts)
    | .inr _ =>
      let lm := match pulseLen q.og p with
        | some m => m - q.dE
        | none => 0
      let r := answerPips q (if tempo.isNone then some lm else tempo) k ts
      (p :: r.1, r.2)

/-- The lane's own pips with their driven lengths, and the tokens after them. -/
def ownPulses (q : DecodeWith) (driven : List Nat) (ts : List Tok) : List Pulse × List Tok :=
  ((driven.zip ts).map (fun x => tokPulse q.og (q.dE + (x.1 : Int)) x.2), ts.drop driven.length)

/-- The symbol of an own pip: what the trace holds, or the nearest driven length (R70, R493). -/
def ownSym (s : State) (n : Nat) (q : DecodeWith) (t : Tok) : Nat :=
  match t.pulse with
  | none => t.sym
  | some p =>
    match pulseLen q.og p with
    | none => 3
    | some m => (List.range 4).foldl (fun a x =>
        if (m - q.dE - (symSteps s n x : Nat)).natAbs < (m - q.dE - (symSteps s n a : Nat)).natAbs then x else a) 0

/-- The frame mark and the header: the symbols shown and the pulses, and the tokens after them. -/
structure HeadWire where
  mark : Pulse
  syms : List Nat
  header : List Pulse
  rest : List Tok
  deriving DecidableEq, Repr

/-- Frame mark and header of a frame; `stamp` is the mark's stamp in a symbol trace. -/
def headWire (s : State) (n : Nat) (q : DecodeWith) (stamp : Int) (ts : List Tok) : Option HeadWire :=
  match ts with
  | [] => none
  | t :: r =>
    let mark := stampPulse t stamp (tokPulse q.og (q.dE + (graded s n 2000 : Nat)) t)
    let syms := (r.take 6).map (ownSym s n q)
    let o := ownPulses q (syms.map (symSteps s n)) r
    some { mark := mark, syms := syms, header := o.1, rest := o.2 }

/-- One answer of a rebuilt harvest: its pips and pacing strike. -/
def answerWire (s : State) (n : Nat) (q : DecodeWith) (struck : Bool) (low : Nat) (ts : List Tok) :
    AnswerWire × List Tok :=
  let a := if struck then answerPips q none 21 ts else ([], ts)
  if a.1.length < 21 then
    let o := ownPulses q [graded s n 100] a.2
    ({ low := low, pips := a.1, pace := o.1.head? }, o.2)
  else ({ low := low, pips := a.1, pace := none }, a.2)

/-- The wire of a harvest frame of positions up to `top`, and the tokens after it. `strike` is the
strike's stamp in a symbol trace. -/
def harvestWire (s : State) (n top cmd : Nat) (num : BitVec 48) (h : HeadWire) (strike : Int) (hi lo : Nat) :
    HarvestWire × List Tok :=
  let q := decodeWith s n 0 (s.lane n).cal.dE
  let (_, dE) := frameHead s n q cmd (if cmd = 0 then 15 else top) h.mark h.header
  let q := { q with dE := dE }
  let sp := match h.rest with
    | t :: _ => stampPulse t strike (tokPulse q.og (dE + (graded s n 100 : Nat)) t)
    | [] => { fall := 0, rise := none }
  let shed := shedding s n ((topDue s n num).getD top) top (shedOrder s n top num)
  let r := (List.range (top + 1)).foldl (fun (a : List AnswerWire × List Tok) p =>
    let struck := !shed.contains p && !(s.ep (epIdx n p)).asleep
    let w := answerWire s n (decodeWith s n p dE) struck lo a.2
    (a.1 ++ [w.1], w.2)) ([], h.rest.tail)
  ({ hi := hi, markLow := lo, mark := h.mark, header := h.header, strike := sp, answers := r.1 }, r.2)

/-- Body symbols of a command (R101). -/
def bodyLen : Nat → Nat
  | 1 => 6 | 2 => 24 | 5 => 6 | 6 => 6 | 7 => 6 | 8 => 6 | 12 => 36 | _ => 0

/-- Answer symbols of a command after its tempo pip (R101). -/
def answerLen : Nat → Nat
  | 1 => 20 | 4 => 36 | 5 => 0 | 6 => 0 | 7 => 0 | _ => 2

/-- The wire of a register-access frame, its body's symbols, and the tokens after it. -/
def frameWire (s : State) (n cmd pos : Nat) (h : HeadWire) (hi lo : Nat) : FrameWire × List Nat × List Tok :=
  let q := decodeWith s n pos (s.lane n).cal.dE
  let (a, dE) := frameHead s n q cmd pos h.mark h.header
  let q := { q with dE := dE, sprout := q.sprout || cmd == 3, stretched := q.stretched && cmd != 3 }
  let syms := (h.rest.take (bodyLen cmd)).map (ownSym s n q)
  let b := ownPulses q (syms.map (symSteps s n)) h.rest
  let whole := (masterPips s n syms b.1).foldl (ownPip q) a
  let k := answerLen cmd
  let ans := if k = 0 || whole.over_ then ([], b.2) else answerPips q none (k + 1) b.2
  let pace := if k = 0 || whole.over_ || ans.1.length = k + 1 then ([], ans.2)
    else ownPulses q [graded s n 100] ans.2
  ({ hi := hi, markLow := lo, mark := h.mark, header := h.header, body := b.1
     answer := { low := lo, pips := ans.1, pace := pace.1.head? } }, syms, pace.2)

/-! ### SENT -/

/-- Every second one of a list, the first included. -/
def evens : List Int → List Int
  | a :: _ :: r => a :: evens r
  | xs => xs

/-- How many falling edges the first frame in a run of falling edges takes, in fine stamps, and how many lie before
the next search (R143); `none` where more edges are needed. -/
def sentCut (s : State) (n : Nat) (fs : List Int) : Option (Nat × Nat) :=
  let k := sentNibbles s n + 2
  let mode := if sentSpc s n then 0 else fld (sentA s n) 14 13
  let len := k + 2 + (if mode = 1 ∨ mode = 2 then 1 else 0)
  match fs with
  | a :: b :: _ =>
    let og := (s.lane n).cal.og
    if !calPulseOk s n (stamp25 og b - stamp25 og a) then some (0, 1)
    else if fs.length < len then none
    else some (len, len - 1)
  | _ => none

/-! ### PSI5 (R149, R153) -/

/-- The bits of a Manchester-coded frame from a mid-bit edge on: a rising middle is 0 and a falling one
1, as PSI5 codes them. Answers the bits, the last middle, and whether every edge lay in its place. -/
def manchester (T : Int) : Nat → Int → Bool → List Int → List Bool × Int × Bool
  | 0, t, _, _ => ([], t, false)
  | _, t, _, [] => ([], t, true)
  | fuel + 1, t, rising, e :: r =>
    if 4 * (e - t) < 3 * T then
      match r with
      | [] => ([], t, true)
      | m :: r =>
        let ok := decide (4 * (m - t - T).natAbs ≤ T.natAbs ∧ 4 * (2 * (e - t) - T).natAbs ≤ 2 * T.natAbs)
        let d := manchester T fuel m rising r
        ((!rising) :: d.1, d.2.1, d.2.2 && ok)
    else
      let ok := decide (4 * (e - t - T).natAbs ≤ T.natAbs)
      let d := manchester T fuel e (!rising) r
      (rising :: d.1, d.2.1, d.2.2 && ok)

/-- A PSI5 frame of fine stamps (R153, R201): `sync` is the stamp of the sync start in steps. -/
def psi5Wire (s : State) (n : Nat) (sync : Int) (edges : List Int) (lo hi : Int) : Psi5Wire :=
  let og := (s.lane n).cal.og
  let T : Int := if psi5Fast s n then 16931 else 25600
  let first := edges.headD 0
  let d := manchester T (edges.length + 1) first true edges.tail
  let count : Int := d.1.length
  let bt := if count = 0 then 0 else 2 * (d.2.1 - first) / count
  let edge := stamp25 og first - sync
  { edge := edge, stamp := first, bitTime := bt.toNat
    codingOk := d.2.2 && d.1.head? == some false, bits := d.1.tail, iLo := lo, iHi := hi
    edges := edges }

/-- The slot whose window a frame begins in (R153). -/
def psi5Slot (s : State) (n : Nat) (edge : Int) : Nat :=
  ((List.range 4).filter (fun k => slotEn s n k && decide (200 * (slotStart s n k : Int) - 1600 ≤ edge))).getLastD 0

/-! ### LIN (R158 to R160) -/

/-- The level of a line at a time: recessive before the first edge. -/
def levelAt (edges : List Int) (t : Int) : Bool := (edges.filter (fun e => decide (e ≤ t))).length % 2 == 0

/-- The bytes of a serial line after time `t`, each with its stop bit: start bits are falling edges, and
a bit is sampled in its middle. `T` is the bit time in fine stamps. -/
def serialBytes (edges : List Int) (T : Int) : Nat → Int → List (Byte × Bool)
  | 0, _ => []
  | fuel + 1, t =>
    match edges.find? (fun e => decide (t < e) && !levelAt edges e) with
    | none => []
    | some a =>
      let sample := fun (k : Nat) => levelAt edges (a + (2 * (k : Int) + 3) * T / 2)
      let v := (List.range 8).foldl (fun x k => x + b2n (sample k) * 2 ^ k) 0
      (BitVec.ofNat 8 v, sample 8) :: serialBytes edges T fuel (a + 19 * T / 2)

/-- The bit time of a LIN lane in fine stamps. -/
def linBit (s : State) (n : Nat) : Int := 320000000 / (linRate s n : Int)

/-- The frame identifier that a slot's edges show, after the break and the sync byte. -/
def linFid (s : State) (n : Nat) (edges : List Int) : Option Nat :=
  let T := linBit s n
  match serialBytes edges T 2 (edges.headD 0 + 12 * T) with
  | [_, p] => if p.1 = linPid (p.1.toNat % 64) then some (p.1.toNat % 64) else none
  | _ => none

/-- A LIN frame slot of fine stamps: the response, its checksum and the break (R160). -/
def linWire (s : State) (n : Nat) (edges : List Int) (len : Nat) (endAt : Int) (publish : Option Bytes) : LinWire :=
  let T := linBit s n
  let brk := edges.headD 0
  let bs := (serialBytes edges T (len + 3) (brk + 12 * T)).drop 2
  { brk := brk, bytes := bs.take len, check := match bs.drop len with
      | (c, true) :: _ => some c
      | _ => none
    inSlot := decide (edges.getLastD 0 ≤ endAt)
    readbackOk := match publish with
      | some p => bs.map Prod.fst == p
      | none => (linFid s n edges).isSome
    breakRecessive := edges.isEmpty, edges := edges }

end Sys2Proof.Machine
end

