-- ==== Sys2Proof/Machine/Tick.lean ====
section
/-!
DEFINITION. The grid tick: its number and time (R30 to R32, R45), the grid instant with the banks it
opens, the first snapshot (R459), and the ticked work of every unit. Rows that act at a tick follow it
at the same time.
-/

namespace Sys2Proof.Machine

/-! ### The number of the tick -/

/-- A tick number to come after the numbering has moved by `d` (log entry 43). -/
def moveNum (d : BitVec 48) (n : Option (BitVec 48)) : Option (BitVec 48) :=
  match n with
  | some x => some (x + d)
  | none => none

/-- The tick numbers to come that the device holds, after the numbering has moved by `d`. -/
def moveNumbers (s : State) (d : BitVec 48) : State :=
  if d = 0 then s
  else
    let s : State := { s with commits := s.commits.map (fun (c : CommitRun) => { c with eff := moveNum d c.eff }) }
    let s := s.onAsm (fun a => { a with stopped := if s.mode.firstDone then moveNum d a.stopped else a.stopped })
    let resume := match s.mode.resume with
      | some r => some (BitVec.ofNat 48 r + d).toNat
      | none => none
    let rephase : Option Rephase := match s.grid.rephase with
      | some r => some { r with stepTick := if r.relayed then r.stepTick else r.stepTick + d }
      | none => none
    let s := (s.onMode (fun m => { m with resume := resume })).onGrid (fun g => { g with rephase := rephase })
    let busy := s.lanes.filterMap (fun (x : Nat × LaneState) => if x.2.spu.isSome then some x.1 else none)
    busy.foldl (fun s n => s.onLane n (fun l =>
      match l.spu with
      | some q => { l with spu := some { q with reqTick := q.reqTick + d, admitted := moveNum d q.admitted } }
      | none => l)) s

/-- Time and number of the next tick (R30 to R32, R45). -/
def nextTick (s : State) : State :=
  let n := nextNumber s
  let d := n - (s.grid.tick + 1)
  let own := if s.grid.nextNum.isSome then false else ownNext s
  let over_ := decide (2 ^ 24 ≤ s.grid.frcTicks + 1)
  let s := if over_ && !s.grid.frcDone then { s with nv := { s.nv with frc := frcNext s.nv.frc } } else s
  let s := moveNumbers (if d = 0 ∧ s.grid.gap = 50000 then s else keepFlights s (s.grid.tickAt + s.grid.gap)) d
  s.onGrid (fun g => { g with
    tick := n, tickAt := g.tickAt + g.gap, now := g.tickAt + g.gap, gap := if g.lead || g.joined then 50000 else g.rate
    trueNum := g.trueNum + 1, ownNum := own, nextNum := none
    frcTicks := if over_ then 0 else g.frcTicks + 1, frcDone := if over_ then false else g.frcDone })

/-! ### A grid instant -/

/-- Whether the latest tick is a grid instant (R32, R45). -/
def isInstant (s : State) : Bool :=
  s.grid.tick.toNat % 2 ^ pexp s == 0 && decide (s.grid.instFrom ≤ s.grid.tickAt)

/-- The open bank of a region serves the snapshot of the latest grid instant: what was predicted under
another numbering, or before a re-phase, takes its number and its time. -/
def alignBank (s : State) (g : Nat) : State :=
  let r := s.region g
  let b := r.open_
  let num := s.grid.gridNum
  let at_ := s.grid.gridAt
  if b.snap = num ∧ b.at_ = at_ then s
  else
    let tag := fun (p : Packet) =>
      if p.tag = b.snap then { p with tag := num, inst := at_, base := p.base + (p.inst - at_) } else p
    let s := s.setRegion g (r.setOpen { b with snap := num, at_ := at_, pkts := b.pkts.map tag })
    let renum := fun (x : BitVec 48) => if x = b.snap then num else x
    (regionLanes g).foldl (fun s n =>
      let l := s.lane n
      if l.lastTag.isNone ∧ l.trig.isNone ∧ l.slotUsed.isNone then s
      else s.setLane n { l with
        lastTag := l.lastTag.map renum, slotUsed := l.slotUsed.map renum
        trig := l.trig.map (fun t => if t.num = b.snap then { t with num := num, inst := at_ } else t) }) s

/-- A follower that has lost the tick changes to its own numbering from the tick after this grid
instant (R52). -/
def leaveLead (s : State) : State :=
  if s.grid.tstate = .followLost then s.onGrid (fun g => { g with ownNum := true }) else s

/-- The streams of a port that has reverted stop at the grid instant: ENABLE is 0 from it on, in force and in
the port's staging copy (R252, R275, R303). -/
def stopReverted (s : State) (p : Port) : State :=
  let ks := (List.range 32).filter (fun k => (s.stream k).stopping == some p)
  if ks.isEmpty then s
  else
    let s := { s with cfg := { s.cfg with hist := (s.grid.tickAt, s.cfg.live) :: s.cfg.hist } }
    refreshStreams (ks.foldl (fun s k =>
      let off := fun (w : Word) => w &&& 0x7FFFFFFF
      let s := s.onStream k (fun x => { x with stopping := none })
      (s.setInForce (aStream k 0) (off (s.inForce (aStream k 0)))).setStaged p (aStream k 0)
        (off (s.staged p (aStream k 0)))) s)

/-- Whether a lane does not hold up the first snapshot (R459). -/
def laneReady (s : State) (n : Nat) : Bool :=
  let l := s.lane n
  let r := s.region (laneRegion n)
  cfgMode s n != .aknun || l.lstate == .run || l.lstate == .isolated || r.second || r.iso ||
    (r.stageReq && r.stageAt.isNone && r.warn)

/-- Whether the boot commit has taken effect or does so at the latest tick (R459). -/
def bootSettled (s : State) : Bool :=
  s.commits.all (fun c => c.ports != 0 || (c.sown && match c.eff with
    | some e => decide (e.toNat ≤ s.grid.tick.toNat)
    | none => false))

/-- G_1, the grid instant of the first snapshot (R459). -/
def firstInstant (s : State) : State :=
  if s.mode.booted ∧ !s.mode.inDisc ∧ !s.mode.firstDone ∧ bootSettled s ∧ (List.range 512).all (laneReady s) then
    (s.onMode (fun m => { m with firstDone := true })).onAsm (fun a => { a with stopped := none })
  else s

/-- Configurations and GAP marks that no snapshot needs any more. -/
def forgetOld (s : State) : State :=
  let s := { s with cfg := { s.cfg with hist := s.cfg.hist.filter (fun h => decide (s.grid.now < h.1 + 25600000)) } }
  s.onAsm (fun a => { a with gapSnaps := a.gapSnaps.drop (a.gapSnaps.length - 8) })

/-- A grid instant (R32): the snapshot it opens, and what waits for a grid instant. A change of numbering
may bring it before the cutoff of the snapshot before, which then has its cutoff here (log entry 34). -/
def instant (s : State) : State :=
  let s := rawPeriods s s.grid.gridNum s.grid.gridAt s.grid.tickAt
  let s := if s.mode.firstDone && s.mode.dev.dataPath && (s.region 0).open_.snap == s.grid.gridNum then cutoff s else s
  let s := s.onGrid (fun g => { g with
    prevNum := g.gridNum, prevAt := g.gridAt, gridNum := g.tick, gridAt := g.tickAt })
  let u := unlockedNow s
  let s := s.onGrid (fun g => { g with unlocked := u })
  let s := if s.grid.lanePll then s else s.onAsm (fun a => { a with pllLost := true })
  let s := match s.upd.pauseA with
    | some a => if a ≤ s.grid.tickAt ∧ s.grid.tickAt < a + 100000 then
        s.onAsm (fun x => { x with gapSnaps := x.gapSnaps ++ [(s.grid.gridNum, 8)] }) else s
    | none => s
  let s := (List.range 8).foldl alignBank s
  let s := leaveLead (stopReverted (stopReverted s .h) .m)
  forgetOld (resumeAt (beginEntry (firstInstant s)))

/-! ### The ticked work -/

/-- The region loops at a tick (R198, R199): held in an activation pause (R507), stopped in OFF, and in
SENTINEL run only in regions that hold a polled lane (R443). -/
def tickLoops (s : State) (errs : List RegionErr) : State :=
  if inPause s (s.grid.now : Nat) (s.grid.now : Nat) ∨ s.mode.dev = .off then s
  else (List.range 8).foldl (fun s g =>
    match errs[g]? with
    | some e => if s.mode.dev = .sentinel ∧ !(regionLanes g).any (polled s) then s else regionLoops s g e
    | none => s) s

/-- The TICK block and what the hoard does at a tick (R347, R484). -/
def hoardTick (s : State) (inst : Bool) : State :=
  let c := match s.grid.rephase with
    | some r => if stepDue s then some r.c else none
    | none => none
  let s := if s.hoard.startOwed then beginBlocks s
    else hoardBlock s 0x20 0xFFFF (tickBody s inst (gapTick s || c.isSome) c)
  exportResume (exportKeyTick (hoardCtlTick s))

/-- A calibration save that is due (R214, R215, R219). -/
def dueSave (s : State) : State :=
  if s.mode.saveDue ∧ !s.mode.restarting then
    let t := s.mode.savedAt
    (calSaveNow s).onMode (fun m => { m with savedAt := t })
  else s

/-- What ends with the tick that has run: a step of a re-phase and a harvest cutoff that have had no row
of their own, the router cycle, and the export of the tick. -/
def endTick (s : State) : State :=
  let s := if stepDue s then rephaseStep s else s
  let s := s.onGrid (fun g => { g with now := s.lastStep })
  let s := cutoffNow s
  exportTick (flushCycle s)

/-- The lanes of a trace disconnect at the grid tick after its device check (R495). -/
def replayDisconnect (s : State) : State :=
  if s.mode.dev = .replay ∧ s.replay.starting then
    let s := s.replay.lanes.foldl (fun s n => (unpower s n).onLane n (fun l => { l with replayed := true })) s
    s.onReplay (fun r => { r with starting := false })
  else s

/-- The ticked work of every unit. -/
def tickWork (s : State) (errs : List RegionErr) : State :=
  let inst := isInstant s
  let s := leaveLanes s
  let s := if inst then instant s else s
  let s := tickEvent (hoardTick (tickLoops (chainForget s) errs) inst)
  let s := streamsTick (tickRestarts s)
  let s := (List.range 8).foldl noteAdmits s
  let s := if s.mode.dev ≠ .replay ∧ (s.lanes.any (fun x => x.2.replayed)) then reconnect s else s
  sendMessages (noteEntryCal (dueSave (replayDisconnect s)))

/-- GRID_TICK (R32): a 125 us tick. `errs` is what the region loops measured, region 0 first. -/
def execGridTick (errs : List RegionErr) (s : State) : Out :=
  .next (if s.mode.inReset ∨ !s.grid.on then s else tickWork (nextTick (endTick s)) errs)

end Sys2Proof.Machine
end

