-- ==== Sys2Proof/Machine/Replay.lean ====
section
/-!
DEFINITION. Replay (R492 to R499): the blocks of a trace, the device check and the disconnection of the
lanes, checkpoints, commits, happenings and ticks of the trace, the frames and slots that the replayed
lanes run on its inputs, the replay snapshots with their comparison, and the end.
-/

namespace Sys2Proof.Machine

/-! ### The replayed lanes as a device of their own -/

/-- Whether a configuration word is the live device's in a replay: events and monitors (R387, R496). -/
def replayLive (a : Nat) : Bool := decide (0x050000 ≤ a ∧ a < 0x060000)

/-- The replayed lanes with the trace's grid, configuration and assembler, and the live device's event
and monitor configuration. -/
def replayDev (s : State) : State :=
  let r := s.replay
  let own := fun (f : Nat → Bool) (t : Tbl Word) => t.filter (fun e => f e.1)
  let live := own (fun a => decide (a < 0x050000)) r.cfg.live ++ own replayLive s.cfg.live ++
    own (fun a => decide (0x060000 ≤ a)) r.cfg.live
  let v : State := { s with
    cfg := { live := live, hist := r.cfg.hist }, creqs := [], commits := [], cycle := [], lanes := r.lstates
    eps := r.eps, clusters := r.clusters, regions := r.regions, asm_ := r.asmR, streams := [], routes := []
    upd := { fwVersion := s.upd.fwVersion }, hoard := {}, cap := {}, grid := r.grid, chain := []
    mode := { dev := .run, booted := true, firstDone := true } }
  r.lanes.foldl (fun v n => v.onLane n (fun l => { l with mon := (s.lane n).mon })) v

/-- What the replayed lanes have done comes back: their state, their events and their monitors (R387,
R496). -/
def replayAbsorb (s v : State) : State :=
  let s : State := { s with cycle := s.cycle ++ v.cycle, fresh := v.fresh }
  let s := s.onReplay (fun r => { r with
    lstates := v.lanes, eps := v.eps, clusters := v.clusters, regions := v.regions, asmR := v.asm_, grid := v.grid })
  s.replay.lanes.foldl (fun s n => s.onLane n (fun l => { l with mon := (v.lane n).mon })) s

/-- An operation on the replayed lanes. -/
def onReplayed (s : State) (f : State → State) : State := replayAbsorb s (f (replayDev s))

/-- The replay ends with a state and a reason (R495, R497). -/
def replayStop (s : State) (st : ReplayState) (reason : Byte) : State :=
  s.onReplay (fun r => { r with rstate := st, reason := reason })

/-- The replay is abandoned (R497). -/
def abandon (s : State) (reason : Byte) : State := replayStop s .abandoned reason

/-! ### Blocks (R478) -/

/-- One block of the trace. -/
structure Block where
  typ : Nat
  gap : Bool
  lane : Nat
  seq : BitVec 16
  body : Bytes
  crcOk : Bool
  deriving DecidableEq, Repr

/-- The length of the block that a header begins. -/
def blockLen (b : Bytes) : Nat := 12 + fieldN b 4 2

/-- The block at the front of the input, which is complete. -/
def blockAt (b : Bytes) : Block :=
  let n := blockLen b
  { typ := fieldN b 0 1, gap := fieldN b 1 1 % 2 == 1, lane := fieldN b 2 2, seq := BitVec.ofNat 16 (fieldN b 6 2)
    body := (b.take (n - 4)).drop 8, crcOk := (crc32 (b.take (n - 4))).toNat == fieldN b (n - 4) 4 }

/-- Whether a complete block stands at the front of the input. -/
def blockReady (b : Bytes) : Bool := decide (8 ≤ b.length ∧ blockLen b ≤ b.length)

/-- The bytes of the blocks up to the end of the next trace tick, once they are all in the buffer
(R496): a trace tick ends at the next TICK header, or at the header that ends the trace. -/
def tickSpan : Nat → Bool → Bytes → Option Nat
  | 0, _, _ => none
  | fuel + 1, seen, b =>
    if b.length < 8 then none
    else if fieldN b 0 1 = 0 ∨ seen ∧ fieldN b 0 1 = 0x20 then some 0
    else if b.length < blockLen b then none
    else match tickSpan fuel (seen || fieldN b 0 1 == 0x20) (b.drop (blockLen b)) with
      | some k => some (blockLen b + k)
      | none => none

/-! ### The start (R495) -/

/-- The lanes of a lane map (R480). -/
def mapLanes (b : Bytes) : List Nat :=
  (List.range 512).filter (fun n => fieldN b (40 + n / 8) 1 / 2 ^ (7 - n % 8) % 2 == 1)

/-- A start of the grid that leaves room for stamps before it. -/
def replayEpoch : Nat := 2 ^ 36

/-- The block types that a reader knows (R479). -/
def knownType (t : Nat) : Bool := [0x10, 0x11, 0x12, 0x20, 0x21, 0x22, 0x30, 0x31, 0x32, 0x3F].contains t

/-- The device check of a TRACE_START block and what it fixes (R495). A block of an unknown type before it is
skipped (R479); a block of another known type there, or another length, is not a trace's beginning: REFUSED with
REASON FORMAT (DESIGN CHOICE, log entry 136). -/
def replayStart (s : State) : State :=
  let b := blockAt s.replay.buffer
  let x := b.body
  let own := fieldN x 12 2 == s.upd.fwVersion.toNat && fieldN x 8 3 == devId.toNat / 256
  if !knownType b.typ then s.onReplay (fun r => { r with buffer := r.buffer.drop (blockLen r.buffer) })
  else if b.typ ≠ 0x10 ∨ x.length ≠ 128 then replayStop s .refused 1
  else if !b.crcOk then abandon s 3
  else if !own then replayStop s .refused 2
  else
    s.onReplay (fun r => { r with
      buffer := r.buffer.drop (blockLen r.buffer), lanes := mapLanes x, checked := true, starting := true, raw := fieldN x 15 1 == 1
      digest := BitVec.ofNat 32 (fieldN x 36 4)
      cfg := { live := cfgSet [] kGridCtl (BitVec.ofNat 32 (fieldN x 32 4)) }
      asmR := { stopped := none }
      grid := { on := true, tstate := .locked, ownNum := false, unlocked := false
                now := replayEpoch, tickAt := replayEpoch, gridAt := replayEpoch
                pkg := BitVec.ofNat 2 (fieldN x 14 1) } })

/-! ### Configuration of the trace (R481, R483) -/

/-- One word of the trace's configuration. -/
def replayWord (s : State) (a : Nat) (w : Word) : State :=
  s.onReplay (fun r => { r with cfg := { r.cfg with live := cfgSet r.cfg.live a w } })

/-- Words of consecutive addresses. -/
def replayWords (s : State) (a : Nat) (ws : List Word) : State :=
  ws.zipIdx.foldl (fun s x => replayWord s (a + 4 * x.2) x.1) s

/-- The positions of a POSMAP. -/
def mapPositions (m : Nat) : List Nat := (List.range 16).filter (fun p => m / 2 ^ p % 2 == 1)

/-- LANE_CFG, CLUSTER and the descriptors of a lane: `parts` begins at LANE_CFG, and `desc` gives each
position's descriptor. Positions outside POSMAP hold none. -/
def replayLaneCfg (s : State) (n : Nat) (parts : Bytes) (pos : List Nat) (desc : Nat → Bytes) : State :=
  let c := laneCluster n
  let s := replayWords s (aLane n 0) (fieldWords parts 0 8)
  let s := if lanePlace n = 0 then replayWords s (aCluster c 0x10) (fieldWords parts 52 4)
    else if lanePlace n = 1 then replayWords s (aCluster c 0x20) (fieldWords parts 52 16) else s
  (List.range 16).foldl (fun s p =>
    let ws := match pos.findIdx? (· == p) with
      | some j => fieldWords (desc j) 0 8
      | none => List.replicate 8 0
    replayWords s (aDesc (epIdx n p) 0) ws) s

/-! ### CHECKPOINT (R481, R482) -/

/-- The time that a tick number stands for on the trace's grid. -/
def replayTime (v : State) (num : Nat) : Int :=
  (v.grid.tickAt : Int) + 50000 * ((num : Int) - v.grid.tick.toNat)

/-- The lane state code of LSTATUS (R356). -/
def lstateOf : Nat → LState
  | 0 => .unpowered | 1 => .clearing | 2 => .isolated | 3 => .enumerating | _ => .run

/-- LANE_CAL (R368). Its layout has no bits for what is seeded: TC16 and the PSI5 values count as seeded where they
are not 0, and d_E needs no seed (DESIGN CHOICE, log entry 133). -/
def loadLaneCal (c : LaneCal) (n : Nat) (ws : List Word) : LaneCal :=
  let c := loadLane c n 0x00FF0000 (ws.zipIdx.map (fun x => (aLaneCal n (4 * x.2), x.1)))
  let w := ws.getD 1 0
  { c with steps := fld w 15 8, og := sgn 8 (fld w 7 0), tcSeeded := decide (ws.getD 2 0 ≠ 0), seedNext := false
           ibSeeded := decide (fld (ws.getD 4 0) 31 16 ≠ 0)
           slots := c.slots.map (fun x => { x with iSeeded := decide (x.di16 ≠ 0), btSeeded := decide (x.bt16 ≠ 0) }) }

/-- A lane's state from LANE_STAT, LANE_CAL and LANE_RUN; `b` is the checkpoint's body. -/
def checkLane (v : State) (n : Nat) (b : Bytes) : LaneState :=
  let st := BitVec.ofNat 32 (fieldN b 40 4)
  let c := loadLaneCal {} n (fieldWords b 128 16)
  let c := { c with
    dEHist := ((List.range 8).map (fun j => (fieldN b (208 + j) 1 : Int))), lcal := fieldI b 216 4 }
  let f := fieldN b 220 1
  let at_ := fieldN b 221 6
  let q : SpuState := { reqTick := BitVec.ofNat 48 at_, nv := false, pos := 0, all := true, code := 0
                        admitted := none, window := none }
  let wEnd := (replayTime v at_).toNat
  let warn := (v.region (laneRegion n)).warn
  { lstate := lstateOf (fld st 31 29), mode := cfgMode v n, short := bit st 28, stuck := bit st 27, swing := bit st 26
    suspended := bit st 24, gapUntilFrame := bit st 24, retries := BitVec.ofNat 8 (fld st 23 16)
    enumN := fld st 15 11, enumFail := bit st 10, failPos := BitVec.ofNat 4 (fld st 9 6), enumAt := v.grid.now
    cal := c, mon := (v.lane n).mon, linRun := cfgMode v n == .lin, lastEdge := v.grid.now
    spu := if f % 2 = 1 then some q else if f / 2 % 2 = 1 then
        some { q with admitted := some q.reqTick, window := some (v.grid.now, wEnd) } else none
    spuStale := f % 2 == 1 && warn
    spuSpan := if f / 2 % 2 = 1 then some (v.grid.now, wEnd + 8000) else none
    clearAt := if f / 4 % 2 = 1 then some v.grid.now else none
    sown := fieldWords b 44 4, linSched := if cfgMode v n = .lin then (linSchedule v n).getD [] else [] }

/-- An endpoint's state from its calibration entry and EP_RUN; `b` is its part of the body. A sprout's TS counts as
seeded where it is not 65,536 (DESIGN CHOICE, log entry 133). -/
def checkEp (v : State) (b : Bytes) : EpState :=
  let w0 := BitVec.ofNat 32 (fieldN b 32 4)
  let w1 := BitVec.ofNat 32 (fieldN b 36 4)
  let r := b.drop 48
  let f := fieldN r 12 1
  let seq := fieldN r 3 1
  let hist := fieldN r 23 8
  let late := (List.range 64).map (fun k => hist / 2 ^ k % 2 == 1)
  { sprout := bit w0 31, stretch := bit w0 28, slow := bit w0 27, attested := bit w0 26
    hold := match fld w0 30 29 with
      | 1 => .jump
      | 2 => .ident
      | _ => .none
    clean := fld w0 25 22, ts := (fld w0 16 0 : Nat), asc := (fld w1 16 0 : Nat)
    seeded := !bit w0 31 || decide (fld w0 16 0 ≠ 65536)
    lastId := BitVec.ofNat 64 (fieldN b 40 8)
    ctr := fieldN r 0 1 % 16, k := fieldN r 1 1, ctrKnown := decide (fieldN r 1 1 < 16)
    huskN := fieldN r 2 1, huskSeq := if seq / 16 % 2 = 1 then some (seq % 16) else none
    husk := BitVec.ofNat 32 (fieldN r 4 4)
    store := if f % 2 = 1 then
        some (BitVec.ofNat 32 (fieldN r 8 4), replayTime v (fieldN r 13 6) + fieldI r 19 4) else none
    err := f / 2 % 4, inRange := f / 8 % 2 == 1, lateHist := late, stretchHist := if bit w0 28 then late.take 8 else [] }

/-- Whether the schedule that a lane sows from the checkpoint's configuration is the trace's (R495). -/
def checkSown (v : State) (n : Nat) (b : Bytes) : Bool :=
  (progCrc v n).toNat == fieldN b 124 4 && sownLayout v n == fieldWords b 44 4

/-- Every lane has met its starting CHECKPOINT (R495, R497): comparison begins at the first grid instant
none of whose frames has begun. -/
def lanesStarted (s : State) : State :=
  let r := s.replay
  if r.cmpFrom.isSome ∨ !r.lanes.all (fun n => r.started.any (fun x => x.1 == n)) then s
  else
    let first := r.started.foldl (fun a x => max a x.2.toNat) 0
    let seen := if first ≤ r.seen.toNat then r.seen.toNat + 2 ^ pexp (replayDev s) else first
    let g := BitVec.ofNat 48 (max first seen)
    s.onReplay (fun r => { r with cmpFrom := some g, gs := if r.gs = 0 then g else r.gs })

/-- A CHECKPOINT: it starts a lane that waits for one (R495). -/
def replayCheckpoint (s : State) (b : Block) : State :=
  let n := b.lane
  let r := s.replay
  if !r.lanes.contains n ∨ r.started.any (fun x => x.1 == n) then s
  else
    let x := b.body
    let pos := mapPositions (fieldN x 6 2)
    let s := replayLaneCfg s n (x.drop 8) pos (fun j => (x.drop (240 + 80 * j)).take 32)
    if !checkSown (replayDev s) n x then replayStop s .refused 5
    else
      let s := onReplayed s (fun v =>
        let g := laneRegion n
        let cal := fieldWords x 192 4
        let v := v.onRegion g (fun r => { r with
          dll := (fld (cal.getD 0 0) 7 0 : Nat), og := sgn 8 (fld (cal.getD 0 0) 23 16) })
        let v := v.setLane n (checkLane v n x)
        let v := (List.range 16).foldl (fun v p => v.setEp (epIdx n p) {}) v
        pos.zipIdx.foldl (fun v y => v.setEp (epIdx n y.1) (checkEp v (x.drop (240 + 80 * y.2)))) v)
      lanesStarted (s.onReplay (fun r => { r with started := r.started ++ [(n, BitVec.ofNat 48 (fieldN x 0 6))] }))

/-! ### COMMIT (R483) -/

/-- A COMMIT block of a replayed lane, at its effective tick. -/
def replayCommit (s : State) (b : Block) : State :=
  let n := b.lane
  if !s.replay.started.any (fun x => x.1 == n) then s
  else
    let x := b.body
    let now := s.replay.grid.tickAt
    let old := s.replay.cfg.live
    let cal := fieldN x 12 2 / 2 ^ 14 % 2 == 1
    let s := s.onReplay (fun r => { r with cfg := { r.cfg with hist := match r.cfg.hist with
      | h :: t => if h.1 = now then h :: t else (now, old) :: h :: t
      | [] => [(now, old)] } })
    let s := replayWord s kGridCtl (BitVec.ofNat 32 (fieldN x 14 4))
    let s := if cal then
        replayWord (replayWord (replayWord s (aCalLane n) (BitVec.ofNat 32 (fieldN x 18 4)))
          (aCalRegion (laneRegion n)) (BitVec.ofNat 32 (fieldN x 22 4))) aCalGlobal (BitVec.ofNat 32 (fieldN x 26 4))
      else s
    let s := replayLaneCfg s n (x.drop 32) (mapPositions (fieldN x 30 2)) (fun j => (x.drop (152 + 32 * j)).take 32)
    onReplayed s (fun v =>
      let v := (List.range 16).foldl (fun v p => descEffect old v (epIdx n p)) v
      let v := laneEffect old v n
      if cal then v.onLane n (fun l => { l with cal := { l.cal with steps := stepsOf (v.inForce (aCalLane n)) } }) else v)

/-! ### HAPPENING (R485) -/

/-- A LINE happening of a replayed lane. Code 1 of an Aknun lane that is not being cleared is a stuck low, and of
one that is, a short to ground (log entry 131). -/
def replayLine (v : State) (n code on_ : Nat) : State :=
  let l := v.lane n
  let stuck := l.mode == .lin || (l.mode == .sent && code == 1)
  let low := l.mode == .aknun && code == 1 && l.lstate != .clearing
  if code = 0x20 then
    if on_ = 1 then
      let v := v.onLane n (fun l => { l with short := false, retries := 0 })
      match l.mode with
      | .aknun => v.onLane n (fun l => { l with lstate := .enumerating, clearAt := some v.grid.now, keepPos := false })
      | .psi5 => laneSprouts (v.onLane n (fun l => { l with lstate := .run })) n
      | _ => v.onLane n (fun l => { l with lstate := .run })
    else v.onLane n (fun l => { l with retries := satInc l.retries, isoTry := l.isoTry + 1, isoAt := v.grid.now })
  else if code = 0x10 then
    if on_ = 1 then
      let v' := raise (v.onLane n (fun l => { l with swing := true })) 14 n (BitVec.ofInt 32 ((l.cal.h16 - l.cal.l16) / 16))
      withFaults [n] v v'
    else v
  else if on_ = 0 then v.onLane n (fun l => { l with stuck := false, linVbat := false, linBreaks := 0 })
  else if low then
    let v' := reclear v n (some v.grid.now)
    withFaults [n] v (v'.onLane n (fun l => { l with stuck := true }))
  else if stuck then declareStuck v n code
  else declareShort v n code

/-- A REGION happening of a replayed lane. -/
def replayRegion (v : State) (n code on_ : Nat) : State :=
  let g := laneRegion n
  if code = 2 then
    let v := v.onRegion g (fun r => { r with iso := on_ == 1 })
    if on_ = 1 then withFaults [n] v (unpower v n) else v
  else
    let v := if code = 1 then v.onRegion g (fun r => { r with second := on_ == 1 }) else v
    if on_ = 1 then suspendLane v n
    else
      let v := v.onLane n (fun l => { l with suspended := false })
      if code = 3 then powerLane (laneSprouts v n) n else if (v.lane n).mode = .sent then powerLane v n else v

/-- A HAPPENING of a replayed lane. -/
def replayHappen (v : State) (n : Nat) (x : Bytes) : State :=
  let tick := BitVec.ofNat 48 (fieldN x 0 6)
  let p := fieldN x 7 1 % 16
  let i := epIdx n p
  let a := x.drop 8
  let on_ := fieldN a 1 1
  let w := fun (k : Nat) => BitVec.ofNat 32 (fieldN a (4 * k) 4)
  match fieldN x 6 1 with
  | 0x01 => v.onLane n (fun l =>
      let q := l.spu.getD { reqTick := tick, nv := false, pos := BitVec.toFin (BitVec.ofNat 4 p), all := false, code := 0
                            admitted := none, window := none }
      { l with spu := some { q with admitted := some tick } })
  | 0x02 => v.onLane n (fun l => { l with acc := { l.acc with
      op := BitVec.ofNat 3 (fld (w 0) 30 28), pos := BitVec.ofNat 4 (fld (w 0) 27 24)
      addr := BitVec.ofNat 8 (fld (w 0) 23 16), rstate := .pending, data0 := w 1, data1 := w 2, at_ := v.grid.now } })
  | 0x03 => v.onEp i (fun e => { e with rtWrite := some (0, BitVec.ofNat 8 (fieldN a 0 1), w 1) })
  | 0x04 => v.onEp i (fun e => { e with out := w 0 })
  | 0x05 => replayLine v n (fieldN a 0 1) on_
  | 0x06 => replayRegion v n (fieldN a 0 1) on_
  | 0x07 =>
    let v := v.onRegion (laneRegion n) (fun r => { r with warn := on_ == 1 })
    if on_ = 1 then staleWaits v (laneRegion n) else v
  | 0x09 =>
    if on_ = 1 then v.onCluster (laneCluster n) (fun c => { c with seq := .stopped, lost := true })
    else resumeLane (v.onCluster (laneCluster n) (fun c => { c with seq := .running })) n
  | 0x0A => raise (endSpu v n) 17 n 0
  | 0x0B => v.onEp i (fun e => { e with chal := some (BitVec.ofNat 64 (fieldN a 0 8), v.grid.now) })
  | 0x0C => attestOutcome v n p (fieldN a 0 1)
  | _ => v

/-- A HAPPENING block: LOST is kept until its snapshot is built. -/
def replayHappening (s : State) (b : Block) : State :=
  let n := b.lane
  if !s.replay.started.any (fun x => x.1 == n) then s
  else if fieldN b.body 6 1 = 0x08 then
    s.onReplay (fun r => { r with lost := r.lost ++ [(n, BitVec.ofNat 48 (fieldN b.body 0 6))] })
  else onReplayed s (fun v => replayHappen v n b.body)

/-! ### TICK (R484, R499) -/

/-- The cutoff of a replay snapshot, where it is due (R225). -/
def replayCutoff (v : State) : State :=
  if cutoffDue v then
    let v := cutoff v
    v.eps.foldl (fun v e => silentSprout v e.1) v
  else v

/-- What time alone brings to a replayed lane at a tick: its new mode, the end of a strong window, the expiry of a
request, and the retry or repeat of enumeration (R82, R123, R135, R364, R458). -/
def replayLaneTick (v : State) (n : Nat) : State :=
  let l := v.lane n
  let now := v.grid.now
  let v := match l.modeAt with
    | some t => if t ≤ now then powerLane (v.onLane n (fun l => { l with modeAt := none })) n else v
    | none => v
  let ended : Bool := match l.spu with
    | some q => (match q.window with
      | some w => decide (w.2 ≤ now)
      | none => false)
    | none => false
  let v := if ended then v.onLane n (fun l => { l with spu := none, spuStale := false }) else v
  let v := expire v n
  if l.lstate = .run ∧ l.enumFail ∧ l.enumPos = none ∧ l.enumAt + 102400000 ≤ now then
    v.onLane n (fun l => { l with enumPos := some l.failPos.toNat, enumStep := 0, enumTry := 0, enumFail := false })
  else v

/-- A TICK block: the trace's grid moves to it, with the region values that the trace holds (R218, R492);
a re-phase's c moves the tick after it (R45, R499). -/
def replayTickBlock (v : State) (x : Bytes) : State :=
  let f := fieldN x 6 1
  let c := if f / 16 % 2 = 1 then fieldI x 8 4 else 0
  let vals := x.drop (if f / 16 % 2 = 1 then 12 else 8)
  let v := replayCutoff (v.onGrid (fun g => { g with now := v.lastStep }))
  let t := v.grid.tickAt + v.grid.gap
  let lost := f / 32 % 2 == 1
  let back := !v.grid.lanePll && !lost
  let v := v.onGrid (fun g => { g with
    tick := BitVec.ofNat 48 (fieldN x 0 6), tickAt := t, now := t, gap := (50000 + c).toNat, unlocked := f % 2 == 1
    degraded := f / 2 % 2 == 1, lanePll := !lost })
  let v := if lost then v.onAsm (fun a => { a with pllLost := true }) else v
  let v := if back then v.replay.lanes.foldl resumeLane v else v
  let gs := (List.range 8).filter (fun g => fieldN x 7 1 / 2 ^ g % 2 == 1)
  let v := gs.zipIdx.foldl (fun v y => v.onRegion y.1 (fun r => { r with
    dll := (fieldN vals (2 * y.2) 1 : Nat), og := fieldI vals (2 * y.2 + 1) 1 })) v
  let v := if f / 4 % 2 = 1 then
      let v := v.onGrid (fun g => { g with gridNum := g.tick, gridAt := g.tickAt })
      let v := if f / 8 % 2 = 1 then
          v.onAsm (fun a => { a with gapSnaps := a.gapSnaps ++ [(v.grid.gridNum, if f / 16 % 2 = 1 then 4 else 8)] })
        else v
      forgetOld ((List.range 8).foldl alignBank v)
    else v
  v.replay.lanes.foldl replayLaneTick v

/-! ### Aknun frames (R487, R493) -/

/-- What a command frame's answer does at a replayed lane (R101 to R117). -/
def replayCommand (v : State) (n cmd p : Nat) (body : List Nat) (num : BitVec 48) (at_ : Int) (w : FrameWire) : State :=
  let addr := symsNat (body.take 4)
  let c : CmdFrame := { cmd := cmd, pos := p, body := body, answer := answerLen cmd }
  let l := v.lane n
  let v := if (cmd = 3 ∨ cmd = 9) ∧ l.lstate = .run then startGrowth v n else v
  let (v, d, sent) := accessFrame v n num at_ c addr w
  let acc := (v.lane n).acc
  match cmd with
  | 1 => if acc.rstate = .pending ∧ acc.op = 0 then
      accAnswer v n d (fun xs v => accComplete v n .done (some (BitVec.ofNat 32 (symsNat xs / 256))) none) else v
  | 2 =>
    if (v.ep (epIdx n p)).rtWrite.isSome then v.onEp (epIdx n p) (fun e => { e with rtWrite := none })
    else if acc.rstate = .pending ∧ acc.op = 1 then
      accAnswer v n d (fun xs v => accComplete v n (accOf (xs.getD 0 0)) none none)
    else v
  | 3 => enumAnswer (v.onLane n (fun l => { l with enumPos := some p })) n p d
  | 4 =>
    if (v.lane n).enumPos = some p ∧ (v.lane n).enumStep = 1 then identAnswer v n p d
    else match accepted d with
      | some xs =>
        let id := BitVec.ofNat 64 (symsNat xs / 256)
        if (v.ep (epIdx n p)).identOwed then idRead v (epIdx n p) id
        else accComplete (hostIdent v (epIdx n p) id) n .done (some (BitVec.ofNat 32 (id.toNat / 2 ^ 32)))
          (some (BitVec.ofNat 32 id.toNat))
      | none => if (v.ep (epIdx n p)).identOwed then v else accComplete v n .noResponse none none
  | 5 | 6 =>
    let q := (v.lane n).spu.getD { reqTick := v.grid.tick, nv := false, pos := 0, all := false, code := 0
                                   admitted := some v.grid.tick, window := none }
    if sent then
      openWindow v n { q with nv := cmd == 6, all := addr / 128 == 1, pos := BitVec.toFin (BitVec.ofNat 4 p)
                              code := BitVec.ofNat 6 addr }
    else v
  | 7 =>
    if sent then
      (sleepPositions v n p (addr / 128 == 1)).foldl (fun v p =>
        v.onEp (epIdx n p) (fun e => { e with asleep := true, huskN := 0, husk := 0 })) v
    else v
  | 8 => wakeAnswer v n p (addr % 2 == 1) [] d
  | 9 => closeAnswer v n p d
  | 10 => if sent then openedAt v n p else v
  | _ => v

/-- A line reset of the trace (R79, R90): one that follows no abandoned frame ends a bus clear. -/
def replayReset (v : State) (n : Nat) (afterCut : Bool) : State :=
  let l := v.lane n
  if afterCut then v
  else
    let v := if l.lstate = .unpowered then powerLane v n else v
    let keep := l.lstate == .run || (l.lstate == .clearing && l.keepPos)
    v.onLane n (fun l => { l with
      lstate := if keep then .run else .enumerating, clearAt := none, keepPos := false, stuck := false
      faultSeen := l.faultSeen || keep, cal := { l.cal with seedNext := true } })

/-- A chain reset of the trace: enumeration begins at position 0 (R120, R121). -/
def replayChain (v : State) (n : Nat) : State :=
  v.onLane n (fun l => { l with
    enumPos := some 0, enumStep := 0, enumTry := 0, enumN := 0, enumFail := false, chainEnd := false, enumAt := v.grid.now })

/-- The length of a frame in steps from its frame mark (R101, R105). -/
def frameSpan (v : State) (n cmd pos : Nat) : Nat :=
  pipSteps v n * (if cmd = 0 then 10 + 22 * (v.lane n).enumN else if cmd = 0xB then 10 + 22 * (pos + 1)
    else 9 + bodyLen cmd + (if answerLen cmd = 0 then 0 else answerLen cmd + 2))

/-- Whether a lane's enumeration sends a command of step `k` to a position: the trace does not say how far an
enumeration had come at a checkpoint, and any step of one is taken then (log entry 137). -/
def enumMay (v : State) (n k p : Nat) : Bool :=
  let l := v.lane n
  match l.enumPos with
  | some q => p == q && l.enumStep == k
  | none => withinTop v n p

/-- The frames of a code and position that the lane may drive next, by what waits in it (R176, R493). The control
byte of CONVERT, COMMIT_NV, SLEEP and WAKE_PING comes from outside and is the trace's. -/
def mayDrive (v : State) (n cmd p : Nat) (body : List Nat) : List CmdFrame :=
  let l := v.lane n
  let e := v.ep (epIdx n p)
  let acc := fun (op : Nat) => l.acc.rstate == .pending && l.acc.op.toNat == op && l.acc.pos.toNat == p
  let ctl := symsNat (body.take 4)
  let control := if ctl / 128 = 1 ∧ p ≠ 15 then [] else [controlFrame cmd p ctl (if cmd = 8 then 2 else 0)]
  let opt := fun (b : Bool) (c : CmdFrame) => if b then [c] else []
  match cmd with
  | 1 => opt (acc 0) (readFrame p l.acc.addr.toNat) ++ opt e.chal.isSome (readFrame p 8) ++ opt e.chal.isSome (readFrame p 9)
  | 2 => (match e.rtWrite with
      | some (_, a, w) => [writeFrame p a.toNat w]
      | none => []) ++ opt (acc 1) (writeFrame p l.acc.addr.toNat l.acc.data0)
  | 3 => opt (enumMay v n 0 p) (enumFrame p)
  | 4 => opt (enumMay v n 1 p || e.identOwed || acc 2) (identFrame p)
  | 5 | 6 => match l.spu with
    | some q => if q.admitted.isSome ∧ q.window.isNone then control else []
    | none => []
  | 7 | 8 => control
  | 9 => opt (enumMay v n 2 p || enumMay (startGrowth v n) n 2 p) (closeFrame p)
  | 10 => opt (openDue v n == some p) (openFrame p)
  | 12 => match e.chal with
    | some (c, _) => [attestFrame p c]
    | none => []
  | _ => []

/-- Whether the lane's own pips that a trace shows are what the lane's schedule requires (R493): the header of the
code and position that the trace names, for a harvest the position that the lane itself would strike, and for
another command a frame that waits in the lane, with its address, data and check. -/
def replayAgrees (v : State) (n cmd pos : Nat) (num : BitVec 48) (syms body : List Nat) : Bool :=
  syms == (headerSyms cmd pos).take syms.length &&
    (if cmd = 0 then harvestTop v n num == some ((v.lane n).enumN - 1)
      else if cmd = 0xB then harvestTop v n num == some pos
      else (mayDrive v n cmd pos body).any (fun c => body == c.body.take body.length))

/-- What a replayed frame leaves: the state, the tokens left, whether it was abandoned (R79), and whether
it agreed with the schedule (R493). -/
structure ReplayedFrame where
  st : State
  rest : List Tok
  cut : Bool
  ok : Bool
  deriving DecidableEq, Repr

/-- Whether the lane's own pips of a frame abandon it (R79). -/
def wireCut (s : State) (n cmd pos : Nat) (h : HeadWire) (body : List (Nat × Nat × Pulse)) (bare : List Pulse) : Bool :=
  let q := decodeWith s n pos (s.lane n).cal.dE
  let (a, dE) := frameHead s n q cmd pos h.mark h.header
  let q := { q with dE := dE }
  ((body ++ bare.map (fun p => (0, graded s n 100, p))).foldl (ownPip q) a).over_

/-- One frame of a replayed lane from its pulses. `strike` is the strike's stamp in a symbol trace. -/
def replayFrame (v : State) (n cmd pos : Nat) (num : BitVec 48) (at_ : Int) (h : HeadWire) (strike : Int)
    (hi lo : Nat) : ReplayedFrame :=
  let top := if cmd = 0 then (v.lane n).enumN - 1 else pos
  let u := v.seenAt at_
  let harvest := cmd == 0 || cmd == 0xB
  let body := if harvest then [] else (frameWire u n cmd pos h hi lo).2.1
  if !replayAgrees u n cmd pos num h.syms body then { st := v, rest := [], cut := false, ok := false }
  else if harvest then
    let r := harvestWire u n top cmd num h strike hi lo
    let bare := r.1.strike :: r.1.answers.filterMap (fun w => w.pace)
    { st := v.under at_ (fun v => runHarvest v n top cmd num at_ r.1), rest := r.2
      cut := wireCut u n cmd pos h [] bare, ok := true }
  else
    let r := frameWire u n cmd pos h hi lo
    let body := masterPips u n r.2.1 r.1.body
    { st := v.under at_ (fun v => replayCommand v n cmd pos r.2.1 num at_ r.1), rest := r.2.2
      cut := wireCut u n cmd pos h body r.1.answer.pace.toList, ok := true }

/-- The grid instant of a number near the trace's present one. -/
def replayInstant (v : State) (num : BitVec 48) : Int :=
  (v.grid.gridAt : Int) + 50000 * ((num.toNat : Int) - v.grid.gridNum.toNat)

/-- After a frame: its events that no row of its own raises, and the note of an abandoned frame. -/
def afterFrame (s : State) (n : Nat) (num : BitVec 48) (cut : Bool) : State :=
  let s := onReplayed s (fun v => (List.range 16).foldl (fun v p => silentSprout v (epIdx n p)) (lineSlow v n))
  s.onReplay (fun r => { r with
    seen := if r.seen.toNat < num.toNat then num else r.seen
    cut := if cut then n :: r.cut.filter (· != n) else r.cut.filter (· != n) })

/-- An AKNUN_FRAME block (R487). -/
def replayAknun (s : State) (b : Block) : State :=
  let n := b.lane
  let x := b.body
  let num := BitVec.ofNat 48 (fieldN x 0 6)
  let kind := fieldN x 6 1
  let cut := fieldN x 18 1 / 2 % 2 == 1
  if kind = 3 then
    afterFrame (onReplayed s (fun v => replayReset v n (s.replay.cut.contains n))) n num false
  else if kind = 4 then afterFrame (onReplayed s (fun v => replayChain v n)) n num false
  else
    let v := replayDev s
    let at_ := replayInstant v num
    let u := v.seenAt at_
    let ts := toks x.length (x.drop 20)
    let cmd := fieldN x 7 1 / 16
    let pos := fieldN x 7 1 % 16
    match headWire u n (decodeWith u n pos (v.lane n).cal.dE) (fieldI x 8 4) ts with
    | none => abandon s 6
    | some h =>
      let strike := fieldI x 12 4
      let now := max v.grid.now (at_ + fieldI x 8 4 + (frameSpan u n cmd pos : Nat)).toNat
      let v := replayCutoff (v.onGrid (fun g => { g with now := min v.lastStep now }))
      let f := replayFrame v n cmd pos num at_ h strike (fieldN x 16 1) (fieldN x 17 1)
      if !f.ok ∨ !f.rest.isEmpty then abandon s 6
      else afterFrame (replayAbsorb s f.st) n num cut

/-! ### Standard buses (R489) -/

/-- A SENT frame of transitions, the first of them falling, as fine stamps relative to a grid instant. -/
def replaySent (v : State) (n : Nat) (num : BitVec 48) (at_ : Int) (edges : List Int) (hi lo : Int) : State :=
  v.under at_ (fun v => sentReceive v n num at_ {
    hi := hi.toNat, low := lo.toNat, edges := evens edges, rises := evens edges.tail })

/-- A PSI5 frame. The trace holds no stamp of a sync pulse: it is taken at the lane's OFFSET, and a frame of
another snapshot than the latest begins a cycle (R489). -/
def replayPsi5 (v : State) (n : Nat) (num : BitVec 48) (at_ : Int) (edges : List Int) (lo hi : Int) : State :=
  v.under at_ (fun v =>
    let o := descOffset v (epIdx n ((lanePositions v n).headD 0))
    let sync := psi5Sync v n
    let v := if sync && !trigSent v n num then startTrig (closeCycle v n) n (at_ + o) num at_ else v
    let w := psi5Wire v n o edges lo hi
    psi5Receive v n (if sync then psi5Slot v n w.edge else 0) num at_ w)

/-- One frame of a diagnostic pair of a replayed lane: that of 0x3D completes the lane's request with the response
that the edges show (R161, R364, R387). -/
def replayDiag (v : State) (n fid : Nat) (num : BitVec 48) (at_ start : Int) (w : LinWire) : State :=
  if (v.lane n).acc.rstate ≠ .pending ∨ (v.lane n).acc.op ≠ 3 then v
  else
    let v := countBreaks v n 1 w.breakRecessive
    if fid = 0x3C then diagFrame (v.onLane n (fun l => { l with acc := { l.acc with begun := true } })) n start num at_ true w.edges
    else diagResult (diagFrame v n start num at_ (diagOk w) w.edges) n false w

/-- The scheduled slot of a replayed LIN lane that a frame fills: that of the identifier its edges show, or the one
that the present tick lies in; a pair's slot only where a request is pending. -/
def replayLinSlot (v : State) (n : Nat) (edges : List Int) : Option (Nat × Nat × Nat × Nat) :=
  let l := v.lane n
  let diag := l.acc.rstate == .pending && l.acc.op == 3
  match linFid v n edges with
  | some f => l.linSched.find? (fun x => x.1 == f)
  | none => l.linSched.find? (fun x => (decide (x.1 < 0x3C) || diag) && (linOccur v x).isSome)

/-- A LIN frame slot. -/
def replayLin (v : State) (n : Nat) (num : BitVec 48) (at_ : Int) (edges : List Int) : State :=
  match replayLinSlot v n edges with
  | none => v
  | some x =>
    let start := edges.headD 0
    let endAt := start + 400000 * (x.2.2.2 : Nat)
    v.under at_ (fun v =>
      if 0x3C ≤ x.1 then replayDiag v n x.1 num at_ (at_ + start / 8) (linWire v n edges 8 endAt none)
      else
        let p0 := (linNodes v n x.1).headD 0
        let len := ranged 1 8 (nodeLen v n p0)
        let pub := if nodePublish v n p0 then
            let bs := publishBytes v n x.1 len
            some (bs ++ [linCheck v n p0 x.1 bs])
          else none
        linReceive v n x.1 num at_ (linWire v n edges len endAt pub))

/-- An EDGES block (R489). -/
def replayEdges (s : State) (b : Block) : State :=
  let n := b.lane
  let x := b.body
  let num := BitVec.ofNat 48 (fieldN x 0 6)
  let v := replayDev s
  let at_ := replayInstant v num
  let og := (v.lane n).cal.og
  let first := fieldI x 6 4
  let steps := if x.length < 14 then [] else first :: edgesFrom x.length first (x.drop 14)
  let edges := steps.map (fun t => og + 8 * t)
  let now := max v.grid.now (at_ + steps.getLastD 0).toNat
  let v := replayCutoff (v.onGrid (fun g => { g with now := min v.lastStep now }))
  let v := match (v.lane n).mode with
    | .sent => replaySent v n num at_ edges (fieldI x 10 2) (fieldI x 12 2)
    | .psi5 => replayPsi5 v n num at_ edges (fieldI x 10 2) (fieldI x 12 2)
    | .lin => replayLin v n num at_ edges
    | _ => v
  afterFrame (replayAbsorb s v) n num false

/-! ### Raw edges (R489, R492) -/

/-- The frame that a stamp relative to the period's grid instant belongs to: the number and time of its
grid instant (R137). -/
def rawSnap (v : State) (n : Nat) (t : Int) : BitVec 48 × Int :=
  let q := (t / 8 - frameStart v n + 400) / (period v : Int)
  (BitVec.ofInt 48 ((v.grid.gridNum.toNat : Int) + q * (2 ^ pexp v : Nat)), v.grid.gridAt + q * (period v : Int))

/-- A stamped pulse moved by `d` fine units. -/
def movePulse (d : Int) (p : Pulse) : Pulse :=
  { fall := p.fall + d, rise := match p.rise with
      | some r => some (r + d)
      | none => none }

/-- Whether a pulse is a frame mark or a reset rather than a pip. -/
def longPulse (v : State) (n : Nat) (p : Pulse) : Bool :=
  decide ((graded v n 1000 : Nat) ≤ (pulseLen (v.lane n).cal.og p).getD 0)

/-- Pulses of falling and rising edges in turn. -/
def pulsesOf : List Int → List Pulse
  | f :: r :: t => { fall := f, rise := some r } :: pulsesOf t
  | _ => []

/-- The transitions of pulses. -/
def edgesOf (ps : List Pulse) : List Int :=
  ps.flatMap (fun p => p.fall :: (match p.rise with
    | some r => [r]
    | none => []))

/-- Whether a frame whose mark is `p` goes on past the end of the period, `stop` after its grid instant: by its
length, or by that of its header where the header is not complete. `short` are the pulses after the mark. -/
def frameGoesOn (v : State) (n : Nat) (p : Pulse) (short : List Pulse) (stop : Int) : Bool :=
  let ts := (p :: short).map (fun p => ({ sym := 0, dev := none, raw := none, pulse := some p } : Tok))
  let span := match headWire v n (decodeWith v n 0 (v.lane n).cal.dE) 0 ts with
    | some h =>
      if h.syms.length < 6 then 9 * pipSteps v n
      else
        let x := frameSpan v n (symsNat (h.syms.take 2)) (symsNat ((h.syms.drop 2).take 2))
        if (List.range 16).any (fun p => (v.ep (epIdx n p)).stretch) then x * 108 / 100 else x
    | none => 0
  decide (stop < p.fall + 8 * (span : Nat))

/-- The Aknun frames of a period from its pulses, with one level pair for each that ends in it (R489, R492): a frame
begins at a frame mark, and a longer pulse is a reset. What goes on past the period's end, `stop`, waits for the
next block, with the falling edge `tail` of a pulse that does. -/
def rawFrames (n : Nat) (stop : Int) (tail : List Int) : Nat → List Pulse → List (Nat × Nat) → State → State
  | 0, _, _, s => s
  | _, [], _, s => keepTail s tail
  | fuel + 1, p :: ps, levs, s =>
    let v := replayDev s
    let snap := rawSnap v n p.fall
    let short := ps.takeWhile (fun x => !longPulse v n x)
    let after := ps.dropWhile (fun x => !longPulse v n x)
    if (graded v n 4000 : Nat) < (pulseLen (v.lane n).cal.og p).getD 0 then
      let s := afterFrame (onReplayed s (fun v => replayReset v n (s.replay.cut.contains n))) n snap.1 false
      rawFrames n stop tail fuel after levs s
    else if after.isEmpty ∧ frameGoesOn (v.seenAt snap.2) n p short stop then keepTail s (edgesOf (p :: short) ++ tail)
    else
      let d := 8 * ((v.grid.gridAt : Int) - snap.2)
      let ts := (p :: short).map (fun p => ({ sym := 0, dev := none, raw := none, pulse := some (movePulse d p) } : Tok))
      let u := v.seenAt snap.2
      match headWire u n (decodeWith u n 0 (v.lane n).cal.dE) 0 ts with
      | none => s
      | some h =>
        let cmd := symsNat (h.syms.take 2)
        let pos := symsNat ((h.syms.drop 2).take 2)
        let lev := levs.headD (0, 0)
        let f := replayFrame v n cmd pos snap.1 snap.2 h 0 lev.1 lev.2
        if !f.ok ∨ !f.rest.isEmpty then abandon s 6
        else rawFrames n stop tail fuel after levs.tail (afterFrame (replayAbsorb s f.st) n snap.1 f.cut)
where
  keepTail (s : State) (es : List Int) : State :=
    onReplayed s (fun v => v.onLane n (fun l => { l with raw := es.map (fun e => e + 8 * (v.grid.gridAt : Int)) }))

/-- The SENT frames of a period from its transitions, the first of them falling, without glitches; what is left
waits for the next period. -/
def rawSent (n : Nat) : Nat → List Int → List (Nat × Nat) → State → State
  | 0, _, _, s => s
  | fuel + 1, xs, levs, s =>
    let v := replayDev s
    match sentCut v n (evens xs) with
    | none => onReplayed s (fun v => v.onLane n (fun l => { l with raw := xs.map (fun f => f + 8 * (v.grid.gridAt : Int)) }))
    | some (0, j) => rawSent n fuel (xs.drop (2 * j)) levs s
    | some (k, j) =>
      let edges := xs.take (2 * k - 1)
      let lev := levs.headD (0, 0)
      let done := (v.grid.gridAt : Int) + edges.getLastD 0 / 8
      let snap := if sentSpc v n then rawSnap v n (edges.headD 0) else freeSnap v done
      let d := 8 * ((v.grid.gridAt : Int) - snap.2)
      let v := replaySent v n snap.1 snap.2 (edges.map (fun e => e + d)) lev.1 lev.2
      rawSent n fuel (xs.drop (2 * j)) levs.tail (afterFrame (replayAbsorb s v) n snap.1 false)

/-- Runs of edges no further apart than `gap`. -/
def edgeRuns (gap : Int) (es : List Int) : List (List Int) :=
  es.foldr (fun e acc =>
    match acc with
    | (f :: r) :: t => if f - e ≤ gap then (e :: f :: r) :: t else [e] :: (f :: r) :: t
    | _ => [e] :: acc) []

/-- The PSI5 frames or LIN slots of a period: runs of edges that belong together. -/
def rawRuns (s : State) (n : Nat) (edges : List Int) (levs : List (Nat × Nat)) : State :=
  let v := replayDev s
  let lin := (v.lane n).mode == .lin
  let gap : Int := if lin then 14 * linBit v n else if psi5Fast v n then 2 * 16931 else 2 * 25600
  ((edgeRuns gap edges).zip (levs ++ List.replicate edges.length (0, 0))).foldl (fun s x =>
    let v := replayDev s
    let done := (v.grid.gridAt : Int) + x.1.getLastD 0 / 8
    let snap := if !lin && psi5Sync v n then rawSnap v n (x.1.headD 0) else freeSnap v done
    let d := 8 * ((v.grid.gridAt : Int) - snap.2)
    let es := x.1.map (fun e => e + d)
    let v := if lin then replayLin v n snap.1 snap.2 es else replayPsi5 v n snap.1 snap.2 es x.2.1 x.2.2
    afterFrame (replayAbsorb s v) n snap.1 false) s

/-- Fine stamps of a RAW_EDGES body and what follows them: the intervals end where the count and the
level pairs begin, which the body's length fixes. -/
def rawParts (x : Bytes) : List Int × List (Nat × Nat) :=
  let first := fieldI x 7 4
  let ks := (List.range 256).filter (fun k => 12 + 4 * k ≤ x.length ∧ fieldN x (x.length - 4 * k - 1) 1 = k)
  let k := ks.headD 0
  let body := (x.take (x.length - 4 * k - 1)).drop 11
  let levs := (List.range k).map (fun j =>
    (fieldN x (x.length - 4 * k + 4 * j) 2, fieldN x (x.length - 4 * k + 4 * j + 2) 2))
  (if body.isEmpty ∧ first = 0 then [] else first :: edgesFrom body.length first body, levs)

/-- A RAW_EDGES block (R489): the period that its grid instant opened, with what the block before left over. -/
def replayRaw (s : State) (b : Block) : State :=
  let n := b.lane
  let (edges, levs) := rawParts b.body
  let v := replayDev s
  let kept := (v.lane n).raw.map (fun f => f - 8 * (v.grid.gridAt : Int))
  let falling := kept ++ (if kept.isEmpty ∧ fieldN b.body 6 1 = 0 then edges.tail else edges)
  match (v.lane n).mode with
  | .aknun =>
    let stop := 8 * ((v.grid.tickAt + v.grid.gap : Nat) - v.grid.gridAt : Int)
    let tail := if falling.length % 2 = 1 then [falling.getLastD 0] else []
    rawFrames n stop tail (falling.length + 1) (pulsesOf falling) levs
      (onReplayed s (fun v => v.onLane n (fun l => { l with raw := [] })))
  | .sent =>
    let xs := unglitch (sentGlitch v n) (falling.zipIdx.map (fun x => (x.1, x.2 % 2 == 0)))
    rawSent n (falling.length + 2) (xs.map Prod.fst) levs s
  | .psi5 | .lin => rawRuns s n edges levs
  | _ => s

/-! ### DIGEST: the replay snapshot (R486, R493, R498) -/

/-- The lanes of the trace that take part in a snapshot: those started for it. -/
def hiddenLanes (r : ReplayRun) (num : BitVec 48) : List Nat :=
  r.lanes.filter (fun n => !r.started.any (fun x => x.1 == n && decide (x.2.toNat ≤ num.toNat)))

/-- One compared snapshot enters the result area. -/
def compareSnap (r : ReplayRun) (x : Snap) (b : Bytes) : ReplayRun :=
  let counts := countBytes x.recs
  let want := BitVec.ofNat 32 (fieldN b 28 4)
  let same := x.recordDigest == want
  let cnt := counts == (b.drop 12).take 16
  let e : ReplayResult :=
    { num := x.num, matchByte := BitVec.ofNat 8 (b2n same + 2 * b2n cnt), records := BitVec.ofNat 16 (fieldN b 8 2)
      laneDigest := want, digest := x.recordDigest, counts := counts }
  let bad := !same || !cnt
  { r with
    results := Tbl.set (fun _ => none) r.results (r.compared % 4096) (some e), compared := r.compared + 1
    mismatches := if bad then r.mismatches + 1 else r.mismatches
    firstBad := if bad && r.mismatches == 0 then x.num else r.firstBad }

/-- A DIGEST block: the replay snapshot of its grid instant is completed and compared. -/
def replayDigest (s : State) (b : Block) : State :=
  let x := b.body
  let num := BitVec.ofNat 48 (fieldN x 0 6)
  let v := replayDev s
  let v := if v.grid.gridNum = num then replayCutoff (v.onGrid (fun g => { g with now := max g.now (cutoffAt v) })) else v
  let hidden := hiddenLanes s.replay num
  let lost := (s.replay.lost.filter (fun y => y.2 == num)).map Prod.fst
  let v := v.onAsm (fun a => { a with build := (a.build.filter (fun y => decide (num.toNat ≤ y.num.toNat))).map (fun y =>
    if y.num = num then { y with lostLanes := y.lostLanes ++ lost } else y) })
  match v.asm_.build with
  | y :: _ =>
    if y.num = num then
      let v' := { v with cfg := { v.cfg with
        live := v.cfg.live.filter (fun (e : Nat × Word) => decide (0x040000 ≤ e.1) || !hidden.contains (e.1 / 512))
        hist := v.cfg.hist.map (fun (h : Nat × Tbl Word) => (h.1, h.2.filter (fun e =>
          decide (0x040000 ≤ e.1) || !hidden.contains (e.1 / 512)))) } }
      let v' := v'.under y.at_ (fun v => (assemble v y 0 [] [] []).1)
      let s := replayAbsorb s v'
      let s := s.onReplay (fun r => { r with lost := r.lost.filter (fun z => decide (num.toNat < z.2.toNat)) })
      match v'.asm_.latest, s.replay.cmpFrom with
      | some z, some g =>
        if g.toNat ≤ num.toNat then
          s.onReplay (fun r => compareSnap
            { r with snap := some { z with doneTime := 0, configDigest := r.digest } } z x)
        else s
      | _, _ => s
    else replayAbsorb s v
  | [] => replayAbsorb s v

/-! ### A trace tick (R496, R497) -/

/-- A GAP restarts the lanes that its block names (R497). -/
def replayGap (s : State) (n : Nat) : State :=
  s.onReplay (fun r => { r with
    started := if n = 0xFFFF then [] else r.started.filter (fun x => x.1 != n), cmpFrom := none })

/-- Whether a lane block belongs to a replayed lane that has started. -/
def laneStarted (s : State) (n : Nat) : Bool := s.replay.started.any (fun x => x.1 == n)

/-- One block by its type; a block of an unknown type is skipped (R479). -/
def replayBlockType (s : State) (b : Block) : State :=
  match b.typ with
  | 0x11 => replayCheckpoint s b
  | 0x12 => replayCommit s b
  | 0x20 =>
    let s := onReplayed s (fun v => replayTickBlock v b.body)
    s.onReplay (fun r => { r with tick := r.grid.tick })
  | 0x21 => replayHappening s b
  | 0x22 => replayDigest s b
  | 0x30 => if laneStarted s b.lane then replayAknun s b else s
  | 0x31 => if laneStarted s b.lane then replayEdges s b else s
  | 0x32 => if laneStarted s b.lane then replayRaw s b else s
  | _ => s

/-- One block checked (R497) and carried out. -/
def replayBlock (s : State) (b : Block) : State :=
  let broken : Bool := match s.replay.seq with
    | some q => q != b.seq
    | none => false
  if !b.crcOk then abandon s 3
  else if broken ∧ !b.gap then abandon s 4
  else
    let s := s.onReplay (fun r => { r with seq := some (b.seq + 1) })
    let s := if b.gap then replayGap s b.lane else s
    replayBlockType s b

/-- Blocks up to the length of a trace tick. -/
def replayBlocks : Nat → Nat → State → State
  | 0, _, s => s
  | fuel + 1, n, s =>
    if n = 0 ∨ s.replay.rstate ≠ .running then s
    else
      let b := s.replay.buffer
      let len := blockLen b
      let s := s.onReplay (fun r => { r with buffer := b.drop len })
      replayBlocks fuel (n - len) (replayBlock s (blockAt b))

/-- Whether the trace can end here: it has begun, and the lanes have disconnected where its device check has
passed. -/
def replayOpen (s : State) : Bool :=
  s.mode.dev == .replay && !s.replay.starting && !s.mode.restarting &&
    (s.replay.rstate == .loading || s.replay.rstate == .running)

/-- Whether the replay can go on. -/
def replayGoing (s : State) : Bool :=
  replayOpen s && s.replay.checked

/-- The bytes of the next trace tick, once they are complete. -/
def nextSpan (s : State) : Option Nat :=
  match tickSpan (s.replay.buffer.length / 8 + 1) false s.replay.buffer with
  | some 0 => none
  | x => x

/-! ### Meanings -/

/-- REPLAY_INJECT (R494): Port U writes the trace word of file offset `offset`; a word other than the next
one, or one without room, is refused, and FIRST gives bits 23:2 of the address to resume from (R335). -/
def execReplayInject (dt : Nat) (offset : Nat) (data : Word) (s : State) : Out :=
  hostFrame dt .u s (fun s =>
    let s := noteCount (clearInd s .u) .u 1
    if s.mode.dev = .replay ∧ offset = s.replay.taken ∧ s.replay.buffer.length + 4 ≤ 1048576 then injectWord s data
    else noteDenied s .u (0x400000 + offset % 0x400000))

/-- TRACE_START (R495): the TRACE_START block has arrived and the device checks it; what stands before it is
skipped or refused. A header of TYPE 0x00 ends the trace (R497) and is no block. -/
def execTraceStart (s : State) : Out :=
  .next (
    if s.mode.dev = .replay ∧ s.replay.rstate = .loading ∧ !s.replay.checked ∧
        !s.mode.restarting ∧ fieldN s.replay.buffer 0 1 ≠ 0 ∧ blockReady s.replay.buffer then
      replayStart s
    else s)

/-- REPLAY_TICK (R496): at a grid tick, once the blocks of the next trace tick are complete in the buffer,
the replay advances by it. -/
def execReplayTick (s : State) : Out :=
  .next (
    match nextSpan s with
    | some n =>
      if replayGoing s ∧ s.grid.now = s.grid.tickAt ∧ s.replay.lastAt ≠ some s.grid.tickAt then
        let s := s.onReplay (fun r => { r with rstate := .running, lastAt := some s.grid.tickAt })
        replayBlocks (n / 12 + 1) n s
      else s
    | none => s)

/-- REPLAY_END (R497): the header that ends the trace is next, or the next block fails its CRC or breaks
the sequence. -/
def execReplayEnd (dt : Nat) (s : State) : Out :=
  run dt s (fun s =>
    let b := s.replay.buffer
    if replayOpen s ∧ 8 ≤ b.length then
      if fieldN b 0 1 = 0 then replayStop s .done 0
      else if replayGoing s ∧ blockReady b then
        let x := blockAt b
        let broken : Bool := match s.replay.seq with
          | some q => q != x.seq && !x.gap
          | none => false
        if !x.crcOk then abandon s 3 else if broken then abandon s 4 else s
      else s
    else s)

end Sys2Proof.Machine
end

