-- ==== Sys2Proof/Machine/Dispatch.lean ====
section
/-! DEFINITION. One arm for each command, each a direct call of that command's meaning. -/

namespace Sys2Proof.Machine

def exec (i : Instr) (s : State) : Host.Outcome State Fault Refusal :=
  match i with
  | .powerOnReset lead => Sys2Proof.Machine.execPowerOnReset lead s
  | .rstN lowNs lead => Sys2Proof.Machine.execRstN lowNs lead s
  | .boot shellTest pufOk refPresent bad corrected => Sys2Proof.Machine.execBoot shellTest pufOk refPresent bad corrected s
  | .discoveryEnd => Sys2Proof.Machine.execDiscoveryEnd s
  | .followerStartTimeout => Sys2Proof.Machine.execFollowerStartTimeout s
  | .stageAdmit g => Sys2Proof.Machine.execStageAdmit g s
  | .laneStep g m => Sys2Proof.Machine.execLaneStep g m s
  | .stageChargeRelease g => Sys2Proof.Machine.execStageChargeRelease g s
  | .enumWaveAdmit => Sys2Proof.Machine.execEnumWaveAdmit s
  | .gridTick errs => Sys2Proof.Machine.execGridTick errs s
  | .freeRunAdvance => Sys2Proof.Machine.execFreeRunAdvance s
  | .syncRx dt port msg logInterval => Sys2Proof.Machine.execSyncRx dt port msg logInterval s
  | .acquisitionComplete dt offset => Sys2Proof.Machine.execAcquisitionComplete dt offset s
  | .lockAcquired dt => Sys2Proof.Machine.execLockAcquired dt s
  | .syncTimeout dt otherPortOk => Sys2Proof.Machine.execSyncTimeout dt otherPortOk s
  | .holdMax dt => Sys2Proof.Machine.execHoldMax dt s
  | .rephase dt p => Sys2Proof.Machine.execRephase dt p s
  | .rephaseStep => Sys2Proof.Machine.execRephaseStep s
  | .peerDelay dt port delayNs => Sys2Proof.Machine.execPeerDelay dt port delayNs s
  | .downstreamMessage dt arrival msg => Sys2Proof.Machine.execDownstreamMessage dt arrival msg s
  | .upstreamMessage dt msg => Sys2Proof.Machine.execUpstreamMessage dt msg s
  | .echoMark dt arrival => Sys2Proof.Machine.execEchoMark dt arrival s
  | .followLost => Sys2Proof.Machine.execFollowLost s
  | .followerLost hop => Sys2Proof.Machine.execFollowerLost hop s
  | .referenceLoss dt => Sys2Proof.Machine.execReferenceLoss dt s
  | .referenceReturn => Sys2Proof.Machine.execReferenceReturn s
  | .corePll dt => Sys2Proof.Machine.execCorePll dt s
  | .lanePll dt => Sys2Proof.Machine.execLanePll dt s
  | .lanePllRelock dt => Sys2Proof.Machine.execLanePllRelock dt s
  | .harvest dt n w => Sys2Proof.Machine.execHarvest dt n w s
  | .harvestPartial dt n top w => Sys2Proof.Machine.execHarvestPartial dt n top w s
  | .sproutOnSilence idx => Sys2Proof.Machine.execSproutOnSilence idx s
  | .lineSlow n => Sys2Proof.Machine.execLineSlow n s
  | .read dt n w => Sys2Proof.Machine.execRead dt n w s
  | .write dt n w => Sys2Proof.Machine.execWrite dt n w s
  | .enum dt n w => Sys2Proof.Machine.execEnum dt n w s
  | .ident dt n w => Sys2Proof.Machine.execIdent dt n w s
  | .convert dt n p all code w => Sys2Proof.Machine.execConvert dt n p all code w s
  | .commitNv dt n p all code w => Sys2Proof.Machine.execCommitNv dt n p all code w s
  | .sleep dt n p all w => Sys2Proof.Machine.execSleep dt n p all w s
  | .wakePing dt n p wake w => Sys2Proof.Machine.execWakePing dt n p wake w s
  | .closePass dt n w => Sys2Proof.Machine.execClosePass dt n w s
  | .openPass dt n p w => Sys2Proof.Machine.execOpenPass dt n p w s
  | .attest dt n p w => Sys2Proof.Machine.execAttest dt n p w s
  | .attestTagCheck dt n p hi lo => Sys2Proof.Machine.execAttestTagCheck dt n p hi lo s
  | .enumerationStart dt n => Sys2Proof.Machine.execEnumerationStart dt n s
  | .enumRetry dt n => Sys2Proof.Machine.execEnumRetry dt n s
  | .enumRepoll n => Sys2Proof.Machine.execEnumRepoll n s
  | .spuAdmit n => Sys2Proof.Machine.execSpuAdmit n s
  | .spuWindowEnd dt n => Sys2Proof.Machine.execSpuWindowEnd dt n s
  | .spuOverload dt n => Sys2Proof.Machine.execSpuOverload dt n s
  | .stuckLow dt n => Sys2Proof.Machine.execStuckLow dt n s
  | .busClear dt n => Sys2Proof.Machine.execBusClear dt n s
  | .busClearLineHigh dt n => Sys2Proof.Machine.execBusClearLineHigh dt n s
  | .shortToGround dt n => Sys2Proof.Machine.execShortToGround dt n s
  | .shortHigh dt n => Sys2Proof.Machine.execShortHigh dt n s
  | .lineSwing n => Sys2Proof.Machine.execLineSwing n s
  | .isolationRetry n free => Sys2Proof.Machine.execIsolationRetry n free s
  | .seqParity dt c => Sys2Proof.Machine.execSeqParity dt c s
  | .seqReload c => Sys2Proof.Machine.execSeqReload c s
  | .laneModeStart n => Sys2Proof.Machine.execLaneModeStart n s
  | .spcTrigger dt n stamp => Sys2Proof.Machine.execSpcTrigger dt n stamp s
  | .sentFrame dt n w => Sys2Proof.Machine.execSentFrame dt n w s
  | .sentStuck dt n => Sys2Proof.Machine.execSentStuck dt n s
  | .sentSilent dt n => Sys2Proof.Machine.execSentSilent dt n s
  | .syncPulse dt n stamp => Sys2Proof.Machine.execSyncPulse dt n stamp s
  | .psi5Frame dt n slot w => Sys2Proof.Machine.execPsi5Frame dt n slot w s
  | .psi5Silent dt n => Sys2Proof.Machine.execPsi5Silent dt n s
  | .psi5Overcurrent dt n => Sys2Proof.Machine.execPsi5Overcurrent dt n s
  | .linFrameSlot dt n fid w => Sys2Proof.Machine.execLinFrameSlot dt n fid w s
  | .linDiagPair dt n w => Sys2Proof.Machine.execLinDiagPair dt n w s
  | .linWakeUp dt n => Sys2Proof.Machine.execLinWakeUp dt n s
  | .linScheduleStart n => Sys2Proof.Machine.execLinScheduleStart n s
  | .linWake dt n lowUs => Sys2Proof.Machine.execLinWake dt n lowUs s
  | .linStuck dt n toVbat => Sys2Proof.Machine.execLinStuck dt n toVbat s
  | .linStuckClear dt n => Sys2Proof.Machine.execLinStuckClear dt n s
  | .harvestCutoff dt => Sys2Proof.Machine.execHarvestCutoff dt s
  | .queueTimeout dt g => Sys2Proof.Machine.execQueueTimeout dt g s
  | .queuePtr dt g k => Sys2Proof.Machine.execQueuePtr dt g k s
  | .linkRetry dt g lanes twice => Sys2Proof.Machine.execLinkRetry dt g lanes twice s
  | .snapshotDone dt single badEcc decayed => Sys2Proof.Machine.execSnapshotDone dt single badEcc decayed s
  | .keyLimit k => Sys2Proof.Machine.execKeyLimit k s
  | .uplinkDown dt port cause => Sys2Proof.Machine.execUplinkDown dt port cause s
  | .uplinkUp dt port => Sys2Proof.Machine.execUplinkUp dt port s
  | .revert k => Sys2Proof.Machine.execRevert k s
  | .uplinkRx dt port frame => Sys2Proof.Machine.execUplinkRx dt port frame s
  | .wakeOutRelease dt => Sys2Proof.Machine.execWakeOutRelease dt s
  | .rememberedDelivery dt c => Sys2Proof.Machine.execRememberedDelivery dt c s
  | .spuDeferEnd dt g => Sys2Proof.Machine.execSpuDeferEnd dt g s
  | .portRead dt p fast cmd addr crc => Sys2Proof.Machine.execPortRead dt p fast cmd addr crc s
  | .portWrite dt p fast cmd addr data crc => Sys2Proof.Machine.execPortWrite dt p fast cmd addr data crc s
  | .burstRead dt p how cmd addr crc words => Sys2Proof.Machine.execBurstRead dt p how cmd addr crc words s
  | .burstWrite dt p how cmd addr crc words => Sys2Proof.Machine.execBurstWrite dt p how cmd addr crc words s
  | .stallRead dt p how cmd addr crc => Sys2Proof.Machine.execStallRead dt p how cmd addr crc s
  | .secureWrite dt p fast cmd addr data ctr tag crc => Sys2Proof.Machine.execSecureWrite dt p fast cmd addr data ctr tag crc s
  | .secureBurst dt p fast cmd addr len ctr crc words tag tagCrc => Sys2Proof.Machine.execSecureBurst dt p fast cmd addr len ctr crc words tag tagCrc s
  | .transactionAbort dt p at_ => Sys2Proof.Machine.execTransactionAbort dt p at_ s
  | .seqWriteBack dt p off data => Sys2Proof.Machine.execSeqWriteBack dt p off data s
  | .registerWrite dt p indirect addr data => Sys2Proof.Machine.execRegisterWrite dt p indirect addr data s
  | .commit dt p groups => Sys2Proof.Machine.execCommit dt p groups s
  | .commitTake => Sys2Proof.Machine.execCommitTake s
  | .sowingComplete => Sys2Proof.Machine.execSowingComplete s
  | .commitEffective => Sys2Proof.Machine.execCommitEffective s
  | .lockSet dt p bits => Sys2Proof.Machine.execLockSet dt p bits s
  | .captureReq dt p restart => Sys2Proof.Machine.execCaptureReq dt p restart s
  | .captureSample => Sys2Proof.Machine.execCaptureSample s
  | .captureDone dt => Sys2Proof.Machine.execCaptureDone dt s
  | .discard dt p groups => Sys2Proof.Machine.execDiscard dt p groups s
  | .flush dt p g => Sys2Proof.Machine.execFlush dt p g s
  | .evqFlush dt p => Sys2Proof.Machine.execEvqFlush dt p s
  | .calSave dt p => Sys2Proof.Machine.execCalSave dt p s
  | .goRead dt p n pos addr => Sys2Proof.Machine.execGoRead dt p n pos addr s
  | .goWrite dt p n pos addr => Sys2Proof.Machine.execGoWrite dt p n pos addr s
  | .goIdent dt p n pos => Sys2Proof.Machine.execGoIdent dt p n pos s
  | .goLinDiag dt p n => Sys2Proof.Machine.execGoLinDiag dt p n s
  | .expired n => Sys2Proof.Machine.execExpired n s
  | .preset dt p => Sys2Proof.Machine.execPreset dt p s
  | .reclaim dt p => Sys2Proof.Machine.execReclaim dt p s
  | .open_ dt p => Sys2Proof.Machine.execOpen dt p s
  | .close dt p => Sys2Proof.Machine.execClose dt p s
  | .sessionResponse dt p r => Sys2Proof.Machine.execSessionResponse dt p r s
  | .challengeTimeout dt p => Sys2Proof.Machine.execChallengeTimeout dt p s
  | .heartbeatMissed dt p => Sys2Proof.Machine.execHeartbeatMissed dt p s
  | .leaseExpiry dt p => Sys2Proof.Machine.execLeaseExpiry dt p s
  | .loadPart dt p ctr part enc => Sys2Proof.Machine.execLoadPart dt p ctr part enc s
  | .installMaster dt p ctr gen => Sys2Proof.Machine.execInstallMaster dt p ctr gen s
  | .installStreamKey dt p ctr stream keyId actSnap gen keyNonce => Sys2Proof.Machine.execInstallStreamKey dt p ctr stream keyId actSnap gen keyNonce s
  | .installPairingRoot dt p ctr slot maker => Sys2Proof.Machine.execInstallPairingRoot dt p ctr slot maker s
  | .installHoardKey dt p ctr => Sys2Proof.Machine.execInstallHoardKey dt p ctr s
  | .rotatePortKey dt p ctr code => Sys2Proof.Machine.execRotatePortKey dt p ctr code s
  | .clearSlot dt p ctr slot => Sys2Proof.Machine.execClearSlot dt p ctr slot s
  | .setPolicy dt p ctr policy => Sys2Proof.Machine.execSetPolicy dt p ctr policy s
  | .readSlotAttr dt p ctr slot => Sys2Proof.Machine.execReadSlotAttr dt p ctr slot s
  | .readLog dt p ctr index => Sys2Proof.Machine.execReadLog dt p ctr index s
  | .sign dt p ctr challenge => Sys2Proof.Machine.execSign dt p ctr challenge s
  | .readOut dt p ctr buffer part => Sys2Proof.Machine.execReadOut dt p ctr buffer part s
  | .saveConfig dt p ctr => Sys2Proof.Machine.execSaveConfig dt p ctr s
  | .provPart dt p ctr part bytes => Sys2Proof.Machine.execProvPart dt p ctr part bytes s
  | .provCommit dt p ctr => Sys2Proof.Machine.execProvCommit dt p ctr s
  | .vaultResult dt p => Sys2Proof.Machine.execVaultResult dt p s
  | .shellOpen dt => Sys2Proof.Machine.execShellOpen dt s
  | .shellShort dt => Sys2Proof.Machine.execShellShort dt s
  | .light dt => Sys2Proof.Machine.execLight dt s
  | .voltGlitch dt => Sys2Proof.Machine.execVoltGlitch dt s
  | .clockGlitch dt => Sys2Proof.Machine.execClockGlitch dt s
  | .tempHigh dt => Sys2Proof.Machine.execTempHigh dt s
  | .tempLow dt => Sys2Proof.Machine.execTempLow dt s
  | .testAccess dt how => Sys2Proof.Machine.execTestAccess dt how s
  | .idcode => Sys2Proof.Machine.execIdcode s
  | .bypass tdi => Sys2Proof.Machine.execBypass tdi s
  | .railWarning dt r => Sys2Proof.Machine.execRailWarning dt r s
  | .railReset r lead => Sys2Proof.Machine.execRailReset r lead s
  | .railRecovery dt r th => Sys2Proof.Machine.execRailRecovery dt r th s
  | .vlinkSecond dt g => Sys2Proof.Machine.execVlinkSecond dt g s
  | .vlinkRecovery dt g => Sys2Proof.Machine.execVlinkRecovery dt g s
  | .regionIsolated dt g => Sys2Proof.Machine.execRegionIsolated dt g s
  | .regionIsolationEnd dt g => Sys2Proof.Machine.execRegionIsolationEnd dt g s
  | .vbatSecond dt => Sys2Proof.Machine.execVbatSecond dt s
  | .vbatRecovery dt => Sys2Proof.Machine.execVbatRecovery dt s
  | .regionCal g => Sys2Proof.Machine.execRegionCal g s
  | .modeReqOff dt p => Sys2Proof.Machine.execModeReqOff dt p s
  | .modeReqSentinel dt p => Sys2Proof.Machine.execModeReqSentinel dt p s
  | .modeReqRun dt p => Sys2Proof.Machine.execModeReqRun dt p s
  | .modeReqRecover dt p => Sys2Proof.Machine.execModeReqRecover dt p s
  | .modeReqTest dt p secure => Sys2Proof.Machine.execModeReqTest dt p secure s
  | .modeReqReplay dt p secure => Sys2Proof.Machine.execModeReqReplay dt p secure s
  | .modeChange => Sys2Proof.Machine.execModeChange s
  | .offEntry dt => Sys2Proof.Machine.execOffEntry dt s
  | .sentinelEntry dt => Sys2Proof.Machine.execSentinelEntry dt s
  | .sentinelPoll dt n w pings sent lin => Sys2Proof.Machine.execSentinelPoll dt n w pings sent lin s
  | .sentinelExit dt => Sys2Proof.Machine.execSentinelExit dt s
  | .lockstepMismatch dt => Sys2Proof.Machine.execLockstepMismatch dt s
  | .wardenRestart dt => Sys2Proof.Machine.execWardenRestart dt s
  | .hoardArm => Sys2Proof.Machine.execHoardArm s
  | .hoardFreeze dt p => Sys2Proof.Machine.execHoardFreeze dt p s
  | .hoardExport => Sys2Proof.Machine.execHoardExport s
  | .hoardFrozen dt => Sys2Proof.Machine.execHoardFrozen dt s
  | .replayInject dt offset data => Sys2Proof.Machine.execReplayInject dt offset data s
  | .traceStart => Sys2Proof.Machine.execTraceStart s
  | .replayTick => Sys2Proof.Machine.execReplayTick s
  | .replayEnd dt => Sys2Proof.Machine.execReplayEnd dt s
  | .takeBlock dt block => Sys2Proof.Machine.execTakeBlock dt block s
  | .verify dt => Sys2Proof.Machine.execVerify dt s
  | .abort dt p => Sys2Proof.Machine.execAbort dt p s
  | .activate dt p => Sys2Proof.Machine.execActivate dt p s
  | .activationPause dt => Sys2Proof.Machine.execActivationPause dt s
  | .activationPauseEnd dt => Sys2Proof.Machine.execActivationPauseEnd dt s
  | .migrationComplete dt w => Sys2Proof.Machine.execMigrationComplete dt w s
  | .confirm dt p => Sys2Proof.Machine.execConfirm dt p s
  | .rollback dt p => Sys2Proof.Machine.execRollback dt p s
  | .corePllRelock dt => Sys2Proof.Machine.execCorePllRelock dt s
  | .psi5ShortHigh dt n => Sys2Proof.Machine.execPsi5ShortHigh dt n s
  | .verifyComplete dt => Sys2Proof.Machine.execVerifyComplete dt s
  | .takeComplete dt readBackOk => Sys2Proof.Machine.execTakeComplete dt readBackOk s

end Sys2Proof.Machine
end

