-- ==== Sys2Proof/Safety.lean ====
section
/-!
DEFINITION. The terms in which the claims speak: the parts of the state that a kind of command leaves
alone, the state that a command meets when it arrives, and what the invariants say.
-/

namespace Sys2Proof.Machine

/-! ### Parts of the state -/

/-- The state without what raising an event, delivering it or letting time run may change: the ports,
capture, the router, the regions, the streams, the hoard, the grid and the mode (R376, R380). What is left is
the queue, the configuration, LOCK and the rule epoch, the commits, the lanes, endpoints and clusters, the
snapshots, the uplink ports, the routes, the vault, the alarm log, the non-volatile areas, the update engine, the
replay, the test port and the harness. -/
def State.evRest (s : State) : State :=
  { s with
    h := {}, m := {}, u := {}, cap := {}, cycle := [], chans := [], regions := [], streams := []
    hoard := {}, grid := {}, mode := {} }

/-- The state without what a command on a lane or a region may change: what is left is the queue of
commands, LOCK, the commits, the uplink ports, the vault, the alarm log, the non-volatile areas, the update engine,
the replay and the test port. -/
def State.stores (s : State) : State :=
  { s with
    fresh := 0, h := {}, m := {}, u := {}, cfg := {}, epoch := 0, epochAt := none, cap := {}, cycle := []
    chans := [], lanes := [], eps := [], clusters := [], regions := [], asm_ := {}, streams := []
    routes := [], hoard := {}, grid := {}, mode := {}, chain := [] }

/-- The queue of commands, LOCK and the rollback counter. -/
def State.lasting (s : State) : List Instr × BitVec 6 × Word := (s.pending, s.lock, s.nv.rollback)

/-- The state has the stores of a device that has just been reset (R12). -/
def FreshlyReset (t : State) : Prop :=
  ∃ (s : State) (cause : Nat) (lead : Bool), t.stores = (deviceReset s cause lead).stores

/-- What every device reset leaves (R12, R320, R324): BOOT with its cause, LOCK, the rule epoch, the
configuration, the lanes, the regions and the host ports at their reset values, and the hoard IDLE with its last
frozen trace (R474); the alarm log, the queue of commands and the non-volatile areas stay, but for the copy that an
interrupted SAVE_CONFIG was writing, which no longer counts (R470). -/
def AfterReset (s t : State) (cause : BitVec 4) : Prop :=
  t.mode.dev = .boot ∧ t.mode.cause = cause ∧ t.mode.booted = false ∧ t.lock = 0 ∧ t.epoch = 0 ∧ t.cfg = {} ∧
    t.lanes = [] ∧ t.regions = [] ∧ t.h = {} ∧ t.m = {} ∧ t.pending = s.pending ∧
    (saveRunning s .h = false → saveRunning s .m = false → t.nv = s.nv) ∧
    (saveRunning s .h = true ∨ saveRunning s .m = true →
      t.nv = { s.nv with cfgA := t.nv.cfgA, cfgB := t.nv.cfgB } ∧
        if saveToA s.nv.oldCfg CfgCopy.converted CfgCopy.tick CfgCopy.valid s.nv.cfgA s.nv.cfgB = true
        then t.nv.cfgB = s.nv.cfgB ∧ ∀ c, t.nv.cfgA = some c → c.valid = false
        else t.nv.cfgA = s.nv.cfgA ∧ ∀ c, t.nv.cfgB = some c → c.valid = false) ∧
    t.alarm.log.map (fun e => (e.number, e.tick, e.source, e.stateResp)) =
      s.alarm.log.map (fun e => (e.number, e.tick, e.source, e.stateResp)) ∧
    t.hoard.hstate = .idle ∧ t.hoard.held = s.hoard.held ∧ (s.hoard.held = true → t.hoard.ring = s.hoard.ring)

/-! ### Arrival -/

/-- What a command of time `dt` meets: the state once time has run on (log entry 3), in a device that
no rail holds in reset (R430). -/
def Arrives (s : State) (dt : Nat) (u : State) : Prop := s.mode.inReset = false ∧ u = advance s dt

/-- What a frame on a lane meets that ends at time `dt`: a harvest cutoff that lies before its end has
passed (R225). -/
def LineArrives (s : State) (dt : Nat) (u : State) : Prop := s.mode.inReset = false ∧ u = passCutoff (advance s dt)

/-- What a host's frame on port `p` meets: the ports are not busy (R22, R507), CSN has ended any burst before it,
and the frame itself has already counted as a heartbeat (R302). -/
def FrameArrives (s : State) (dt : Nat) (p : Port) (u : State) : Prop :=
  s.mode.inReset = false ∧ portBusy (csnRise (advance s dt) p) = false ∧
    u = (csnRise (advance s dt) p).onPort p (fun x => { x with lastGood := (advance s dt).grid.now })

/-! ### The register-access slot -/

/-- The state in which a command of the present period window is judged: the words in force for its grid instant
(R28, R176). -/
def slotMeets (u : State) (n : Nat) : State := u.seenAt (slotSnap u n).2

/-- When the frame of a command that ends now began. -/
def commandStart (u : State) (n : Nat) (c : CmdFrame) (w : FrameWire) : Nat :=
  u.grid.now - cmdSteps (slotMeets u n) n c w

/-- A lane in RUN sends a command of class `k` whose frame ends now (R82, R176, R177, R507): its line, its clocks
and the period's harvest leave the slot open, no frame, strong window or activation pause is in the way, the slot is
not used, no wait comes before the command and the line-high test holds. -/
def SlotRuns (u : State) (n k : Nat) (c : CmdFrame) (w : FrameWire) : Prop :=
  let v := slotMeets u n
  let num := (slotSnap u n).1
  let start := commandStart u n c w
  (v.lane n).mode = .aknun ∧ cfgMode v n = .aknun ∧ (v.lane n).lstate = .run ∧ laneClocked v n = true ∧
    framePlace v num = true ∧ inWindow v n start = false ∧ (v.lane n).readyAt ≤ start ∧
    (v.lane n).slotUsed ≠ some num ∧ slotOpen v n num = true ∧ (slotSnap u n).2 + frameStart v n ≤ (start : Nat) ∧
    slotClass v n start = k ∧ lowFits v n num c = true ∧ v.upd.pauseA = none ∧ inPause v start v.grid.now = false

/-- The state in which such a command is sent: sprout entries that waited for the frame boundary have come, and the
slot of the period is used (R176, R203). -/
def slotTaken (u : State) (n : Nat) (c : CmdFrame) (w : FrameWire) : State :=
  let v := slotMeets u n
  (enterSprouts v n (some (commandStart u n c w))).onLane n (fun l => { l with
    slotUsed := some (slotSnap u n).1, lowTime := lowSoFar v n (slotSnap u n).1 })

/-- The state in which a lane outside RUN sends a command of its enumeration, back to back (R131). -/
def enumTaken (u : State) (n : Nat) (c : CmdFrame) (w : FrameWire) : State :=
  enterSprouts (slotMeets u n) n (some (commandStart u n c w))

/-- A lane outside RUN sends a command of its enumeration whose frame ends now (R131, R507). -/
def EnumRuns (u : State) (n : Nat) (c : CmdFrame) (w : FrameWire) : Prop :=
  backToBack u n = true ∧ (u.lane n).readyAt ≤ commandStart u n c w ∧ u.upd.pauseA = none ∧
    inPause u (commandStart u n c w) u.grid.now = false

/-- The state in which a host's request is served: it has begun (R364). -/
def hostBegun (u : State) (n : Nat) (c : CmdFrame) (w : FrameWire) : State :=
  (slotTaken u n c w).onLane n (fun l => { l with acc := { l.acc with begun := true } })

/-- The answer that the lane decodes from a command frame sent in state `v` for the period of `u`. -/
def slotAnswer (u v : State) (n : Nat) (c : CmdFrame) (addr : Nat) (w : FrameWire) : Option Decoded :=
  (accessFrame v n (slotSnap u n).1 (slotSnap u n).2 c addr w).2.1

/-- The state in which a standard bus lane takes a frame of the grid instant at `g` that began at `begin_`: the
words of that instant are in force, sprout entries that waited for the frame boundary have come, and so has the
boundary itself (R28, R137, R189, R203). -/
def busMeets (u : State) (n : Nat) (num : BitVec 48) (g begin_ : Int) : State :=
  frameBoundary (enterSprouts (u.seenAt g) n (some begin_)) n num

/-- Whether a SENT lane accepts a frame (R143). -/
def sentAccepts (v : State) (n : Nat) (w : SentWire) : Bool :=
  let ivs := gaps (sentFalls v n w)
  calPulseOk v n (ivs.headD 0) && (sentDecode v n (ivs.headD 0) ivs.tail).isSome

/-- Whether a PSI5 lane accepts a frame in slot `k` (R152, R153). -/
def psi5Accepts (v : State) (n k : Nat) (num : BitVec 48) (w : Psi5Wire) : Bool :=
  psi5Ok v n k w && !(psi5Sync v n && psi5Every v n && !epDue v (epIdx n k) num) && descProto v (epIdx n k) != 0

/-! ### Sessions, alarms and device states -/

/-- The command brings a vault request into the open session of port `p`: the request is pending, the counter is
the last one accepted and the first session word says that it is pending (R299, R397, R399). -/
def RequestTaken (c : Instr) (s u : State) (p : Port) (ctr : Word) (op sel arg : Byte) (operand : Bytes) : Prop :=
  ∃ t r, exec c s = .next t ∧ (t.port p).pend = some r ∧ r.op = op ∧ r.sel = sel ∧ r.arg = arg ∧
    r.operand = fit 12 0 operand ∧ r.ctr = some ctr ∧ r.at_ = u.grid.now ∧ (t.port p).lastCtr = ctr ∧
    (t.port p).words.head? = some 0xFF000000

/-- The session of a port as a request or a secure frame needs it: open, with no request pending, and `ctr` above
the last counter and not the last possible one (R299, R397). -/
def SessionTakes (u : State) (p : Port) (ctr : Word) : Prop :=
  p ≠ .u ∧ u.mode.dev ≠ .off ∧ (u.port p).sess = .opened ∧ (u.port p).pend = none ∧
    (u.port p).words.length = 7 ∧ (u.port p).lastCtr.toNat < ctr.toNat ∧ ctr ≠ 0xFFFFFFFF

/-- The commands by which an alarm source fires in every device state, with the source's number (R419). -/
def alarmRows (dt : Nat) : List (Nat × Instr) :=
  [(1, .shellOpen dt), (2, .shellShort dt), (3, .light dt), (4, .voltGlitch dt), (5, .clockGlitch dt),
   (6, .tempHigh dt), (7, .tempLow dt), (10, .testAccess dt .testEn), (10, .testAccess dt .instruction)]

/-- The commands that ask for a device state on port `p`, in the frame that each needs (R348, R438). -/
def modeRows (dt : Nat) (p : Port) : List (DevState × Instr) :=
  [(.off, .modeReqOff dt p), (.sentinel, .modeReqSentinel dt p), (.run, .modeReqRun dt p),
   (.recover, .modeReqRecover dt p), (.test, .modeReqTest dt p true), (.replay, .modeReqReplay dt p true)]

/-! ### What a command shows -/

/-- Bit `n` of GLB_STATUS is set on Ports H and M (R327). -/
def State.glbHas (t : State) (n : Nat) : Bool := t.h.glb.bits.getLsbD n && t.m.glb.bits.getLsbD n

/-- An event of source `src` stands in the router cycle of `t` with the time that `u` shows, unless
REGION_MASK kept it from being formed (R374, R375, R381). -/
def Raised (u t : State) (src origin : Nat) (data : Word) : Prop :=
  eventFormed u src origin = true →
    { src := BitVec.ofNat 6 src, origin := BitVec.ofNat 16 origin, data := data
      tick := u.grid.tick, sub := BitVec.ofNat 16 u.subtick : Event } ∈ t.cycle

/-! ### What a command works on -/

/-- The lane that a command works on, where it works on one lane alone. -/
def laneOf : Instr → Option Lane
  | .read _ n _ | .write _ n _ | .enum _ n _ | .ident _ n _ | .convert _ n _ _ _ _ | .commitNv _ n _ _ _ _
  | .sleep _ n _ _ _ | .wakePing _ n _ _ _ | .closePass _ n _ | .openPass _ n _ _ | .attest _ n _ _
  | .attestTagCheck _ n _ _ _ | .enumerationStart _ n | .enumRetry _ n | .enumRepoll n | .spuAdmit n
  | .spuWindowEnd _ n | .spuOverload _ n | .stuckLow _ n | .busClear _ n | .busClearLineHigh _ n
  | .shortToGround _ n | .shortHigh _ n | .lineSwing n | .lineSlow n | .isolationRetry n _ | .harvest _ n _
  | .harvestPartial _ n _ _ | .laneModeStart n | .spcTrigger _ n _ | .sentFrame _ n _ | .sentStuck _ n
  | .sentSilent _ n | .syncPulse _ n _ | .psi5Frame _ n _ _ | .psi5Silent _ n | .psi5Overcurrent _ n
  | .psi5ShortHigh _ n | .linFrameSlot _ n _ _ | .linDiagPair _ n _ | .linWakeUp _ n | .linScheduleStart n
  | .linWake _ n _ | .linStuck _ n _ | .linStuckClear _ n | .expired n | .goRead _ _ n _ _ | .goWrite _ _ n _ _
  | .goIdent _ _ n _ | .goLinDiag _ _ n => some n
  | _ => none

/-- The time of a frame on a lane before which a harvest cutoff that lies ahead of its end runs. -/
def lineTime : Instr → Option Nat
  | .harvest dt _ _ | .harvestPartial dt _ _ _ | .sentFrame dt _ _ | .psi5Frame dt _ _ _ | .linFrameSlot dt _ _ _
  | .linDiagPair dt _ _ => some dt
  | _ => none

/-- What a command on a lane meets: a frame, the state after a cutoff ahead of its end; any other, the state it is
given. -/
def lineMeets (c : Instr) (s : State) : State :=
  match lineTime c with
  | some dt => if s.mode.inReset then s else passCutoff (advance s dt)
  | none => s

/-- The region that a command works on, where it works on one region alone. -/
def regionOf : Instr → Option Region
  | .stageAdmit g | .laneStep g _ | .stageChargeRelease g | .queueTimeout _ g | .queuePtr _ g _
  | .spuDeferEnd _ g | .vlinkSecond _ g | .vlinkRecovery _ g | .regionIsolated _ g | .regionIsolationEnd _ g
  | .regionCal g => some g
  | _ => none

/-- The commands that change only what raising an event, delivering it or letting time run may change. -/
def eventLevel : Instr → Bool
  | .acquisitionComplete _ _ | .calSave _ _ | .captureDone _ | .captureReq _ _ _ | .challengeTimeout _ _
  | .corePll _ | .corePllRelock _ | .echoMark _ _ | .evqFlush _ _ | .hoardFreeze _ _ | .hoardFrozen _
  | .holdMax _ | .lanePllRelock _ | .lockAcquired _ | .modeReqOff _ _ | .modeReqSentinel _ _ | .modeReqRun _ _
  | .modeReqRecover _ _ | .modeReqTest _ _ _ | .modeReqReplay _ _ _ | .queueTimeout _ _ | .railRecovery _ _ _
  | .referenceLoss _ | .rememberedDelivery _ _ | .rephase _ _ | .spuDeferEnd _ _ | .stallRead _ _ _ _ _ _
  | .syncTimeout _ _ | .wakeOutRelease _ | .followLost | .followerLost _ | .referenceReturn
  | .hoardArm | .hoardExport | .regionCal _ | .stageAdmit _ => true
  | _ => false

/-- A port without what happenings on the device set there: the status registers of a data fault and the event
queue (R327, R382), the time of the last frame (R302), and the transaction that a frame ends (R290, R294). What is
left is IND_ADDR and IND_STATUS, the view, the interrupt enable, the session with its keys and words, supervision and
the CRC count. -/
def PortState.own (x : PortState) : PortState :=
  { x with
    glb := {}, alarm := {}, supply := {}, queue := {}, region := [], evq := [], dropped := 0, lastGood := 0
    burst := none, stallSent := none }

/-! ### Invariants -/

/-- Every sparse table of the state is in canonical form: keys strictly rising, no entry equal to what an
unlisted key reads as. -/
def State.tables (s : State) : Bool :=
  Tbl.wf (fun _ => {}) s.lanes && Tbl.wf (fun _ => {}) s.eps && Tbl.wf (fun _ => {}) s.clusters &&
    Tbl.wf (fun _ => {}) s.regions && Tbl.wf (fun _ => {}) s.streams && Tbl.wf (fun _ => {}) s.chans &&
    Tbl.wf (fun _ => {}) s.routes && Tbl.wf (fun _ => {}) s.chain

end Sys2Proof.Machine
end

