-- ==== Sys2Proof/Certificates/Slice0/Obligations.lean ====
section
/-!
DEFINITION. The statements about this model that the provers prove: each formalises rules of spec/ in
the terms of Machine and Safety.
-/

open Sys2Proof Sys2Proof.Machine

/-! ### The queue and the state after reset -/

/-- The command at the front of the queue takes effect with the queue's rest behind it; an empty queue idles
(log entry 9, the model's choice). -/
def Obligations.StepRunsTheFront : Prop :=
  (∀ (c : Instr) (rest : List Instr) (s : State),
    step { s with pending := c :: rest } = exec c { s with pending := rest }) ∧
  ∀ s : State, s.pending = [] → step s = .next s

/-- What a device reset leaves, by power-on, by RST_N held low for at least 1 us or by a rail that falls: BOOT with
the cause's code, LOCK clear, the rule epoch, the configuration, the lanes, the regions and the ports H and M at their
reset values, the hoard IDLE with its last frozen trace, and the alarm log and the non-volatile areas as they were, but
for the copy that an interrupted SAVE_CONFIG was writing (R12, R320, R324, R430, R470, R474, R520). A rail leaves the
device in reset, and a pulse of RST_N of at most 200 ns does nothing. That SAVE_CONFIG writes the copy of log entry 25
is the model's choice. -/
def Obligations.ResetsBeginBoot : Prop :=
  ∀ (s : State) (lead : Bool),
    (∃ t, exec (.powerOnReset lead) s = .next t ∧ AfterReset s t 0x0 ∧ t.mode.inReset = false) ∧
    (∀ lowNs, 1000 ≤ lowNs →
      ∃ t, exec (.rstN lowNs lead) s = .next t ∧ AfterReset s t 0x1 ∧ t.mode.inReset = s.mode.inReset) ∧
    (∀ lowNs, lowNs ≤ 200 → exec (.rstN lowNs lead) s = .next s) ∧
    (∃ t, exec (.railReset .vio lead) s = .next t ∧ AfterReset s t 0x3 ∧ t.mode.inReset = true) ∧
    (∃ t, exec (.railReset .vddLane lead) s = .next t ∧ AfterReset s t 0x4 ∧ t.mode.inReset = true) ∧
    (∃ t, exec (.railReset .vddCore lead) s = .next t ∧ AfterReset s t 0x5 ∧ t.mode.inReset = true) ∧
    (∃ t, exec (.railReset .vdda18 lead) s = .next t ∧ AfterReset s t 0x0 ∧ t.mode.inReset = true)

/-! ### BOOT, discovery and the grid -/

/-- BOOT without a mesh fault rebuilds KEK, checks the slots, tests the random number generator (the time of its
health tests is the model's choice, log entry 138, and so is the grid of a follower that has not joined, log entry 41),
and ends with the grid running and discovery begun where a warm start is possible or one of the two image banks passes
its check, and in the boot ROM where neither passes (R410, R411, R455, R462, R505). -/
def Obligations.BootEnds : Prop :=
  ∀ (s l u : State) (test : SelfTest) (pins : BootPins) (bad : List (Fin 32 × Fin 6)) (corrected : List (Fin 32)),
    s.mode.inReset = false → s.mode.booted = false → s.mode.dev ≠ .off → s.upd.romOnly = false →
    l = takeLead s pins.lead →
    u = checkSlots (rebuildKek (testRng (if pins.ref then l else noReference l) test.rng) test.puf)
      (bad.map (fun x => (x.1.val, x.2.val))) (corrected.map Fin.val) →
    ∃ t, exec (.boot ⟨false, false⟩ test pins bad corrected) s = .next t ∧
      (startWarm u = true ∨ imgVerify u (u.bank u.nv.bootB) = 0 ∨ imgVerify u (u.bank !u.nv.bootB) = 0 →
        t.mode.booted = true ∧ t.mode.inDisc = true ∧ t.grid.on = true ∧ t.mode.warm = startWarm u) ∧
      (startWarm u = false → imgVerify u (u.bank u.nv.bootB) ≠ 0 → imgVerify u (u.bank !u.nv.bootB) ≠ 0 →
        t.upd.romOnly = true ∧ t.mode.booted = false ∧ t.grid.on = u.grid.on)

/-- Discovery ends at the lead, at a grid tick, 2 ms after it began where no followers are expected, and otherwise
when all have joined or after 100 ms; a follower that heard no mark for 100 ms and has a saved hop count takes it as
its hop count and package number. Either enters SOW (R463, R464). -/
def Obligations.DiscoveryEnds : Prop :=
  (∀ s : State, s.grid.on = true → s.grid.lead = true → s.mode.inDisc = true → s.grid.now = s.grid.tickAt →
    s.mode.dev = .boot →
    (if s.grid.followers = 0 then s.grid.discAt + 800000 ≤ s.grid.now
      else s.grid.joinedCnt = s.grid.followers ∨ s.grid.discAt + 40000000 ≤ s.grid.now) →
    ∃ t, exec .discoveryEnd s = .next t ∧ t.mode.dev = .sow ∧ t.mode.inDisc = false) ∧
  (∀ s : State, s.grid.on = true → s.grid.lead = false → s.mode.inDisc = true → s.grid.marks = 0 →
    s.grid.joined = false → s.grid.discAt + 40000000 ≤ s.grid.now → s.grid.savedHop ≠ 0 → s.mode.dev = .boot →
    ∃ t, exec .followerStartTimeout s = .next t ∧ t.mode.dev = .sow ∧ t.mode.inDisc = false ∧
      t.grid.tstate = .followLost ∧ t.grid.pkg = s.grid.savedHop ∧ t.grid.hop = s.grid.savedHop)

/-- The staging of regions (R86, R446, R447, R448, R457, R462): a stage request of a region without a VLINK warning is
admitted at a grid tick once no older one waits without a warning, of stages requested together no region of a lower
number, 2 ms have passed since the admission before, in a warm start the time of its region has come (1 ms, and 2 ms
more for each region below it), and 422.4 mA fit into the die's 2,000 mA; step m of the stage
comes 64 us x m after the admission and switches on each of the lane sources 2m and 2m + 1 of the region that is off
and may have power, and step 31 makes the region POWERED; the stage's charge is released at a grid tick from 2.984 ms
after the admission on. A wave of cold lanes that have all been probed, in regions without a VLINK warning, is admitted
at a grid tick, at 13.2 mA for each lane, once no lane of the wave before is enumerating and the stage charge of every
region with warm lanes has ended. That a lane which has failed its probe holds up no wave is the model's choice (log
entry 47). -/
def Obligations.StagesPowerRegions : Prop :=
  (∀ (s : State) (g : Region), s.grid.on = true → (s.region g).stageReq = true → (s.region g).stageAt = none →
    (s.region g).warn = false → s.grid.now = s.grid.tickAt → (∀ a, s.mode.stageLast = some a → a + 800000 ≤ s.grid.now) →
    (s.mode.warm = true → 400000 + 800000 * g.val ≤ s.grid.now) → dieCharge s + 4224 ≤ 20000 →
    (∀ f : Region, (s.region f).stageReq = true → (s.region f).stageAt = none → (s.region f).warn = false →
      (s.region g).stageAsked < (s.region f).stageAsked ∨ (s.region f).stageAsked = (s.region g).stageAsked ∧ g ≤ f) →
    ∃ t, exec (.stageAdmit g) s = .next t ∧ (t.region g).stageAt = some s.grid.now ∧ (t.region g).stageStep = 0 ∧
      (t.region g).charged = true ∧ (t.region g).power = .staging ∧ t.mode.stageLast = some s.grid.now ∧
      ∀ k, k ≠ g.val → t.region k = s.region k) ∧
  (∀ (s u : State) (g : Region) (m : Fin 32) (a : Nat), (s.region g).stageAt = some a → (s.region g).stageReq = true →
    (s.region g).stageStep = m.val → s.grid.now ≤ a + 25600 * m.val → a + 25600 * m.val ≤ s.lastStep →
    u = advance s (a + 25600 * m.val - s.grid.now) →
    ∃ t, exec (.laneStep g m) s = .next t ∧ t.grid.now = a + 25600 * m.val ∧
      (∀ n, n = 64 * g.val + 2 * m.val ∨ n = 64 * g.val + 2 * m.val + 1 → (u.lane n).lstate = .unpowered →
        (u.lane n).modeAt = none → mayPower u n = true →
        (t.lane n).mode = cfgMode u n ∧ (t.lane n).poweredAt = some (a + 25600 * m.val) ∧
          (t.lane n).lstate = (if cfgMode u n = .aknun then .clearing else .run)) ∧
      (t.region g).stageStep = m.val + 1 ∧ (t.region g).stageReq = decide (m.val ≠ 31) ∧
      (m.val = 31 → (t.region g).power = .powered)) ∧
  (∀ (s : State) (g : Region) (a : Nat), (s.region g).charged = true → (s.region g).stageAt = some a →
    a + 1193600 ≤ s.grid.now → s.grid.now = s.grid.tickAt →
    ∃ t, exec (.stageChargeRelease g) s = .next t ∧ (t.region g).charged = false) ∧
  ∀ s : State, nextWave s ≠ [] → (∀ n ∈ s.mode.wave.getD [], (s.lane n).lstate ≠ .enumerating) →
    s.grid.now = s.grid.tickAt →
    (∀ n ∈ nextWave s, probed s n = true ∧ (s.region (laneRegion n)).warn = false) →
    s.regions.any (fun x => x.2.warmStage) = false →
    dieCharge s + 132 * (nextWave s).length ≤ 20000 →
    ∃ t, exec .enumWaveAdmit s = .next t ∧
      t.mode.wave = some ((nextWave s).filter (fun n => (s.lane n).lstate == .enumerating)) ∧
      ∀ n ∈ nextWave s, (t.lane n).coldWait = false

/-- A grid tick takes the next number and comes one gap after the tick before; the gap after it is 50,000 steps at the
lead and at a joined follower, and otherwise the one that the follower last tracked (R31, R32, R52). The free-run counter of
the non-volatile area advances once after a reset before the grid starts and once when its 24 bits of ticks run out. A
re-phase step at its tick changes the gap by c, keeps the next grid instant a period away and raises its event (R45). -/
def Obligations.TicksAdvance : Prop :=
  (∀ (s : State) (errs : List RegionErr), s.mode.inReset = false → s.grid.on = true → stepDue s = false →
    ∃ t, exec (.gridTick errs) s = .next t ∧ t.grid.tickAt = s.grid.tickAt + s.grid.gap ∧
      t.grid.now = t.grid.tickAt ∧ t.grid.tick = nextNumber s ∧
      t.grid.gap = (if s.grid.lead || s.grid.joined then 50000 else s.grid.rate)) ∧
  (∀ s : State, s.mode.inReset = false → s.grid.frcDone = false →
    (s.grid.on = false ∨ 2 ^ 24 ≤ s.grid.frcTicks + 1) →
    ∃ t, exec .freeRunAdvance s = .next t ∧ t.nv.frc = frcNext s.nv.frc ∧ t.grid.frcDone = true) ∧
  ∀ (s : State) (r : Rephase), s.grid.on = true → s.grid.rephase = some r → r.stepTick = s.grid.tick →
    s.grid.now = s.grid.tickAt →
    ∃ t, exec .rephaseStep s = .next t ∧ t.grid.rephase = none ∧ t.grid.gap = (s.grid.gap + r.c).toNat ∧
      t.grid.instFrom = s.grid.tickAt + period s ∧ Raised s t 9 0 (BitVec.ofInt 32 r.c)

/-- The time states at the lead (R39, R40, R43): a valid Sync in FREE gives ACQUIRING; eight Sync intervals in
ACQUIRING with a measured offset within 100 ppm begin the acquisition re-phase, which carries that offset; eight small
errors in a row give LOCKED; three intervals without a Sync take LOCKED to HOLDOVER, and the time port to the other port
where TIME_FAILOVER is 1 and that port can serve; and HOLD_MAX after that the records carry TIME_UNLOCKED. -/
def Obligations.TimeStatesAtTheLead : Prop :=
  (∀ (s u : State) (dt : Nat) (port : Ul) (msg : SyncMsg) (log : Int),
    Arrives s dt u → u.grid.on = true → u.grid.lead = true → syncValid u port msg.domain.toNat msg.selected log = true →
    u.grid.tstate = .free →
    ∃ t, exec (.syncRx dt port msg log) s = .next t ∧ t.grid.tstate = .acquiring ∧ t.grid.acqCnt = 0 ∧
      t.grid.syncAt = some u.grid.now ∧ t.grid.logSync = log ∧ t.grid.syncLost = false ∧ t.glbHas 9 = true) ∧
  (∀ (s u : State) (dt : Nat) (offset : Int), Arrives s dt u → u.grid.lead = true → u.grid.tstate = .acquiring →
    u.grid.acqDone = false → 8 ≤ u.grid.acqCnt → u.grid.rephase = none → offset.natAbs ≤ 10000 →
    ∃ t r, exec (.acquisitionComplete dt offset) s = .next t ∧ t.grid.rephase = some r ∧
      r.offset = some offset ∧ r.stepTick.toNat % 128 = 0 ∧ t.grid.acqCnt = 0) ∧
  (∀ (s u : State) (dt : Nat), Arrives s dt u → u.grid.lead = true → 8 ≤ u.grid.okCnt → u.grid.rephase = none →
    (u.grid.tstate = .acquiring ∨ u.grid.tstate = .holdover ∨ u.grid.tstate = .rephaseWait) →
    ∃ t, exec (.lockAcquired dt) s = .next t ∧ t.grid.tstate = .locked ∧ t.grid.okCnt = 0 ∧ t.glbHas 9 = true) ∧
  (∀ (s u : State) (dt : Nat) (other : Bool) (a : Nat), Arrives s dt u → u.grid.lead = true →
    u.grid.syncAt = some a → a + 3 * syncSteps u.grid ≤ u.grid.now → u.grid.syncLost = false →
    u.grid.tstate = .locked →
    ∃ t, exec (.syncTimeout dt other) s = .next t ∧ t.grid.tstate = .holdover ∧ t.grid.holdAt = u.grid.now ∧
      t.grid.timePort = (if timeFailover u && other then u.grid.timePort.other else u.grid.timePort)) ∧
  ∀ (s u : State) (dt : Nat), Arrives s dt u → u.grid.tstate = .holdover →
    u.grid.holdAt + holdMaxSteps u ≤ u.grid.now →
    ∃ t, exec (.holdMax dt) s = .next t ∧ t.grid.holdOver = true ∧ unlockedNow t = true

/-- A host's write of 1 to REPHASE outside OFF begins a re-phase at the lead in any time state but FREE where none is
under way, whose step tick is a multiple of 128 and whose step is the lead's present shift, at most half a tick; and an
expired initiation interval measures the peer delay on a port with link (R42, R44, R45). That a REPHASE in ACQUIRING is
a re-phase of its own, with no part in the acquisition, is the model's choice (log entry 44), and so is an operand for the
measured delay (log entry 18). -/
def Obligations.RephaseAndPeerDelay : Prop :=
  (∀ (s u : State) (dt : Nat) (p : Port), FrameArrives s dt p u → u.mode.dev ≠ .off → p ≠ .u →
    u.grid.lead = true → u.grid.tstate ≠ .free → u.grid.rephase = none →
    ∃ t r, exec (.rephase dt p) s = .next t ∧ t.grid.rephase = some r ∧ r.relayed = false ∧ r.offset = none ∧
      r.c = clampI (-25000) 25000 u.grid.shift ∧ r.stepTick.toNat % 128 = 0) ∧
  ∀ (s u : State) (dt : Nat) (port : Ul) (d : Nat), Arrives s dt u → (u.uplink port).up = true →
    ((u.uplink port).pdelay = none ∨ (u.uplink port).pdelayAt + pdelaySteps u ≤ u.grid.now) →
    ∃ t, exec (.peerDelay dt port d) s = .next t ∧
      t.uplink port = { u.uplink port with pdelay := some d, pdelayAt := u.grid.now, timeTx := some .request } ∧
      t.uplink port.other = u.uplink port.other

/-- The grid link (R48, R49, R51, R52). A joined follower takes the lead's tick number, its TIME_UNLOCKED and the
place of the tick from a good downstream message whose mark comes within 1 us of its time; a message with a bad CRC is
counted and not used; the lead without members takes the follower at hop 1 whose message says that it has joined, with
none below it, into its members. Up to seven echo marks are collected, and the eighth gives the delay of the segment,
half the mean beyond 50 us, unless the eight spread over more than 5 ns. A follower without a mark for two ticks loses
the tick and runs on at the rate it last tracked, and the lead counts a follower that was silent for 1 ms as absent. The
byte order of the messages is the model's choice (log entry 115), and so are the order of a tick and its messages (log
entry 40), the gap and rate that a follower keeps (log entry 42) and the hops that an upstream message names (log entry
116). -/
def Obligations.GridLinkMessages : Prop :=
  (∀ (s u : State) (dt : Nat) (arrival : Int) (msg : List Byte), Arrives s dt u → u.grid.lead = false →
    u.mode.booted = true → msgOk msg = true → msgNat msg 0 1 ≠ 3 → msgNat msg 1 1 / 16 % 2 = 0 →
    msgNat msg 1 1 / 2 % 2 = 0 → msgNat msg 1 1 / 8 % 2 = 0 → u.grid.joined = true →
    (tickError u.grid arrival).natAbs ≤ 400 →
    ∃ t, exec (.downstreamMessage dt arrival msg) s = .next t ∧
      t.grid.leadTick = BitVec.ofNat 48 (msgNat msg 2 6) ∧
      t.grid.leadUnlocked = decide (msgNat msg 1 1 % 2 = 1) ∧ t.grid.markAt = u.grid.now ∧
      t.grid.gap = (if u.grid.markAt < u.grid.tickAt then (u.grid.gap + tickError u.grid arrival).toNat else u.grid.gap) ∧
      t.grid.rate = (50000 + tickError u.grid arrival).toNat) ∧
  (∀ (s u : State) (dt : Nat) (arrival : Int) (msg : List Byte), Arrives s dt u → u.grid.lead = false →
    u.mode.booted = true → msgOk msg = false →
    ∃ t, exec (.downstreamMessage dt arrival msg) s = .next t ∧ t.grid.glCrcErr = u.grid.glCrcErr + 1 ∧
      t.grid.leadTick = u.grid.leadTick ∧ t.grid.gap = u.grid.gap) ∧
  (∀ (s u : State) (dt : Nat) (msg : List Byte), Arrives s dt u → u.grid.lead = true → u.mode.booted = true →
    msgOk msg = true → msgNat msg 0 1 = 1 → msgNat msg 1 1 % 2 = 1 → msgNat msg 1 1 / 4 % 2 = 0 →
    msgNat msg 4 1 = 0 → u.grid.members = [] →
    ∃ t, exec (.upstreamMessage dt msg) s = .next t ∧ t.grid.members = [1] ∧ t.grid.joinedCnt = 1 ∧
      t.grid.upIn = msg ∧ t.glbHas 8 = true ∧ Raised u t 11 1 (BitVec.ofNat 32 (msgNat msg 6 2))) ∧
  (∀ (s u : State) (dt a : Nat), Arrives s dt u → u.mode.booted = true → u.grid.echoes.length < 7 →
    ∃ t, exec (.echoMark dt a) s = .next t ∧ t.grid.echoes = u.grid.echoes ++ [a] ∧
      t.grid.segOut = u.grid.segOut) ∧
  (∀ (s u : State) (dt a hi lo : Nat) (d : Int), Arrives s dt u → u.mode.booted = true → u.grid.echoes.length = 7 →
    hi = (u.grid.echoes ++ [a]).foldl max 0 → lo = (u.grid.echoes ++ [a]).foldl min hi →
    d = rnd (((u.grid.echoes ++ [a]).sum : Int) - 1600000) 16 →
    ∃ t, exec (.echoMark dt a) s = .next t ∧ t.grid.echoes = [] ∧
      t.grid.segOut = (if 20 < hi - lo then u.grid.segOut else BitVec.ofNat 16 (clampI 0 65534 d).toNat)) ∧
  (∀ s : State, s.grid.on = true → s.grid.joined = true → s.grid.tstate = .follow →
    s.grid.markAt + 100400 ≤ s.grid.now →
    ∃ t, exec .followLost s = .next t ∧ t.grid.tstate = .followLost ∧ t.grid.joined = false ∧
      t.grid.gap = s.grid.rate ∧ t.glbHas 9 = true) ∧
  ∀ (s : State) (h : Fin 4), s.grid.lead = true → h.val ∈ s.grid.members → s.grid.now = s.grid.tickAt →
    Tbl.get (fun _ => 0) s.grid.upAt h + 400000 ≤ s.grid.now → h.val ≠ 0 →
    ∃ t, exec (.followerLost h) s = .next t ∧ h.val ∉ t.grid.members ∧ t.grid.absent.getLsbD (h.val - 1) = true ∧
      t.glbHas 8 = true ∧ Raised s t 10 h.val 0

/-- The clocks (R21, R58, R59): losing the reference sets TIME_DEGRADED, and its return clears it at a grid tick; a loss
of the core PLL moves the core-die logic to the standby PLL, which takes the core PLL's role, where that is locked, and to
the reference where it is not. A PLL that relocks is the new standby of the PLL that the logic runs from, and the logic
stays where it is; in SENTINEL, where there is no standby, it moves back from the reference. A loss of the lane PLL
stops the lanes' frames in flight and marks the snapshot that the loss falls into, and its relock is kept for the
restart at the next grid tick. -/
def Obligations.ClocksFailAndReturn : Prop :=
  (∀ (s u : State) (dt : Nat), Arrives s dt u → u.grid.degraded = false →
    ∃ t, exec (.referenceLoss dt) s = .next t ∧ t.grid.degraded = true ∧ t.glbHas 4 = true ∧ Raised u t 49 0 1) ∧
  (∀ s : State, s.mode.inReset = false → s.grid.degraded = true → (s.grid.on = false ∨ s.grid.now = s.grid.tickAt) →
    ∃ t, exec .referenceReturn s = .next t ∧ t.grid.degraded = false ∧ t.glbHas 4 = true ∧ Raised s t 49 0 0) ∧
  (∀ (s u : State) (dt : Nat), Arrives s dt u → clkNow u = .pll →
    ∃ t, exec (.corePll dt) s = .next t ∧ t.glbHas 4 = true ∧ Raised u t 6 0 0 ∧
      t.grid.standbyOk = false ∧ t.grid.clk = (if u.grid.standbyOk then .pll else .reference) ∧
      t.grid.swapped = (u.grid.swapped != u.grid.standbyOk)) ∧
  (∀ (s u : State) (dt : Nat), Arrives s dt u → u.mode.dev ≠ .sentinel → u.grid.clk = .pll → u.grid.standbyOk = false →
    ∃ t, exec (.corePllRelock dt) s = .next t ∧ t.grid.standbyOk = true ∧ t.grid.clk = .pll ∧
      t.grid.swapped = u.grid.swapped) ∧
  (∀ (s u : State) (dt : Nat), Arrives s dt u → u.mode.dev = .sentinel → u.grid.clk = .reference →
    u.grid.clkBack = none →
    ∃ t, exec (.corePllRelock dt) s = .next t ∧ t.grid.clk = .pll ∧ t.grid.standbyOk = u.grid.standbyOk) ∧
  (∀ (s u : State) (dt : Nat), Arrives s dt u → u.grid.lanePll = true →
    ∃ t, exec (.lanePll dt) s = .next t ∧ t.grid.lanePll = false ∧ (tailNow u = false → t.asm_.pllLost = true) ∧
      (∀ n : Lane, (t.lane n).trig = none) ∧ t.glbHas 4 = true ∧ Raised u t 5 0 0) ∧
  ∀ (s u : State) (dt : Nat), Arrives s dt u → u.grid.lanePll = false →
    ∃ t, exec (.lanePllRelock dt) s = .next t ∧ t.grid.lanePll = true ∧ t.grid.lanePllWait = true

/-! ### Aknun lanes: harvests and commands -/

/-- A lane that is ready harvests its period, whole or up to its highest due position: the packet with the snapshot's
number stands in the open bank of its region where that bank serves the snapshot (R74, R105, R175, R220, R223). An
endpoint that was silent for eight due periods is to become a sprout, and becomes one at its lane's next frame boundary
(R203), and a line that was slow at eight frame
boundaries is reported as slow (R74). -/
def Obligations.HarvestsHandOverPackets : Prop :=
  (∀ (s u v : State) (dt : Nat) (n : Lane) (w : HarvestWire) (num : BitVec 48) (g : Int), LineArrives s dt u →
    laneSnap u n = (num, g) → v = u.seenAt g → harvestReady v n num g = true → harvestWhole v n num = true →
    (u.region (laneRegion n)).open_.snap = num → (u.region (laneRegion n)).open_.at_ = g →
    (u.region (laneRegion n)).open_.lost = false →
    ∃ t, exec (.harvest dt n w) s = .next t ∧ (t.lane n).lastTag = some num ∧
      ∃ x ∈ (t.region (laneRegion n)).open_.pkts, x.lane = n.val ∧ x.tag = num) ∧
  (∀ (s u v : State) (dt : Nat) (n : Lane) (top : Pos) (w : HarvestWire) (num : BitVec 48) (g : Int),
    LineArrives s dt u → laneSnap u n = (num, g) → v = u.seenAt g → harvestReady v n num g = true →
    harvestWhole v n num = false → harvestTop v n num = some top.val →
    (u.region (laneRegion n)).open_.snap = num → (u.region (laneRegion n)).open_.at_ = g →
    (u.region (laneRegion n)).open_.lost = false →
    ∃ t, exec (.harvestPartial dt n top w) s = .next t ∧ (t.lane n).lastTag = some num ∧
      ∃ x ∈ (t.region (laneRegion n)).open_.pkts, x.lane = n.val ∧ x.tag = num) ∧
  (∀ (s : State) (i : Idx), 8 ≤ (s.ep i).quiet →
    ∃ t, exec (.sproutOnSilence i) s = .next t ∧
      (t.ep i).sproutAt = some ((s.ep i).sproutAt.getD s.grid.now) ∧ (∀ k, k ≠ i.val → t.ep k = s.ep k) ∧
      ∀ (b : Int) (x : EpState), (((s.ep i).sproutAt.getD s.grid.now : Nat) : Int) ≤ b →
        x = (enterSprouts t (i.val / 16) (some b)).ep i →
        x.sprout = true ∧ x.clean = 0 ∧ x.quiet = 0 ∧ x.attested = false ∧ x.sproutAt = none) ∧
  ∀ (s : State) (n : Lane), 8 ≤ (s.lane n).cal.slowCnt → (s.lane n).slowLine = false →
    ∃ t, exec (.lineSlow n) s = .next t ∧ (t.lane n).slowLine = true ∧
      Raised s t 15 n.val (BitVec.ofInt 32 (s.lane n).cal.dE)

/-- A host's pending READ, WRITE or IDENT that has not waited for 256 periods when its command begins in the
register-access slot ends with the answer: a READ
with the word read, a WRITE with the answer's status, an IDENT with the identity, which is kept as the endpoint's last
one, and each with NO_RESPONSE where no answer is accepted (R109, R116, R364). -/
def Obligations.HostAccessIsServed : Prop :=
  (∀ (s u : State) (dt : Nat) (n : Lane) (w : FrameWire) (a : AccGroup) (c : CmdFrame), Arrives s dt u →
    a = (u.lane n).acc → a.rstate = .pending → a.op = 0 → routeWrite u n = none →
    c = readFrame a.pos.toNat a.addr.toNat → u.grid.now - cmdSteps u n c w < a.at_ + 256 * period u → SlotRuns u n 4 c w →
    ∃ t, exec (.read dt n w) s = .next t ∧
      match accepted (slotAnswer u (hostBegun u n c w) n c a.addr.toNat w) with
      | some xs => (t.lane n).acc.rstate = .done ∧ (t.lane n).acc.data0 = BitVec.ofNat 32 (symsNat xs / 256)
      | none => (t.lane n).acc.rstate = .noResponse ∧ (t.lane n).acc.data0 = a.data0) ∧
  (∀ (s u : State) (dt : Nat) (n : Lane) (w : FrameWire) (a : AccGroup) (c : CmdFrame), Arrives s dt u →
    a = (u.lane n).acc → a.rstate = .pending → a.op = 1 → routeWrite u n = none →
    c = writeFrame a.pos.toNat a.addr.toNat a.data0 → u.grid.now - cmdSteps u n c w < a.at_ + 256 * period u →
    SlotRuns u n 4 c w →
    ∃ t, exec (.write dt n w) s = .next t ∧
      match status (slotAnswer u (hostBegun u n c w) n c a.addr.toNat w) with
      | some x => (t.lane n).acc.rstate = accOf x
      | none => (t.lane n).acc.rstate = .noResponse) ∧
  (∀ (s u : State) (dt : Nat) (n : Lane) (w : FrameWire) (a : AccGroup) (c : CmdFrame), Arrives s dt u →
    a = (u.lane n).acc → a.rstate = .pending → a.op = 2 → routeWrite u n = none → (u.lane n).enumPos = none →
    identOwedPos u n = none → c = identFrame a.pos.toNat → u.grid.now - cmdSteps u n c w < a.at_ + 256 * period u →
    SlotRuns u n 4 c w →
    ∃ t, exec (.ident dt n w) s = .next t ∧
      match accepted (slotAnswer u (hostBegun u n c w) n c 0 w) with
      | some xs => (t.lane n).acc.rstate = .done ∧
          (t.lane n).acc.data0 = BitVec.ofNat 32 (symsNat xs / 256 / 2 ^ 32) ∧
          (t.lane n).acc.data1 = BitVec.ofNat 32 (symsNat xs / 256) ∧
          (t.ep (epIdx n a.pos.toNat)).lastId = BitVec.ofNat 64 (symsNat xs / 256)
      | none => (t.lane n).acc.rstate = .noResponse)

/-- The steps of an enumeration (R120 to R124, R131, R458). It starts at position 0 on a lane in ENUMERATING, or on one
that entered RUN before its enumeration had started, at once on a chain that was off for 1 ms and 1.20 ms later, after a
chain reset, on another; an ENUM whose echo matches goes on to IDENT, its endpoint a
sprout, and one with an empty tempo pip ends the chain there; a CLOSE_PASS answered DONE goes on to the next position;
an OPEN_PASS that was sent forgets the positions above its own; after 256 ms a failed position is tried again, and
after 64 ms the end of the chain. That an owed OPEN_PASS goes first (log entry 97), that a failed position's mark clears
when it is tried again (log entry 71) and that an owed IDENT and enumeration share a class (log entry 89) are the model's
choices. -/
def Obligations.EnumerationAdvances : Prop :=
  (∀ (s u : State) (dt : Nat) (n : Lane), Arrives s dt u → (u.lane n).mode = .aknun → laneClocked u n = true →
    ((u.lane n).lstate = .enumerating ∨ (u.lane n).lstate = .run ∧ (u.lane n).enumOwed = true) →
    (u.lane n).enumPos = none → (u.lane n).clearAt = none →
    (u.lane n).readyAt - graded u n 16000 ≤ u.grid.now → topPos u n ≠ none →
    ∃ t, exec (.enumerationStart dt n) s = .next t ∧ (t.lane n).enumPos = some 0 ∧ (t.lane n).enumStep = 0 ∧
      (t.lane n).enumN = 0 ∧ (t.lane n).lstate = (u.lane n).lstate ∧ (t.lane n).enumOwed = false ∧
      (t.lane n).enumAt = (if (u.lane n).rested then (u.lane n).readyAt - graded u n 16000 else u.grid.now + 480000)) ∧
  (∀ (s u : State) (dt : Nat) (n : Lane) (w : FrameWire) (p : Nat) (c : CmdFrame) (d : Option Decoded),
    Arrives s dt u → c = enumFrame p → EnumRuns u n c w → (u.lane n).enumPos = some p →
    (u.lane n).enumStep = 0 → enumWaited (u.lane n) (u.grid.now - cmdSteps u n c w) = true → withinTop u n p = true →
    d = slotAnswer u (enumTaken u n c w) n c 0 w →
    ∃ t, exec (.enum dt n w) s = .next t ∧
      (∀ x, d = some x → x.fin = .accepted → symsNat x.syms = p → (t.lane n).enumStep = 1 ∧
        (t.lane n).enumTry = 0 ∧ (t.ep (epIdx n p)).sprout = true ∧ (t.ep (epIdx n p)).asleep = false) ∧
      (∀ x, d = some x → x.fin = .empty → (t.lane n).enumN = p ∧ (t.lane n).chainEnd = true ∧
        (t.lane n).enumPos = none)) ∧
  (∀ (s u : State) (dt : Nat) (n : Lane) (w : FrameWire) (p : Nat) (c : CmdFrame), Arrives s dt u → c = closeFrame p →
    EnumRuns u n c w → (u.lane n).enumPos = some p → (u.lane n).enumStep = 2 → (u.lane n).coldWait = false →
    withinTop u n (p + 1) = true →
    ∃ t, exec (.closePass dt n w) s = .next t ∧
      (status (slotAnswer u (enumTaken u n c w) n c 0 w) = some 0 →
        (t.lane n).enumPos = some (p + 1) ∧ (t.lane n).enumStep = 0 ∧ p + 1 ≤ (t.lane n).enumN)) ∧
  (∀ (s u : State) (dt : Nat) (n : Lane) (p : Pos) (w : FrameWire) (c : CmdFrame), Arrives s dt u → c = openFrame p →
    openDue (slotMeets u n) n = some p.val → SlotRuns u n 0 c w →
    (accessFrame (slotTaken u n c w) n (slotSnap u n).1 (slotSnap u n).2 c 0 w).2.2 = true →
    ∃ t, exec (.openPass dt n p w) s = .next t ∧ (t.lane n).openOwed = none ∧ (t.lane n).enumN ≤ p.val + 1 ∧
      (t.lane n).opened = some (p.val, t.grid.now) ∧ (t.lane n).enumPos = none ∧ (t.lane n).failPos.toNat ≤ p.val) ∧
  (∀ (s u : State) (dt : Nat) (n : Lane), Arrives s dt u → (u.lane n).lstate = .run → (u.lane n).enumFail = true →
    (u.lane n).enumPos = none → withinTop u n (u.lane n).failPos.toNat = true → openWaits u n = false →
    (u.lane n).enumAt + 102400000 ≤ u.grid.now →
    ∃ t, exec (.enumRetry dt n) s = .next t ∧ (t.lane n).enumPos = some (u.lane n).failPos.toNat ∧
      (t.lane n).enumStep = 0 ∧ (t.lane n).enumFail = false) ∧
  ∀ (s : State) (n : Lane), (s.lane n).lstate = .run → (s.lane n).chainEnd = true → (s.lane n).enumPos = none →
    withinTop s n (s.lane n).enumN = true → openWaits s n = false → (s.lane n).repollAt + 25600000 ≤ s.grid.now →
    ∃ t, exec (.enumRepoll n) s = .next t ∧ (t.lane n).enumPos = some (s.lane n).enumN ∧
      (t.lane n).enumStep = 0 ∧ (t.lane n).repollAt = s.grid.now

/-- Strong pull-up windows (R82, R84, R86, R88, R112): on an Aknun lane in RUN with permission, after SOW, a CONVERT or
COMMIT_NV makes a request; a request is admitted at a grid tick where region and die have room, no stage blocks and no
older request waits; the command of an admitted request, once it is sent, opens a window of n + 1 ms at its end; and the
window's request ends with the window's end or with an overload, which is reported. That the first command of these
makes the request is the model's choice (log entry 90). -/
def Obligations.StrongWindows : Prop :=
  (∀ (s u : State) (dt : Nat) (n : Lane) (p : Pos) (all nv : Bool) (code : BitVec 6) (w : FrameWire),
    Arrives s dt u → u.mode.dev ≠ .boot → u.mode.dev ≠ .sow → (u.lane n).spu = none → (u.lane n).mode = .aknun →
    (u.lane n).lstate = .run → spuOk u n = true →
    ∃ t, exec (if nv then .commitNv dt n p all code w else .convert dt n p all code w) s = .next t ∧
      (t.lane n).spu = some { reqTick := u.grid.tick, nv := nv, pos := p, all := all, code := code
                              admitted := none, window := none }) ∧
  (∀ (s u : State) (dt : Nat) (n : Lane) (nv : Bool) (w : FrameWire) (q : SpuState) (c : CmdFrame), Arrives s dt u →
    u.mode.dev ≠ .boot → u.mode.dev ≠ .sow →
    (u.lane n).spu = some q → q.admitted ≠ none → q.window = none → q.nv = nv →
    c = controlFrame (if nv then 6 else 5) (if q.all then 15 else q.pos) (b2n q.all * 128 + q.code.toNat) 0 →
    SlotRuns u n 1 c w → (accessFrame (slotTaken u n c w) n (slotSnap u n).1 (slotSnap u n).2 c 0 w).2.2 = true →
    ∃ t, exec (if nv then .commitNv dt n q.pos q.all q.code w else .convert dt n q.pos q.all q.code w) s = .next t ∧
      (t.lane n).spu = some { q with window := some (t.grid.now, t.grid.now + 400000 * (q.code.toNat + 1)) }) ∧
  (∀ (s : State) (n : Lane) (q : SpuState), (s.lane n).spu = some q → q.admitted = none →
    s.grid.now = s.grid.tickAt → regionAdmits s n = true →
    dieCharge s + 400 ≤ 20000 → stageBlocks s = false → olderWaits s n q.reqTick = false →
    ∃ t, exec (.spuAdmit n) s = .next t ∧ (t.lane n).spu = some { q with admitted := some s.grid.tick }) ∧
  (∀ (s u : State) (dt : Nat) (n : Lane) (q : SpuState) (a b : Nat), Arrives s dt u → (u.lane n).spu = some q →
    q.window = some (a, b) → b ≤ u.grid.now →
    ∃ t, exec (.spuWindowEnd dt n) s = .next t ∧ (t.lane n).spu = none) ∧
  ∀ (s u : State) (dt : Nat) (n : Lane) (q : SpuState) (a b : Nat), Arrives s dt u → (u.lane n).spu = some q →
    q.window = some (a, b) → u.grid.now < b →
    ∃ t, exec (.spuOverload dt n) s = .next t ∧ (t.lane n).spu = none ∧ Raised u t 17 n.val 0

/-- A SLEEP that was sent puts the addressed endpoint to sleep; an answered WAKE_PING keeps its wake status and, with
WAKE, wakes the endpoint as a sprout; an ATTEST that is answered DONE keeps the challenge; and the two halves of the
tag are read one after the other by READs that begin 4 ms later or after: the tag of the pairing root attests the
endpoint, another holds it with IDENT and is reported (R113, R114, R117, R405). When a lane sends SLEEP and WAKE_PING (log
entry 16), that an entry has one ATTEST (log entry 72) and that its tag comes from two READs in two slots (log entry 98)
are the model's choices. -/
def Obligations.SleepAndAttest : Prop :=
  (∀ (s u : State) (dt : Nat) (n : Lane) (p : Pos) (w : FrameWire) (c : CmdFrame), Arrives s dt u →
    c = controlFrame 7 p 0 0 → p.val < (u.lane n).enumN → SlotRuns u n 5 c w →
    (accessFrame (slotTaken u n c w) n (slotSnap u n).1 (slotSnap u n).2 c 0 w).2.2 = true →
    ∃ t, exec (.sleep dt n p false w) s = .next t ∧ (t.ep (epIdx n p)).asleep = true ∧
      (t.ep (epIdx n p)).huskN = 0) ∧
  (∀ (s u : State) (dt : Nat) (n : Lane) (p : Pos) (wake : Bool) (w : FrameWire) (c : CmdFrame) (x : Nat),
    Arrives s dt u → c = controlFrame 8 p (b2n wake) 2 → p.val < (u.lane n).enumN →
    ((u.ep (epIdx n p)).wakeOwed = true → wake = true) → SlotRuns u n 5 c w →
    status (slotAnswer u (slotTaken u n c w) n c 0 w) = some x →
    ∃ t, exec (.wakePing dt n p wake w) s = .next t ∧ (t.ep (epIdx n p)).wakeReq = (x == 1 && !wake) ∧
      (wake = true → (t.ep (epIdx n p)).asleep = false ∧ (t.ep (epIdx n p)).sprout = true)) ∧
  (∀ (s u v : State) (dt : Nat) (n : Lane) (p : Pos) (w : FrameWire) (k : Nat) (ch : BitVec 64) (c : CmdFrame),
    Arrives s dt u → attestOwed u (epIdx n p) = true → (u.ep (epIdx n p)).chal = none →
    pairingRoot u ((descId u (epIdx n p)).toNat / 2 ^ 48) = some k → v = u.draw.2 →
    ch = (Config.random u.fresh).setWidth 64 → c = attestFrame p ch →
    attestPos v n (v.grid.now - cmdSteps v n c w) = some p.val → SlotRuns v n 3 c w →
    status (slotAnswer v (happen (slotTaken v n c w) n (slotSnap v n).1 0x0B p (beBytes 8 ch.toNat)) n c 0 w) = some 0 →
    ∃ t, exec (.attest dt n p w) s = .next t ∧ (t.ep (epIdx n p)).chal = some (ch, t.grid.now) ∧
      (t.ep (epIdx n p)).tagHi = none) ∧
  (∀ (s u : State) (dt : Nat) (n : Lane) (p : Pos) (hi lo : FrameWire) (ch : BitVec 64) (at_ : Nat) (c : CmdFrame)
    (xs : List Nat) (start : Nat), Arrives s dt u → (u.ep (epIdx n p)).chal = some (ch, at_) →
    c = readFrame p 8 → start = u.grid.now - cmdSteps u n c hi → at_ + 1600000 ≤ start →
    attestOwed u (epIdx n p) = true → attestPos u n start = some p.val → (u.ep (epIdx n p)).tagHi = none →
    SlotRuns u n 3 c hi → accepted (slotAnswer u (slotTaken u n c hi) n c 8 hi) = some xs →
    ∃ t, exec (.attestTagCheck dt n p hi lo) s = .next t ∧
      (t.ep (epIdx n p)).tagHi = some (BitVec.ofNat 32 (symsNat xs / 256)) ∧
      (t.ep (epIdx n p)).chal = some (ch, at_)) ∧
  ∀ (s u : State) (dt : Nat) (n : Lane) (p : Pos) (hi lo : FrameWire) (ch id : BitVec 64) (at_ k start : Nat) (x : Word)
    (c : CmdFrame) (ys : List Nat), Arrives s dt u → (u.ep (epIdx n p)).chal = some (ch, at_) →
    start = u.grid.now - cmdSteps u n (readFrame p 8) lo → at_ + 1600000 ≤ start →
    attestOwed u (epIdx n p) = true → attestPos u n start = some p.val →
    (u.ep (epIdx n p)).tagHi = some x → c = readFrame p 9 → SlotRuns u n 3 c lo →
    id = descId (slotMeets u n) (epIdx n p) → pairingRoot u (id.toNat / 2 ^ 48) = some k →
    accepted (slotAnswer u (slotTaken u n c lo) n c 9 lo) = some ys →
    ∃ t, exec (.attestTagCheck dt n p hi lo) s = .next t ∧ (t.ep (epIdx n p)).attDone = true ∧
      (t.ep (epIdx n p)).chal = none ∧
      (if x ++ BitVec.ofNat 32 (symsNat ys / 256) = attestTag (u.slot (16 + k)).key id ch
        then (t.ep (epIdx n p)).attested = true
        else (t.ep (epIdx n p)).hold = .ident ∧ Raised u t 20 (handle u (epIdx n p)) 2)

/-! ### Faults of the line, of a cluster and of a region -/

/-- Faults of a line (R89, R90, R91, R156, R517): an Aknun line that is low for 20 us begins a bus clear, from that low
on, and ends an open strong window; a cleared lane powers its source and is free once the line is high and 40 us have
passed, with the time of its next line reset kept; a line low for 100 us, or a source that cannot pull it low, isolates
the lane as short, which LANE_FAULT shows; a PSI5 lane is isolated by an overcurrent or a short to its supply; eight
small swings are shown; and at its retry an isolated lane is free again, or stays isolated and waits longer. -/
def Obligations.LineFaultsIsolate : Prop :=
  (∀ (s u : State) (dt : Nat) (n : Lane), Arrives s dt u → (u.lane n).mode = .aknun → powered u n = true →
    ∃ t, exec (.stuckLow dt n) s = .next t ∧ (t.lane n).lstate = .clearing ∧ (t.lane n).stuck = true ∧
      (t.lane n).clearAt = some (u.grid.now - graded u n 8000) ∧
      ∀ (q : SpuState) (a b : Nat), (u.lane n).spu = some q → q.window = some (a, b) → u.grid.now < b →
        (t.lane n).spu = none) ∧
  (∀ (s u : State) (dt : Nat) (n : Lane), Arrives s dt u → (u.lane n).lstate = .clearing →
    (u.lane n).clearAt = none → laneClocked u n = true →
    ∃ t, exec (.busClear dt n) s = .next t ∧ (t.lane n).clearAt = some u.grid.now ∧ (t.lane n).offAt = none) ∧
  (∀ (s u : State) (dt : Nat) (n : Lane) (t0 : Nat), Arrives s dt u → (u.lane n).clearAt = some t0 →
    t0 + graded u n 16000 ≤ u.grid.now → laneClocked u n = true →
    ∃ t, exec (.busClearLineHigh dt n) s = .next t ∧ (t.lane n).readyAt = afterReset u n u.grid.now ∧
      (t.lane n).clearAt = none ∧ (t.lane n).stuck = false ∧
      (t.lane n).lstate = (if (u.lane n).keepPos then .run else .enumerating)) ∧
  (∀ (s u : State) (dt : Nat) (n : Lane) (t0 : Nat), Arrives s dt u → (u.lane n).mode = .aknun →
    (u.lane n).clearAt = some t0 → t0 + graded u n 40000 ≤ u.grid.now → (u.lane n).lstate ≠ .isolated →
    ∃ t, exec (.shortToGround dt n) s = .next t ∧ (t.lane n).lstate = .isolated ∧ (t.lane n).short = true ∧
      Raised u t 12 n.val 1) ∧
  (∀ (s u : State) (dt : Nat) (n : Lane), Arrives s dt u → powered u n = true → (u.lane n).mode = .aknun →
    ∃ t, exec (.shortHigh dt n) s = .next t ∧ (t.lane n).lstate = .isolated ∧ (t.lane n).short = true ∧
      (t.lane n).faultSeen = (decide (laneFault u n = false) || (u.lane n).faultSeen) ∧
      (laneFault u n = false → t.glbHas 21 = true) ∧ Raised u t 12 n.val 2) ∧
  (∀ (s u : State) (dt : Nat) (n : Lane), Arrives s dt u → powered u n = true → (u.lane n).mode = .psi5 →
    (∃ t, exec (.psi5Overcurrent dt n) s = .next t ∧ (t.lane n).lstate = .isolated ∧ (t.lane n).short = true ∧
      Raised u t 12 n.val 3) ∧
    (∃ t, exec (.psi5ShortHigh dt n) s = .next t ∧ (t.lane n).lstate = .isolated ∧ (t.lane n).short = true ∧
      Raised u t 12 n.val 2)) ∧
  (∀ (s : State) (n : Lane), 8 ≤ (s.lane n).cal.swingCnt → (s.lane n).swing = false →
    ∃ t, exec (.lineSwing n) s = .next t ∧ (t.lane n).swing = true ∧
      Raised s t 14 n.val (BitVec.ofInt 32 (((s.lane n).cal.h16 - (s.lane n).cal.l16) / 16))) ∧
  ∀ (s : State) (n : Lane) (free : Bool), (s.lane n).lstate = .isolated → (s.region (laneRegion n)).iso = false →
    s.grid.now = s.grid.tickAt → (s.lane n).isoAt + retryWait (s.lane n).isoTry ≤ s.grid.now →
    ∃ t, exec (.isolationRetry n free) s = .next t ∧
      (free = true → (t.lane n).short = false ∧
        (t.lane n).lstate = (if (s.lane n).mode = .aknun then .enumerating else .run)) ∧
      (free = false → (t.lane n).lstate = .isolated ∧ (t.lane n).isoTry = (s.lane n).isoTry + 1 ∧
        (t.lane n).isoAt = s.grid.now)

/-- A sequencer stops on bad parity and its lanes' frames in flight end, and where the cutoff of the period is still to
come its cluster loses the period (R19); a stopped sequencer begins to reload; a lane starts in its new mode at a grid
tick, where no stage of its region is to power it (R135); and a region reports once that its delay loop has stayed at an
end for 64 ticks, or else that its offset has reached its limit (R198, R199). -/
def Obligations.ClustersModesAndRegionLoops : Prop :=
  (∀ (s u : State) (dt : Nat) (c : Cluster), Arrives s dt u → (u.cluster c).seq ≠ .stopped →
    ∃ t, exec (.seqParity dt c) s = .next t ∧ (t.cluster c).seq = .stopped ∧ (t.cluster c).lost = !tailNow u ∧
      (t.cluster c).parity = satInc (u.cluster c).parity ∧ Raised u t 4 c.val 0 ∧
      ∀ j, j < 8 → (t.lane (8 * c.val + j)).trig = none) ∧
  (∀ (s : State) (c : Cluster), (s.cluster c).seq = .stopped →
    ∃ t, exec (.seqReload c) s = .next t ∧ (t.cluster c).seq = .reloading) ∧
  (∀ (s : State) (n : Lane) (at_ : Nat), (s.lane n).modeAt = some at_ → s.grid.now = s.grid.tickAt →
    at_ ≤ s.grid.now → (s.lane n).lstate = .unpowered → (s.region (laneRegion n)).stageReq = false →
    mayPower s n = true →
    ∃ t, exec (.laneModeStart n) s = .next t ∧ (t.lane n).modeAt = none ∧ (t.lane n).mode = cfgMode s n ∧
      (t.lane n).lstate = (if cfgMode s n = .aknun then .clearing else .run) ∧
      (t.lane n).poweredAt = some s.grid.now) ∧
  (∀ (s : State) (g : Region), (s.region g).dllStuck = 64 →
    ∃ t, exec (.regionCal g) s = .next t ∧ (t.region g).dllStuck = 65 ∧ Raised s t 26 g.val 1 ∧
      ∀ k, k ≠ g.val → t.region k = s.region k) ∧
  ∀ (s : State) (g : Region), (s.region g).dllStuck ≠ 64 → (s.region g).ogLimit = 1 →
    ∃ t, exec (.regionCal g) s = .next t ∧ (t.region g).ogLimit = 2 ∧ Raised s t 26 g.val 2 ∧
      ∀ k, k ≠ g.val → t.region k = s.region k

/-! ### SENT, PSI5 and LIN lanes -/

/-- SENT and PSI5 (R142, R143, R148, R151, R153, R154): a due period's trigger or sync pulse is driven, once for a
period; a SENT frame counts as an edge and is counted as accepted, with its packet handed over, or breaks the clean run
without being counted; an accepted PSI5 frame of a slot is counted; a SENT line that is stuck is reported; and a line
without an edge, or without a frame, for 10 ms is silent. What makes a frame acceptable follows log entry 32, and that
a frame meets the words of its own snapshot and its boundary first log entries 70 and 73. -/
def Obligations.SentAndPsi5Frames : Prop :=
  (∀ (s u v : State) (dt : Nat) (n : Lane) (stamp : Int) (num : BitVec 48) (g : Int), Arrives s dt u →
    laneSnap u n = (num, g) → v = u.seenAt g → probeDue u n = false → probeOver v n = true → busRuns v n .sent = true →
    sentSpc v n = true → frameRuns v num = true → epDue v (epIdx n 0) num = true → descProto v (epIdx n 0) ≠ 0 →
    (u.lane n).lastTag ≠ some num → trigSent v n num = false → windowed v n g = false →
    ∃ t, exec (.spcTrigger dt n stamp) s = .next t ∧
      (t.lane n).trig = some { at_ := g + stamp25 (u.lane n).cal.og stamp, num := num, inst := g }) ∧
  (∀ (s u v x : State) (dt : Nat) (n : Lane) (w : SentWire) (num : BitVec 48) (g b : Int), LineArrives s dt u →
    probing u n = false → sentSnap u n = (num, g) → v = u.seenAt g → b = g + w.edges.headD 0 / 8 →
    busRuns v n .sent = true → awaits v n (sentSpc v n) num = true → ((u.lane n).readyAt : Int) ≤ b →
    u.upd.pauseSpan = none → (u.lane n).leaveAt = none → x = busMeets u n num g b →
    ∃ t, exec (.sentFrame dt n w) s = .next t ∧ (t.lane n).lastEdge = u.grid.now ∧ (t.lane n).silent = false ∧
      (sentAccepts x n w = true → (t.ep (epIdx n 0)).accepted = ((x.ep (epIdx n 0)).accepted + 1) % 16 ∧
        (t.lane n).lastTag = some num) ∧
      (sentAccepts x n w = false → (t.ep (epIdx n 0)).accepted = (x.ep (epIdx n 0)).accepted ∧
        (t.ep (epIdx n 0)).clean = 0)) ∧
  (∀ (s u : State) (dt : Nat) (n : Lane), Arrives s dt u → (u.lane n).mode = .sent → (u.lane n).lstate = .run →
    trigBusy u n = false → (u.lane n).stuck = false →
    ∃ t, exec (.sentStuck dt n) s = .next t ∧ (t.lane n).stuck = true ∧ Raised u t 13 n.val 1) ∧
  (∀ (s u : State) (dt : Nat) (n : Lane), Arrives s dt u → (u.lane n).mode = .sent → (u.lane n).lstate = .run →
    (u.lane n).lastEdge + 4000000 ≤ u.grid.now →
    ∃ t, exec (.sentSilent dt n) s = .next t ∧ (t.lane n).silent = true) ∧
  (∀ (s u v : State) (dt : Nat) (n : Lane) (stamp : Int) (num : BitVec 48) (g : Int), Arrives s dt u →
    laneSnap u n = (num, g) → v = u.seenAt g → busRuns v n .psi5 = true → psi5Sync v n = true →
    frameRuns v num = true → (u.lane n).syncFrom ≤ u.grid.now →
    (psi5Every v n = true ∨ ∃ p ∈ lanePositions v n, epDue v (epIdx n p) num = true) → trigSent v n num = false →
    windowed v n g = false →
    ∃ t, exec (.syncPulse dt n stamp) s = .next t ∧
      (t.lane n).trig = some { at_ := g + stamp25 (u.lane n).cal.og stamp, num := num, inst := g }) ∧
  (∀ (s u v x : State) (dt : Nat) (n : Lane) (k : Fin 4) (w : Psi5Wire) (num : BitVec 48) (g : Int),
    LineArrives s dt u → psi5Snap u n = (num, g) → v = u.seenAt g → busRuns v n .psi5 = true →
    psi5Sync v n = true → awaits v n true num = true → slotEn v n k = true →
    ((u.lane n).readyAt : Int) ≤ g + w.stamp / 8 → (u.lane n).leaveAt = none →
    x = busMeets u n num g (g + w.stamp / 8) → psi5Accepts x n k num w = true →
    ∃ t, exec (.psi5Frame dt n k w) s = .next t ∧ (t.lane n).lastEdge = u.grid.now ∧ (t.lane n).silent = false ∧
      (t.ep (epIdx n k)).accepted = ((x.ep (epIdx n k)).accepted + 1) % 16) ∧
  ∀ (s u : State) (dt : Nat) (n : Lane), Arrives s dt u → (u.lane n).mode = .psi5 → (u.lane n).lstate = .run →
    psi5Sync u n = false → (u.lane n).lastEdge + 4000000 ≤ u.grid.now →
    ∃ t, exec (.psi5Silent dt n) s = .next t ∧ (t.lane n).silent = true

/-- LIN (R159, R160, R161, R162, R163): a frame slot of the running schedule hands over its packet and counts a break
that stayed recessive; a diagnostic pair that begins within 256 periods of the request completes it; a wake-up pulse of
1 ms is driven on a bus that is not stuck, and 100 ms after it, at a grid tick, the schedule starts with the lane's
endpoints as sprouts; a low of 150 us to 5 ms on a bus whose schedule does not run is a wake-up, which in SENTINEL wakes
the device from a polled lane; and a stuck bus is reported and found free. That a short, late or broken response is
CHECKSUM is the model's choice (log entry 100), and so are the pair's place at a changeover and in an activation pause
(log entries 121 and 125) and the order of what a slot brings (log entry 73). -/
def Obligations.LinBusRuns : Prop :=
  (∀ (s u v : State) (dt : Nat) (n : Lane) (fid : BitVec 6) (w : LinWire) (at_ : Nat) (num : BitVec 48) (g : Int),
    LineArrives s dt u → linSlotNow u n fid.toNat = some at_ → v = u.seenAt at_ → busRuns v n .lin = true →
    (u.lane n).linRun = true → (u.lane n).stuck = false → fid.toNat < 0x3C → (u.lane n).readyAt ≤ at_ →
    u.upd.pauseSpan = none → (u.lane n).leaveAt = none → freeSnap v u.grid.now = (num, g) →
    ∃ t, exec (.linFrameSlot dt n fid w) s = .next t ∧ (t.lane n).lastTag = some num ∧
      (t.lane n).linBreaks = (if w.breakRecessive then min 3 ((u.lane n).linBreaks + 1) else 0)) ∧
  (∀ (s u : State) (dt : Nat) (n : Lane) (w : LinWire) (at_ : Nat), LineArrives s dt u →
    pairNow u n = some at_ → busRuns (u.seenAt at_) n .lin = true →
    (u.lane n).linRun = true → (u.lane n).stuck = false → (u.lane n).acc.rstate = .pending → (u.lane n).acc.op = 3 →
    (u.lane n).acc.at_ ≤ at_ → at_ < (u.lane n).acc.at_ + 256 * period u → u.upd.pauseSpan = none →
    (u.lane n).leaveAt = none →
    ∃ t, exec (.linDiagPair dt n w) s = .next t ∧ (t.lane n).acc.rstate =
      (if w.bytes.isEmpty then .noResponse
        else if w.inSlot ∧ w.bytes.length = 8 ∧ w.bytes.all (fun x => x.2) = true ∧
          w.check = some (linSum (w.bytes.map Prod.fst)) then .done
        else .checksum)) ∧
  (∀ (s u : State) (dt : Nat) (n : Lane), Arrives s dt u → busRuns u n .lin = true → (u.lane n).linRun = false →
    (u.lane n).stuck = false → (u.lane n).linWoke = none → u.mode.dev ≠ .sentinel →
    ∃ t, exec (.linWakeUp dt n) s = .next t ∧ (t.lane n).linWoke = some (u.grid.now + 400000)) ∧
  (∀ (s : State) (n : Lane) (at_ : Nat), (s.lane n).linWoke = some at_ → busRuns s n .lin = true →
    at_ + 40000000 ≤ s.grid.now → s.grid.now = s.grid.tickAt →
    ∃ t, exec (.linScheduleStart n) s = .next t ∧ (t.lane n).linRun = true ∧ (t.lane n).linWoke = none ∧
      ∀ p ∈ lanePositions s n, (t.ep (epIdx n p)).sprout = true) ∧
  (∀ (s u : State) (dt : Nat) (n : Lane) (us : Nat), Arrives s dt u → (u.lane n).mode = .lin →
    (u.lane n).lstate = .run → (u.lane n).linRun = false → 150 ≤ us → us ≤ 5000 →
    ∃ t, exec (.linWake dt n us) s = .next t ∧ Raised u t 25 n.val 0 ∧
      (u.mode.dev = .sentinel → u.mode.polls.any (fun x => x.1 == n.val) = true → t.mode.wakeOut = true)) ∧
  (∀ (s u : State) (dt : Nat) (n : Lane) (vbat : Bool), Arrives s dt u → (u.lane n).mode = .lin →
    (u.lane n).lstate = .run → (u.lane n).stuck = false → (vbat = true → 3 ≤ (u.lane n).linBreaks) →
    ∃ t, exec (.linStuck dt n vbat) s = .next t ∧ (t.lane n).stuck = true ∧
      Raised u t 13 n.val (if vbat then 3 else 2)) ∧
  ∀ (s u : State) (dt : Nat) (n : Lane), Arrives s dt u → (u.lane n).mode = .lin → (u.lane n).stuck = true →
    ∃ t, exec (.linStuckClear dt n) s = .next t ∧ (t.lane n).stuck = false ∧ (t.lane n).linBreaks = 0

/-! ### Queues, snapshots and uplinks -/

/-- At the harvest cutoff every region's banks swap, the opening bank serves the next snapshot and a snapshot that is
to be built is under way; a closed bank that is still not drained at its region's time limit, where CHECK asks for it,
and a bank with bad pointers, which loses its packets, are shown; and a die-to-die transfer that is repeated is counted,
and is lost where it failed twice (R17, R225, R227, R229, R232). -/
def Obligations.BanksSwapAndDrain : Prop :=
  (∀ (s u : State) (dt : Nat), Arrives s dt u → cutoffDue u = true →
    ∃ t, exec (.harvestCutoff dt) s = .next t ∧
      (∀ g, g < 8 → (t.region g).openB = !(u.region g).openB ∧ (t.region g).open_.snap = (nextInstant u).1) ∧
      (built u u.grid.gridNum = true → ∃ b ∈ t.asm_.build, b.num = u.grid.gridNum ∧ b.at_ = u.grid.gridAt)) ∧
  (∀ (s u : State) (dt : Nat) (g : Region) (at_ : Nat), Arrives s dt u →
    (u.region g).closed.closedAt = some at_ → (u.region g).closed.pkts ≠ [] →
    2 ≤ fld (u.inForce (aRegion g 0x3C0)) 17 16 →
    at_ + 400 * ranged 1 4095 (fld (u.inForce (aRegion g 0x3C0)) 11 0) ≤ u.grid.now →
    ∃ t, exec (.queueTimeout dt g) s = .next t ∧ (t.region g).closed.closedAt = none ∧
      (t.region g).closed.pkts = (u.region g).closed.pkts ∧ t.h.queue.bits.getLsbD (16 + g) = true ∧
      t.glbHas 19 = true ∧ Raised u t 29 g.val 2) ∧
  (∀ (s u : State) (dt : Nat) (g : Region) (k : Bank), Arrives s dt u →
    ∃ t, exec (.queuePtr dt g k) s = .next t ∧
      (if k = .b then (t.region g).bankB else (t.region g).bankA).pkts = [] ∧
      ((u.region g).openB = decide (k = .b) → (t.region g).open_.lost = true) ∧
      (t.region g).ptrResets = satInc (u.region g).ptrResets ∧ t.glbHas 19 = true ∧ t.glbHas 20 = true ∧
      Raised u t 31 g.val (BitVec.ofNat 32 (b2n (decide (k = .b))))) ∧
  ∀ (s u : State) (dt : Nat) (g : Region) (lanes : List Lane) (twice : Bool), Arrives s dt u →
    ∃ t, exec (.linkRetry dt g lanes twice) s = .next t ∧
      t.asm_.cnt.linkRetries = satAdd 4294967295 u.asm_.cnt.linkRetries ∧
      (twice = true → t.asm_.cnt.linkLost = satAdd 4294967295 u.asm_.cnt.linkLost ∧ Raised u t 3 g.val 0)

/-- SNAPSHOT_DONE completes the oldest snapshot under way (log entry 87), with one record for each endpoint of its
population and the number of its period, and the first one ends SOW, in RUN, or in
RECOVER after a boot commit that fell back (R232, R233, R234, R437, R453, R459, R467). -/
def Obligations.SnapshotsComplete : Prop :=
  ∀ (s u : State) (dt : Nat) (single : EccFound) (bad decayed : List Idx) (b : Build) (rest : List Build), Arrives s dt u →
    u.asm_.build = b :: rest →
    ∃ t x, exec (.snapshotDone dt single bad decayed) s = .next t ∧ t.asm_.build = rest ∧ t.asm_.latest = some x ∧
      x.num = b.num ∧ x.recs.map Rec.idx = population (u.seenAt b.at_) ∧
      t.asm_.cnt.snapshots = satAdd 4294967295 u.asm_.cnt.snapshots ∧
      t.mode.dev = (if u.mode.dev = .sow then (if u.mode.fallback then .recover else .run) else u.mode.dev)

/-- Streams and uplink ports (R245, R246, R249, R267): a stream key that reaches its warning point is reported once; a
port that goes down loses its link, its queue and its measured peer delay, and one that comes up carries again; a
moved stream returns at a grid instant to its own port, once that has been up for 1 s and where REVERT asks for it; a
PAUSE frame is discarded and counted, and every other received frame but those of IEEE 802.1AS is discarded and
counted too. What marks a PAUSE frame and a frame of the time engine is presumed (log entries 17 and 18); that a port's
frames move or are dropped as it goes down, and that a port counts only while it is UP, are the model's choices (log
entries 74 and 28). -/
def Obligations.UplinksGoDownAndUp : Prop :=
  (∀ (s : State) (k : Fin 32), (s.stream k).key ≠ none →
    keyAtWarn (s.stream k).segUsed (s.stream k).keyTicks = true → (s.stream k).warned = false →
    ∃ t, exec (.keyLimit k) s = .next t ∧ (t.stream k).warned = true ∧
      Raised s t 35 k.val (BitVec.ofNat 32 (keyId (s.stream k)))) ∧
  (∀ (s u : State) (dt : Nat) (port : Ul) (cause : DownCause), Arrives s dt u → (u.uplink port).up = true →
    (cause = .autoNeg → pmode u port = 2) →
    ∃ t, exec (.uplinkDown dt port cause) s = .next t ∧ (t.uplink port).up = false ∧ (t.uplink port).queue = [] ∧
      (t.uplink port).pdelay = none ∧
      Raised u t 32 port.num (match cause with
        | .syncLost => 1
        | .autoNeg => 2)) ∧
  (∀ (s u : State) (dt : Nat) (port : Ul), Arrives s dt u → (u.uplink port).up = false →
    (u.uplink port).parked = false → pmode u port ≠ 0 →
    ∃ t, exec (.uplinkUp dt port) s = .next t ∧ (t.uplink port).up = true ∧ (t.uplink port).upAt = u.grid.now ∧
      Raised u t 33 port.num 0) ∧
  (∀ (s : State) (k : Fin 32), (s.stream k).moved = true → redund s ≠ 0 → (s.uplink (ownPort s k)).up = true →
    revertBit s (ownPort s k) = true → (s.uplink (ownPort s k)).upAt + second ≤ s.grid.now →
    s.grid.now = s.grid.gridAt →
    ∃ t, exec (.revert k) s = .next t ∧ (t.stream k).moved = false) ∧
  (∀ (s u : State) (dt : Nat) (port : Ul) (f : List Byte), Arrives s dt u → (u.uplink port).up = true →
    frameWhole f = true → frameNat f 12 2 = 0x8808 → frameNat f 14 2 = 1 →
    ∃ t, exec (.uplinkRx dt port f) s = .next t ∧
      t.uplink port = { u.uplink port with pauseRx := satInc (u.uplink port).pauseRx } ∧
      t.uplink port.other = u.uplink port.other) ∧
  ∀ (s u : State) (dt : Nat) (port : Ul) (f : List Byte), Arrives s dt u → (u.uplink port).up = true →
    (frameWhole f = false ∨ (frameNat f 12 2 ≠ 0x88F7 ∨ frameNat f 0 6 ≠ 0x0180C200000E) ∧
      (frameNat f 12 2 ≠ 0x8808 ∨ frameNat f 14 2 ≠ 1)) →
    ∃ t, exec (.uplinkRx dt port f) s = .next t ∧
      t.uplink port = { u.uplink port with rxDiscard := satInc (u.uplink port).rxDiscard } ∧
      t.uplink port.other = u.uplink port.other

/-- The event router's timed work (R274, R376, R380): in RUN, WAKE_OUT is released 10 ms after the latest wake
condition; a channel's remembered event is delivered and counted once its consumer is free and no event remembered
earlier waits for it, and stays remembered until then; and the deferral of strong windows in a region ends at its
time. -/
def Obligations.RouterDeliversLater : Prop :=
  (∀ (s u : State) (dt : Nat), Arrives s dt u → u.mode.dev = .run → u.mode.wakeAt + 4000000 ≤ u.grid.now →
    ∃ t, exec (.wakeOutRelease dt) s = .next t ∧ t.mode.wakeOut = false) ∧
  (∀ (s u : State) (dt : Nat) (c : Fin 32) (ev : Event), Arrives s dt u → (u.chan c).held = some ev →
    consumerBusy u c = false → earlierHeld u c = false →
    ∃ t, exec (.rememberedDelivery dt c) s = .next t ∧ (t.chan c).held = none ∧
      (counts (consumer u c) = true → (t.chan c).delivered = satInc (u.chan c).delivered) ∧
      (consumer u c = 1 →
        t.h.evq = u.h.evq ++ [{ ev := ev, remembered := true, chan := BitVec.ofNat 5 c }] ∧ t.m.evq = u.m.evq)) ∧
  (∀ (s u : State) (dt : Nat) (c : Fin 32) (ev : Event), Arrives s dt u → (u.chan c).held = some ev →
    (consumerBusy u c = true ∨ earlierHeld u c = true) →
    ∃ t, exec (.rememberedDelivery dt c) s = .next t ∧ t = u) ∧
  ∀ (s u : State) (dt : Nat) (g : Region), Arrives s dt u → (u.region g).deferTo ≤ u.grid.now →
    ∃ t, exec (.spuDeferEnd dt g) s = .next t ∧ (t.region g).deferTo = 0 ∧
      ∀ k, k ≠ g.val → t.region k = u.region k

/-! ### The control ports -/

/-- An ordinary frame (R280, R281, R287, R301, R302, R328, R335): a READ of a direct register that the port can read
answers STAT, the register and their CRC, and one of GLB_STATUS clears it where status clears on read; a READ whose CRC
fails is counted and answers CRC; outside OFF a WRITE of IND_ADDR or, on a host port, of IRQ_EN sets it and answers; and
a READ or WRITE that CSN cuts short changes no configuration, clears no status and moves no IND_ADDR. That a frame's
checks and its effect come as one step, and that a READ shows the register as the frame's end finds it, is the model's
choice (log entry 50); what SDO drove before an abort and what a BUSY answer leaves follow log entries 61 and 92. -/
def Obligations.OrdinaryFramesAnswer : Prop :=
  (∀ (s u v : State) (dt : Nat) (p : Port) (fast : Bool) (cmd : Byte) (addr : BitVec 16) (crc : Byte), Arrives s dt u →
    layoutIs p cmd 0 = true → busyNow u fast = false → portCrc (headBytes cmd addr) = crc → badCmd p cmd = false →
    badAddr addr = false → dirReads p addr.toNat = true → addr ≠ 0x044 → v = takeHeader (csnRise u p) p .ok →
    ∃ t, exec (.portRead dt p fast cmd addr crc) s = .next t ∧ (t.port p).lastGood = u.grid.now ∧
      (t.port p).sdo = (statByte u p .ok :: beBytes 4 (dirWord v p addr.toNat).toNat) ++
        [portCrc (headBytes cmd addr ++ statByte u p .ok :: beBytes 4 (dirWord v p addr.toNat).toNat)] ∧
      (addr = 0x010 → (t.port p).glb =
        (if u.mode.dev.readClears then { bits := 0, seq := 0 } else (u.port p).glb))) ∧
  (∀ (s u : State) (dt : Nat) (p : Port) (fast : Bool) (cmd : Byte) (addr : BitVec 16) (crc : Byte), Arrives s dt u →
    layoutIs p cmd 0 = true → busyNow u fast = false → portCrc (headBytes cmd addr) ≠ crc →
    ∃ t, exec (.portRead dt p fast cmd addr crc) s = .next t ∧ (t.port p).crcErr = sqCount (u.port p).crcErr ∧
      (t.port p).lastGood = (u.port p).lastGood ∧ (t.port p).sdo.head? = some (statByte u p .crc)) ∧
  (∀ (s u : State) (dt : Nat) (p : Port) (fast : Bool) (cmd : Byte) (addr : BitVec 16) (data : Word) (crc : Byte),
    Arrives s dt u → layoutIs p cmd 1 = true → busyNow u fast = false →
    portCrc (headBytes cmd addr ++ beBytes 4 data.toNat) = crc → badCmd p cmd = false →
    (addr = 0x040 → u.mode.dev ≠ .off →
      ∃ t, exec (.portWrite dt p fast cmd addr data crc) s = .next t ∧
        (t.port p).indAddr = BitVec.ofNat 24 data.toNat ∧ (t.port p).lastGood = u.grid.now ∧
        (t.port p).sdo = [statByte u p .ok,
          portCrc (headBytes cmd addr ++ beBytes 4 data.toNat ++ [statByte u p .ok])]) ∧
    (addr = 0x014 → p ≠ .u → u.mode.dev ≠ .off →
      ∃ t, exec (.portWrite dt p fast cmd addr data crc) s = .next t ∧
        (t.port p).irqEn = data &&& 0x00FFFFF8 ∧ t.port p.other = u.port p.other)) ∧
  (∀ (s u : State) (dt : Nat) (p : Port) (fast : Bool), Arrives s dt u →
    exec (.transactionAbort dt p ⟨fast, .write none⟩) s = .next (csnRise u p)) ∧
  ∀ (s u : State) (dt : Nat) (p : Port) (fast : Bool) (cmd : Byte) (addr : BitVec 16) (crc : Byte) (data : Word)
    (x : Partial), Arrives s dt u → (x = .read cmd addr crc ∨ x = .write (some (cmd, addr, data, crc))) →
    ∃ t, exec (.transactionAbort dt p ⟨fast, x⟩) s = .next t ∧ (t.port p).glb = (u.port p).glb ∧
      (t.port p).alarm = (u.port p).alarm ∧ (t.port p).indAddr = (u.port p).indAddr ∧ t.cfg = u.cfg

/-- Bursts and stall reads sent whole (R290, R291, R293, R294, R295): an indirect burst read moves IND_ADDR by the words
it completed and counts them; an indirect burst write of one configuration word puts it into the port's staging copy
where its CRC-8 is right, and otherwise notes the word; a stall read takes the oldest item and sends it, sends the last
one again for AGAIN, and sends STALL fillers and EMPTY where none stands; and one that CSN cuts short keeps the item.
The address that a word's CRC-8 covers, an item that goes with the sync byte at once, and all of a whole burst at one
instant are the model's choices (log entries 53, 93 and 50). -/
def Obligations.BurstsAndStallReads : Prop :=
  (∀ (s u : State) (dt : Nat) (p : Port) (fast : Bool) (cmd : Byte) (crc : Byte) (words : Nat), Arrives s dt u →
    layoutIs p cmd 2 = true → busyNow u fast = false → portCrc (headBytes cmd 0x044) = crc → badCmd p cmd = false →
    ∃ t, exec (.burstRead dt p { fast := fast } cmd 0x044 crc words) s = .next t ∧
      (t.port p).indStat.count = BitVec.ofNat 5 words ∧ (t.port p).sdo.length = 2 + 5 * words ∧
      (words ≠ 0 → (t.port p).indAddr = BitVec.ofNat 24 (indAt u p + 4 * words))) ∧
  (∀ (s u : State) (dt : Nat) (p : Port) (fast : Bool) (cmd : Byte) (crc : Byte) (d : Word) (a : Nat),
    Arrives s dt u → layoutIs p cmd 3 = true → busyNow u fast = false → portCrc (headBytes cmd 0x044) = crc →
    badCmd p cmd = false → p ≠ .u → u.mode.dev ≠ .off → a = indAt u p → a < 0x040000 → a % 32 = 4 →
    (∃ t, exec (.burstWrite dt p { fast := fast } cmd 0x044 crc [{ data := d, crc := wordCrc a d }]) s = .next t ∧
      t.staged p a = d ∧ (t.port p).indStat = { count := 1 } ∧ (t.port p).indAddr = BitVec.ofNat 24 (a + 4)) ∧
    ∀ k, k ≠ wordCrc a d →
      ∃ t, exec (.burstWrite dt p { fast := fast } cmd 0x044 crc [{ data := d, crc := k }]) s = .next t ∧ t.cfg = u.cfg ∧
        (t.port p).indStat = { burstCrc := true, first := BitVec.ofNat 22 (a / 4) } ∧
        (t.port p).indAddr = (u.port p).indAddr) ∧
  (∀ (s u : State) (dt : Nat) (p : Port) (fast : Bool) (cmd : Byte) (crc : Byte) (fillers : Nat), Arrives s dt u →
    layoutIs p cmd 4 = true → busyNow u fast = false → portCrc (headBytes cmd 0x0E4) = crc → badCmd p cmd = false →
    (cmd.toNat % 2 = 0 → ∀ it rest, (u.port p).evq = it :: rest →
      ∃ t, exec (.stallRead dt p { fast := fast, fillers := fillers } cmd 0x0E4 crc) s = .next t ∧ (t.port p).evq = rest ∧
        (t.port p).lastItem = some it ∧ (t.port p).sdo = statByte u p .ok :: stallBytes (some it)) ∧
    (cmd.toNat % 2 = 0 → (u.port p).evq = [] →
      ∃ t, exec (.stallRead dt p { fast := fast, fillers := fillers } cmd 0x0E4 crc) s = .next t ∧ (t.port p).evq = [] ∧
        (t.port p).sdo = statByte u p .ok ::
          (List.replicate (max 1 (u.port p).stall.toNat) 0 ++ [0x5A, 0x00, portCrc [0x00]])) ∧
    (cmd.toNat % 2 = 1 →
      ∃ t, exec (.stallRead dt p { fast := fast, fillers := fillers } cmd 0x0E4 crc) s = .next t ∧
        (t.port p).evq = (u.port p).evq ∧
        (t.port p).sdo = statByte u p .ok :: stallBytes (u.port p).lastItem)) ∧
  ∀ (s u : State) (dt : Nat) (p : Port) (fast : Bool) (cmd crc : Byte), Arrives s dt u →
    ∃ t, exec (.transactionAbort dt p ⟨fast, .stall cmd crc⟩) s = .next t ∧ (t.port p).evq = (u.port p).evq

/-- Secure frames in an open session (R296, R297, R299, R320): a SECURE_WRITE of LOCK with a CTR above the last one
and the right tag adds its bits to LOCK, and its CTR becomes the last one; with a CTR that is not above it is refused
as REPLAY, changes no LOCK bit and counts as a session failure; and a SECURE_BURST of two configuration words puts
both into the port's staging copy. -/
def Obligations.SecureFramesPass : Prop :=
  (∀ (s u : State) (dt : Nat) (p : Port) (fast : Bool) (cmd : Byte) (data ctr : Word) (tag : BitVec 64) (crc : Byte),
    Arrives s dt u → layoutIs p cmd 5 = true → busyNow u fast = false →
    portCrc (headBytes cmd 0x028 ++ beBytes 4 data.toNat ++ beBytes 4 ctr.toNat ++ beBytes 8 tag.toNat) = crc →
    badCmd p cmd = false → p ≠ .u → u.mode.dev ≠ .off → (u.port p).sess = .opened →
    (u.port p).lastCtr.toNat < ctr.toNat → ctr ≠ 0xFFFFFFFF →
    frameTag (u.port p) p cmd 0x028 1 ctr [data] = beBytes 8 tag.toNat →
    ∃ t, exec (.secureWrite dt p fast cmd 0x028 data ctr tag crc) s = .next t ∧
      t.lock = u.lock ||| BitVec.ofNat 6 data.toNat ∧ (t.port p).lastCtr = ctr ∧ (t.port p).sess = .opened) ∧
  (∀ (s u : State) (dt : Nat) (p : Port) (fast : Bool) (cmd : Byte) (data ctr : Word) (tag : BitVec 64) (crc : Byte),
    Arrives s dt u → layoutIs p cmd 5 = true → busyNow u fast = false →
    portCrc (headBytes cmd 0x028 ++ beBytes 4 data.toNat ++ beBytes 4 ctr.toNat ++ beBytes 8 tag.toNat) = crc →
    badCmd p cmd = false → (u.port p).sess = .opened → ctr.toNat ≤ (u.port p).lastCtr.toNat →
    (recent u.grid.now second u.alarm.joint).length < 7 →
    ∃ t, exec (.secureWrite dt p fast cmd 0x028 data ctr tag crc) s = .next t ∧ t.lock = u.lock ∧
      (t.port p).lastCtr = (u.port p).lastCtr ∧ (t.port p).sdo.head? = some (statByte u p .replay) ∧
      Raised u t 47 p.code 3) ∧
  ∀ (s u : State) (dt : Nat) (p : Port) (fast : Bool) (cmd : Byte) (ctr : Word) (crc : Byte) (d e : Word) (a : Nat)
    (words : List CrcWord) (tag : BitVec 64) (tagCrc : Byte), Arrives s dt u → layoutIs p cmd 6 = true →
    busyNow u fast = false → portCrc (headBytes cmd 0x044 ++ [2] ++ beBytes 4 ctr.toNat) = crc →
    badCmd p cmd = false → p ≠ .u → u.mode.dev ≠ .off → (u.port p).sess = .opened →
    (u.port p).lastCtr.toNat < ctr.toNat → ctr ≠ 0xFFFFFFFF → a = indAt u p → a < 0x040000 → a % 32 = 0x10 →
    words = [{ data := d, crc := wordCrc a d }, { data := e, crc := wordCrc (a + 4) e }] →
    frameTag (u.port p) p cmd 0x044 2 ctr [d, e] = beBytes 8 tag.toNat → portCrc (beBytes 8 tag.toNat) = tagCrc →
    ∃ t, exec (.secureBurst dt p fast cmd 0x044 2 ctr crc words tag tagCrc) s = .next t ∧ t.staged p a = d ∧
      t.staged p (a + 4) = e ∧ (t.port p).lastCtr = ctr ∧ (t.port p).indAddr = BitVec.ofNat 24 (a + 8)

/-- Writes with an effect of their own on a host port outside OFF (R215, R228, R313, R316, R317, R320, R322, R335,
R382): a write-back with the current SEQ clears the masked fields and one with another SEQ clears nothing; a word of a
descriptor goes to the port's staging copy; an ordinary write of LOCK does nothing, and LOCK takes ones in a session;
a commit is requested for 10 us later; a capture is requested; a region's banks and an event queue are emptied; a
calibration save becomes due; and DISCARD sets a port's staged words of its groups to what is in force. -/
def Obligations.HostWritesAct : Prop :=
  (∀ (s u : State) (dt : Nat) (p : Port) (off : BitVec 9) (data : Word) (r : SqReg), FrameArrives s dt p u → p ≠ .u →
    off.toNat % 4 = 0 → off ≠ 0x00C → sqReg (u.port p) off.toNat = some r →
    (BitVec.ofNat 8 (fld data 31 24) = r.seq →
      ∃ t, exec (.seqWriteBack dt p off data) s = .next t ∧
        sqReg (t.port p) off.toNat = some (sqClear r (BitVec.ofNat 24 data.toNat)) ∧ t.port p.other = u.port p.other) ∧
    (BitVec.ofNat 8 (fld data 31 24) ≠ r.seq → exec (.seqWriteBack dt p off data) s = .next u)) ∧
  (∀ (s u : State) (dt : Nat) (p : Port) (addr : BitVec 24) (data : Word), FrameArrives s dt p u → p ≠ .u →
    u.mode.dev ≠ .off → addr.toNat < 0x040000 → addr.toNat % 32 = 4 →
    ∃ t, exec (.registerWrite dt p true addr data) s = .next t ∧ t.staged p addr.toNat = data ∧
      t.cfg.live = u.cfg.live ∧ t.port p = u.port p) ∧
  (∀ (s u : State) (dt : Nat) (p : Port) (data : Word), FrameArrives s dt p u → p ≠ .u →
    exec (.registerWrite dt p false 0x028 data) s = .next u) ∧
  (∀ (s u : State) (dt : Nat) (p : Port), FrameArrives s dt p u → p ≠ .u → u.mode.dev ≠ .off →
    (∀ groups, groups ≠ 0 → commitState u = true →
      ∃ t, exec (.commit dt p groups) s = .next t ∧
        t.creqs = u.creqs ++ [{ port := p, groups := groups, due := u.grid.now + 4000 }]) ∧
    (∀ bits, (u.port p).sess = .opened →
      ∃ t, exec (.lockSet dt p bits) s = .next t ∧ t.lock = u.lock ||| bits ∧
        (u.lock ||| bits ≠ u.lock → u.epochAt ≠ some u.grid.now → t.epoch = u.epoch + 1)) ∧
    (∀ restart, u.cap.req = none →
      ∃ t, exec (.captureReq dt p restart) s = .next t ∧ t.cap.req = some (captureFrom u, restart)) ∧
    (∀ g : Region, ∃ t, exec (.flush dt p g) s = .next t ∧ (t.region g).bankA.pkts = [] ∧ (t.region g).bankB.pkts = [] ∧
      (t.region g).open_.lost = true ∧ (t.region g).flushes = satInc (u.region g).flushes ∧
      ∀ k, k ≠ g.val → t.region k = u.region k) ∧
    (∃ t, exec (.evqFlush dt p) s = .next t ∧ (t.port p).evq = [] ∧ (t.port p.other).evq = (u.port p.other).evq) ∧
    (u.upd.migrating = false → u.mode.dev = .run → u.mode.savedAt = none →
      ∃ t, exec (.calSave dt p) s = .next t ∧ t.mode.saveDue = true ∧ t.mode.saveRefused = false) ∧
    ∀ groups, ∃ t, exec (.discard dt p groups) s = .next t ∧ t.cfg.live = u.cfg.live ∧
      ∀ a ∈ stagedKeys u p, t.staged p a = (if takes groups a then calNow u a &&& cfgMask a else u.staged p a))

/-- GO makes a pending request of a lane's access group where its lane and position can serve it, and ends it as REFUSED
where they cannot; a request that has not begun within 256 periods ends as EXPIRED, which is reported (R363, R364). That
a request which cannot be served ends at once is the model's choice (log entry 59). -/
def Obligations.EndpointRequestsBegin : Prop :=
  (∀ (s u : State) (dt : Nat) (p : Port) (n : Lane), FrameArrives s dt p u → p ≠ .u → u.mode.dev ≠ .off →
    (u.lane n).acc.rstate ≠ .pending →
    (∀ (pos : Pos) (addr : Byte) (c : Instr) (op : BitVec 3),
      (c = .goRead dt p n pos addr ∧ op = 0 ∨ c = .goWrite dt p n pos addr ∧ op = 1 ∨
        c = .goIdent dt p n pos ∧ op = 2 ∧ addr = 0) →
      ∃ t, exec c s = .next t ∧ (t.lane n).acc.op = op ∧ (t.lane n).acc.pos = BitVec.ofNat 4 pos.val ∧
        (t.lane n).acc.addr = addr ∧ (t.lane n).acc.at_ = u.grid.now ∧
        (t.lane n).acc.rstate = (if cfgMode u n = .aknun ∧ descProto u (epIdx n pos.val) ≠ 0 ∧
          (op = 1 → descAttest u (epIdx n pos.val) = false) then .pending else .refused)) ∧
    ∃ t, exec (.goLinDiag dt p n) s = .next t ∧ (t.lane n).acc.op = 3 ∧
      (t.lane n).acc.rstate =
        (if cfgMode u n = .lin ∧ fld (u.lane n).acc.data0 31 24 ≠ 0 then .pending else .refused)) ∧
  ∀ (s : State) (n : Lane), (s.lane n).acc.rstate = .pending → (s.lane n).acc.begun = false →
    diagBegun s n = false → (s.lane n).acc.at_ + 256 * period s ≤ s.grid.now →
    ∃ t, exec (.expired n) s = .next t ∧ (t.lane n).acc.rstate = .expired ∧
      Raised s t 23 n.val (BitVec.ofNat 32 8)

/-! ### Commits and captures -/

/-- A commit at its commit tick is refused, with its reason, where a check fails (a LOCK violation apart), and otherwise
waits: one that triggers sowing is SOWING and has no effective tick yet, any other is PENDING for the eighth tick after
(R317, R318, R319). -/
def Obligations.CommitsAreTaken : Prop :=
  ∀ (s v : State) (due : List CommitReq) (gh gm : BitVec 16) (d loads : List (Nat × Word)), s.grid.on = true →
    s.grid.now = s.grid.tickAt → due = s.creqs.filter (fun r => decide (r.due ≤ s.grid.now)) → due ≠ [] →
    s.mode.restarting = false → v = { s with creqs := s.creqs.filter (fun r => decide (s.grid.now < r.due)) } →
    gh = dueGroups due .h → gm = dueGroups due .m → d = commitDiff v gh gm →
    loads = (if (gh ||| gm).getLsbD 14 then commitLoads v (candidate v v.commits d) gh gm else []) →
    (∀ r, commitCheck { v with cseq := s.cseq + 1 } (gh ||| gm) gh gm d loads = some r → r.1 ≠ 0x0E →
      ∃ t, exec .commitTake s = .next t ∧ t.cstat.state = .refused ∧ t.cstat.reason = BitVec.ofNat 5 r.1 ∧
        t.cstat.item = BitVec.ofNat 13 r.2 ∧ t.cstat.cseq = s.cseq + 1 ∧ t.commits = s.commits ∧
        t.cfg = s.cfg ∧ t.glbHas 18 = true) ∧
    (commitCheck { v with cseq := s.cseq + 1 } (gh ||| gm) gh gm d loads = none →
      ∃ t c, exec .commitTake s = .next t ∧ t.commits = s.commits ++ [c] ∧ c.groups = gh ||| gm ∧
        c.tc = s.grid.tick ∧ c.diff = d ∧ c.cseq = s.cseq + 1 ∧ t.creqs = v.creqs ∧ t.cfg.live = s.cfg.live ∧
        t.cstat.state = (if triggers v (gh ||| gm) d then .sowing else .pending) ∧
        c.eff = (if triggers v (gh ||| gm) d then none else some (s.grid.tick + 8)))

/-- A sowing whose regions all fit fixes the tick at which its commit takes effect, and one in which a region fails
refuses a host's commit with that region; at the effective tick of a single commit its values are in force and
COMMIT_STATUS says so (R183, R317, R318, R319). That pending tick numbers move with the numbering and that earlier
unsettled commits count in the sown values are the model's choices (log entries 43 and 69), and so is what a commit
leaves to frames of earlier snapshots (log entry 70). -/
def Obligations.CommitsTakeEffect : Prop :=
  (∀ (s : State) (c : CommitRun), s.grid.on = true → s.grid.now = s.grid.tickAt → s.mode.restarting = false →
    s.mode.inDisc = false → s.commits.find? (fun c => !c.sown) = some c →
    ((∀ g ∈ c.regions, regionFails (sownFrom s c) g = []) →
      ∃ t, exec .sowingComplete s = .next t ∧
        t.commits = (putCommit s c { c with sown := true, eff := some (inOldNumbers s (changeover s c)) }).commits ∧
        (∀ g ∈ c.regions, (t.region g).sowing = false) ∧ t.cfg = s.cfg) ∧
    (∀ g, c.ports ≠ 0 → c.regions.find? (fun g => !(regionFails (sownFrom s c) g).isEmpty) = some g →
      ∃ t, exec .sowingComplete s = .next t ∧ c ∉ t.commits ∧ t.cstat.state = .refused ∧ t.cstat.reason = 3 ∧
        t.cstat.item = BitVec.ofNat 13 g ∧ t.cfg = s.cfg ∧ t.glbHas 18 = true)) ∧
  ∀ (s : State) (c : CommitRun), s.grid.on = true → s.grid.now = s.grid.tickAt → c.ports ≠ 0 →
    s.commits.filter (effective s) = [c] →
    ∃ t, exec .commitEffective s = .next t ∧ t.commits = s.commits.filter (fun o => decide (o ≠ c)) ∧
      t.cfg.live = applyDiff s.cfg.live c.diff ∧ t.cstat.state = .applied ∧ t.cstat.cseq = c.cseq ∧ t.glbHas 18 = true

/-- A requested capture that is due is sampled at a grid tick with the next number, and when it has been copied it
stands in the holding area, which CAPTURE_DONE and CAPTURE in GLB_STATUS report (R322, R334). -/
def Obligations.CapturesComplete : Prop :=
  (∀ s : State, captureDue s = true →
    ∃ t c, exec .captureSample s = .next t ∧ t.cap.copying = some c ∧ c.ccount = s.cap.ccount + 1 ∧
      c.tick = s.grid.tick ∧ t.cap.req = none ∧ t.cap.cstate = .copying ∧ t.cap.held = s.cap.held) ∧
  ∀ (s u : State) (dt : Nat) (c : Capture), Arrives s dt u → u.cap.copying = some c →
    ∃ t, exec (.captureDone dt) s = .next t ∧ t.cap.copying = none ∧ t.cap.held.head? = some c ∧
      t.cap.ccount = c.ccount ∧ t.cap.cstate = (if u.cap.req.isSome then .pending else .done) ∧ t.glbHas 17 = true ∧
      Raised u t 42 c.ccount.toNat (BitVec.ofNat 32 c.tick.toNat)

/-! ### Sessions and the supervision of ports -/

/-- A session opens by a challenge and its right response, a wrong response keeps the port closed for a while, and a
challenge that is not answered within 1 s and a session that is closed are gone (R393, R394, R395, R396). -/
def Obligations.SessionsOpenAndClose : Prop :=
  (∀ (s u : State) (dt : Nat) (p : Port), FrameArrives s dt p u → p ≠ .u → u.mode.dev ≠ .off →
    u.vault.state = .provisioned → u.alarm.lockdown = false → u.vault.rngFail = false → vaultOpen u = true →
    (u.port p).openFail = none →
    ∃ t k, exec (.open_ dt p) s = .next t ∧ (t.port p).sess = .challenged ∧ (t.port p).chalAt = u.grid.now ∧
      (t.port p).pend = none ∧ (t.port p).words = fit 7 0 (bytesWords (beBytes 12 (Config.random k).toNat))) ∧
  (∀ (s u : State) (dt : Nat) (p : Port) (r : BitVec 64) (ws : List Word) (key ctx : Bytes), FrameArrives s dt p u →
    u.mode.dev ≠ .off → (u.port p).sess = .challenged →
    ws = setWords (u.port p).words 5 (bytesWords (beBytes 8 r.toNat)) → slotEmpty u (portSlot p) = false →
    key = (u.slot (portSlot p)).key → key ≠ [] → ctx = wordBytes ws 0 5 ++ [portByte p] →
    (cmac64 key ([0x00, 0x4F] ++ ctx) = wordBytes ws 5 2 →
      ∃ t, exec (.sessionResponse dt p r) s = .next t ∧ (t.port p).sess = .opened ∧ (t.port p).lastCtr = 0 ∧
        (t.port p).kF = cmac2 key (0x46 :: ctx) ∧ (t.port p).kT = cmac2 key (0x54 :: ctx) ∧
        (t.port p).nonce = cmac64 key ([0x00, 0x4E] ++ ctx) ∧ (t.port p).glb.bits.getLsbD 13 = true ∧
        Raised u t 47 p.code 1) ∧
    (cmac64 key ([0x00, 0x4F] ++ ctx) ≠ wordBytes ws 5 2 → (recent u.grid.now second u.alarm.joint).length < 7 →
      ∃ t, exec (.sessionResponse dt p r) s = .next t ∧ (t.port p).sess = .closed ∧
        (t.port p).openFail = some u.grid.now ∧ (t.port p).glb.bits.getLsbD 13 = true ∧ Raised u t 47 p.code 3)) ∧
  (∀ (s u : State) (dt : Nat) (p : Port), Arrives s dt u → (u.port p).sess = .challenged →
    (u.port p).chalAt + second ≤ u.grid.now →
    ∃ t, exec (.challengeTimeout dt p) s = .next t ∧ (t.port p).sess = .closed ∧
      (t.port p).words = [0, 0, 0, 0, 0, 0, 0]) ∧
  ∀ (s u : State) (dt : Nat) (p : Port), FrameArrives s dt p u → u.mode.dev ≠ .off → (u.port p).sess = .opened →
    ∃ t, exec (.close dt p) s = .next t ∧ (t.port p).sess = .closed ∧ (t.port p).kF = [] ∧ (t.port p).kT = [] ∧
      (t.port p).pend = none ∧ (t.port p).load = [] ∧ t.secStaged p = [] ∧ Raised u t 47 p.code 2

/-- A supervised port that misses its heartbeat while no transaction of it is in progress is LOST and its session
closed; its lease's end reverts it, disables its channels and no others, and marks its streams to stop; a reclaim
makes it ACTIVE again; and a port reset clears its indirect access and closes its session, which loses a supervised
port (R302, R303, R305, R379). -/
def Obligations.PortsAreSupervised : Prop :=
  (∀ (s u : State) (dt : Nat) (p : Port), Arrives s dt u → p ≠ .u → (u.port p).pstate = .active →
    (u.port p).inFrame = false → (u.port p).lastGood + 400000 * ranged 1 1000 (u.port p).hb.toNat ≤ u.grid.now →
    ∃ t, exec (.heartbeatMissed dt p) s = .next t ∧ (t.port p).pstate = .lost ∧ (t.port p).lostAt = u.grid.now ∧
      (t.port p).sess = .closed ∧ (t.port p.other).glb.bits.getLsbD 12 = true ∧
      Raised u t 48 (portNum p) 2) ∧
  (∀ (s u : State) (dt : Nat) (p : Port), Arrives s dt u → p ≠ .u → (u.port p).pstate = .lost →
    (u.port p).lostAt + 40000000 * ranged 1 600 (u.port p).lease.toNat ≤ u.grid.now →
    ∃ t, exec (.leaseExpiry dt p) s = .next t ∧ (t.port p).pstate = .reverted ∧
      (t.port p.other).glb.bits.getLsbD 12 = true ∧ Raised u t 48 (portNum p) 3 ∧
      (∀ c, c < 32 → chanOwner u c = p.owner → bit (t.inForce (aChan c 0)) 31 = false) ∧
      (∀ c, c < 32 → chanOwner u c ≠ p.owner → t.inForce (aChan c 0) = u.inForce (aChan c 0)) ∧
      ∀ k, k < 32 → streamOwner u k = p.owner → (t.stream k).stopping = some p) ∧
  (∀ (s u : State) (dt : Nat) (p : Port), FrameArrives s dt p u → p ≠ .u → u.mode.dev ≠ .off →
    ((u.port p).pstate = .lost ∨ (u.port p).pstate = .reverted) →
    (reclaimSecure u p = true → (u.port p).sess = .opened) →
    ∃ t, exec (.reclaim dt p) s = .next t ∧ (t.port p).pstate = .active ∧ (t.port p).lastGood = u.grid.now ∧
      (u.epochAt ≠ some u.grid.now → t.epoch = u.epoch + 1)) ∧
  ∀ (s u : State) (dt : Nat) (p : Port), FrameArrives s dt p u → p ≠ .u → u.mode.dev ≠ .off →
    ∃ t, exec (.preset dt p) s = .next t ∧ (t.port p).sess = .closed ∧ (t.port p).indAddr = 0 ∧
      (t.port p).indStat = {} ∧ (t.port p).words = [0, 0, 0, 0, 0, 0, 0] ∧
      ((u.port p).sess = .opened → (u.port p).pstate = .active → (t.port p).pstate = .lost ∧
        (t.port p).lostAt = u.grid.now)

/-! ### The key vault -/

/-- In an open session every vault operation is taken as a pending request with its operands (R397 to R400). -/
def Obligations.VaultRequestsAreTaken : Prop :=
  ∀ (s u : State) (dt : Nat) (p : Port) (ctr : Word), FrameArrives s dt p u → SessionTakes u p ctr →
    (∀ part enc, RequestTaken (.loadPart dt p ctr part enc) s u p ctr 0x01 part 0 (fit 8 0 enc)) ∧
    (∀ gen, RequestTaken (.installMaster dt p ctr gen) s u p ctr 0x02 gen 0 []) ∧
    (∀ (stream keyId gen : Byte) (act : BitVec 48) (nonce : Word),
      RequestTaken (.installStreamKey dt p ctr stream keyId act gen nonce) s u p ctr 0x03 stream keyId
        (beBytes 6 act.toNat ++ [gen, 0] ++ beBytes 4 nonce.toNat)) ∧
    (∀ slot (maker : BitVec 16),
      RequestTaken (.installPairingRoot dt p ctr slot maker) s u p ctr 0x04 slot 0 (beBytes 2 maker.toNat)) ∧
    RequestTaken (.installHoardKey dt p ctr) s u p ctr 0x05 0 0 [] ∧
    (∀ code, RequestTaken (.rotatePortKey dt p ctr code) s u p ctr 0x06 code 0 []) ∧
    (∀ slot, RequestTaken (.clearSlot dt p ctr slot) s u p ctr 0x07 slot 0 []) ∧
    (∀ policy, u.lock.getLsbD 2 = false → RequestTaken (.setPolicy dt p ctr policy) s u p ctr 0x08 0 0 [policy]) ∧
    (∀ slot, RequestTaken (.readSlotAttr dt p ctr slot) s u p ctr 0x09 slot 0 []) ∧
    (∀ index, RequestTaken (.readLog dt p ctr index) s u p ctr 0x0A index 0 []) ∧
    (∀ chal, RequestTaken (.sign dt p ctr chal) s u p ctr 0x0B 0 0 (fit 12 0 chal)) ∧
    (∀ buffer part, RequestTaken (.readOut dt p ctr buffer part) s u p ctr 0x0C buffer part []) ∧
    RequestTaken (.saveConfig dt p ctr) s u p ctr 0x0D 0 0 [] ∧
    (∀ part bytes, RequestTaken (.provPart dt p ctr part bytes) s u p ctr 0x20 part 0 (fit 8 0 bytes)) ∧
    RequestTaken (.provCommit dt p ctr) s u p ctr 0x21 0 0 []

/-- A pending operation completes with its status, its data and its result tag in the session words: policy bits
are written, the alarm log is read, and a session operation outside a session answers BAD_OP. SAVE_CONFIG writes the
values in force into the place that saveToA names: the newer valid copy stays, and while OLD_CFG is 1 so does the copy
that no migration converted, where the other one is converted (R399, R400, R408, R424, R452, R510). -/
def Obligations.VaultResultsAnswer : Prop :=
  (∀ (s u : State) (dt : Nat) (p : Port) (puf : Bool) (r : VaultReq), Arrives s dt u → (u.port p).pend = some r →
    vaultWaits u p r = false → vaultOpen u = true → u.mode.restarting = false → (u.port p).words.length = 7 →
    ∃ t st data, exec (.vaultResult dt ⟨p, puf⟩) s = .next t ∧ (t.port p).pend = none ∧
      wordBytes (t.port p).words 0 3 = fit 12 0 ([byte st, r.op] ++ data) ∧
      wordBytes (t.port p).words 5 2 = (match r.ctr with
        | some c => cmac64 (u.port p).kF ((u.port p).nonce ++ [0x52, portByte p] ++ beBytes 4 c.toNat ++
            fit 12 0 ([byte st, r.op] ++ data))
        | none => [0, 0, 0, 0, 0, 0, 0, 0]) ∧
      (r.ctr = none → opOpen r.op.toNat = false → st = 1 ∧ data = [] ∧ t.vault = u.vault ∧ t.nv = u.nv) ∧
      (r.ctr ≠ none → r.op = 0x08 → r.keyPol = false → st = 0 ∧ t.vault.policy = r.operand.getD 0 0 &&& 0x0F) ∧
      (r.op = 0x0A → ∀ e, u.alarm.log[r.sel.toNat]? = some e → st = 0 ∧ data = logBytes e) ∧
      (r.ctr ≠ none → r.op = 0x0D → u.upd.migrating = false → st = 0 ∧
        (∃ c, c.words = u.cfg.live ∧ c.valid = true ∧ c.tick = u.grid.tick ∧ c.format = u.upd.cfgFormat ∧
          t.nv = if saveToA u.nv.oldCfg CfgCopy.converted CfgCopy.tick CfgCopy.valid u.nv.cfgA u.nv.cfgB = true
            then { u.nv with cfgA := some c } else { u.nv with cfgB := some c }) ∧
        (u.nv.oldCfg = false → ∀ c, newerCfg u = some c → t.nv.cfgA = some c ∨ t.nv.cfgB = some c) ∧
        (u.nv.oldCfg = true → ∀ a b, u.nv.cfgA = some a → u.nv.cfgB = some b → a.converted ≠ b.converted →
          (a.converted = false → t.nv.cfgA = some a) ∧ (b.converted = false → t.nv.cfgB = some b)))) ∧
  ∀ (s u : State) (dt : Nat) (p : Port) (puf : Bool), Arrives s dt u → (u.port p).pend = none →
    exec (.vaultResult dt ⟨p, puf⟩) s = .next u

/-! ### The alarm and the test access port -/

/-- An alarm source fires with the response of ALARM_POLICY. Every response but ERASE-2 sets the source's bit and the
ALARM flag on both ports, and a source never logged before gets an entry at the head of the log, where no source of a
higher code was logged within the last microsecond. LOCKDOWN closes both sessions and changes the device state,
ERASE-1 zeroises the symmetric slots and the stream keys, and ERASE-2 erases the vault and resets the device (at once,
the model's choice, log entry 29). An access to the registers of the test port counts as the test pin does outside
TEST, and as nothing in TEST (R419, R420, R421, R422, R424). That the first entry's number is 0 and that the times of
older entries run on over a device reset are the model's choices too (log entries 84 and 139). -/
def Obligations.AlarmsFire : Prop :=
  (∀ (s u : State) (dt : Nat) (x : Nat × Instr), Arrives s dt u → x ∈ alarmRows dt →
    ∃ t, exec x.2 s = .next t ∧
      (alarmResponse u x.1 ≠ 3 → t.h.alarm.bits.getLsbD x.1 = true ∧ t.m.alarm.bits.getLsbD x.1 = true ∧
        t.glbHas 23 = true ∧ Raised u t 40 x.1 (BitVec.ofNat 32 (alarmResponse u x.1))) ∧
      (alarmResponse u x.1 ≠ 3 → Tbl.get (fun _ => none) u.alarm.lastAt x.1 = none →
        (∀ y, u.alarm.log.head? = some y → u.grid.now ≤ y.at_ + 400 → y.source.toNat ≤ x.1) →
        ∃ e, t.alarm.log = (e :: u.alarm.log).take 256 ∧ e.source = BitVec.ofNat 8 x.1 ∧ e.tick = u.grid.tick ∧
          e.number = u.alarm.count) ∧
      (alarmResponse u x.1 = 1 → t.alarm.lockdown = true ∧ t.h.sess = .closed ∧ t.m.sess = .closed ∧
        (u.mode.dev ≠ .off → u.mode.entering = false → u.mode.dev ≠ .sentinel → t.mode.dev = .lockdown)) ∧
      (alarmResponse u x.1 = 2 → t.h.sess = .closed ∧ t.m.sess = .closed ∧
        (∀ k, k = 8 ∨ k = 9 ∨ k = 10 → (t.slot k).typ = 0 ∧ (t.slot k).key = []) ∧
        ∀ k, k < 32 → (t.stream k).key = none ∧ (t.stream k).pend = none) ∧
      (alarmResponse u x.1 = 3 → t.mode.dev = .boot ∧ t.mode.cause = 2 ∧ t.vault.slots = [] ∧
        t.vault.state = .unprovisioned ∧ t.lock = 0 ∧ t.nv = u.nv)) ∧
  ∀ (s u : State) (dt : Nat), Arrives s dt u →
    (u.mode.dev = .test → exec (.testAccess dt .register) s = .next u) ∧
    (u.mode.dev ≠ .test →
      exec (.testAccess dt .register) s = exec (.testAccess dt .testEn) s)

/-- The test access port answers DEV_ID with bit 0 set for IDCODE and TDI for BYPASS, and changes nothing else
(R521; that BYPASS answers TDI is presumed, log entry 30). -/
def Obligations.TestPortAnswers : Prop :=
  ∀ s : State, exec .idcode s = .next { s with tdo := some (devId ||| 1) } ∧
    ∀ b, exec (.bypass b) s = .next { s with tdo := some (if b then 1 else 0) }

/-! ### Rails -/

/-- A rail below its warning threshold sets its bit on both ports, and VBAT and a VLINK their live bit, which clears
when the rail recovers. A rail back above its reset threshold holds the device in reset no longer, and the reset ends
when it was the last that did (R430, R431). -/
def Obligations.RailsWarnAndRecover : Prop :=
  (∀ (s u : State) (dt : Nat) (r : Rail), Arrives s dt u → railLive u r = false →
    ∃ t, exec (.railWarning dt r) s = .next t ∧ t.h.supply.bits.getLsbD (railBit r) = true ∧
      t.m.supply.bits.getLsbD (railBit r) = true ∧ t.glbHas 22 = true ∧ Raised u t 38 (railCode r) 0 ∧
      ((r = .vbat ∨ ∃ g, r = .vlink g) → railLive t r = true)) ∧
  (∀ (s u : State) (dt : Nat) (r : Rail), Arrives s dt u → railLive u r = true →
    ∃ t, exec (.railRecovery dt r .warning) s = .next t ∧ railLive t r = false) ∧
  ∀ (s : State) (dt : Nat) (r : Rail), s.mode.inReset = true →
    ∃ t, exec (.railRecovery dt r .reset) s = .next t ∧
      t.mode.lowRails = s.mode.lowRails.filter (fun x => !isRail r x) ∧ t.mode.inReset = !t.mode.lowRails.isEmpty ∧
      t.mode.dev = s.mode.dev

/-- VLINK_g below its second threshold suspends the AKNUN and SENT lanes of its region, whose sources go off and whose
powering request is dropped, and its recovery ends the suspension of a region that is not isolated; VBAT does the same
for the PSI5 and LIN lanes of the package (R433, R434, R435, R451). -/
def Obligations.RailsSuspendLanes : Prop :=
  (∀ (s u : State) (dt : Nat) (g : Region), Arrives s dt u → (u.region g).second = false →
    ∃ t, exec (.vlinkSecond dt g) s = .next t ∧ (t.region g).second = true ∧ (t.region g).stageReq = false ∧
      (t.region g).power = (if (u.region g).iso then .isolated else .suspended) ∧
      t.h.supply.bits.getLsbD (8 + g.val) = true ∧ t.m.supply.bits.getLsbD (8 + g.val) = true ∧
      Raised u t 39 g.val 0 ∧ Raised u t 28 g.val 1 ∧
      ∀ n ∈ vlinkLanes u g, (t.lane n).suspended = true ∧ (t.lane n).gapUntilFrame = true ∧
        (t.lane n).lstate = .unpowered) ∧
  (∀ (s u : State) (dt : Nat) (g : Region), Arrives s dt u → (u.region g).second = true → (u.region g).iso = false →
    ∃ t, exec (.vlinkRecovery dt g) s = .next t ∧ (t.region g).second = false ∧ Raised u t 28 g.val 0 ∧
      ∀ n ∈ vlinkLanes u g, (t.lane n).suspended = false) ∧
  (∀ (s u : State) (dt : Nat), Arrives s dt u → u.mode.vbatSusp = false →
    ∃ t, exec (.vbatSecond dt) s = .next t ∧ t.mode.vbatSusp = true ∧ t.h.supply.bits.getLsbD 6 = true ∧
      t.m.supply.bits.getLsbD 6 = true ∧ Raised u t 39 8 0 ∧
      ∀ n ∈ vbatLanes u, (t.lane n).suspended = true ∧ (t.lane n).lstate = .unpowered) ∧
  ∀ (s u : State) (dt : Nat), Arrives s dt u → u.mode.vbatSusp = true →
    ∃ t, exec (.vbatRecovery dt) s = .next t ∧ t.mode.vbatSusp = false ∧
      ∀ n ∈ vbatLanes u, (t.lane n).suspended = false

/-- A region whose link or LDO fails is isolated with its lanes unpowered, and leaves isolation when both are good
again (R434). -/
def Obligations.RegionsAreIsolated : Prop :=
  (∀ (s u : State) (dt : Nat) (g : Region), Arrives s dt u → (u.region g).iso = false →
    ∃ t, exec (.regionIsolated dt g) s = .next t ∧ (t.region g).iso = true ∧ (t.region g).power = .isolated ∧
      (Tbl.get (fun _ => {}) t.h.region g.val).bits.getLsbD 21 = true ∧
      (Tbl.get (fun _ => {}) t.m.region g.val).bits.getLsbD 21 = true ∧ Raised u t 27 g.val 0 ∧
      ∀ n ∈ regionLanes g, cfgMode u n ≠ .off → (t.lane n).lstate = .unpowered) ∧
  ∀ (s u : State) (dt : Nat) (g : Region), Arrives s dt u → (u.region g).iso = true →
    ∃ t, exec (.regionIsolationEnd dt g) s = .next t ∧ (t.region g).iso = false ∧ (t.region g).second = false

/-! ### Device states -/

/-- A request for a permitted state waits for its tick, one for the present state is done at once (the model's choice,
log entry 56), and any other is refused; TEST and REPLAY need a secure frame (R348, R438). -/
def Obligations.ModeRequestsWait : Prop :=
  (∀ (s u : State) (dt : Nat) (p : Port) (x : DevState × Instr), FrameArrives s dt p u → p ≠ .u →
    x ∈ modeRows dt p →
    ∃ t, exec x.2 s = .next t ∧ t.mode.dev = u.mode.dev ∧
      (modeRefused u x.1 = true → t.mode = { u.mode with result := .refused }) ∧
      (modeRefused u x.1 = false → t.mode.target = BitVec.ofNat 4 x.1.code ∧
        (x.1 = u.mode.dev → t.mode.result = .done ∧ t.mode.req = u.mode.req) ∧
        (x.1 ≠ u.mode.dev → t.mode.result = .pending ∧ t.mode.req = some (x.1, u.grid.now + 4000)))) ∧
  ∀ (s u : State) (dt : Nat) (p : Port), FrameArrives s dt p u →
    exec (.modeReqTest dt p false) s = .next u ∧ exec (.modeReqReplay dt p false) s = .next u

/-- A request takes effect: at a grid tick where that takes no entry steps, and at the end of the entry steps in OFF or
SENTINEL, with every lane or every lane not polled unpowered, both uplinks down and, in SENTINEL, the core logic on the
reference on its way to 100 MHz. SENTINEL runs a due poll of a lane with its tick's number, and once it is to leave, its
exit asks for 400 MHz, lets the uplinks start and fixes the first instant to resume at (R438, R439, R442, R443, R444,
R445). That the lanes leave at the row that ends the entry, which also opens the pass switches, that the entry waits for
a strong window where a switch is owed, and that a lane is polled once for a due tick, by its source's poll alone, are
the model's choices (log entries 39, 82, 118 and 48). -/
def Obligations.DeviceStatesChange : Prop :=
  (∀ (s : State) (d : DevState) (due : Nat), s.grid.on = true → s.grid.now = s.grid.tickAt → s.mode.req = some (d, due) →
    due ≤ s.grid.now → tickState s d = true → permitted s.mode.dev d = true →
    ∃ t, exec .modeChange s = .next t ∧ t.mode.dev = d ∧ t.mode.result = .done ∧ t.mode.req = none ∧
      (d ≠ s.mode.dev → Raised s t 44 d.code (BitVec.ofNat 32 s.mode.dev.code)) ∧ (d = .replay → t.replay = {})) ∧
  (∀ (s u : State) (dt : Nat), Arrives s dt u → entryDone u .off = true →
    ∃ t, exec (.offEntry dt) s = .next t ∧ t.mode.dev = .off ∧ t.mode.result = .done ∧ t.mode.req = none ∧
      t.mode.entering = false ∧ t.mode.wakeOut = false ∧ t.ul0.up = false ∧ t.ul1.up = false ∧
      ∀ n, n < 512 → (t.lane n).lstate = .unpowered) ∧
  (∀ (s u : State) (dt : Nat), Arrives s dt u → entryDone u .sentinel = true →
    ∃ t, exec (.sentinelEntry dt) s = .next t ∧ t.mode.dev = .sentinel ∧ t.mode.entering = false ∧
      t.mode.req = none ∧ t.mode.result = (if u.alarm.lockdown then .refused else .done) ∧ t.grid.coreMhz = 100 ∧
      t.grid.clk = .reference ∧
      t.grid.standbyOk = false ∧ t.ul0.up = false ∧ t.ul1.up = false ∧
      ∀ n, n < 512 → polled u n = false → (t.lane n).lstate = .unpowered) ∧
  (∀ (s u : State) (dt : Nat) (n : Lane) (w : HarvestWire) (pings : List (Pos × FrameWire)) (sent : Option SentWire)
    (lin : List (BitVec 6 × LinWire)), Arrives s dt u → pollDue u n = true → pollSources u n ≠ [] →
    (pollLane u n (pollNum u n) (pollAt u n) w pings sent lin).over_ ≤ u.grid.now →
    ∃ t, exec (.sentinelPoll dt n w pings sent lin) s = .next t ∧ (t.lane n).lastTag = some (pollNum u n)) ∧
  ∀ (s u : State) (dt : Nat), Arrives s dt u → u.mode.dev = .sentinel → u.mode.leaving ≠ none → u.mode.resume = none →
    ∃ t k, exec (.sentinelExit dt) s = .next t ∧ t.grid.coreMhz = 400 ∧ t.grid.standbyOk = true ∧
      t.ul0.parked = false ∧ t.ul1.parked = false ∧ t.mode.resume = some k

/-- A lockstep mismatch stops the warden: a copying capture stops, pending commits serve no port any more, requests
and open challenges of both ports are dropped. Its restart is counted and shown, and the third within 60 s in RUN enters
RECOVER, also during the entry steps of another state, where a request that RECOVER does not permit is refused (R22,
R425, R437, R466, R467). -/
def Obligations.WardenRestarts : Prop :=
  (∀ (s u : State) (dt : Nat), Arrives s dt u → u.mode.restarting = false →
    ∃ t, exec (.lockstepMismatch dt) s = .next t ∧ t.mode.restarting = true ∧ t.cap.copying = none ∧
      (∀ c ∈ t.commits, c.ports = 0) ∧ t.h.pend = none ∧ t.m.pend = none ∧ t.h.sess ≠ .challenged ∧
      t.m.sess ≠ .challenged) ∧
  ∀ (s u : State) (dt : Nat), Arrives s dt u → u.mode.restarting = true →
    ∃ t, exec (.wardenRestart dt) s = .next t ∧ t.mode.restarting = false ∧
      t.mode.restarts = recent u.grid.now (60 * second) u.mode.restarts ++ [u.grid.now] ∧ t.glbHas 6 = true ∧
      Raised u t 43 0 0 ∧
      t.mode.dev = (if 3 ≤ t.mode.restarts.length ∧ u.mode.dev = .run then .recover else u.mode.dev) ∧
      (t.mode.dev ≠ u.mode.dev → u.mode.entering = true → (∃ x, u.mode.req = some x ∧ permitted .recover x.1 = false) →
        t.mode.req = none ∧ t.mode.entering = false ∧ t.mode.result = .refused)

/-! ### The hoard and the replay -/

/-- The hoard starts its ring of the selected lanes when ARM rises without EXPORT, and stands stopped when EXPORT has
no key it can use. A write of FREEZE waits for the next tick, which begins POST for the words PRE left over; written
with an ARM or an EXPORT that changes, it acts with that change. POST's end holds the trace as FROZEN, and EXPORT's fall
turns to the ring again (R347, R474, R477). -/
def Obligations.HoardRecords : Prop :=
  (∀ (s : State) (w : Word), s.hoard.ctlNext = some w → s.grid.on = true → s.grid.now = s.grid.tickAt →
    bit w 31 = true → s.hoard.arm = false → s.mode.dev ≠ .replay →
    ∃ t, exec .hoardArm s = .next t ∧ t.hoard.arm = true ∧ t.hoard.ctlNext = none ∧
      t.hoard.pre = BitVec.ofNat 8 (fld w 23 16) ∧
      (bit w 29 = false →
        t.hoard.hstate = (if bit w 30 = true ∨ s.hoard.freezeNext ≠ none then .post else .armed) ∧
        (recordsIn s.mode.dev = true → t.hoard.startTick = s.grid.tick) ∧
        t.hoard.lanes = (hoardSelected s).take (laneLimit (fld w 27 26 == 1) false)) ∧
      (bit w 29 = true → exportKeyOk s = false → t.hoard.hstate = .exportStopped)) ∧
  (∀ (s u : State) (dt : Nat) (p : Port), FrameArrives s dt p u → p ≠ .u → u.mode.dev ≠ .off →
    ∃ t w, exec (.hoardFreeze dt p) s = .next t ∧ t.hoard = { u.hoard with ctlNext := some w } ∧ bit w 30 = true ∧
      ∀ k, k < 32 → k ≠ 30 → bit w k = bit (hoardCtl u) k) ∧
  (∀ (s : State) (w : Word), s.hoard.ctlNext = some w → s.hoard.hstate = .armed → bit w 30 = true →
    bit w 31 = true → s.hoard.arm = true → bit w 29 = s.hoard.expo → s.mode.dev ≠ .replay →
    (hoardCtlTick s).hoard.hstate = .post ∧ (hoardCtlTick s).hoard.freezeTick = s.grid.tick ∧
      (hoardCtlTick s).hoard.postLeft = (256 - s.hoard.preNow.toNat) * 8192 ∧
      (hoardCtlTick s).hoard.ctlNext = none ∧ (hoardCtlTick s).glbHas 10 = true) ∧
  (∀ (s : State) (w : Word), s.hoard.ctlNext = some w → s.grid.on = true → s.grid.now = s.grid.tickAt →
    bit w 31 = true → s.hoard.arm = true → bit w 29 = false → s.hoard.expo = true → s.mode.dev ≠ .replay →
    ∃ t, exec .hoardExport s = .next t ∧ t.hoard.expo = false ∧ t.hoard.ctlNext = none ∧
      t.hoard.hstate = (if bit w 30 = true ∨ s.hoard.freezeNext ≠ none then .post else .armed)) ∧
  ∀ (s u : State) (dt : Nat), Arrives s dt u → u.hoard.hstate = .post → u.hoard.postLeft = 0 →
    ∃ t, exec (.hoardFrozen dt) s = .next t ∧ t.hoard.hstate = .frozen ∧ t.hoard.held = true ∧ t.glbHas 10 = true

/-- A replay takes the next word of the trace while its buffer has room and refuses any other. It passes over blocks of
unknown types, refuses a trace that does not begin with a map block of this device and firmware, where FORMAT as the
reason for a first block of another known type or length is the model's choice (log entry 136), and takes the lanes and
the format of one that does. It advances once for each grid tick without touching the device's endpoints or
configuration, and ends at the header that ends the trace, which may be the first one, at a block whose CRC fails, and
at a block out of order (R479, R494, R495, R496, R497). -/
def Obligations.ReplaysRun : Prop :=
  (∀ (s u : State) (dt off : Nat) (d : Word), FrameArrives s dt .u u →
    (u.mode.dev = .replay → off = u.replay.taken → u.replay.buffer.length + 4 ≤ 1048576 →
      ∃ t, exec (.replayInject dt off d) s = .next t ∧ t.replay.buffer = u.replay.buffer ++ beBytes 4 d.toNat ∧
        t.replay.taken = u.replay.taken + 4 ∧ (u.replay.rstate = .waiting → t.replay.rstate = .loading)) ∧
    (u.mode.dev ≠ .replay ∨ off ≠ u.replay.taken ∨ 1048576 < u.replay.buffer.length + 4 →
      ∃ t, exec (.replayInject dt off d) s = .next t ∧ t.replay = u.replay ∧ t.u.indStat.denied = true ∧
        t.u.indStat.first = BitVec.ofNat 22 ((0x400000 + u.replay.taken % 0x400000) / 4))) ∧
  (∀ (s : State) (b : Block), s.mode.dev = .replay → s.replay.rstate = .loading → s.replay.checked = false →
    s.mode.restarting = false → fieldN s.replay.buffer 0 1 ≠ 0 → blockReady s.replay.buffer = true →
    b = blockAt s.replay.buffer →
    (knownType b.typ = false →
      ∃ t, exec .traceStart s = .next t ∧
        t.replay = { s.replay with buffer := s.replay.buffer.drop (blockLen s.replay.buffer) }) ∧
    (knownType b.typ = true → (b.typ ≠ 0x10 ∨ b.body.length ≠ 128) →
      ∃ t, exec .traceStart s = .next t ∧ t.replay.rstate = .refused ∧ t.replay.reason = 1) ∧
    (b.typ = 0x10 → b.body.length = 128 → b.crcOk = false →
      ∃ t, exec .traceStart s = .next t ∧ t.replay.rstate = .abandoned ∧ t.replay.reason = 3) ∧
    (b.typ = 0x10 → b.body.length = 128 → b.crcOk = true →
      (fieldN b.body 12 2 ≠ s.upd.fwVersion.toNat ∨ fieldN b.body 8 3 ≠ devId.toNat / 256 →
        ∃ t, exec .traceStart s = .next t ∧ t.replay.rstate = .refused ∧ t.replay.reason = 2) ∧
      (fieldN b.body 12 2 = s.upd.fwVersion.toNat → fieldN b.body 8 3 = devId.toNat / 256 →
        ∃ t, exec .traceStart s = .next t ∧ t.replay.checked = true ∧ t.replay.starting = true ∧
          t.replay.lanes = mapLanes b.body ∧ t.replay.raw = (fieldN b.body 15 1 == 1)))) ∧
  (∀ (s : State) (k : Nat), nextSpan s = some k → replayGoing s = true → s.grid.now = s.grid.tickAt →
    s.replay.lastAt ≠ some s.grid.tickAt →
    ∃ t, exec .replayTick s = .next t ∧ t.replay.lastAt = some s.grid.tickAt ∧ t.replay.rstate ≠ .loading ∧
      t.eps = s.eps ∧ t.cfg = s.cfg ∧ t.replay.lanes = s.replay.lanes) ∧
  ∀ (s u : State) (dt : Nat), Arrives s dt u → replayOpen u = true → 8 ≤ u.replay.buffer.length →
    (fieldN u.replay.buffer 0 1 = 0 →
      ∃ t, exec (.replayEnd dt) s = .next t ∧ t.replay.rstate = .done ∧ t.replay.reason = 0) ∧
    (fieldN u.replay.buffer 0 1 ≠ 0 → u.replay.checked = true → blockReady u.replay.buffer = true →
      ((blockAt u.replay.buffer).crcOk = false →
        ∃ t, exec (.replayEnd dt) s = .next t ∧ t.replay.rstate = .abandoned ∧ t.replay.reason = 3) ∧
      ∀ q, (blockAt u.replay.buffer).crcOk = true → (blockAt u.replay.buffer).gap = false →
        u.replay.seq = some q → q ≠ (blockAt u.replay.buffer).seq →
        ∃ t, exec (.replayEnd dt) s = .next t ∧ t.replay.rstate = .abandoned ∧ t.replay.reason = 4)

/-! ### Firmware update -/

/-- Port U asks for a block to be taken and for the image to be verified; a block with a right CRC-32 that reads
back is in the inactive bank, one with a wrong CRC-32 is not; verification ends in READY with the boot digest or in
FAILED with the first failed check; and ABORT discards the transfer (R502, R503, R504). That a block taken outside
RECEIVING erases the bank's digest record, and that bytes never written read 0, are the model's choices (log entries 81
and 24). -/
def Obligations.UpdatesAreTransferred : Prop :=
  (∀ (s u : State) (dt : Nat), FrameArrives s dt .u u → transferOpen u = true →
    (∀ b, ∃ t, exec (.takeBlock dt b) s = .next t ∧ t.upd.taking = some b ∧ t.upd.ustate = u.upd.ustate) ∧
    ∃ t, exec (.verify dt) s = .next t ∧ t.upd.ustate = .verifying ∧ t.upd.error = 0) ∧
  (∀ (s u : State) (dt : Nat) (ok : Bool) (b : Byte), Arrives s dt u → u.upd.taking = some b →
    ∃ t, exec (.takeComplete dt ok) s = .next t ∧ t.upd.ustate = .receiving ∧ t.upd.taking = none ∧
      (u.upd.ustate ≠ .receiving → (t.bank (inactiveB u)).digest = none) ∧
      (crc32 (bufferBytes u) ≠ trailer u → (t.bank (inactiveB u)).blocks = (u.bank (inactiveB u)).blocks ∧
        (u.upd.error = 0 → t.upd.error = 1)) ∧
      (crc32 (bufferBytes u) = trailer u →
        Tbl.get (fun _ => []) (t.bank (inactiveB u)).blocks b.toNat = bufferBytes u ∧
        (ok = true → t.upd.lastBlock = b ∧ b.toNat ∈ t.upd.taken) ∧
        (ok = false → b.toNat ∉ t.upd.taken ∧ (u.upd.error = 0 → t.upd.error = 2)))) ∧
  (∀ (s u : State) (dt : Nat), Arrives s dt u → u.upd.ustate = .verifying → u.upd.romOnly = false →
    ∃ t, exec (.verifyComplete dt) s = .next t ∧
      (if verifyChecks u = 0
        then t.upd.ustate = .ready ∧ (t.bank (inactiveB u)).digest = digestRecord u (u.bank (inactiveB u))
        else t.upd.ustate = .failed ∧ t.upd.error = BitVec.ofNat 5 (verifyChecks u))) ∧
  ∀ (s u : State) (dt : Nat) (p : Port), FrameArrives s dt p u → u.mode.dev ≠ .off →
    (u.upd.ustate = .receiving ∨ u.upd.ustate = .verifying ∨ u.upd.ustate = .ready ∨ u.upd.ustate = .failed) →
    ∃ t, exec (.abort dt p) s = .next t ∧ t.upd.ustate = .idle ∧ t.upd.taken = [] ∧ t.upd.taking = none ∧
      t.upd.error = 0

/-- An accepted ACTIVATE or ROLLBACK waits 1 ms and pauses the device from 20 µs before a grid instant to 250 µs after
it, then runs the other bank: a ROLLBACK ends so, and an ACTIVATE goes on to its migration, which leaves it UNCONFIRMED
whatever came of it, with a copy in the new format of each store that was in an older one. CONFIRM raises the rollback
counter to the image's index (R506, R507, R509, R511, R512). That an accepted ROLLBACK shows ACTIVATING too is the
model's choice (log entry 126). -/
def Obligations.UpdatesActivate : Prop :=
  (∀ (s u : State) (dt : Nat) (p : Port), FrameArrives s dt p u → p ≠ .u → u.mode.dev ≠ .off →
    (u.port p).sess = .opened →
    (activateOk u = true →
      ∃ t, exec (.activate dt p) s = .next t ∧ t.upd.ustate = .activating ∧ t.upd.rolling = false ∧
        t.upd.activateAt = some (u.grid.now + 400000)) ∧
    (rollbackOk u = true →
      ∃ t, exec (.rollback dt p) s = .next t ∧ t.upd.ustate = .activating ∧ t.upd.rolling = true ∧
        t.upd.activateAt = some (u.grid.now + 400000)) ∧
    (u.upd.ustate = .unconfirmed →
      ∃ t, exec (.confirm dt p) s = .next t ∧ t.upd.ustate = .idle ∧ t.nv.unconfirmed = false ∧ t.nv.oldCfg = false ∧
        t.nv.rollback.toNat = max u.nv.rollback.toNat (imgNat (u.bank u.upd.bankB) 16 4))) ∧
  (∀ (s u : State) (dt a : Nat), Arrives s dt u → u.upd.activateAt = some a → u.grid.on = true →
    u.grid.gridAt < a → a ≤ (nextInstant u).2 → (nextInstant u).2 = u.grid.now + 8000 →
    ∃ t, exec (.activationPause dt) s = .next t ∧ t.upd.pauseA = some (nextInstant u).2 ∧ t.upd.activateAt = none ∧
      portBusy t = true) ∧
  (∀ (s u : State) (dt a : Nat), Arrives s dt u → u.upd.pauseA = some a → a + 100000 ≤ u.grid.now →
    ∃ t, exec (.activationPauseEnd dt) s = .next t ∧ t.upd.pauseA = none ∧ t.upd.bankB = inactiveB u ∧
      t.nv.bootB = inactiveB u ∧ t.nv.unconfirmed = !u.upd.rolling ∧
      (u.upd.rolling = true → t.upd.ustate = .idle) ∧ (u.upd.rolling = false → t.upd.migrating = true)) ∧
  ∀ (s u : State) (dt : Nat) (w : MigWrite), Arrives s dt u → u.upd.migrating = true → u.mode.restarting = false →
    ∃ t, exec (.migrationComplete dt w) s = .next t ∧ t.upd.ustate = .unconfirmed ∧ t.upd.migrating = false ∧
      (cfgDue u = true ∧ w.cfgOk = false ∨ calDue u = true ∧ w.calOk = false → u.upd.error = 0 → t.upd.error = 0x0D) ∧
      (cfgDue u = false → t.nv.cfgA = u.nv.cfgA ∧ t.nv.cfgB = u.nv.cfgB) ∧
      (calDue u = false → t.nv.calA = u.nv.calA ∧ t.nv.calB = u.nv.calB) ∧
      (cfgDue u = true → ∃ c, (t.nv.cfgA = some c ∨ t.nv.cfgB = some c) ∧ c.format = u.upd.cfgFormat ∧
        c.converted = true ∧ c.valid = w.cfgOk) ∧
      (calDue u = true → ∃ c, (t.nv.calA = some c ∨ t.nv.calB = some c) ∧ c.format = u.upd.cfgFormat ∧
        c.converted = true ∧ c.valid = w.calOk)

/-! ### Reset values, status fields, records and the router -/

/-- After a device reset the direct registers of Ports H and M hold the values of their Reset columns (R12, R328
to R332, R336, R339, R344), and so does State.reset, whose sparse tables are in canonical form and whose queue is
empty. -/
def Obligations.RegistersHoldTheirResetValues : Prop :=
  State.reset.tables = true ∧ State.reset.pending = [] ∧
  ∀ (s : State) (cause : Nat) (lead : Bool) (p : Port), p ≠ .u →
    ∀ x ∈ ([(0x00C, 0), (0x010, 0), (0x014, 0), (0x018, 0), (0x01C, 0x00110568), (0x020, 0), (0x024, 0), (0x028, 0),
        (0x030, 0), (0x040, 0), (0x04C, 0), (0x050, 0x433E8003), (0x060, 0x00005064), (0x0E4, 0),
        (0x0E8, 0x20)] : List (Nat × Word)),
      dirWord (deviceReset s cause lead) p x.1 = x.2 ∧ dirWord State.reset p x.1 = x.2

/-- The table's rows carry no bits, so no word spells a command (the model's choice, log entry 2). -/
def Obligations.NoWordSpellsACommand : Prop :=
  ∀ nbits w, decodeTableWord nbits w = none ∧ ∀ s : State, s.withFetchWord nbits w = s

/-- The five status and counter registers with SQ fields and the eight REGION_STATUS read SEQ in bits 31:24 over the
port's own SQ fields. SEQ is 0 while every field is 0 and only then; every setting and every count advances it by 1,
modulo 256, skipping 0; it returns to 0 when a clear leaves nothing; and one port's copy leaves the others' alone
(R315). -/
def Obligations.SequenceNumbersFollowTheFields : Prop :=
  (∀ r : SqReg, (sqWord r).toNat = r.seq.toNat * 2 ^ 24 + r.bits.toNat) ∧
  (∀ (x : PortState) (off : Nat), (sqReg x off).isSome = true ↔
    off ∈ [0x00C, 0x010, 0x018, 0x020, 0x0E0] ∨ 0x0C0 ≤ off ∧ off < 0x0E0) ∧
  (∀ (s : State) (p : Port) (off : Nat) (r : SqReg), sqReg (s.port p) off = some r →
    (dirWord s p off).extractLsb' 24 8 = r.seq ∧ (dirWord s p off).extractLsb' 0 24 &&& r.bits = r.bits) ∧
  (∀ (s : State) (p q : Port) (x : PortState), (s.setPort p x).port q = if q = p then x else s.port q) ∧
  ∀ r : SqReg, (r.seq = 0 ↔ r.bits = 0) →
    (∀ mask, mask ≠ 0 → (sqSet r mask).bits = r.bits ||| mask ∧
      ((sqSet r mask).seq.toNat = if r.seq.toNat = 255 then 1 else r.seq.toNat + 1) ∧
      ((sqSet r mask).seq = 0 ↔ (sqSet r mask).bits = 0)) ∧
    (r.bits.toNat < 2 ^ 24 - 1 → (sqCount r).bits.toNat = r.bits.toNat + 1 ∧
      ((sqCount r).seq.toNat = if r.seq.toNat = 255 then 1 else r.seq.toNat + 1)) ∧
    ((sqCount r).seq = 0 ↔ (sqCount r).bits = 0) ∧
    (∀ mask, (sqClear r mask).bits = r.bits &&& ~~~mask ∧
      ((sqClear r mask).seq = if r.bits &&& ~~~mask = 0 then 0 else r.seq) ∧
      ((sqClear r mask).seq = 0 ↔ (sqClear r mask).bits = 0)) ∧
    ∀ n, n ≤ r.bits → (sqSubtract r n).bits.toNat = r.bits.toNat - n.toNat ∧
      ((sqSubtract r n).seq = if r.bits = n then 0 else r.seq) ∧
      ((sqSubtract r n).seq = 0 ↔ (sqSubtract r n).bits = 0)

/-- Each record takes the state of the first row of the table whose condition holds, and a late value never
displaces one taken on time; the value and the status bits are those of the entry that the row names, where it has them
(R234, R235). -/
def Obligations.RecordsTakeTheFirstRow : Prop :=
  ∀ (gap lost due : Bool) (lane : LaneCond) (on late : Option Entry),
    (gap = true → recState gap lost lane due on late = (.gap, none, none)) ∧
    (gap = false → lost = true → recState gap lost lane due on late = (.missing, none, none)) ∧
    (gap = false → lost = false →
      (lane = .gap ∨ (∃ e, on = some e ∧ e.prov = .gap) → recState gap lost lane due on late = (.gap, none, none)) ∧
      (lane = .fault → (∀ e, on = some e → e.prov ≠ .gap) → (recState gap lost lane due on late).1 = .fault) ∧
      (lane = .none → (∀ e, on = some e → e.prov ≠ .gap) →
        (∀ e, due = true → on = some e → recState gap lost lane due on late =
          (e.prov, if e.hasValue && e.prov != .stale then some e else none, some e)) ∧
        (∀ e, (due = false ∨ on = none) → late = some e → recState gap lost lane due on late = (.late, some e, some e)) ∧
        (due = true → on = none → late = none → recState gap lost lane due on late = (.missing, none, none)) ∧
        (due = false → late = none → (recState gap lost lane due on late).1 = .stale)))

/-- A VALID record sets an endpoint's error count to 0; a MISSING, LATE or FAULT record adds 1 to it up to 3;
every other record leaves it; and it is 0 after a device reset. The assembler keeps one for each endpoint and puts
it into the record's status (R236, R237). -/
def Obligations.ErrorCountsStayBelowFour : Prop :=
  (∀ err, errAfter .valid err = 0) ∧
  (∀ st err, st = .missing ∨ st = .late ∨ st = .fault → err ≤ 3 →
    errAfter st err = (if err = 3 then 3 else err + 1)) ∧
  (∀ st err, st ≠ .valid → st ≠ .missing → st ≠ .late → st ≠ .fault → errAfter st err = err) ∧
  (∀ st err, err ≤ 3 → errAfter st err ≤ 3) ∧
  (∀ (s : State) (cause : Nat) (lead : Bool) (i : Nat), ((deviceReset s cause lead).ep i).err = 0) ∧
  ∀ (b : Build) (r : Resolve) (i : Nat), (r.st.ep i).err ≤ 3 →
    ∃ (st : RecState) (x : Rec), (resolveRec b r i).recs = r.recs ++ [x] ∧ x.idx = i ∧ x.status.toNat % 8 = st.code ∧
      ((resolveRec b r i).st.ep i).err = errAfter st (r.st.ep i).err ∧
      x.status.toNat / 64 = errAfter st (r.st.ep i).err ∧
      ∀ k, k ≠ i → ((resolveRec b r i).st.ep k).err = (r.st.ep k).err

/-- The events of one router cycle are delivered in ascending source code, and in ascending ORIGIN within one
source, and none of them is lost on the way (R380). -/
def Obligations.RouterOrdersACycle : Prop :=
  ∀ s : State, ∃ es : List Event, es.Perm s.cycle ∧
    es.Pairwise (fun a b => a.src.toNat < b.src.toNat ∨ a.src = b.src ∧ a.origin.toNat ≤ b.origin.toNat) ∧
    flushCycle s = es.foldl deliverEvent { s with cycle := [] }

/-! ### What commands leave alone, and what lasts -/

/-- A command on one lane leaves every other lane alone with its endpoints, on the device and on the harness, and
the clusters, all as a harvest cutoff ahead of a frame's end leaves them; and it leaves the configuration, LOCK, the
rule epoch, commits, uplink ports, the vault, the alarm log, the non-volatile areas, the update engine, the replay and
every port's own settings and session alone. -/
def Obligations.LaneCommandsKeepTheRest : Prop :=
  ∀ (c : Instr) (n : Lane) (s t : State), laneOf c = some n → exec c s = .next t →
    t.stores = s.stores ∧ t.clusters = (lineMeets c s).clusters ∧ t.cfg = s.cfg ∧ t.epoch = s.epoch ∧
      t.epochAt = s.epochAt ∧ (∀ k, k ≠ n.val → t.lane k = (lineMeets c s).lane k) ∧
      (∀ i, i / 16 ≠ n.val → t.ep i = (lineMeets c s).ep i ∧ t.endpoint i = s.endpoint i) ∧
      ∀ p, (t.port p).own = (s.port p).own

/-- A command on one region leaves the lanes of the other regions alone with their endpoints, and the clusters, the
configuration, LOCK, the rule epoch, commits, uplink ports, the vault, the alarm log, the non-volatile areas, the update
engine, the replay and every port's own settings and session. -/
def Obligations.RegionCommandsKeepTheRest : Prop :=
  ∀ (c : Instr) (g : Region) (s t : State), regionOf c = some g → exec c s = .next t →
    t.stores = s.stores ∧ t.clusters = s.clusters ∧ t.cfg = s.cfg ∧ t.epoch = s.epoch ∧ t.epochAt = s.epochAt ∧
      (∀ k, k / 64 ≠ g.val → t.lane k = s.lane k) ∧
      (∀ i, i / 1024 ≠ g.val → t.ep i = s.ep i ∧ t.endpoint i = s.endpoint i) ∧
      ∀ p, (t.port p).own = (s.port p).own

/-- A command that acts on events, clocks, captures, the hoard or the device state alone leaves the lanes and
endpoints, the configuration, LOCK, commits, snapshots, uplink ports, routes, the vault, the alarm log, the
non-volatile areas, the update engine and the replay alone; reads, a warden's restart and the region queue's operations
change nothing there but the notes of snapshots and harvests, a parity error and the loss of the lane PLL also
lanes, COMMIT and DISCARD also commit requests and staged words, update operations also the update engine, and a port that is closed, reset or lost
also the configuration and the rule epoch. The limit of a stream key and the return of a stream to its own uplink
port leave what commands on a region leave. -/
def Obligations.EventLevelCommandsKeepTheRest : Prop :=
  ∀ (c : Instr) (s t : State), exec c s = .next t →
    (eventLevel c = true → t.evRest = s.evRest) ∧
    ((∃ dt p fast cmd addr crc, c = .portRead dt p fast cmd addr crc) ∨
      (∃ dt p how cmd addr crc words, c = .burstRead dt p how cmd addr crc words) ∨
      (∃ dt, c = .wardenRestart dt) ∨ (∃ dt p g, c = .flush dt p g) ∨
      (∃ dt g lanes twice, c = .linkRetry dt g lanes twice) ∨
      (∃ dt g k, c = .queuePtr dt g k) → ({ t with asm_ := s.asm_ } : State).evRest = s.evRest) ∧
    ((∃ dt p groups, c = .commit dt p groups) → ({ t with creqs := s.creqs } : State).evRest = s.evRest) ∧
    ((∃ dt p groups, c = .discard dt p groups) →
      ({ t with cfg := s.cfg } : State).evRest = s.evRest ∧ t.cfg.live = s.cfg.live) ∧
    (∀ dt cl, c = .seqParity dt cl →
      ({ t with clusters := s.clusters, asm_ := s.asm_, lanes := s.lanes } : State).evRest = s.evRest ∧
      ∀ n, laneCluster n ≠ cl.val → t.lane n = s.lane n) ∧
    ((∃ dt, c = .lanePll dt) → ({ t with asm_ := s.asm_, lanes := s.lanes } : State).evRest = s.evRest) ∧
    ((∃ k, c = .keyLimit k) ∨ (∃ k, c = .revert k) → t.stores = s.stores) ∧
    ((∃ dt p, c = .abort dt p) ∨ (∃ dt p, c = .activate dt p) ∨ (∃ dt p, c = .rollback dt p) ∨
      (∃ dt, c = .activationPause dt) ∨ (∃ dt, c = .verify dt) ∨ (∃ dt b, c = .takeBlock dt b) →
      ({ t with upd := s.upd } : State).evRest = s.evRest) ∧
    ((∃ dt p, c = .close dt p) ∨ (∃ dt p, c = .preset dt p) ∨ (∃ dt p, c = .heartbeatMissed dt p) ∨
      (∃ dt p, c = .leaseExpiry dt p) →
      ({ t with epoch := s.epoch, epochAt := s.epochAt, cfg := s.cfg } : State).evRest = s.evRest)

/-- Every command is answered with a next state and leaves the queue of the commands behind it alone (log entries 1
and 9, the model's choices). -/
def Obligations.CommandsKeepTheQueue : Prop :=
  ∀ (c : Instr) (s : State), ∃ t, exec c s = .next t ∧ t.pending = s.pending

/-- LOCK only gains bits: whatever the command, every bit that was set stays set, unless the device has just been
reset, which clears them all (R12, R320). -/
def Obligations.LockBitsHold : Prop :=
  ∀ s t : State, step s = .next t → s.lock &&& t.lock = s.lock ∨ FreshlyReset t ∧ t.lock = 0

/-- The anti-rollback counter never falls, whatever the command and whatever resets the device (R421, R501, R511). -/
def Obligations.RollbackCounterNeverFalls : Prop :=
  ∀ s t : State, step s = .next t → s.nv.rollback.toNat ≤ t.nv.rollback.toNat

/-- A calibrated endpoint's pulse decodes as symbol x exactly where its length lies in the window of x about
n(x) × AS in integer form, with n(x) and w in 2.5 ns steps by grade (R197); a pulse past the release deadline is
late, whatever its window (R78, R184). -/
def Obligations.PulsesDecodeInCalibratedWindows : Prop :=
  ∀ (q : DecodeWith) (lt r : Int) (p : Pulse), q.sprout = false → q.grade < 3 → 61604 ≤ q.asc → q.asc ≤ 69468 →
    p.rise = some r →
    let lm := stamp25 q.og r - stamp25 q.og p.fall - q.dE
    let w : Int := [20, 40, 80].getD q.grade 0
    let n : Nat → Int := fun x =>
      ([[100, 160, 220, 280], [200, 320, 440, 560], [400, 640, 880, 1120]].getD q.grade []).getD x 0
    let deadline : Int := [300, 600, 1200].getD q.grade 0
    (100 * lm ≤ (if q.stretched then 108 else 100) * deadline →
      ∀ x < 4, classify q (some lt) p = .inr x ↔
        n x * q.asc - w * 65536 ≤ lm * 65536 ∧ lm * 65536 < n x * q.asc + w * 65536) ∧
    ((if q.stretched then 108 else 100) * deadline < 100 * lm → classify q (some lt) p = .inl .late)
end

