-- ==== Sys2Proof/Laws/Tbl.lean ====
section
/-!
SUPPORT. The laws of a sparse table: a read after a write to the same key gives the value written, a
write leaves every other key alone, and every operation keeps the canonical form.
-/

namespace Sys2Proof.Machine

variable {α : Type}

/-- The empty table reads as the default everywhere. -/
@[simp] theorem Tbl.get_nil (d : Nat → α) (k : Nat) : Tbl.get d [] k = d k := rfl

/-- The empty table is canonical. -/
@[simp] theorem Tbl.wf_nil [DecidableEq α] (d : Nat → α) : Tbl.wf d [] = true := rfl

/-- A deleted key reads as the default. -/
theorem Tbl.get_del_same (d : Nat → α) (t : Tbl α) (k : Nat) : Tbl.get d (Tbl.del k t) k = d k := by
  induction t with
  | nil => rfl
  | cons e r ih =>
    by_cases h : e.1 = k
    · simpa [Tbl.del, h] using ih
    · have hk : ¬ k = e.1 := fun x => h x.symm
      simp only [Tbl.del, List.filter, bne, beq_eq_false_iff_ne.mpr h, Bool.not_false, Tbl.get, if_neg hk]
      exact ih

/-- Deleting a key leaves the others alone. -/
theorem Tbl.get_del_other (d : Nat → α) (t : Tbl α) {k j : Nat} (hj : j ≠ k) :
    Tbl.get d (Tbl.del k t) j = Tbl.get d t j := by
  induction t with
  | nil => rfl
  | cons e r ih =>
    obtain ⟨i, w⟩ := e
    by_cases h : i = k
    · have hi : ¬ j = i := by omega
      simp only [Tbl.get, if_neg hi]
      simpa [Tbl.del, h] using ih
    · simp only [Tbl.del, List.filter, bne, beq_eq_false_iff_ne.mpr h, Bool.not_false, Tbl.get]
      split
      · rfl
      · exact ih

/-- A listed key reads as what was put, where it was not listed before. -/
theorem Tbl.get_put_same (d : Nat → α) (t : Tbl α) (k : Nat) (v : α) (h : ∀ e ∈ t, e.1 ≠ k) :
    Tbl.get d (Tbl.put k v t) k = v := by
  induction t with
  | nil => simp [Tbl.put, Tbl.get]
  | cons e r ih =>
    obtain ⟨i, w⟩ := e
    have hi : ¬ k = i := fun x => h (i, w) (by simp) x.symm
    by_cases hk : k < i
    · simp [Tbl.put, hk, Tbl.get]
    · simp only [Tbl.put, if_neg hk, Tbl.get, if_neg hi]
      exact ih (fun e he => h e (by simp [he]))

/-- Putting a key leaves the others alone. -/
theorem Tbl.get_put_other (d : Nat → α) (t : Tbl α) {k j : Nat} (v : α) (hj : j ≠ k) :
    Tbl.get d (Tbl.put k v t) j = Tbl.get d t j := by
  induction t with
  | nil => simp [Tbl.put, Tbl.get, hj]
  | cons e r ih =>
    obtain ⟨i, w⟩ := e
    by_cases hk : k < i
    · simp [Tbl.put, hk, Tbl.get, hj]
    · simp only [Tbl.put, if_neg hk, Tbl.get]
      split
      · rfl
      · exact ih

/-- No entry of a deleted key is left. -/
theorem Tbl.ne_of_mem_del (t : Tbl α) (k : Nat) : ∀ e ∈ Tbl.del k t, e.1 ≠ k := by
  intro e he
  simp only [Tbl.del, List.mem_filter, bne_iff_ne] at he
  exact he.2

/-- A read after a write to the same key gives the value written. -/
@[simp] theorem Tbl.get_set_same [DecidableEq α] (d : Nat → α) (t : Tbl α) (k : Nat) (v : α) :
    Tbl.get d (Tbl.set d t k v) k = v := by
  unfold Tbl.set
  split
  · next hv => rw [Tbl.get_del_same, hv]
  · exact Tbl.get_put_same d _ k v (Tbl.ne_of_mem_del t k)

/-- A write leaves every other key alone. -/
theorem Tbl.get_set_other [DecidableEq α] (d : Nat → α) (t : Tbl α) {k j : Nat} (v : α) (hj : j ≠ k) :
    Tbl.get d (Tbl.set d t k v) j = Tbl.get d t j := by
  unfold Tbl.set
  split
  · exact Tbl.get_del_other d t hj
  · rw [Tbl.get_put_other d _ v hj, Tbl.get_del_other d t hj]

/-- A table listed above a bound is listed above a lower one. -/
theorem Tbl.wfAbove_mono [DecidableEq α] {d : Nat → α} {t : Tbl α} {lo lo' : Nat}
    (h : Tbl.wfAbove d lo t = true) (hl : lo' ≤ lo) : Tbl.wfAbove d lo' t = true := by
  cases t with
  | nil => rfl
  | cons e r =>
    simp only [Tbl.wfAbove, Bool.and_eq_true, decide_eq_true_eq] at h ⊢
    exact ⟨⟨by omega, h.1.2⟩, h.2⟩

/-- Deleting a key keeps the canonical form. -/
theorem Tbl.wfAbove_del [DecidableEq α] {d : Nat → α} {t : Tbl α} {lo : Nat} (k : Nat)
    (h : Tbl.wfAbove d lo t = true) : Tbl.wfAbove d lo (Tbl.del k t) = true := by
  induction t generalizing lo with
  | nil => rfl
  | cons e r ih =>
    obtain ⟨i, w⟩ := e
    simp only [Tbl.wfAbove, Bool.and_eq_true, decide_eq_true_eq] at h
    by_cases hk : i = k
    · have := ih h.2
      simpa [Tbl.del, hk] using Tbl.wfAbove_mono this (by omega)
    · have := ih h.2
      simp only [Tbl.del, List.filter, bne, beq_eq_false_iff_ne.mpr hk, Bool.not_false, Tbl.wfAbove, Bool.and_eq_true,
        decide_eq_true_eq]
      exact ⟨h.1, this⟩

/-- Putting a key that is not listed keeps the canonical form. -/
theorem Tbl.wfAbove_put [DecidableEq α] {d : Nat → α} {t : Tbl α} {lo k : Nat} {v : α} (hk : lo ≤ k) (hv : v ≠ d k)
    (hn : ∀ e ∈ t, e.1 ≠ k) (h : Tbl.wfAbove d lo t = true) : Tbl.wfAbove d lo (Tbl.put k v t) = true := by
  induction t generalizing lo with
  | nil => simp [Tbl.put, Tbl.wfAbove, hk, hv]
  | cons e r ih =>
    obtain ⟨i, w⟩ := e
    simp only [Tbl.wfAbove, Bool.and_eq_true, decide_eq_true_eq] at h
    have hi : i ≠ k := hn (i, w) (by simp)
    by_cases hki : k < i
    · simp only [Tbl.put, if_pos hki, Tbl.wfAbove, Bool.and_eq_true, decide_eq_true_eq]
      exact ⟨⟨hk, by simp [hv]⟩, ⟨by omega, h.1.2⟩, h.2⟩
    · simp only [Tbl.put, if_neg hki, Tbl.wfAbove, Bool.and_eq_true, decide_eq_true_eq]
      exact ⟨h.1, ih (by omega) (fun e he => hn e (by simp [he])) h.2⟩

/-- A write keeps the canonical form. -/
theorem Tbl.wf_set [DecidableEq α] {d : Nat → α} {t : Tbl α} (h : Tbl.wf d t = true) (k : Nat) (v : α) :
    Tbl.wf d (Tbl.set d t k v) = true := by
  unfold Tbl.set
  split
  · exact Tbl.wfAbove_del k h
  · next hv => exact Tbl.wfAbove_put (Nat.zero_le k) hv (Tbl.ne_of_mem_del t k) (Tbl.wfAbove_del k h)

end Sys2Proof.Machine
end

