-- ==== Sys2Proof/Laws/State.lean ====
section
/-!
SUPPORT. What each updater of the state changes and what it leaves alone, so that no later proof
unfolds a record update. Every theorem `State.<updater>_kept` is the conjunction of one equation per
field that the updater leaves alone; `simp` uses each equation as a rule of its own.
-/

namespace Sys2Proof.Machine

/-! ### What an updater leaves alone -/

/-- What `setLane` leaves alone. -/
@[simp] theorem State.setLane_kept (s : State) (n : Nat) (x : LaneState) :
    (s.setLane n x).pending = s.pending ∧ (s.setLane n x).fresh = s.fresh ∧ (s.setLane n x).h = s.h ∧
    (s.setLane n x).m = s.m ∧ (s.setLane n x).u = s.u ∧ (s.setLane n x).cfg = s.cfg ∧
    (s.setLane n x).lock = s.lock ∧ (s.setLane n x).epoch = s.epoch ∧ (s.setLane n x).epochAt = s.epochAt ∧
    (s.setLane n x).creqs = s.creqs ∧ (s.setLane n x).commits = s.commits ∧
    (s.setLane n x).cstat = s.cstat ∧ (s.setLane n x).cseq = s.cseq ∧ (s.setLane n x).cap = s.cap ∧
    (s.setLane n x).cycle = s.cycle ∧ (s.setLane n x).chans = s.chans ∧ (s.setLane n x).eps = s.eps ∧
    (s.setLane n x).clusters = s.clusters ∧ (s.setLane n x).regions = s.regions ∧
    (s.setLane n x).asm_ = s.asm_ ∧ (s.setLane n x).streams = s.streams ∧ (s.setLane n x).ul0 = s.ul0 ∧
    (s.setLane n x).ul1 = s.ul1 ∧ (s.setLane n x).routes = s.routes ∧ (s.setLane n x).vault = s.vault ∧
    (s.setLane n x).alarm = s.alarm ∧ (s.setLane n x).nv = s.nv ∧ (s.setLane n x).upd = s.upd ∧
    (s.setLane n x).hoard = s.hoard ∧ (s.setLane n x).replay = s.replay ∧ (s.setLane n x).grid = s.grid ∧
    (s.setLane n x).mode = s.mode ∧ (s.setLane n x).tdo = s.tdo ∧ (s.setLane n x).chain = s.chain ∧
    (∀ k, (s.setLane n x).ep k = s.ep k) ∧ (∀ k, (s.setLane n x).region k = s.region k) ∧
    (∀ k, (s.setLane n x).cluster k = s.cluster k) ∧ (∀ k, (s.setLane n x).chan k = s.chan k) ∧
    (∀ k, (s.setLane n x).stream k = s.stream k) ∧ (∀ k, (s.setLane n x).route k = s.route k) ∧
    (∀ k, (s.setLane n x).endpoint k = s.endpoint k) ∧ (∀ k, (s.setLane n x).slot k = s.slot k) ∧
    (∀ p, (s.setLane n x).port p = s.port p) ∧ (∀ v, (s.setLane n x).uplink v = s.uplink v) :=
  by simp [State.setLane, State.ep, State.region, State.cluster, State.chan, State.stream,
    State.route, State.endpoint, State.slot, State.port, State.uplink]

/-- What `setEp` leaves alone. -/
@[simp] theorem State.setEp_kept (s : State) (i : Nat) (x : EpState) :
    (s.setEp i x).pending = s.pending ∧ (s.setEp i x).fresh = s.fresh ∧ (s.setEp i x).h = s.h ∧
    (s.setEp i x).m = s.m ∧ (s.setEp i x).u = s.u ∧ (s.setEp i x).cfg = s.cfg ∧
    (s.setEp i x).lock = s.lock ∧ (s.setEp i x).epoch = s.epoch ∧ (s.setEp i x).epochAt = s.epochAt ∧
    (s.setEp i x).creqs = s.creqs ∧ (s.setEp i x).commits = s.commits ∧ (s.setEp i x).cstat = s.cstat ∧
    (s.setEp i x).cseq = s.cseq ∧ (s.setEp i x).cap = s.cap ∧ (s.setEp i x).cycle = s.cycle ∧
    (s.setEp i x).chans = s.chans ∧ (s.setEp i x).lanes = s.lanes ∧ (s.setEp i x).clusters = s.clusters ∧
    (s.setEp i x).regions = s.regions ∧ (s.setEp i x).asm_ = s.asm_ ∧ (s.setEp i x).streams = s.streams ∧
    (s.setEp i x).ul0 = s.ul0 ∧ (s.setEp i x).ul1 = s.ul1 ∧ (s.setEp i x).routes = s.routes ∧
    (s.setEp i x).vault = s.vault ∧ (s.setEp i x).alarm = s.alarm ∧ (s.setEp i x).nv = s.nv ∧
    (s.setEp i x).upd = s.upd ∧ (s.setEp i x).hoard = s.hoard ∧ (s.setEp i x).replay = s.replay ∧
    (s.setEp i x).grid = s.grid ∧ (s.setEp i x).mode = s.mode ∧ (s.setEp i x).tdo = s.tdo ∧
    (s.setEp i x).chain = s.chain ∧ (∀ k, (s.setEp i x).lane k = s.lane k) ∧
    (∀ k, (s.setEp i x).region k = s.region k) ∧ (∀ k, (s.setEp i x).cluster k = s.cluster k) ∧
    (∀ k, (s.setEp i x).chan k = s.chan k) ∧ (∀ k, (s.setEp i x).stream k = s.stream k) ∧
    (∀ k, (s.setEp i x).route k = s.route k) ∧ (∀ k, (s.setEp i x).endpoint k = s.endpoint k) ∧
    (∀ k, (s.setEp i x).slot k = s.slot k) ∧ (∀ p, (s.setEp i x).port p = s.port p) ∧
    (∀ v, (s.setEp i x).uplink v = s.uplink v) :=
  by simp [State.setEp, State.lane, State.region, State.cluster, State.chan, State.stream,
    State.route, State.endpoint, State.slot, State.port, State.uplink]

/-- What `setRegion` leaves alone. -/
@[simp] theorem State.setRegion_kept (s : State) (g : Nat) (x : RegionState) :
    (s.setRegion g x).pending = s.pending ∧ (s.setRegion g x).fresh = s.fresh ∧ (s.setRegion g x).h = s.h ∧
    (s.setRegion g x).m = s.m ∧ (s.setRegion g x).u = s.u ∧ (s.setRegion g x).cfg = s.cfg ∧
    (s.setRegion g x).lock = s.lock ∧ (s.setRegion g x).epoch = s.epoch ∧
    (s.setRegion g x).epochAt = s.epochAt ∧ (s.setRegion g x).creqs = s.creqs ∧
    (s.setRegion g x).commits = s.commits ∧ (s.setRegion g x).cstat = s.cstat ∧
    (s.setRegion g x).cseq = s.cseq ∧ (s.setRegion g x).cap = s.cap ∧ (s.setRegion g x).cycle = s.cycle ∧
    (s.setRegion g x).chans = s.chans ∧ (s.setRegion g x).lanes = s.lanes ∧ (s.setRegion g x).eps = s.eps ∧
    (s.setRegion g x).clusters = s.clusters ∧ (s.setRegion g x).asm_ = s.asm_ ∧
    (s.setRegion g x).streams = s.streams ∧ (s.setRegion g x).ul0 = s.ul0 ∧ (s.setRegion g x).ul1 = s.ul1 ∧
    (s.setRegion g x).routes = s.routes ∧ (s.setRegion g x).vault = s.vault ∧
    (s.setRegion g x).alarm = s.alarm ∧ (s.setRegion g x).nv = s.nv ∧ (s.setRegion g x).upd = s.upd ∧
    (s.setRegion g x).hoard = s.hoard ∧ (s.setRegion g x).replay = s.replay ∧
    (s.setRegion g x).grid = s.grid ∧ (s.setRegion g x).mode = s.mode ∧ (s.setRegion g x).tdo = s.tdo ∧
    (s.setRegion g x).chain = s.chain ∧ (∀ k, (s.setRegion g x).lane k = s.lane k) ∧
    (∀ k, (s.setRegion g x).ep k = s.ep k) ∧ (∀ k, (s.setRegion g x).cluster k = s.cluster k) ∧
    (∀ k, (s.setRegion g x).chan k = s.chan k) ∧ (∀ k, (s.setRegion g x).stream k = s.stream k) ∧
    (∀ k, (s.setRegion g x).route k = s.route k) ∧ (∀ k, (s.setRegion g x).endpoint k = s.endpoint k) ∧
    (∀ k, (s.setRegion g x).slot k = s.slot k) ∧ (∀ p, (s.setRegion g x).port p = s.port p) ∧
    (∀ v, (s.setRegion g x).uplink v = s.uplink v) :=
  by simp [State.setRegion, State.lane, State.ep, State.cluster, State.chan, State.stream,
    State.route, State.endpoint, State.slot, State.port, State.uplink]

/-- What `setCluster` leaves alone. -/
@[simp] theorem State.setCluster_kept (s : State) (c : Nat) (x : ClusterState) :
    (s.setCluster c x).pending = s.pending ∧ (s.setCluster c x).fresh = s.fresh ∧
    (s.setCluster c x).h = s.h ∧ (s.setCluster c x).m = s.m ∧ (s.setCluster c x).u = s.u ∧
    (s.setCluster c x).cfg = s.cfg ∧ (s.setCluster c x).lock = s.lock ∧ (s.setCluster c x).epoch = s.epoch ∧
    (s.setCluster c x).epochAt = s.epochAt ∧ (s.setCluster c x).creqs = s.creqs ∧
    (s.setCluster c x).commits = s.commits ∧ (s.setCluster c x).cstat = s.cstat ∧
    (s.setCluster c x).cseq = s.cseq ∧ (s.setCluster c x).cap = s.cap ∧ (s.setCluster c x).cycle = s.cycle ∧
    (s.setCluster c x).chans = s.chans ∧ (s.setCluster c x).lanes = s.lanes ∧
    (s.setCluster c x).eps = s.eps ∧ (s.setCluster c x).regions = s.regions ∧
    (s.setCluster c x).asm_ = s.asm_ ∧ (s.setCluster c x).streams = s.streams ∧
    (s.setCluster c x).ul0 = s.ul0 ∧ (s.setCluster c x).ul1 = s.ul1 ∧ (s.setCluster c x).routes = s.routes ∧
    (s.setCluster c x).vault = s.vault ∧ (s.setCluster c x).alarm = s.alarm ∧ (s.setCluster c x).nv = s.nv ∧
    (s.setCluster c x).upd = s.upd ∧ (s.setCluster c x).hoard = s.hoard ∧
    (s.setCluster c x).replay = s.replay ∧ (s.setCluster c x).grid = s.grid ∧
    (s.setCluster c x).mode = s.mode ∧ (s.setCluster c x).tdo = s.tdo ∧ (s.setCluster c x).chain = s.chain ∧
    (∀ k, (s.setCluster c x).lane k = s.lane k) ∧ (∀ k, (s.setCluster c x).ep k = s.ep k) ∧
    (∀ k, (s.setCluster c x).region k = s.region k) ∧ (∀ k, (s.setCluster c x).chan k = s.chan k) ∧
    (∀ k, (s.setCluster c x).stream k = s.stream k) ∧ (∀ k, (s.setCluster c x).route k = s.route k) ∧
    (∀ k, (s.setCluster c x).endpoint k = s.endpoint k) ∧ (∀ k, (s.setCluster c x).slot k = s.slot k) ∧
    (∀ p, (s.setCluster c x).port p = s.port p) ∧ (∀ v, (s.setCluster c x).uplink v = s.uplink v) :=
  by simp [State.setCluster, State.lane, State.ep, State.region, State.chan, State.stream,
    State.route, State.endpoint, State.slot, State.port, State.uplink]

/-- What `setChan` leaves alone. -/
@[simp] theorem State.setChan_kept (s : State) (c : Nat) (x : ChanState) :
    (s.setChan c x).pending = s.pending ∧ (s.setChan c x).fresh = s.fresh ∧ (s.setChan c x).h = s.h ∧
    (s.setChan c x).m = s.m ∧ (s.setChan c x).u = s.u ∧ (s.setChan c x).cfg = s.cfg ∧
    (s.setChan c x).lock = s.lock ∧ (s.setChan c x).epoch = s.epoch ∧ (s.setChan c x).epochAt = s.epochAt ∧
    (s.setChan c x).creqs = s.creqs ∧ (s.setChan c x).commits = s.commits ∧
    (s.setChan c x).cstat = s.cstat ∧ (s.setChan c x).cseq = s.cseq ∧ (s.setChan c x).cap = s.cap ∧
    (s.setChan c x).cycle = s.cycle ∧ (s.setChan c x).lanes = s.lanes ∧ (s.setChan c x).eps = s.eps ∧
    (s.setChan c x).clusters = s.clusters ∧ (s.setChan c x).regions = s.regions ∧
    (s.setChan c x).asm_ = s.asm_ ∧ (s.setChan c x).streams = s.streams ∧ (s.setChan c x).ul0 = s.ul0 ∧
    (s.setChan c x).ul1 = s.ul1 ∧ (s.setChan c x).routes = s.routes ∧ (s.setChan c x).vault = s.vault ∧
    (s.setChan c x).alarm = s.alarm ∧ (s.setChan c x).nv = s.nv ∧ (s.setChan c x).upd = s.upd ∧
    (s.setChan c x).hoard = s.hoard ∧ (s.setChan c x).replay = s.replay ∧ (s.setChan c x).grid = s.grid ∧
    (s.setChan c x).mode = s.mode ∧ (s.setChan c x).tdo = s.tdo ∧ (s.setChan c x).chain = s.chain ∧
    (∀ k, (s.setChan c x).lane k = s.lane k) ∧ (∀ k, (s.setChan c x).ep k = s.ep k) ∧
    (∀ k, (s.setChan c x).region k = s.region k) ∧ (∀ k, (s.setChan c x).cluster k = s.cluster k) ∧
    (∀ k, (s.setChan c x).stream k = s.stream k) ∧ (∀ k, (s.setChan c x).route k = s.route k) ∧
    (∀ k, (s.setChan c x).endpoint k = s.endpoint k) ∧ (∀ k, (s.setChan c x).slot k = s.slot k) ∧
    (∀ p, (s.setChan c x).port p = s.port p) ∧ (∀ v, (s.setChan c x).uplink v = s.uplink v) :=
  by simp [State.setChan, State.lane, State.ep, State.region, State.cluster, State.stream,
    State.route, State.endpoint, State.slot, State.port, State.uplink]

/-- What `setStream` leaves alone. -/
@[simp] theorem State.setStream_kept (s : State) (k : Nat) (x : StreamState) :
    (s.setStream k x).pending = s.pending ∧ (s.setStream k x).fresh = s.fresh ∧ (s.setStream k x).h = s.h ∧
    (s.setStream k x).m = s.m ∧ (s.setStream k x).u = s.u ∧ (s.setStream k x).cfg = s.cfg ∧
    (s.setStream k x).lock = s.lock ∧ (s.setStream k x).epoch = s.epoch ∧
    (s.setStream k x).epochAt = s.epochAt ∧ (s.setStream k x).creqs = s.creqs ∧
    (s.setStream k x).commits = s.commits ∧ (s.setStream k x).cstat = s.cstat ∧
    (s.setStream k x).cseq = s.cseq ∧ (s.setStream k x).cap = s.cap ∧ (s.setStream k x).cycle = s.cycle ∧
    (s.setStream k x).chans = s.chans ∧ (s.setStream k x).lanes = s.lanes ∧ (s.setStream k x).eps = s.eps ∧
    (s.setStream k x).clusters = s.clusters ∧ (s.setStream k x).regions = s.regions ∧
    (s.setStream k x).asm_ = s.asm_ ∧ (s.setStream k x).ul0 = s.ul0 ∧ (s.setStream k x).ul1 = s.ul1 ∧
    (s.setStream k x).routes = s.routes ∧ (s.setStream k x).vault = s.vault ∧
    (s.setStream k x).alarm = s.alarm ∧ (s.setStream k x).nv = s.nv ∧ (s.setStream k x).upd = s.upd ∧
    (s.setStream k x).hoard = s.hoard ∧ (s.setStream k x).replay = s.replay ∧
    (s.setStream k x).grid = s.grid ∧ (s.setStream k x).mode = s.mode ∧ (s.setStream k x).tdo = s.tdo ∧
    (s.setStream k x).chain = s.chain ∧ (∀ k, (s.setStream k x).lane k = s.lane k) ∧
    (∀ k, (s.setStream k x).ep k = s.ep k) ∧ (∀ k, (s.setStream k x).region k = s.region k) ∧
    (∀ k, (s.setStream k x).cluster k = s.cluster k) ∧ (∀ k, (s.setStream k x).chan k = s.chan k) ∧
    (∀ k, (s.setStream k x).route k = s.route k) ∧ (∀ k, (s.setStream k x).endpoint k = s.endpoint k) ∧
    (∀ k, (s.setStream k x).slot k = s.slot k) ∧ (∀ p, (s.setStream k x).port p = s.port p) ∧
    (∀ v, (s.setStream k x).uplink v = s.uplink v) :=
  by simp [State.setStream, State.lane, State.ep, State.region, State.cluster, State.chan,
    State.route, State.endpoint, State.slot, State.port, State.uplink]

/-- What `setRoute` leaves alone. -/
@[simp] theorem State.setRoute_kept (s : State) (r : Nat) (x : RouteState) :
    (s.setRoute r x).pending = s.pending ∧ (s.setRoute r x).fresh = s.fresh ∧ (s.setRoute r x).h = s.h ∧
    (s.setRoute r x).m = s.m ∧ (s.setRoute r x).u = s.u ∧ (s.setRoute r x).cfg = s.cfg ∧
    (s.setRoute r x).lock = s.lock ∧ (s.setRoute r x).epoch = s.epoch ∧
    (s.setRoute r x).epochAt = s.epochAt ∧ (s.setRoute r x).creqs = s.creqs ∧
    (s.setRoute r x).commits = s.commits ∧ (s.setRoute r x).cstat = s.cstat ∧
    (s.setRoute r x).cseq = s.cseq ∧ (s.setRoute r x).cap = s.cap ∧ (s.setRoute r x).cycle = s.cycle ∧
    (s.setRoute r x).chans = s.chans ∧ (s.setRoute r x).lanes = s.lanes ∧ (s.setRoute r x).eps = s.eps ∧
    (s.setRoute r x).clusters = s.clusters ∧ (s.setRoute r x).regions = s.regions ∧
    (s.setRoute r x).asm_ = s.asm_ ∧ (s.setRoute r x).streams = s.streams ∧ (s.setRoute r x).ul0 = s.ul0 ∧
    (s.setRoute r x).ul1 = s.ul1 ∧ (s.setRoute r x).vault = s.vault ∧ (s.setRoute r x).alarm = s.alarm ∧
    (s.setRoute r x).nv = s.nv ∧ (s.setRoute r x).upd = s.upd ∧ (s.setRoute r x).hoard = s.hoard ∧
    (s.setRoute r x).replay = s.replay ∧ (s.setRoute r x).grid = s.grid ∧ (s.setRoute r x).mode = s.mode ∧
    (s.setRoute r x).tdo = s.tdo ∧ (s.setRoute r x).chain = s.chain ∧
    (∀ k, (s.setRoute r x).lane k = s.lane k) ∧ (∀ k, (s.setRoute r x).ep k = s.ep k) ∧
    (∀ k, (s.setRoute r x).region k = s.region k) ∧ (∀ k, (s.setRoute r x).cluster k = s.cluster k) ∧
    (∀ k, (s.setRoute r x).chan k = s.chan k) ∧ (∀ k, (s.setRoute r x).stream k = s.stream k) ∧
    (∀ k, (s.setRoute r x).endpoint k = s.endpoint k) ∧ (∀ k, (s.setRoute r x).slot k = s.slot k) ∧
    (∀ p, (s.setRoute r x).port p = s.port p) ∧ (∀ v, (s.setRoute r x).uplink v = s.uplink v) :=
  by simp [State.setRoute, State.lane, State.ep, State.region, State.cluster, State.chan,
    State.stream, State.endpoint, State.slot, State.port, State.uplink]

/-- What `setEndpoint` leaves alone. -/
@[simp] theorem State.setEndpoint_kept (s : State) (i : Nat) (x : Endpoint) :
    (s.setEndpoint i x).pending = s.pending ∧ (s.setEndpoint i x).fresh = s.fresh ∧
    (s.setEndpoint i x).h = s.h ∧ (s.setEndpoint i x).m = s.m ∧ (s.setEndpoint i x).u = s.u ∧
    (s.setEndpoint i x).cfg = s.cfg ∧ (s.setEndpoint i x).lock = s.lock ∧
    (s.setEndpoint i x).epoch = s.epoch ∧ (s.setEndpoint i x).epochAt = s.epochAt ∧
    (s.setEndpoint i x).creqs = s.creqs ∧ (s.setEndpoint i x).commits = s.commits ∧
    (s.setEndpoint i x).cstat = s.cstat ∧ (s.setEndpoint i x).cseq = s.cseq ∧
    (s.setEndpoint i x).cap = s.cap ∧ (s.setEndpoint i x).cycle = s.cycle ∧
    (s.setEndpoint i x).chans = s.chans ∧ (s.setEndpoint i x).lanes = s.lanes ∧
    (s.setEndpoint i x).eps = s.eps ∧ (s.setEndpoint i x).clusters = s.clusters ∧
    (s.setEndpoint i x).regions = s.regions ∧ (s.setEndpoint i x).asm_ = s.asm_ ∧
    (s.setEndpoint i x).streams = s.streams ∧ (s.setEndpoint i x).ul0 = s.ul0 ∧
    (s.setEndpoint i x).ul1 = s.ul1 ∧ (s.setEndpoint i x).routes = s.routes ∧
    (s.setEndpoint i x).vault = s.vault ∧ (s.setEndpoint i x).alarm = s.alarm ∧
    (s.setEndpoint i x).nv = s.nv ∧ (s.setEndpoint i x).upd = s.upd ∧ (s.setEndpoint i x).hoard = s.hoard ∧
    (s.setEndpoint i x).replay = s.replay ∧ (s.setEndpoint i x).grid = s.grid ∧
    (s.setEndpoint i x).mode = s.mode ∧ (s.setEndpoint i x).tdo = s.tdo ∧
    (∀ k, (s.setEndpoint i x).lane k = s.lane k) ∧ (∀ k, (s.setEndpoint i x).ep k = s.ep k) ∧
    (∀ k, (s.setEndpoint i x).region k = s.region k) ∧ (∀ k, (s.setEndpoint i x).cluster k = s.cluster k) ∧
    (∀ k, (s.setEndpoint i x).chan k = s.chan k) ∧ (∀ k, (s.setEndpoint i x).stream k = s.stream k) ∧
    (∀ k, (s.setEndpoint i x).route k = s.route k) ∧ (∀ k, (s.setEndpoint i x).slot k = s.slot k) ∧
    (∀ p, (s.setEndpoint i x).port p = s.port p) ∧ (∀ v, (s.setEndpoint i x).uplink v = s.uplink v) :=
  by simp [State.setEndpoint, State.lane, State.ep, State.region, State.cluster, State.chan,
    State.stream, State.route, State.slot, State.port, State.uplink]

/-- What `onGrid` leaves alone. -/
@[simp] theorem State.onGrid_kept (s : State) (f : GridState → GridState) :
    (s.onGrid f).pending = s.pending ∧ (s.onGrid f).fresh = s.fresh ∧ (s.onGrid f).h = s.h ∧
    (s.onGrid f).m = s.m ∧ (s.onGrid f).u = s.u ∧ (s.onGrid f).cfg = s.cfg ∧ (s.onGrid f).lock = s.lock ∧
    (s.onGrid f).epoch = s.epoch ∧ (s.onGrid f).epochAt = s.epochAt ∧ (s.onGrid f).creqs = s.creqs ∧
    (s.onGrid f).commits = s.commits ∧ (s.onGrid f).cstat = s.cstat ∧ (s.onGrid f).cseq = s.cseq ∧
    (s.onGrid f).cap = s.cap ∧ (s.onGrid f).cycle = s.cycle ∧ (s.onGrid f).chans = s.chans ∧
    (s.onGrid f).lanes = s.lanes ∧ (s.onGrid f).eps = s.eps ∧ (s.onGrid f).clusters = s.clusters ∧
    (s.onGrid f).regions = s.regions ∧ (s.onGrid f).asm_ = s.asm_ ∧ (s.onGrid f).streams = s.streams ∧
    (s.onGrid f).ul0 = s.ul0 ∧ (s.onGrid f).ul1 = s.ul1 ∧ (s.onGrid f).routes = s.routes ∧
    (s.onGrid f).vault = s.vault ∧ (s.onGrid f).alarm = s.alarm ∧ (s.onGrid f).nv = s.nv ∧
    (s.onGrid f).upd = s.upd ∧ (s.onGrid f).hoard = s.hoard ∧ (s.onGrid f).replay = s.replay ∧
    (s.onGrid f).mode = s.mode ∧ (s.onGrid f).tdo = s.tdo ∧ (s.onGrid f).chain = s.chain ∧
    (∀ k, (s.onGrid f).lane k = s.lane k) ∧ (∀ k, (s.onGrid f).ep k = s.ep k) ∧
    (∀ k, (s.onGrid f).region k = s.region k) ∧ (∀ k, (s.onGrid f).cluster k = s.cluster k) ∧
    (∀ k, (s.onGrid f).chan k = s.chan k) ∧ (∀ k, (s.onGrid f).stream k = s.stream k) ∧
    (∀ k, (s.onGrid f).route k = s.route k) ∧ (∀ k, (s.onGrid f).endpoint k = s.endpoint k) ∧
    (∀ k, (s.onGrid f).slot k = s.slot k) ∧ (∀ p, (s.onGrid f).port p = s.port p) ∧
    (∀ v, (s.onGrid f).uplink v = s.uplink v) :=
  by simp [State.onGrid, State.lane, State.ep, State.region, State.cluster, State.chan,
    State.stream, State.route, State.endpoint, State.slot, State.port, State.uplink]

/-- What `onMode` leaves alone. -/
@[simp] theorem State.onMode_kept (s : State) (f : ModeState → ModeState) :
    (s.onMode f).pending = s.pending ∧ (s.onMode f).fresh = s.fresh ∧ (s.onMode f).h = s.h ∧
    (s.onMode f).m = s.m ∧ (s.onMode f).u = s.u ∧ (s.onMode f).cfg = s.cfg ∧ (s.onMode f).lock = s.lock ∧
    (s.onMode f).epoch = s.epoch ∧ (s.onMode f).epochAt = s.epochAt ∧ (s.onMode f).creqs = s.creqs ∧
    (s.onMode f).commits = s.commits ∧ (s.onMode f).cstat = s.cstat ∧ (s.onMode f).cseq = s.cseq ∧
    (s.onMode f).cap = s.cap ∧ (s.onMode f).cycle = s.cycle ∧ (s.onMode f).chans = s.chans ∧
    (s.onMode f).lanes = s.lanes ∧ (s.onMode f).eps = s.eps ∧ (s.onMode f).clusters = s.clusters ∧
    (s.onMode f).regions = s.regions ∧ (s.onMode f).asm_ = s.asm_ ∧ (s.onMode f).streams = s.streams ∧
    (s.onMode f).ul0 = s.ul0 ∧ (s.onMode f).ul1 = s.ul1 ∧ (s.onMode f).routes = s.routes ∧
    (s.onMode f).vault = s.vault ∧ (s.onMode f).alarm = s.alarm ∧ (s.onMode f).nv = s.nv ∧
    (s.onMode f).upd = s.upd ∧ (s.onMode f).hoard = s.hoard ∧ (s.onMode f).replay = s.replay ∧
    (s.onMode f).grid = s.grid ∧ (s.onMode f).tdo = s.tdo ∧ (s.onMode f).chain = s.chain ∧
    (∀ k, (s.onMode f).lane k = s.lane k) ∧ (∀ k, (s.onMode f).ep k = s.ep k) ∧
    (∀ k, (s.onMode f).region k = s.region k) ∧ (∀ k, (s.onMode f).cluster k = s.cluster k) ∧
    (∀ k, (s.onMode f).chan k = s.chan k) ∧ (∀ k, (s.onMode f).stream k = s.stream k) ∧
    (∀ k, (s.onMode f).route k = s.route k) ∧ (∀ k, (s.onMode f).endpoint k = s.endpoint k) ∧
    (∀ k, (s.onMode f).slot k = s.slot k) ∧ (∀ p, (s.onMode f).port p = s.port p) ∧
    (∀ v, (s.onMode f).uplink v = s.uplink v) :=
  by simp [State.onMode, State.lane, State.ep, State.region, State.cluster, State.chan,
    State.stream, State.route, State.endpoint, State.slot, State.port, State.uplink]

/-- What `onHoard` leaves alone. -/
@[simp] theorem State.onHoard_kept (s : State) (f : HoardState → HoardState) :
    (s.onHoard f).pending = s.pending ∧ (s.onHoard f).fresh = s.fresh ∧ (s.onHoard f).h = s.h ∧
    (s.onHoard f).m = s.m ∧ (s.onHoard f).u = s.u ∧ (s.onHoard f).cfg = s.cfg ∧
    (s.onHoard f).lock = s.lock ∧ (s.onHoard f).epoch = s.epoch ∧ (s.onHoard f).epochAt = s.epochAt ∧
    (s.onHoard f).creqs = s.creqs ∧ (s.onHoard f).commits = s.commits ∧ (s.onHoard f).cstat = s.cstat ∧
    (s.onHoard f).cseq = s.cseq ∧ (s.onHoard f).cap = s.cap ∧ (s.onHoard f).cycle = s.cycle ∧
    (s.onHoard f).chans = s.chans ∧ (s.onHoard f).lanes = s.lanes ∧ (s.onHoard f).eps = s.eps ∧
    (s.onHoard f).clusters = s.clusters ∧ (s.onHoard f).regions = s.regions ∧ (s.onHoard f).asm_ = s.asm_ ∧
    (s.onHoard f).streams = s.streams ∧ (s.onHoard f).ul0 = s.ul0 ∧ (s.onHoard f).ul1 = s.ul1 ∧
    (s.onHoard f).routes = s.routes ∧ (s.onHoard f).vault = s.vault ∧ (s.onHoard f).alarm = s.alarm ∧
    (s.onHoard f).nv = s.nv ∧ (s.onHoard f).upd = s.upd ∧ (s.onHoard f).replay = s.replay ∧
    (s.onHoard f).grid = s.grid ∧ (s.onHoard f).mode = s.mode ∧ (s.onHoard f).tdo = s.tdo ∧
    (s.onHoard f).chain = s.chain ∧ (∀ k, (s.onHoard f).lane k = s.lane k) ∧
    (∀ k, (s.onHoard f).ep k = s.ep k) ∧ (∀ k, (s.onHoard f).region k = s.region k) ∧
    (∀ k, (s.onHoard f).cluster k = s.cluster k) ∧ (∀ k, (s.onHoard f).chan k = s.chan k) ∧
    (∀ k, (s.onHoard f).stream k = s.stream k) ∧ (∀ k, (s.onHoard f).route k = s.route k) ∧
    (∀ k, (s.onHoard f).endpoint k = s.endpoint k) ∧ (∀ k, (s.onHoard f).slot k = s.slot k) ∧
    (∀ p, (s.onHoard f).port p = s.port p) ∧ (∀ v, (s.onHoard f).uplink v = s.uplink v) :=
  by simp [State.onHoard, State.lane, State.ep, State.region, State.cluster, State.chan,
    State.stream, State.route, State.endpoint, State.slot, State.port, State.uplink]

/-- What `onUpd` leaves alone. -/
@[simp] theorem State.onUpd_kept (s : State) (f : UpdState → UpdState) :
    (s.onUpd f).pending = s.pending ∧ (s.onUpd f).fresh = s.fresh ∧ (s.onUpd f).h = s.h ∧
    (s.onUpd f).m = s.m ∧ (s.onUpd f).u = s.u ∧ (s.onUpd f).cfg = s.cfg ∧ (s.onUpd f).lock = s.lock ∧
    (s.onUpd f).epoch = s.epoch ∧ (s.onUpd f).epochAt = s.epochAt ∧ (s.onUpd f).creqs = s.creqs ∧
    (s.onUpd f).commits = s.commits ∧ (s.onUpd f).cstat = s.cstat ∧ (s.onUpd f).cseq = s.cseq ∧
    (s.onUpd f).cap = s.cap ∧ (s.onUpd f).cycle = s.cycle ∧ (s.onUpd f).chans = s.chans ∧
    (s.onUpd f).lanes = s.lanes ∧ (s.onUpd f).eps = s.eps ∧ (s.onUpd f).clusters = s.clusters ∧
    (s.onUpd f).regions = s.regions ∧ (s.onUpd f).asm_ = s.asm_ ∧ (s.onUpd f).streams = s.streams ∧
    (s.onUpd f).ul0 = s.ul0 ∧ (s.onUpd f).ul1 = s.ul1 ∧ (s.onUpd f).routes = s.routes ∧
    (s.onUpd f).vault = s.vault ∧ (s.onUpd f).alarm = s.alarm ∧ (s.onUpd f).nv = s.nv ∧
    (s.onUpd f).hoard = s.hoard ∧ (s.onUpd f).replay = s.replay ∧ (s.onUpd f).grid = s.grid ∧
    (s.onUpd f).mode = s.mode ∧ (s.onUpd f).tdo = s.tdo ∧ (s.onUpd f).chain = s.chain ∧
    (∀ k, (s.onUpd f).lane k = s.lane k) ∧ (∀ k, (s.onUpd f).ep k = s.ep k) ∧
    (∀ k, (s.onUpd f).region k = s.region k) ∧ (∀ k, (s.onUpd f).cluster k = s.cluster k) ∧
    (∀ k, (s.onUpd f).chan k = s.chan k) ∧ (∀ k, (s.onUpd f).stream k = s.stream k) ∧
    (∀ k, (s.onUpd f).route k = s.route k) ∧ (∀ k, (s.onUpd f).endpoint k = s.endpoint k) ∧
    (∀ k, (s.onUpd f).slot k = s.slot k) ∧ (∀ p, (s.onUpd f).port p = s.port p) ∧
    (∀ v, (s.onUpd f).uplink v = s.uplink v) :=
  by simp [State.onUpd, State.lane, State.ep, State.region, State.cluster, State.chan,
    State.stream, State.route, State.endpoint, State.slot, State.port, State.uplink]

/-- What `onAsm` leaves alone. -/
@[simp] theorem State.onAsm_kept (s : State) (f : AsmState → AsmState) :
    (s.onAsm f).pending = s.pending ∧ (s.onAsm f).fresh = s.fresh ∧ (s.onAsm f).h = s.h ∧
    (s.onAsm f).m = s.m ∧ (s.onAsm f).u = s.u ∧ (s.onAsm f).cfg = s.cfg ∧ (s.onAsm f).lock = s.lock ∧
    (s.onAsm f).epoch = s.epoch ∧ (s.onAsm f).epochAt = s.epochAt ∧ (s.onAsm f).creqs = s.creqs ∧
    (s.onAsm f).commits = s.commits ∧ (s.onAsm f).cstat = s.cstat ∧ (s.onAsm f).cseq = s.cseq ∧
    (s.onAsm f).cap = s.cap ∧ (s.onAsm f).cycle = s.cycle ∧ (s.onAsm f).chans = s.chans ∧
    (s.onAsm f).lanes = s.lanes ∧ (s.onAsm f).eps = s.eps ∧ (s.onAsm f).clusters = s.clusters ∧
    (s.onAsm f).regions = s.regions ∧ (s.onAsm f).streams = s.streams ∧ (s.onAsm f).ul0 = s.ul0 ∧
    (s.onAsm f).ul1 = s.ul1 ∧ (s.onAsm f).routes = s.routes ∧ (s.onAsm f).vault = s.vault ∧
    (s.onAsm f).alarm = s.alarm ∧ (s.onAsm f).nv = s.nv ∧ (s.onAsm f).upd = s.upd ∧
    (s.onAsm f).hoard = s.hoard ∧ (s.onAsm f).replay = s.replay ∧ (s.onAsm f).grid = s.grid ∧
    (s.onAsm f).mode = s.mode ∧ (s.onAsm f).tdo = s.tdo ∧ (s.onAsm f).chain = s.chain ∧
    (∀ k, (s.onAsm f).lane k = s.lane k) ∧ (∀ k, (s.onAsm f).ep k = s.ep k) ∧
    (∀ k, (s.onAsm f).region k = s.region k) ∧ (∀ k, (s.onAsm f).cluster k = s.cluster k) ∧
    (∀ k, (s.onAsm f).chan k = s.chan k) ∧ (∀ k, (s.onAsm f).stream k = s.stream k) ∧
    (∀ k, (s.onAsm f).route k = s.route k) ∧ (∀ k, (s.onAsm f).endpoint k = s.endpoint k) ∧
    (∀ k, (s.onAsm f).slot k = s.slot k) ∧ (∀ p, (s.onAsm f).port p = s.port p) ∧
    (∀ v, (s.onAsm f).uplink v = s.uplink v) :=
  by simp [State.onAsm, State.lane, State.ep, State.region, State.cluster, State.chan,
    State.stream, State.route, State.endpoint, State.slot, State.port, State.uplink]

/-- What `onReplay` leaves alone. -/
@[simp] theorem State.onReplay_kept (s : State) (f : ReplayRun → ReplayRun) :
    (s.onReplay f).pending = s.pending ∧ (s.onReplay f).fresh = s.fresh ∧ (s.onReplay f).h = s.h ∧
    (s.onReplay f).m = s.m ∧ (s.onReplay f).u = s.u ∧ (s.onReplay f).cfg = s.cfg ∧
    (s.onReplay f).lock = s.lock ∧ (s.onReplay f).epoch = s.epoch ∧ (s.onReplay f).epochAt = s.epochAt ∧
    (s.onReplay f).creqs = s.creqs ∧ (s.onReplay f).commits = s.commits ∧ (s.onReplay f).cstat = s.cstat ∧
    (s.onReplay f).cseq = s.cseq ∧ (s.onReplay f).cap = s.cap ∧ (s.onReplay f).cycle = s.cycle ∧
    (s.onReplay f).chans = s.chans ∧ (s.onReplay f).lanes = s.lanes ∧ (s.onReplay f).eps = s.eps ∧
    (s.onReplay f).clusters = s.clusters ∧ (s.onReplay f).regions = s.regions ∧
    (s.onReplay f).asm_ = s.asm_ ∧ (s.onReplay f).streams = s.streams ∧ (s.onReplay f).ul0 = s.ul0 ∧
    (s.onReplay f).ul1 = s.ul1 ∧ (s.onReplay f).routes = s.routes ∧ (s.onReplay f).vault = s.vault ∧
    (s.onReplay f).alarm = s.alarm ∧ (s.onReplay f).nv = s.nv ∧ (s.onReplay f).upd = s.upd ∧
    (s.onReplay f).hoard = s.hoard ∧ (s.onReplay f).grid = s.grid ∧ (s.onReplay f).mode = s.mode ∧
    (s.onReplay f).tdo = s.tdo ∧ (s.onReplay f).chain = s.chain ∧ (∀ k, (s.onReplay f).lane k = s.lane k) ∧
    (∀ k, (s.onReplay f).ep k = s.ep k) ∧ (∀ k, (s.onReplay f).region k = s.region k) ∧
    (∀ k, (s.onReplay f).cluster k = s.cluster k) ∧ (∀ k, (s.onReplay f).chan k = s.chan k) ∧
    (∀ k, (s.onReplay f).stream k = s.stream k) ∧ (∀ k, (s.onReplay f).route k = s.route k) ∧
    (∀ k, (s.onReplay f).endpoint k = s.endpoint k) ∧ (∀ k, (s.onReplay f).slot k = s.slot k) ∧
    (∀ p, (s.onReplay f).port p = s.port p) ∧ (∀ v, (s.onReplay f).uplink v = s.uplink v) :=
  by simp [State.onReplay, State.lane, State.ep, State.region, State.cluster, State.chan,
    State.stream, State.route, State.endpoint, State.slot, State.port, State.uplink]

/-- What `onVault` leaves alone. -/
@[simp] theorem State.onVault_kept (s : State) (f : VaultMem → VaultMem) :
    (s.onVault f).pending = s.pending ∧ (s.onVault f).fresh = s.fresh ∧ (s.onVault f).h = s.h ∧
    (s.onVault f).m = s.m ∧ (s.onVault f).u = s.u ∧ (s.onVault f).cfg = s.cfg ∧
    (s.onVault f).lock = s.lock ∧ (s.onVault f).epoch = s.epoch ∧ (s.onVault f).epochAt = s.epochAt ∧
    (s.onVault f).creqs = s.creqs ∧ (s.onVault f).commits = s.commits ∧ (s.onVault f).cstat = s.cstat ∧
    (s.onVault f).cseq = s.cseq ∧ (s.onVault f).cap = s.cap ∧ (s.onVault f).cycle = s.cycle ∧
    (s.onVault f).chans = s.chans ∧ (s.onVault f).lanes = s.lanes ∧ (s.onVault f).eps = s.eps ∧
    (s.onVault f).clusters = s.clusters ∧ (s.onVault f).regions = s.regions ∧ (s.onVault f).asm_ = s.asm_ ∧
    (s.onVault f).streams = s.streams ∧ (s.onVault f).ul0 = s.ul0 ∧ (s.onVault f).ul1 = s.ul1 ∧
    (s.onVault f).routes = s.routes ∧ (s.onVault f).alarm = s.alarm ∧ (s.onVault f).nv = s.nv ∧
    (s.onVault f).upd = s.upd ∧ (s.onVault f).hoard = s.hoard ∧ (s.onVault f).replay = s.replay ∧
    (s.onVault f).grid = s.grid ∧ (s.onVault f).mode = s.mode ∧ (s.onVault f).tdo = s.tdo ∧
    (s.onVault f).chain = s.chain ∧ (∀ k, (s.onVault f).lane k = s.lane k) ∧
    (∀ k, (s.onVault f).ep k = s.ep k) ∧ (∀ k, (s.onVault f).region k = s.region k) ∧
    (∀ k, (s.onVault f).cluster k = s.cluster k) ∧ (∀ k, (s.onVault f).chan k = s.chan k) ∧
    (∀ k, (s.onVault f).stream k = s.stream k) ∧ (∀ k, (s.onVault f).route k = s.route k) ∧
    (∀ k, (s.onVault f).endpoint k = s.endpoint k) ∧ (∀ p, (s.onVault f).port p = s.port p) ∧
    (∀ v, (s.onVault f).uplink v = s.uplink v) :=
  by simp [State.onVault, State.lane, State.ep, State.region, State.cluster, State.chan,
    State.stream, State.route, State.endpoint, State.port, State.uplink]

/-- What `onHM` leaves alone. -/
@[simp] theorem State.onHM_kept (s : State) (f : PortState → PortState) :
    (s.onHM f).pending = s.pending ∧ (s.onHM f).fresh = s.fresh ∧ (s.onHM f).u = s.u ∧
    (s.onHM f).cfg = s.cfg ∧ (s.onHM f).lock = s.lock ∧ (s.onHM f).epoch = s.epoch ∧
    (s.onHM f).epochAt = s.epochAt ∧ (s.onHM f).creqs = s.creqs ∧ (s.onHM f).commits = s.commits ∧
    (s.onHM f).cstat = s.cstat ∧ (s.onHM f).cseq = s.cseq ∧ (s.onHM f).cap = s.cap ∧
    (s.onHM f).cycle = s.cycle ∧ (s.onHM f).chans = s.chans ∧ (s.onHM f).lanes = s.lanes ∧
    (s.onHM f).eps = s.eps ∧ (s.onHM f).clusters = s.clusters ∧ (s.onHM f).regions = s.regions ∧
    (s.onHM f).asm_ = s.asm_ ∧ (s.onHM f).streams = s.streams ∧ (s.onHM f).ul0 = s.ul0 ∧
    (s.onHM f).ul1 = s.ul1 ∧ (s.onHM f).routes = s.routes ∧ (s.onHM f).vault = s.vault ∧
    (s.onHM f).alarm = s.alarm ∧ (s.onHM f).nv = s.nv ∧ (s.onHM f).upd = s.upd ∧
    (s.onHM f).hoard = s.hoard ∧ (s.onHM f).replay = s.replay ∧ (s.onHM f).grid = s.grid ∧
    (s.onHM f).mode = s.mode ∧ (s.onHM f).tdo = s.tdo ∧ (s.onHM f).chain = s.chain ∧
    (∀ k, (s.onHM f).lane k = s.lane k) ∧ (∀ k, (s.onHM f).ep k = s.ep k) ∧
    (∀ k, (s.onHM f).region k = s.region k) ∧ (∀ k, (s.onHM f).cluster k = s.cluster k) ∧
    (∀ k, (s.onHM f).chan k = s.chan k) ∧ (∀ k, (s.onHM f).stream k = s.stream k) ∧
    (∀ k, (s.onHM f).route k = s.route k) ∧ (∀ k, (s.onHM f).endpoint k = s.endpoint k) ∧
    (∀ k, (s.onHM f).slot k = s.slot k) ∧ (∀ v, (s.onHM f).uplink v = s.uplink v) :=
  by simp [State.onHM, State.lane, State.ep, State.region, State.cluster, State.chan,
    State.stream, State.route, State.endpoint, State.slot, State.uplink]

/-- What `setPort` leaves alone. -/
@[simp] theorem State.setPort_kept (s : State) (p : Port) (x : PortState) :
    (s.setPort p x).pending = s.pending ∧ (s.setPort p x).fresh = s.fresh ∧ (s.setPort p x).cfg = s.cfg ∧
    (s.setPort p x).lock = s.lock ∧ (s.setPort p x).epoch = s.epoch ∧ (s.setPort p x).epochAt = s.epochAt ∧
    (s.setPort p x).creqs = s.creqs ∧ (s.setPort p x).commits = s.commits ∧
    (s.setPort p x).cstat = s.cstat ∧ (s.setPort p x).cseq = s.cseq ∧ (s.setPort p x).cap = s.cap ∧
    (s.setPort p x).cycle = s.cycle ∧ (s.setPort p x).chans = s.chans ∧ (s.setPort p x).lanes = s.lanes ∧
    (s.setPort p x).eps = s.eps ∧ (s.setPort p x).clusters = s.clusters ∧
    (s.setPort p x).regions = s.regions ∧ (s.setPort p x).asm_ = s.asm_ ∧
    (s.setPort p x).streams = s.streams ∧ (s.setPort p x).ul0 = s.ul0 ∧ (s.setPort p x).ul1 = s.ul1 ∧
    (s.setPort p x).routes = s.routes ∧ (s.setPort p x).vault = s.vault ∧ (s.setPort p x).alarm = s.alarm ∧
    (s.setPort p x).nv = s.nv ∧ (s.setPort p x).upd = s.upd ∧ (s.setPort p x).hoard = s.hoard ∧
    (s.setPort p x).replay = s.replay ∧ (s.setPort p x).grid = s.grid ∧ (s.setPort p x).mode = s.mode ∧
    (s.setPort p x).tdo = s.tdo ∧ (s.setPort p x).chain = s.chain ∧
    (∀ k, (s.setPort p x).lane k = s.lane k) ∧ (∀ k, (s.setPort p x).ep k = s.ep k) ∧
    (∀ k, (s.setPort p x).region k = s.region k) ∧ (∀ k, (s.setPort p x).cluster k = s.cluster k) ∧
    (∀ k, (s.setPort p x).chan k = s.chan k) ∧ (∀ k, (s.setPort p x).stream k = s.stream k) ∧
    (∀ k, (s.setPort p x).route k = s.route k) ∧ (∀ k, (s.setPort p x).endpoint k = s.endpoint k) ∧
    (∀ k, (s.setPort p x).slot k = s.slot k) ∧ (∀ v, (s.setPort p x).uplink v = s.uplink v) :=
  by cases p <;> simp [State.setPort, State.lane, State.ep, State.region, State.cluster,
    State.chan, State.stream, State.route, State.endpoint, State.slot, State.uplink]

/-- What `setUplink` leaves alone. -/
@[simp] theorem State.setUplink_kept (s : State) (u : Ul) (x : UplinkState) :
    (s.setUplink u x).pending = s.pending ∧ (s.setUplink u x).fresh = s.fresh ∧ (s.setUplink u x).h = s.h ∧
    (s.setUplink u x).m = s.m ∧ (s.setUplink u x).u = s.u ∧ (s.setUplink u x).cfg = s.cfg ∧
    (s.setUplink u x).lock = s.lock ∧ (s.setUplink u x).epoch = s.epoch ∧
    (s.setUplink u x).epochAt = s.epochAt ∧ (s.setUplink u x).creqs = s.creqs ∧
    (s.setUplink u x).commits = s.commits ∧ (s.setUplink u x).cstat = s.cstat ∧
    (s.setUplink u x).cseq = s.cseq ∧ (s.setUplink u x).cap = s.cap ∧ (s.setUplink u x).cycle = s.cycle ∧
    (s.setUplink u x).chans = s.chans ∧ (s.setUplink u x).lanes = s.lanes ∧ (s.setUplink u x).eps = s.eps ∧
    (s.setUplink u x).clusters = s.clusters ∧ (s.setUplink u x).regions = s.regions ∧
    (s.setUplink u x).asm_ = s.asm_ ∧ (s.setUplink u x).streams = s.streams ∧
    (s.setUplink u x).routes = s.routes ∧ (s.setUplink u x).vault = s.vault ∧
    (s.setUplink u x).alarm = s.alarm ∧ (s.setUplink u x).nv = s.nv ∧ (s.setUplink u x).upd = s.upd ∧
    (s.setUplink u x).hoard = s.hoard ∧ (s.setUplink u x).replay = s.replay ∧
    (s.setUplink u x).grid = s.grid ∧ (s.setUplink u x).mode = s.mode ∧ (s.setUplink u x).tdo = s.tdo ∧
    (s.setUplink u x).chain = s.chain ∧ (∀ k, (s.setUplink u x).lane k = s.lane k) ∧
    (∀ k, (s.setUplink u x).ep k = s.ep k) ∧ (∀ k, (s.setUplink u x).region k = s.region k) ∧
    (∀ k, (s.setUplink u x).cluster k = s.cluster k) ∧ (∀ k, (s.setUplink u x).chan k = s.chan k) ∧
    (∀ k, (s.setUplink u x).stream k = s.stream k) ∧ (∀ k, (s.setUplink u x).route k = s.route k) ∧
    (∀ k, (s.setUplink u x).endpoint k = s.endpoint k) ∧ (∀ k, (s.setUplink u x).slot k = s.slot k) ∧
    (∀ p, (s.setUplink u x).port p = s.port p) :=
  by cases u <;> simp [State.setUplink, State.lane, State.ep, State.region, State.cluster,
    State.chan, State.stream, State.route, State.endpoint, State.slot, State.port]

/-! ### What an updater writes -/

@[simp] theorem State.onGrid_grid (s : State) (f : GridState → GridState) : (s.onGrid f).grid = f s.grid := rfl
@[simp] theorem State.onMode_mode (s : State) (f : ModeState → ModeState) : (s.onMode f).mode = f s.mode := rfl
@[simp] theorem State.onHoard_hoard (s : State) (f : HoardState → HoardState) : (s.onHoard f).hoard = f s.hoard := rfl
@[simp] theorem State.onUpd_upd (s : State) (f : UpdState → UpdState) : (s.onUpd f).upd = f s.upd := rfl
@[simp] theorem State.onAsm_asm_ (s : State) (f : AsmState → AsmState) : (s.onAsm f).asm_ = f s.asm_ := rfl
@[simp] theorem State.onReplay_replay (s : State) (f : ReplayRun → ReplayRun) :
    (s.onReplay f).replay = f s.replay := rfl
@[simp] theorem State.onVault_vault (s : State) (f : VaultMem → VaultMem) : (s.onVault f).vault = f s.vault := rfl
@[simp] theorem State.onHM_h (s : State) (f : PortState → PortState) : (s.onHM f).h = f s.h := rfl
@[simp] theorem State.onHM_m (s : State) (f : PortState → PortState) : (s.onHM f).m = f s.m := rfl
@[simp] theorem State.setPort_port (s : State) (p : Port) (x : PortState) : (s.setPort p x).port p = x := by
  cases p <;> rfl
/-- A write of one port's part leaves the other ports alone. -/
theorem State.setPort_other (s : State) {p q : Port} (x : PortState) (h : q ≠ p) :
    (s.setPort p x).port q = s.port q := by
  cases p <;> cases q <;> first | rfl | exact absurd rfl h
@[simp] theorem State.setUplink_uplink (s : State) (u : Ul) (x : UplinkState) : (s.setUplink u x).uplink u = x := by
  cases u <;> rfl
/-- A write of one uplink port's part leaves the other port alone. -/
theorem State.setUplink_other (s : State) (u : Ul) (x : UplinkState) :
    (s.setUplink u x).uplink u.other = s.uplink u.other := by
  cases u <;> rfl

@[simp] theorem State.onPort_eq (s : State) (p : Port) (f : PortState → PortState) :
    s.onPort p f = s.setPort p (f (s.port p)) := rfl
@[simp] theorem State.onUplink_eq (s : State) (u : Ul) (f : UplinkState → UplinkState) :
    s.onUplink u f = s.setUplink u (f (s.uplink u)) := rfl
@[simp] theorem State.onLane_eq (s : State) (n : Nat) (f : LaneState → LaneState) :
    s.onLane n f = s.setLane n (f (s.lane n)) := rfl
@[simp] theorem State.onEp_eq (s : State) (i : Nat) (f : EpState → EpState) :
    s.onEp i f = s.setEp i (f (s.ep i)) := rfl
@[simp] theorem State.onRegion_eq (s : State) (g : Nat) (f : RegionState → RegionState) :
    s.onRegion g f = s.setRegion g (f (s.region g)) := rfl
@[simp] theorem State.onCluster_eq (s : State) (c : Nat) (f : ClusterState → ClusterState) :
    s.onCluster c f = s.setCluster c (f (s.cluster c)) := rfl
@[simp] theorem State.onChan_eq (s : State) (c : Nat) (f : ChanState → ChanState) :
    s.onChan c f = s.setChan c (f (s.chan c)) := rfl
@[simp] theorem State.onStream_eq (s : State) (k : Nat) (f : StreamState → StreamState) :
    s.onStream k f = s.setStream k (f (s.stream k)) := rfl
@[simp] theorem State.onRoute_eq (s : State) (r : Nat) (f : RouteState → RouteState) :
    s.onRoute r f = s.setRoute r (f (s.route r)) := rfl

/-! ### The reads that go through a table -/

/-- Reading an entry of `lanes` after writing it. -/
@[simp] theorem State.setLane_lane (s : State) (k : Nat) (x : LaneState) :
    (s.setLane k x).lane k = x := Tbl.get_set_same _ _ k x
/-- Reading another entry of `lanes`. -/
theorem State.setLane_lane_other (s : State) {k j : Nat} (x : LaneState)
    (hj : j ≠ k) : (s.setLane k x).lane j = s.lane j := Tbl.get_set_other _ _ x hj
/-- Writing an entry keeps `lanes` canonical. -/
theorem State.setLane_wf (s : State) (h : Tbl.wf (fun _ => {}) s.lanes = true) (k : Nat) (x : LaneState) :
    Tbl.wf (fun _ => {}) (s.setLane k x).lanes = true := Tbl.wf_set h k x
/-- Reading an entry of `eps` after writing it. -/
@[simp] theorem State.setEp_ep (s : State) (k : Nat) (x : EpState) :
    (s.setEp k x).ep k = x := Tbl.get_set_same _ _ k x
/-- Reading another entry of `eps`. -/
theorem State.setEp_ep_other (s : State) {k j : Nat} (x : EpState)
    (hj : j ≠ k) : (s.setEp k x).ep j = s.ep j := Tbl.get_set_other _ _ x hj
/-- Writing an entry keeps `eps` canonical. -/
theorem State.setEp_wf (s : State) (h : Tbl.wf (fun _ => {}) s.eps = true) (k : Nat) (x : EpState) :
    Tbl.wf (fun _ => {}) (s.setEp k x).eps = true := Tbl.wf_set h k x
/-- Reading an entry of `regions` after writing it. -/
@[simp] theorem State.setRegion_region (s : State) (k : Nat) (x : RegionState) :
    (s.setRegion k x).region k = x := Tbl.get_set_same _ _ k x
/-- Reading another entry of `regions`. -/
theorem State.setRegion_region_other (s : State) {k j : Nat} (x : RegionState)
    (hj : j ≠ k) : (s.setRegion k x).region j = s.region j := Tbl.get_set_other _ _ x hj
/-- Writing an entry keeps `regions` canonical. -/
theorem State.setRegion_wf (s : State) (h : Tbl.wf (fun _ => {}) s.regions = true) (k : Nat) (x : RegionState) :
    Tbl.wf (fun _ => {}) (s.setRegion k x).regions = true := Tbl.wf_set h k x
/-- Reading an entry of `clusters` after writing it. -/
@[simp] theorem State.setCluster_cluster (s : State) (k : Nat) (x : ClusterState) :
    (s.setCluster k x).cluster k = x := Tbl.get_set_same _ _ k x
/-- Reading another entry of `clusters`. -/
theorem State.setCluster_cluster_other (s : State) {k j : Nat} (x : ClusterState)
    (hj : j ≠ k) : (s.setCluster k x).cluster j = s.cluster j := Tbl.get_set_other _ _ x hj
/-- Writing an entry keeps `clusters` canonical. -/
theorem State.setCluster_wf (s : State) (h : Tbl.wf (fun _ => {}) s.clusters = true) (k : Nat) (x : ClusterState) :
    Tbl.wf (fun _ => {}) (s.setCluster k x).clusters = true := Tbl.wf_set h k x
/-- Reading an entry of `chans` after writing it. -/
@[simp] theorem State.setChan_chan (s : State) (k : Nat) (x : ChanState) :
    (s.setChan k x).chan k = x := Tbl.get_set_same _ _ k x
/-- Reading another entry of `chans`. -/
theorem State.setChan_chan_other (s : State) {k j : Nat} (x : ChanState)
    (hj : j ≠ k) : (s.setChan k x).chan j = s.chan j := Tbl.get_set_other _ _ x hj
/-- Writing an entry keeps `chans` canonical. -/
theorem State.setChan_wf (s : State) (h : Tbl.wf (fun _ => {}) s.chans = true) (k : Nat) (x : ChanState) :
    Tbl.wf (fun _ => {}) (s.setChan k x).chans = true := Tbl.wf_set h k x
/-- Reading an entry of `streams` after writing it. -/
@[simp] theorem State.setStream_stream (s : State) (k : Nat) (x : StreamState) :
    (s.setStream k x).stream k = x := Tbl.get_set_same _ _ k x
/-- Reading another entry of `streams`. -/
theorem State.setStream_stream_other (s : State) {k j : Nat} (x : StreamState)
    (hj : j ≠ k) : (s.setStream k x).stream j = s.stream j := Tbl.get_set_other _ _ x hj
/-- Writing an entry keeps `streams` canonical. -/
theorem State.setStream_wf (s : State) (h : Tbl.wf (fun _ => {}) s.streams = true) (k : Nat) (x : StreamState) :
    Tbl.wf (fun _ => {}) (s.setStream k x).streams = true := Tbl.wf_set h k x
/-- Reading an entry of `routes` after writing it. -/
@[simp] theorem State.setRoute_route (s : State) (k : Nat) (x : RouteState) :
    (s.setRoute k x).route k = x := Tbl.get_set_same _ _ k x
/-- Reading another entry of `routes`. -/
theorem State.setRoute_route_other (s : State) {k j : Nat} (x : RouteState)
    (hj : j ≠ k) : (s.setRoute k x).route j = s.route j := Tbl.get_set_other _ _ x hj
/-- Writing an entry keeps `routes` canonical. -/
theorem State.setRoute_wf (s : State) (h : Tbl.wf (fun _ => {}) s.routes = true) (k : Nat) (x : RouteState) :
    Tbl.wf (fun _ => {}) (s.setRoute k x).routes = true := Tbl.wf_set h k x
/-- Reading an entry of `chain` after writing it. -/
@[simp] theorem State.setEndpoint_endpoint (s : State) (k : Nat) (x : Endpoint) :
    (s.setEndpoint k x).endpoint k = x := Tbl.get_set_same _ _ k x
/-- Reading another entry of `chain`. -/
theorem State.setEndpoint_endpoint_other (s : State) {k j : Nat} (x : Endpoint)
    (hj : j ≠ k) : (s.setEndpoint k x).endpoint j = s.endpoint j := Tbl.get_set_other _ _ x hj
/-- Writing an entry keeps `chain` canonical. -/
theorem State.setEndpoint_wf (s : State) (h : Tbl.wf (fun _ => {}) s.chain = true) (k : Nat) (x : Endpoint) :
    Tbl.wf (fun _ => {}) (s.setEndpoint k x).chain = true := Tbl.wf_set h k x

end Sys2Proof.Machine
end

