-- ==== Sys2Proof/Laws/EventFrame.lean ====
section
/-!
SUPPORT. What the event router, the clock and the status registers leave alone: everything but the
ports, capture, the router, the regions, the streams, the hoard, the grid and the mode. Field by field:
`congrArg State.lanes (raise_evRest s src origin data)` says that `raise` keeps the lanes.
-/

namespace Sys2Proof.Machine

/-- The second part of a pair known by its parts. -/
theorem pair_snd {α β : Type} {x : α × β} {a : α} {b : β} (h : x = (a, b)) : b = x.2 := by rw [h]
/-- The first part of a pair known by its parts. -/
theorem pair_fst {α β : Type} {x : α × β} {a : α} {b : β} (h : x = (a, b)) : a = x.1 := by rw [h]


@[simp] theorem evRest_mk (s : State) (h m u : PortState) (cap : CaptureState) (cycle : List Event)
    (chans : Tbl ChanState) (regions : Tbl RegionState) (streams : Tbl StreamState) (hoard : HoardState)
    (grid : GridState) (mode : ModeState) :
    State.evRest { s with h := h, m := m, u := u, cap := cap, cycle := cycle, chans := chans, regions := regions
                          streams := streams, hoard := hoard, grid := grid, mode := mode } = s.evRest := by
  cases s; rfl

/-- A fold of operations that keep the rest keeps it. -/
theorem evRest_foldl {α : Type} {f : State → α → State} {l : List α} {s : State}
    (h : ∀ s a, (f s a).evRest = s.evRest) : (l.foldl f s).evRest = s.evRest := by
  induction l generalizing s with
  | nil => rfl
  | cons a l ih => rw [List.foldl_cons, ih, h]

@[simp] theorem onHM_evRest (s : State) (f : PortState → PortState) : (s.onHM f).evRest = s.evRest := by
  cases s; rfl
@[simp] theorem setPort_evRest (s : State) (p : Port) (x : PortState) : (s.setPort p x).evRest = s.evRest := by
  cases p <;> rfl
@[simp] theorem setRegion_evRest (s : State) (g : Nat) (x : RegionState) :
    (s.setRegion g x).evRest = s.evRest := by
  cases s; rfl
@[simp] theorem setChan_evRest (s : State) (c : Nat) (x : ChanState) : (s.setChan c x).evRest = s.evRest := by
  cases s; rfl
@[simp] theorem setStream_evRest (s : State) (k : Nat) (x : StreamState) :
    (s.setStream k x).evRest = s.evRest := by
  cases s; rfl
@[simp] theorem onGrid_evRest (s : State) (f : GridState → GridState) : (s.onGrid f).evRest = s.evRest := by
  cases s; rfl
@[simp] theorem onMode_evRest (s : State) (f : ModeState → ModeState) : (s.onMode f).evRest = s.evRest := by
  cases s; rfl
@[simp] theorem onHoard_evRest (s : State) (f : HoardState → HoardState) : (s.onHoard f).evRest = s.evRest := by
  cases s; rfl

@[simp] theorem glbPort_evRest (s : State) (p : Port) (n : Nat) :
    (glbPort s p n).evRest = s.evRest := by simp [glbPort]

@[simp] theorem glb_evRest (s : State) (n : Nat) :
    (glb s n).evRest = s.evRest := by simp [glb]

@[simp] theorem setAlarm_evRest (s : State) (n : Nat) :
    (setAlarm s n).evRest = s.evRest := by simp [setAlarm]

@[simp] theorem setSupply_evRest (s : State) (n : Nat) :
    (setSupply s n).evRest = s.evRest := by simp [setSupply]

@[simp] theorem setQueue_evRest (s : State) (n : Nat) :
    (setQueue s n).evRest = s.evRest := by simp [setQueue]

@[simp] theorem setRegionBit_evRest (s : State) (g : Nat) (n : Nat) :
    (setRegionBit s g n).evRest = s.evRest := by simp [setRegionBit]

@[simp] theorem countCrc_evRest (s : State) (p : Port) :
    (countCrc s p).evRest = s.evRest := by simp [countCrc]

@[simp] theorem stopBursts_evRest (s : State) :
    (stopBursts s).evRest = s.evRest := by
  unfold stopBursts
  repeat' first
    | with_reducible rfl
    | with_reducible assumption
    | split
    | dsimp only
    | simp

@[simp] theorem raise_evRest (s : State) (src : Nat) (origin : Nat) (data : Word) :
    (raise s src origin data).evRest = s.evRest := by
  unfold raise
  split <;> simp

@[simp] theorem tickEvent_evRest (s : State) :
    (tickEvent s).evRest = s.evRest := by
  unfold tickEvent
  split <;> simp

@[simp] theorem retick_evRest (s : State) :
    (retick s).evRest = s.evRest := by
  unfold retick
  repeat' first
    | with_reducible rfl
    | with_reducible assumption
    | split
    | dsimp only
    | simp

@[simp] theorem wakeCond_evRest (s : State) :
    (wakeCond s).evRest = s.evRest := by
  unfold wakeCond
  (repeat' split) <;> simp

@[simp] theorem requestCapture_evRest (s : State) (restart : Bool) :
    (requestCapture s restart).evRest = s.evRest := by simp [requestCapture]

@[simp] theorem queueItem_evRest (s : State) (p : Port) (it : Item) :
    (queueItem s p it).evRest = s.evRest := by simp [queueItem]

@[simp] theorem spuDefer_evRest (s : State) (c : Nat) :
    (spuDefer s c).evRest = s.evRest := by
  unfold spuDefer
  refine Eq.trans (evRest_foldl fun s a => ?_) ?_
  all_goals (repeat' split) <;> simp

@[simp] theorem freezeEvent_evRest (s : State) (it : Item) :
    (freezeEvent s it).evRest = s.evRest := by
  unfold freezeEvent
  repeat' first
    | with_reducible rfl
    | with_reducible assumption
    | split
    | dsimp only
    | simp

@[simp] theorem consume_evRest (s : State) (c : Nat) (it : Item) :
    (consume s c it).evRest = s.evRest := by
  unfold consume
  (repeat' split) <;> simp

@[simp] theorem deliverItem_evRest (s : State) (c : Nat) (it : Item) :
    (deliverItem s c it).evRest = s.evRest := by
  unfold deliverItem
  split <;> simp

@[simp] theorem dropEvent_evRest (s : State) (c : Nat) :
    (dropEvent s c).evRest = s.evRest := by
  unfold dropEvent
  repeat' first
    | with_reducible rfl
    | with_reducible assumption
    | split
    | dsimp only
    | simp

@[simp] theorem deliverHeld_evRest (s : State) (c : Nat) :
    (deliverHeld s c).evRest = s.evRest := by
  unfold deliverHeld
  (repeat' split) <;> simp

@[simp] theorem deliverEarlier_evRest (s : State) (c : Nat) :
    (deliverEarlier s c).evRest = s.evRest := by
  unfold deliverEarlier
  repeat' first
    | with_reducible rfl
    | with_reducible assumption
    | split
    | (with_reducible refine Eq.trans (evRest_foldl ?_) ?_ <;> intros)
    | dsimp only
    | simp

@[simp] theorem dropHeld_evRest (s : State) (c : Nat) :
    (dropHeld s c).evRest = s.evRest := by
  unfold dropHeld
  repeat' first
    | with_reducible rfl
    | with_reducible assumption
    | split
    | dsimp only
    | simp

@[simp] theorem deliverTo_evRest (s : State) (ev : Event) (c : Nat) :
    (deliverTo s ev c).evRest = s.evRest := by
  unfold deliverTo
  repeat' first
    | with_reducible rfl
    | with_reducible assumption
    | split
    | dsimp only
    | simp

@[simp] theorem deliverEvent_evRest (s : State) (ev : Event) :
    (deliverEvent s ev).evRest = s.evRest := by
  exact evRest_foldl fun s a => by simp

@[simp] theorem flushCycle_evRest (s : State) :
    (flushCycle s).evRest = s.evRest := by
  exact evRest_foldl fun s a => by simp

@[simp] theorem advance_evRest (s : State) (dt : Nat) :
    (advance s dt).evRest = s.evRest := by
  unfold advance
  repeat' first
    | with_reducible rfl
    | with_reducible assumption
    | split
    | dsimp only
    | simp

@[simp] theorem csnRise_evRest (s : State) (p : Port) :
    (csnRise s p).evRest = s.evRest := by
  unfold csnRise
  repeat' first
    | with_reducible rfl
    | with_reducible assumption
    | split
    | dsimp only
    | simp

@[simp] theorem setTState_evRest (s : State) (t : TState) :
    (setTState s t).evRest = s.evRest := by
  unfold setTState
  split <;> simp

@[simp] theorem setHState_evRest (s : State) (h : HState) :
    (setHState s h).evRest = s.evRest := by
  unfold setHState
  split <;> simp

@[simp] theorem regionCalEvent_evRest (s : State) (g : Nat) (why : Nat) :
    (regionCalEvent s g why).evRest = s.evRest := by simp [regionCalEvent]

@[simp] theorem dllTick_evRest (s : State) (g : Nat) (e : Int) :
    (dllTick s g e).evRest = s.evRest := by
  unfold dllTick
  repeat' first
    | with_reducible rfl
    | with_reducible assumption
    | split
    | dsimp only
    | simp

@[simp] theorem tdcTick_evRest (s : State) (g : Nat) (err : Int) :
    (tdcTick s g err).evRest = s.evRest := by
  unfold tdcTick
  repeat' first
    | with_reducible rfl
    | with_reducible assumption
    | split
    | dsimp only
    | simp

@[simp] theorem regionLoad_evRest (s : State) (g : Nat) (w : Word) (loops : Word) :
    (regionLoad s g w loops).evRest = s.evRest := by simp [regionLoad]

@[simp] theorem regionLoops_evRest (s : State) (g : Nat) (e : RegionErr) :
    (regionLoops s g e).evRest = s.evRest := by simp [regionLoops]

@[simp] theorem noteEntryCal_evRest (s : State) :
    (noteEntryCal s).evRest = s.evRest := by
  unfold noteEntryCal
  repeat' first
    | with_reducible rfl
    | with_reducible assumption
    | split
    | dsimp only
    | simp

@[simp] theorem calSaveWrite_evRest (s : State) :
    (calSaveWrite s).evRest = s.evRest := by
  unfold calSaveWrite
  repeat' first
    | with_reducible rfl
    | with_reducible assumption
    | split
    | dsimp only
    | simp

@[simp] theorem hoardBlock_evRest (s : State) (typ : Nat) (lane : Nat) (body : Bytes) :
    (hoardBlock s typ lane body).evRest = s.evRest := by
  unfold hoardBlock
  repeat' first
    | with_reducible rfl
    | with_reducible assumption
    | split
    | dsimp only
    | simp

@[simp] theorem hoardDigest_evRest (s : State) (num : BitVec 48) (body : Bytes) :
    (hoardDigest s num body).evRest = s.evRest := by
  unfold hoardDigest
  repeat' first
    | with_reducible rfl
    | with_reducible assumption
    | split
    | dsimp only
    | simp

@[simp] theorem checkpoint_evRest (s : State) (n : Nat) (num : BitVec 48) :
    (checkpoint s n num).evRest = s.evRest := by simp [checkpoint]

@[simp] theorem happen_evRest (s : State) (n : Nat) (tick : BitVec 48) (kind : Nat) (pos : Nat) (arg :
    Bytes) :
    (happen s n tick kind pos arg).evRest = s.evRest := by
  unfold happen
  split <;> simp

@[simp] theorem happenNow_evRest (s : State) (n : Nat) (kind : Nat) (pos : Nat) (arg : Bytes) :
    (happenNow s n kind pos arg).evRest = s.evRest := by simp [happenNow]

@[simp] theorem happenAll_evRest (s : State) (ns : List Nat) (kind : Nat) (arg : Bytes) :
    (happenAll s ns kind arg).evRest = s.evRest := by
  exact evRest_foldl fun s a => by simp

@[simp] theorem regionLost_evRest (s : State) (g : Nat) (num : BitVec 48) :
    (regionLost s g num).evRest = s.evRest := by
  unfold regionLost
  repeat' first
    | with_reducible rfl
    | with_reducible assumption
    | split
    | (with_reducible refine Eq.trans (evRest_foldl ?_) ?_ <;> intros)
    | dsimp only
    | simp

@[simp] theorem overflow_evRest (s : State) (g : Nat) (data : Nat) :
    (overflow s g data).evRest = s.evRest := by
  unfold overflow
  repeat' first
    | with_reducible rfl
    | with_reducible assumption
    | split
    | dsimp only
    | simp

@[simp] theorem closeMonitors_evRest (s : State) (g : Nat) :
    (closeMonitors s g).evRest = s.evRest := by simp [closeMonitors]

@[simp] theorem dropCarried_evRest (s : State) (g : Nat) (num : BitVec 48) (ns : List Nat) :
    (dropCarried s g num ns).evRest = s.evRest := by
  unfold dropCarried
  repeat' first
    | with_reducible rfl
    | with_reducible assumption
    | split
    | dsimp only
    | simp

@[simp] theorem happenLine_evRest (s : State) (n : Nat) (code : Nat) (declared : Nat) :
    (happenLine s n code declared).evRest = s.evRest := by simp [happenLine]

@[simp] theorem onAknun_evRest (s : State) (n : Nat) (f : State → State) (h : ∀ s, (f s).evRest =
    s.evRest) :
    (onAknun s n f).evRest = s.evRest := by
  unfold onAknun
  split <;> simp [h]

@[simp] theorem noteAdmits_evRest (s : State) (g : Nat) :
    (noteAdmits s g).evRest = s.evRest := by
  unfold noteAdmits
  repeat' first
    | with_reducible rfl
    | with_reducible assumption
    | split
    | dsimp only
    | simp

@[simp] theorem supervise_evRest (s : State) (p : Port) :
    (supervise s p).evRest = s.evRest := by
  unfold supervise
  repeat' first
    | with_reducible rfl
    | with_reducible assumption
    | split
    | dsimp only
    | simp

@[simp] theorem abandonVault_evRest (s : State) (p : Port) :
    (abandonVault s p).evRest = s.evRest := by simp [abandonVault]

@[simp] theorem stopExport_evRest (s : State) :
    (stopExport s).evRest = s.evRest := by
  unfold stopExport
  split <;> simp

@[simp] theorem lockStreams_evRest (s : State) :
    (lockStreams s).evRest = s.evRest := by
  unfold lockStreams
  repeat' first
    | with_reducible rfl
    | with_reducible assumption
    | split
    | (with_reducible refine Eq.trans (evRest_foldl ?_) ?_ <;> intros)
    | dsimp only
    | simp

@[simp] theorem refuseMode_evRest (s : State) :
    (refuseMode s).evRest = s.evRest := by
  unfold refuseMode
  split <;> simp

@[simp] theorem eraseStreamKeys_evRest (s : State) :
    (eraseStreamKeys s).evRest = s.evRest := by
  unfold eraseStreamKeys
  repeat' first
    | with_reducible rfl
    | with_reducible assumption
    | split
    | (with_reducible refine Eq.trans (evRest_foldl ?_) ?_ <;> intros)
    | dsimp only
    | simp

@[simp] theorem choosePort_evRest (s : State) (k : Nat) :
    (choosePort s k).evRest = s.evRest := by simp [choosePort]

@[simp] theorem countDropped_evRest (s : State) (k : Nat) (n : Nat) :
    (countDropped s k n).evRest = s.evRest := by simp [countDropped]

@[simp] theorem keyCurrent_evRest (s : State) (k : Nat) (num : BitVec 48) :
    (keyCurrent s k num).evRest = s.evRest := by
  unfold keyCurrent
  (repeat' split) <;> simp

@[simp] theorem seqCheck_evRest (s : State) (k : Nat) (num : BitVec 48) :
    (seqCheck s k num).evRest = s.evRest := by
  unfold seqCheck
  (repeat' split) <;> simp

@[simp] theorem keyExpiredEvent_evRest (s : State) (k : Nat) :
    (keyExpiredEvent s k).evRest = s.evRest := by simp [keyExpiredEvent]

@[simp] theorem markSent_evRest (k : Nat) (s : State) (r : Rec × Bool) :
    (markSent k s r).evRest = s.evRest := by simp [markSent]

@[simp] theorem dropJob_evRest (k : Nat) (s : State) (j : SegJob) :
    (dropJob k s j).evRest = s.evRest := by simp [dropJob]

@[simp] theorem streamSnap_evRest (x : Snap) (s : State) (k : Nat) :
    (streamSnap x s k).evRest = s.evRest := by
  unfold streamSnap
  repeat' first
    | with_reducible rfl
    | with_reducible assumption
    | split
    | (with_reducible refine Eq.trans (evRest_foldl ?_) ?_ <;> intros)
    | dsimp only
    | simp

@[simp] theorem startRephase_evRest (s : State) (c : Int) (offset : Option Int) :
    (startRephase s c offset).evRest = s.evRest := by simp [startRephase]

@[simp] theorem hostRephase_evRest (s : State) :
    (hostRephase s).evRest = s.evRest := by
  unfold hostRephase
  split <;> simp

@[simp] theorem farOff_evRest (s : State) :
    (farOff s).evRest = s.evRest := by
  unfold farOff
  split <;> simp

@[simp] theorem syncState_evRest (s : State) (first : Bool) (e2 : Int) :
    (syncState s first e2).evRest = s.evRest := by
  unfold syncState
  repeat' first
    | with_reducible rfl
    | with_reducible assumption
    | split
    | dsimp only
    | simp

@[simp] theorem requestStage_evRest (s : State) (g : Nat) :
    (requestStage s g).evRest = s.evRest := by
  unfold requestStage
  split <;> simp

@[simp] theorem dropStage_evRest (s : State) (g : Nat) :
    (dropStage s g).evRest = s.evRest := by simp [dropStage]

@[simp] theorem happenRegion_evRest (s : State) (ns : List Nat) (code : Nat) (begins : Nat) :
    (happenRegion s ns code begins).evRest = s.evRest := by simp [happenRegion]

@[simp] theorem setLive_evRest (s : State) (b : Bool) (a1 : Rail) : (setLive s b a1).evRest = s.evRest := by
  cases a1 <;> simp [setLive]

@[simp] theorem challengeExpire_evRest (s : State) (p : Port) :
    (challengeExpire s p).evRest = s.evRest := by
  unfold challengeExpire
  split <;> simp

@[simp] theorem revertStreams_evRest (s : State) (p : Port) :
    (revertStreams s p).evRest = s.evRest := by
  unfold revertStreams
  repeat' first
    | with_reducible rfl
    | with_reducible assumption
    | split
    | (with_reducible refine Eq.trans (evRest_foldl ?_) ?_ <;> intros)
    | dsimp only
    | simp

@[simp] theorem zeroLoad_evRest (p : Port) (r : VaultReq) (s : State) :
    (zeroLoad p r s).evRest = s.evRest := by
  unfold zeroLoad
  split <;> simp

@[simp] theorem writeResult_evRest (s : State) (p : Port) (r : VaultReq) (status : Nat) (data : Bytes) :
    (writeResult s p r status data).evRest = s.evRest := by simp [writeResult]

@[simp] theorem vaultBusy_evRest (s : State) (p : Port) :
    (vaultBusy s p).evRest = s.evRest := by
  unfold vaultBusy
  split <;> simp

@[simp] theorem drained_evRest (num : BitVec 48) (s : State) (g : Nat) :
    (drained num s g).evRest = s.evRest := by
  unfold drained
  repeat' first
    | with_reducible rfl
    | with_reducible assumption
    | split
    | dsimp only
    | simp

@[simp] theorem setSowing_evRest (s : State) (c : CommitRun) (b : Bool) :
    (setSowing s c b).evRest = s.evRest := by
  exact evRest_foldl fun s a => by simp

@[simp] theorem writeReports_evRest (s : State) (k : State) (c : CommitRun) (eff : BitVec 48) :
    (writeReports s k c eff).evRest = s.evRest := by
  exact evRest_foldl fun s a => by simp

@[simp] theorem channelsEffect_evRest (s : State) :
    (channelsEffect s).evRest = s.evRest := by
  unfold channelsEffect
  refine Eq.trans (evRest_foldl fun s a => ?_) ?_
  all_goals (repeat' split) <;> simp

@[simp] theorem checkExport_evRest (s : State) :
    (checkExport s).evRest = s.evRest := by
  unfold checkExport
  repeat' first
    | with_reducible rfl
    | with_reducible assumption
    | split
    | dsimp only
    | simp

@[simp] theorem beginTrace_evRest (s : State) (lanes : List Nat) :
    (beginTrace s lanes).evRest = s.evRest := by simp [beginTrace]

@[simp] theorem disarm_evRest (s : State) :
    (disarm s).evRest = s.evRest := by simp [disarm]

@[simp] theorem freeze_evRest (s : State) (it : Option Item) :
    (freeze s it).evRest = s.evRest := by
  unfold freeze
  split <;> simp

@[simp] theorem freezeTick_evRest (s : State) (w : Word) :
    (freezeTick s w).evRest = s.evRest := by
  unfold freezeTick
  repeat' first
    | with_reducible rfl
    | with_reducible assumption
    | split
    | dsimp only
    | simp

@[simp] theorem hoardWrite_evRest (s : State) (w : Word) :
    (hoardWrite s w).evRest = s.evRest := by simp [hoardWrite]

@[simp] theorem hoardCtlTick_evRest (s : State) :
    (hoardCtlTick s).evRest = s.evRest := by
  unfold hoardCtlTick
  repeat' first
    | with_reducible rfl
    | with_reducible assumption
    | split
    | dsimp only
    | simp

@[simp] theorem exportKeyTick_evRest (s : State) :
    (exportKeyTick s).evRest = s.evRest := by
  unfold exportKeyTick
  split <;> simp

@[simp] theorem putDigests_evRest (s : State) :
    (putDigests s).evRest = s.evRest := by
  unfold putDigests
  repeat' first
    | with_reducible rfl
    | with_reducible assumption
    | split
    | (with_reducible refine Eq.trans (evRest_foldl ?_) ?_ <;> intros)
    | dsimp only
    | simp

@[simp] theorem hoardToReplay_evRest (s : State) :
    (hoardToReplay s).evRest = s.evRest := by simp [hoardToReplay]

@[simp] theorem traceReset_evRest (s : State) (n : Nat) (num : BitVec 48) (kind : Nat) :
    (traceReset s n num kind).evRest = s.evRest := by
  unfold traceReset
  split <;> simp

@[simp] theorem modeRequest_evRest (s : State) (d : DevState) :
    (modeRequest s d).evRest = s.evRest := by
  unfold modeRequest
  repeat' first
    | with_reducible rfl
    | with_reducible assumption
    | split
    | dsimp only
    | simp

@[simp] theorem modeWrite_evRest (s : State) (p : Port) (secure : Bool) (d : DevState) :
    (modeWrite s p secure d).evRest = s.evRest := by
  unfold modeWrite
  split <;> simp

@[simp] theorem pollBus_evRest (s : State) (n : Nat) (num : BitVec 48) (at_ : Nat) (f : State → State)
    (h : ∀ s, (f s).evRest = s.evRest) :
    (pollBus s n num at_ f).1.evRest = s.evRest := by simp [pollBus, h]

@[simp] theorem wardenPort_evRest (s : State) (p : Port) :
    (wardenPort s p).evRest = s.evRest := by
  unfold wardenPort
  repeat' first
    | with_reducible rfl
    | with_reducible assumption
    | split
    | dsimp only
    | simp

@[simp] theorem noReference_evRest (s : State) :
    (noReference s).evRest = s.evRest := by
  unfold noReference
  split <;> simp

@[simp] theorem takeLead_evRest (s : State) (lead : Bool) :
    (takeLead s lead).evRest = s.evRest := by
  unfold takeLead
  repeat' first
    | with_reducible rfl
    | with_reducible assumption
    | split
    | dsimp only
    | simp

@[simp] theorem markAbsent_evRest (s : State) (h : Nat) :
    (markAbsent s h).evRest = s.evRest := by simp [markAbsent]

@[simp] theorem sendMessages_evRest (s : State) :
    (sendMessages s).evRest = s.evRest := by simp [sendMessages]

@[simp] theorem loseTick_evRest (s : State) :
    (loseTick s).evRest = s.evRest := by simp [loseTick]

@[simp] theorem longSegment_evRest (s : State) (d : Nat) :
    (longSegment s d).evRest = s.evRest := by
  unfold longSegment
  split <;> simp

@[simp] theorem joinedMark_evRest (s : State) (e : Int) (m : Bytes) :
    (joinedMark s e m).evRest = s.evRest := by
  unfold joinedMark
  repeat' first
    | with_reducible rfl
    | with_reducible assumption
    | split
    | dsimp only
    | simp

@[simp] theorem heard_evRest (m : Bytes) (s : State) (h : Nat) :
    (heard m s h).evRest = s.evRest := by
  unfold heard
  repeat' first
    | with_reducible rfl
    | with_reducible assumption
    | split
    | dsimp only
    | simp

@[simp] theorem echoRx_evRest (s : State) (a : Nat) :
    (echoRx s a).evRest = s.evRest := by
  unfold echoRx
  repeat' first
    | with_reducible rfl
    | with_reducible assumption
    | split
    | dsimp only
    | simp

@[simp] theorem flushQueue_evRest (s : State) (p : Port) :
    (flushQueue s p).evRest = s.evRest := by simp [flushQueue]

@[simp] theorem evqWrite_evRest (s : State) (p : Port) (d : Word) :
    (evqWrite s p d).evRest = s.evRest := by
  unfold evqWrite
  split <;> simp

@[simp] theorem hoardCtlWrite_evRest (s : State) (d : Word) (secure : Bool) :
    (hoardCtlWrite s d secure).evRest = s.evRest := by simp [hoardCtlWrite]

@[simp] theorem takeHeader_evRest (s : State) (p : Port) (r : Result) :
    (takeHeader s p r).evRest = s.evRest := by
  unfold takeHeader
  split <;> simp

@[simp] theorem drive_evRest (s : State) (p : Port) (bs : Bytes) :
    (drive s p bs).evRest = s.evRest := by simp [drive]

@[simp] theorem clearInd_evRest (s : State) (p : Port) :
    (clearInd s p).evRest = s.evRest := by simp [clearInd]

@[simp] theorem noteAddr_evRest (s : State) (p : Port) (a : Nat) :
    (noteAddr s p a).evRest = s.evRest := by simp [noteAddr]

@[simp] theorem noteDenied_evRest (s : State) (p : Port) (a : Nat) :
    (noteDenied s p a).evRest = s.evRest := by simp [noteDenied]

@[simp] theorem noteTorn_evRest (s : State) (p : Port) :
    (noteTorn s p).evRest = s.evRest := by
  unfold noteTorn
  repeat' first
    | with_reducible rfl
    | with_reducible assumption
    | split
    | dsimp only
    | simp

@[simp] theorem noteBurstCrc_evRest (s : State) (p : Port) (a : Nat) :
    (noteBurstCrc s p a).evRest = s.evRest := by simp [noteBurstCrc]

@[simp] theorem noteCount_evRest (s : State) (p : Port) (n : Nat) :
    (noteCount s p n).evRest = s.evRest := by simp [noteCount]

@[simp] theorem setIndAddr_evRest (s : State) (p : Port) (a : Nat) :
    (setIndAddr s p a).evRest = s.evRest := by simp [setIndAddr]

@[simp] theorem wordDone_evRest (s : State) (p : Port) (ind : Bool) (base : Nat) (w : Nat) :
    (wordDone s p ind base w).evRest = s.evRest := by
  unfold wordDone
  split <;> simp

@[simp] theorem burstHead_evRest (s : State) (p : Port) (write : Bool) (fast : Bool) (cmd : Byte) (addr
    : BitVec 16) (crc : Byte) :
    (burstHead s p write fast cmd addr crc).2.2.evRest = s.evRest := by
  unfold burstHead
  repeat' first
    | with_reducible rfl
    | with_reducible assumption
    | split
    | dsimp only
    | simp

@[simp] theorem readView_evRest (r : BurstRun) (s : State) (p : Port) (a : Nat) :
    (readView r s p a).2.evRest = s.evRest := by
  unfold readView
  repeat' first
    | with_reducible rfl
    | with_reducible assumption
    | split
    | dsimp only
    | simp

@[simp] theorem keepBurst_evRest (s : State) (p : Port) (piece : Piece) (r : BurstRun) :
    (keepBurst s p piece r).evRest = s.evRest := by
  unfold keepBurst
  repeat' first
    | with_reducible rfl
    | with_reducible assumption
    | split
    | dsimp only
    | simp

@[simp] theorem stallHead_evRest (s : State) (p : Port) (fast : Bool) (cmd : Byte) (addr : BitVec 16)
    (crc : Byte) :
    (stallHead s p fast cmd addr crc).2.evRest = s.evRest := by simp [stallHead]

@[simp] theorem stallEnd_evRest (s : State) (p : Port) (bs : Bytes) :
    (stallEnd s p bs).evRest = s.evRest := by
  unfold stallEnd
  repeat' first
    | with_reducible rfl
    | with_reducible assumption
    | split
    | dsimp only
    | simp

@[simp] theorem stallOn_evRest (s : State) (p : Port) (stays : Bool) (head : Bytes) (sent : Nat)
    (fillers : Nat) :
    (stallOn s p stays head sent fillers).evRest = s.evRest := by
  unfold stallOn
  repeat' first
    | with_reducible rfl
    | with_reducible assumption
    | split
    | dsimp only
    | simp

@[simp] theorem secureHead_evRest (s : State) (p : Port) (fast : Bool) (cmd : Byte) (addr : BitVec 16)
    (len : Byte) (ctr : Word) (crc : Byte) :
    (secureHead s p fast cmd addr len ctr crc).2.evRest = s.evRest := by
  unfold secureHead
  repeat' first
    | with_reducible rfl
    | with_reducible assumption
    | split
    | dsimp only
    | simp

@[simp] theorem leaveLead_evRest (s : State) :
    (leaveLead s).evRest = s.evRest := by
  unfold leaveLead
  split <;> simp

@[simp] theorem tickLoops_evRest (s : State) (errs : List RegionErr) :
    (tickLoops s errs).evRest = s.evRest := by
  unfold tickLoops
  repeat' first
    | with_reducible rfl
    | with_reducible assumption
    | split
    | (with_reducible refine Eq.trans (evRest_foldl ?_) ?_ <;> intros)
    | dsimp only
    | simp

end Sys2Proof.Machine
end

