-- ==== Sys2Proof/Laws/Event.lean ====
section
/-!
SUPPORT. What raising an event and setting a status bit do to the state, what a command meets when it
arrives, and what a command's frame does before it acts.
-/

namespace Sys2Proof.Machine

/-! ### What raising and status leave alone -/

/-- What `raise` leaves alone. -/
@[simp] theorem raise_kept (s : State) (src origin : Nat) (data : Word) :
    (raise s src origin data).pending = s.pending ∧ (raise s src origin data).fresh = s.fresh ∧
    (raise s src origin data).h = s.h ∧ (raise s src origin data).m = s.m ∧
    (raise s src origin data).u = s.u ∧ (raise s src origin data).cfg = s.cfg ∧
    (raise s src origin data).lock = s.lock ∧ (raise s src origin data).epoch = s.epoch ∧
    (raise s src origin data).epochAt = s.epochAt ∧ (raise s src origin data).creqs = s.creqs ∧
    (raise s src origin data).commits = s.commits ∧ (raise s src origin data).cstat = s.cstat ∧
    (raise s src origin data).cseq = s.cseq ∧ (raise s src origin data).cap = s.cap ∧
    (raise s src origin data).chans = s.chans ∧ (raise s src origin data).lanes = s.lanes ∧
    (raise s src origin data).eps = s.eps ∧ (raise s src origin data).clusters = s.clusters ∧
    (raise s src origin data).regions = s.regions ∧ (raise s src origin data).asm_ = s.asm_ ∧
    (raise s src origin data).streams = s.streams ∧ (raise s src origin data).ul0 = s.ul0 ∧
    (raise s src origin data).ul1 = s.ul1 ∧ (raise s src origin data).routes = s.routes ∧
    (raise s src origin data).vault = s.vault ∧ (raise s src origin data).alarm = s.alarm ∧
    (raise s src origin data).nv = s.nv ∧ (raise s src origin data).upd = s.upd ∧
    (raise s src origin data).hoard = s.hoard ∧ (raise s src origin data).replay = s.replay ∧
    (raise s src origin data).grid = s.grid ∧ (raise s src origin data).mode = s.mode ∧
    (raise s src origin data).tdo = s.tdo ∧ (raise s src origin data).chain = s.chain ∧
    (∀ k, (raise s src origin data).lane k = s.lane k) ∧ (∀ k, (raise s src origin data).ep k = s.ep k) ∧
    (∀ k, (raise s src origin data).region k = s.region k) ∧
    (∀ k, (raise s src origin data).cluster k = s.cluster k) ∧
    (∀ k, (raise s src origin data).chan k = s.chan k) ∧
    (∀ k, (raise s src origin data).stream k = s.stream k) ∧
    (∀ k, (raise s src origin data).route k = s.route k) ∧
    (∀ k, (raise s src origin data).endpoint k = s.endpoint k) ∧
    (∀ k, (raise s src origin data).slot k = s.slot k) ∧
    (∀ p, (raise s src origin data).port p = s.port p) ∧
    (∀ v, (raise s src origin data).uplink v = s.uplink v) := by
  unfold raise; split <;> simp [State.lane, State.ep, State.region, State.cluster, State.chan, State.stream, State.route,
    State.endpoint, State.slot, State.port, State.uplink]

/-- What `glb` leaves alone. -/
@[simp] theorem glb_kept (s : State) (n : Nat) :
    (glb s n).pending = s.pending ∧ (glb s n).fresh = s.fresh ∧ (glb s n).u = s.u ∧ (glb s n).cfg = s.cfg ∧
    (glb s n).lock = s.lock ∧ (glb s n).epoch = s.epoch ∧ (glb s n).epochAt = s.epochAt ∧
    (glb s n).creqs = s.creqs ∧ (glb s n).commits = s.commits ∧ (glb s n).cstat = s.cstat ∧
    (glb s n).cseq = s.cseq ∧ (glb s n).cap = s.cap ∧ (glb s n).cycle = s.cycle ∧
    (glb s n).chans = s.chans ∧ (glb s n).lanes = s.lanes ∧ (glb s n).eps = s.eps ∧
    (glb s n).clusters = s.clusters ∧ (glb s n).regions = s.regions ∧ (glb s n).asm_ = s.asm_ ∧
    (glb s n).streams = s.streams ∧ (glb s n).ul0 = s.ul0 ∧ (glb s n).ul1 = s.ul1 ∧
    (glb s n).routes = s.routes ∧ (glb s n).vault = s.vault ∧ (glb s n).alarm = s.alarm ∧
    (glb s n).nv = s.nv ∧ (glb s n).upd = s.upd ∧ (glb s n).hoard = s.hoard ∧ (glb s n).replay = s.replay ∧
    (glb s n).grid = s.grid ∧ (glb s n).mode = s.mode ∧ (glb s n).tdo = s.tdo ∧ (glb s n).chain = s.chain ∧
    (∀ k, (glb s n).lane k = s.lane k) ∧ (∀ k, (glb s n).ep k = s.ep k) ∧
    (∀ k, (glb s n).region k = s.region k) ∧ (∀ k, (glb s n).cluster k = s.cluster k) ∧
    (∀ k, (glb s n).chan k = s.chan k) ∧ (∀ k, (glb s n).stream k = s.stream k) ∧
    (∀ k, (glb s n).route k = s.route k) ∧ (∀ k, (glb s n).endpoint k = s.endpoint k) ∧
    (∀ k, (glb s n).slot k = s.slot k) ∧ (∀ v, (glb s n).uplink v = s.uplink v) := by
  simp [glb]

/-- What `glbPort` leaves alone. -/
@[simp] theorem glbPort_kept (s : State) (p : Port) (n : Nat) :
    (glbPort s p n).pending = s.pending ∧ (glbPort s p n).fresh = s.fresh ∧ (glbPort s p n).cfg = s.cfg ∧
    (glbPort s p n).lock = s.lock ∧ (glbPort s p n).epoch = s.epoch ∧ (glbPort s p n).epochAt = s.epochAt ∧
    (glbPort s p n).creqs = s.creqs ∧ (glbPort s p n).commits = s.commits ∧
    (glbPort s p n).cstat = s.cstat ∧ (glbPort s p n).cseq = s.cseq ∧ (glbPort s p n).cap = s.cap ∧
    (glbPort s p n).cycle = s.cycle ∧ (glbPort s p n).chans = s.chans ∧ (glbPort s p n).lanes = s.lanes ∧
    (glbPort s p n).eps = s.eps ∧ (glbPort s p n).clusters = s.clusters ∧
    (glbPort s p n).regions = s.regions ∧ (glbPort s p n).asm_ = s.asm_ ∧
    (glbPort s p n).streams = s.streams ∧ (glbPort s p n).ul0 = s.ul0 ∧ (glbPort s p n).ul1 = s.ul1 ∧
    (glbPort s p n).routes = s.routes ∧ (glbPort s p n).vault = s.vault ∧ (glbPort s p n).alarm = s.alarm ∧
    (glbPort s p n).nv = s.nv ∧ (glbPort s p n).upd = s.upd ∧ (glbPort s p n).hoard = s.hoard ∧
    (glbPort s p n).replay = s.replay ∧ (glbPort s p n).grid = s.grid ∧ (glbPort s p n).mode = s.mode ∧
    (glbPort s p n).tdo = s.tdo ∧ (glbPort s p n).chain = s.chain ∧
    (∀ k, (glbPort s p n).lane k = s.lane k) ∧ (∀ k, (glbPort s p n).ep k = s.ep k) ∧
    (∀ k, (glbPort s p n).region k = s.region k) ∧ (∀ k, (glbPort s p n).cluster k = s.cluster k) ∧
    (∀ k, (glbPort s p n).chan k = s.chan k) ∧ (∀ k, (glbPort s p n).stream k = s.stream k) ∧
    (∀ k, (glbPort s p n).route k = s.route k) ∧ (∀ k, (glbPort s p n).endpoint k = s.endpoint k) ∧
    (∀ k, (glbPort s p n).slot k = s.slot k) ∧ (∀ v, (glbPort s p n).uplink v = s.uplink v) := by
  simp [glbPort]

/-- What `setAlarm` leaves alone. -/
@[simp] theorem setAlarm_kept (s : State) (n : Nat) :
    (setAlarm s n).pending = s.pending ∧ (setAlarm s n).fresh = s.fresh ∧ (setAlarm s n).u = s.u ∧
    (setAlarm s n).cfg = s.cfg ∧ (setAlarm s n).lock = s.lock ∧ (setAlarm s n).epoch = s.epoch ∧
    (setAlarm s n).epochAt = s.epochAt ∧ (setAlarm s n).creqs = s.creqs ∧
    (setAlarm s n).commits = s.commits ∧ (setAlarm s n).cstat = s.cstat ∧ (setAlarm s n).cseq = s.cseq ∧
    (setAlarm s n).cap = s.cap ∧ (setAlarm s n).cycle = s.cycle ∧ (setAlarm s n).chans = s.chans ∧
    (setAlarm s n).lanes = s.lanes ∧ (setAlarm s n).eps = s.eps ∧ (setAlarm s n).clusters = s.clusters ∧
    (setAlarm s n).regions = s.regions ∧ (setAlarm s n).asm_ = s.asm_ ∧ (setAlarm s n).streams = s.streams ∧
    (setAlarm s n).ul0 = s.ul0 ∧ (setAlarm s n).ul1 = s.ul1 ∧ (setAlarm s n).routes = s.routes ∧
    (setAlarm s n).vault = s.vault ∧ (setAlarm s n).alarm = s.alarm ∧ (setAlarm s n).nv = s.nv ∧
    (setAlarm s n).upd = s.upd ∧ (setAlarm s n).hoard = s.hoard ∧ (setAlarm s n).replay = s.replay ∧
    (setAlarm s n).grid = s.grid ∧ (setAlarm s n).mode = s.mode ∧ (setAlarm s n).tdo = s.tdo ∧
    (setAlarm s n).chain = s.chain ∧ (∀ k, (setAlarm s n).lane k = s.lane k) ∧
    (∀ k, (setAlarm s n).ep k = s.ep k) ∧ (∀ k, (setAlarm s n).region k = s.region k) ∧
    (∀ k, (setAlarm s n).cluster k = s.cluster k) ∧ (∀ k, (setAlarm s n).chan k = s.chan k) ∧
    (∀ k, (setAlarm s n).stream k = s.stream k) ∧ (∀ k, (setAlarm s n).route k = s.route k) ∧
    (∀ k, (setAlarm s n).endpoint k = s.endpoint k) ∧ (∀ k, (setAlarm s n).slot k = s.slot k) ∧
    (∀ v, (setAlarm s n).uplink v = s.uplink v) := by
  simp [setAlarm]

/-- What `setSupply` leaves alone. -/
@[simp] theorem setSupply_kept (s : State) (n : Nat) :
    (setSupply s n).pending = s.pending ∧ (setSupply s n).fresh = s.fresh ∧ (setSupply s n).u = s.u ∧
    (setSupply s n).cfg = s.cfg ∧ (setSupply s n).lock = s.lock ∧ (setSupply s n).epoch = s.epoch ∧
    (setSupply s n).epochAt = s.epochAt ∧ (setSupply s n).creqs = s.creqs ∧
    (setSupply s n).commits = s.commits ∧ (setSupply s n).cstat = s.cstat ∧ (setSupply s n).cseq = s.cseq ∧
    (setSupply s n).cap = s.cap ∧ (setSupply s n).cycle = s.cycle ∧ (setSupply s n).chans = s.chans ∧
    (setSupply s n).lanes = s.lanes ∧ (setSupply s n).eps = s.eps ∧ (setSupply s n).clusters = s.clusters ∧
    (setSupply s n).regions = s.regions ∧ (setSupply s n).asm_ = s.asm_ ∧
    (setSupply s n).streams = s.streams ∧ (setSupply s n).ul0 = s.ul0 ∧ (setSupply s n).ul1 = s.ul1 ∧
    (setSupply s n).routes = s.routes ∧ (setSupply s n).vault = s.vault ∧ (setSupply s n).alarm = s.alarm ∧
    (setSupply s n).nv = s.nv ∧ (setSupply s n).upd = s.upd ∧ (setSupply s n).hoard = s.hoard ∧
    (setSupply s n).replay = s.replay ∧ (setSupply s n).grid = s.grid ∧ (setSupply s n).mode = s.mode ∧
    (setSupply s n).tdo = s.tdo ∧ (setSupply s n).chain = s.chain ∧
    (∀ k, (setSupply s n).lane k = s.lane k) ∧ (∀ k, (setSupply s n).ep k = s.ep k) ∧
    (∀ k, (setSupply s n).region k = s.region k) ∧ (∀ k, (setSupply s n).cluster k = s.cluster k) ∧
    (∀ k, (setSupply s n).chan k = s.chan k) ∧ (∀ k, (setSupply s n).stream k = s.stream k) ∧
    (∀ k, (setSupply s n).route k = s.route k) ∧ (∀ k, (setSupply s n).endpoint k = s.endpoint k) ∧
    (∀ k, (setSupply s n).slot k = s.slot k) ∧ (∀ v, (setSupply s n).uplink v = s.uplink v) := by
  simp [setSupply]

/-- What `setQueue` leaves alone. -/
@[simp] theorem setQueue_kept (s : State) (n : Nat) :
    (setQueue s n).pending = s.pending ∧ (setQueue s n).fresh = s.fresh ∧ (setQueue s n).u = s.u ∧
    (setQueue s n).cfg = s.cfg ∧ (setQueue s n).lock = s.lock ∧ (setQueue s n).epoch = s.epoch ∧
    (setQueue s n).epochAt = s.epochAt ∧ (setQueue s n).creqs = s.creqs ∧
    (setQueue s n).commits = s.commits ∧ (setQueue s n).cstat = s.cstat ∧ (setQueue s n).cseq = s.cseq ∧
    (setQueue s n).cap = s.cap ∧ (setQueue s n).cycle = s.cycle ∧ (setQueue s n).chans = s.chans ∧
    (setQueue s n).lanes = s.lanes ∧ (setQueue s n).eps = s.eps ∧ (setQueue s n).clusters = s.clusters ∧
    (setQueue s n).regions = s.regions ∧ (setQueue s n).asm_ = s.asm_ ∧ (setQueue s n).streams = s.streams ∧
    (setQueue s n).ul0 = s.ul0 ∧ (setQueue s n).ul1 = s.ul1 ∧ (setQueue s n).routes = s.routes ∧
    (setQueue s n).vault = s.vault ∧ (setQueue s n).alarm = s.alarm ∧ (setQueue s n).nv = s.nv ∧
    (setQueue s n).upd = s.upd ∧ (setQueue s n).hoard = s.hoard ∧ (setQueue s n).replay = s.replay ∧
    (setQueue s n).grid = s.grid ∧ (setQueue s n).mode = s.mode ∧ (setQueue s n).tdo = s.tdo ∧
    (setQueue s n).chain = s.chain ∧ (∀ k, (setQueue s n).lane k = s.lane k) ∧
    (∀ k, (setQueue s n).ep k = s.ep k) ∧ (∀ k, (setQueue s n).region k = s.region k) ∧
    (∀ k, (setQueue s n).cluster k = s.cluster k) ∧ (∀ k, (setQueue s n).chan k = s.chan k) ∧
    (∀ k, (setQueue s n).stream k = s.stream k) ∧ (∀ k, (setQueue s n).route k = s.route k) ∧
    (∀ k, (setQueue s n).endpoint k = s.endpoint k) ∧ (∀ k, (setQueue s n).slot k = s.slot k) ∧
    (∀ v, (setQueue s n).uplink v = s.uplink v) := by
  simp [setQueue]

/-- What `setRegionBit` leaves alone. -/
@[simp] theorem setRegionBit_kept (s : State) (g n : Nat) :
    (setRegionBit s g n).pending = s.pending ∧ (setRegionBit s g n).fresh = s.fresh ∧
    (setRegionBit s g n).u = s.u ∧ (setRegionBit s g n).cfg = s.cfg ∧ (setRegionBit s g n).lock = s.lock ∧
    (setRegionBit s g n).epoch = s.epoch ∧ (setRegionBit s g n).epochAt = s.epochAt ∧
    (setRegionBit s g n).creqs = s.creqs ∧ (setRegionBit s g n).commits = s.commits ∧
    (setRegionBit s g n).cstat = s.cstat ∧ (setRegionBit s g n).cseq = s.cseq ∧
    (setRegionBit s g n).cap = s.cap ∧ (setRegionBit s g n).cycle = s.cycle ∧
    (setRegionBit s g n).chans = s.chans ∧ (setRegionBit s g n).lanes = s.lanes ∧
    (setRegionBit s g n).eps = s.eps ∧ (setRegionBit s g n).clusters = s.clusters ∧
    (setRegionBit s g n).regions = s.regions ∧ (setRegionBit s g n).asm_ = s.asm_ ∧
    (setRegionBit s g n).streams = s.streams ∧ (setRegionBit s g n).ul0 = s.ul0 ∧
    (setRegionBit s g n).ul1 = s.ul1 ∧ (setRegionBit s g n).routes = s.routes ∧
    (setRegionBit s g n).vault = s.vault ∧ (setRegionBit s g n).alarm = s.alarm ∧
    (setRegionBit s g n).nv = s.nv ∧ (setRegionBit s g n).upd = s.upd ∧
    (setRegionBit s g n).hoard = s.hoard ∧ (setRegionBit s g n).replay = s.replay ∧
    (setRegionBit s g n).grid = s.grid ∧ (setRegionBit s g n).mode = s.mode ∧
    (setRegionBit s g n).tdo = s.tdo ∧ (setRegionBit s g n).chain = s.chain ∧
    (∀ k, (setRegionBit s g n).lane k = s.lane k) ∧ (∀ k, (setRegionBit s g n).ep k = s.ep k) ∧
    (∀ k, (setRegionBit s g n).region k = s.region k) ∧
    (∀ k, (setRegionBit s g n).cluster k = s.cluster k) ∧ (∀ k, (setRegionBit s g n).chan k = s.chan k) ∧
    (∀ k, (setRegionBit s g n).stream k = s.stream k) ∧ (∀ k, (setRegionBit s g n).route k = s.route k) ∧
    (∀ k, (setRegionBit s g n).endpoint k = s.endpoint k) ∧ (∀ k, (setRegionBit s g n).slot k = s.slot k) ∧
    (∀ v, (setRegionBit s g n).uplink v = s.uplink v) := by
  simp [setRegionBit]

/-- What entering RUN does to the lanes leaves the rest alone. -/
theorem runLanes_rest (s : State) : runLanes s = { s with lanes := (runLanes s).lanes } := by
  have key : ∀ (f : Nat × LaneState → LaneState) (l : List (Nat × LaneState)) (s : State),
      l.foldl (fun s x => if x.2.lstate = .enumerating then s.setLane x.1 (f x) else s) s
        = { s with lanes := (l.foldl (fun s x => if x.2.lstate = .enumerating then s.setLane x.1 (f x) else s) s).lanes } := by
    intro f l
    induction l with
    | nil => intro s; rfl
    | cons x l ih =>
      intro s
      rw [List.foldl_cons, ih]
      split <;> rfl
  exact key _ s.lanes s

/-- What `setDev` leaves alone. -/
@[simp] theorem setDev_kept (s : State) (d : DevState) :
    (setDev s d).pending = s.pending ∧ (setDev s d).fresh = s.fresh ∧ (setDev s d).u = s.u ∧
    (setDev s d).cfg = s.cfg ∧ (setDev s d).lock = s.lock ∧ (setDev s d).epoch = s.epoch ∧
    (setDev s d).epochAt = s.epochAt ∧ (setDev s d).creqs = s.creqs ∧ (setDev s d).commits = s.commits ∧
    (setDev s d).cstat = s.cstat ∧ (setDev s d).cseq = s.cseq ∧ (setDev s d).cap = s.cap ∧
    (setDev s d).chans = s.chans ∧ (setDev s d).eps = s.eps ∧
    (setDev s d).clusters = s.clusters ∧ (setDev s d).regions = s.regions ∧ (setDev s d).asm_ = s.asm_ ∧
    (setDev s d).streams = s.streams ∧ (setDev s d).ul0 = s.ul0 ∧ (setDev s d).ul1 = s.ul1 ∧
    (setDev s d).routes = s.routes ∧ (setDev s d).vault = s.vault ∧ (setDev s d).alarm = s.alarm ∧
    (setDev s d).nv = s.nv ∧ (setDev s d).upd = s.upd ∧ (setDev s d).hoard = s.hoard ∧
    (setDev s d).replay = s.replay ∧ (setDev s d).grid = s.grid ∧ (setDev s d).tdo = s.tdo ∧
    (setDev s d).chain = s.chain ∧
    (∀ k, (setDev s d).ep k = s.ep k) ∧ (∀ k, (setDev s d).region k = s.region k) ∧
    (∀ k, (setDev s d).cluster k = s.cluster k) ∧ (∀ k, (setDev s d).chan k = s.chan k) ∧
    (∀ k, (setDev s d).stream k = s.stream k) ∧ (∀ k, (setDev s d).route k = s.route k) ∧
    (∀ k, (setDev s d).endpoint k = s.endpoint k) ∧ (∀ k, (setDev s d).slot k = s.slot k) ∧
    (∀ v, (setDev s d).uplink v = s.uplink v) := by
  unfold setDev
  split
  · simp
  · dsimp only
    split
    · rw [runLanes_rest]
      simp [State.ep, State.region, State.cluster, State.chan, State.stream, State.route, State.endpoint, State.slot,
        State.uplink]
    · simp

/-- Entering RUN may change lanes (R131); no other change of the device state does. -/
theorem setDev_lanes (s : State) (d : DevState) (h : d ≠ .run) : (setDev s d).lanes = s.lanes := by
  unfold setDev
  split
  · rfl
  · simp

/-- What `setTState` leaves alone. -/
@[simp] theorem setTState_kept (s : State) (d : TState) :
    (setTState s d).pending = s.pending ∧ (setTState s d).fresh = s.fresh ∧ (setTState s d).u = s.u ∧
    (setTState s d).cfg = s.cfg ∧ (setTState s d).lock = s.lock ∧ (setTState s d).epoch = s.epoch ∧
    (setTState s d).epochAt = s.epochAt ∧ (setTState s d).creqs = s.creqs ∧
    (setTState s d).commits = s.commits ∧ (setTState s d).cstat = s.cstat ∧ (setTState s d).cseq = s.cseq ∧
    (setTState s d).cap = s.cap ∧ (setTState s d).chans = s.chans ∧ (setTState s d).lanes = s.lanes ∧
    (setTState s d).eps = s.eps ∧ (setTState s d).clusters = s.clusters ∧
    (setTState s d).regions = s.regions ∧ (setTState s d).asm_ = s.asm_ ∧
    (setTState s d).streams = s.streams ∧ (setTState s d).ul0 = s.ul0 ∧ (setTState s d).ul1 = s.ul1 ∧
    (setTState s d).routes = s.routes ∧ (setTState s d).vault = s.vault ∧ (setTState s d).alarm = s.alarm ∧
    (setTState s d).nv = s.nv ∧ (setTState s d).upd = s.upd ∧ (setTState s d).hoard = s.hoard ∧
    (setTState s d).replay = s.replay ∧ (setTState s d).mode = s.mode ∧ (setTState s d).tdo = s.tdo ∧
    (setTState s d).chain = s.chain ∧ (∀ k, (setTState s d).lane k = s.lane k) ∧
    (∀ k, (setTState s d).ep k = s.ep k) ∧ (∀ k, (setTState s d).region k = s.region k) ∧
    (∀ k, (setTState s d).cluster k = s.cluster k) ∧ (∀ k, (setTState s d).chan k = s.chan k) ∧
    (∀ k, (setTState s d).stream k = s.stream k) ∧ (∀ k, (setTState s d).route k = s.route k) ∧
    (∀ k, (setTState s d).endpoint k = s.endpoint k) ∧ (∀ k, (setTState s d).slot k = s.slot k) ∧
    (∀ v, (setTState s d).uplink v = s.uplink v) := by
  unfold setTState; split <;> simp

/-- What `setHState` leaves alone. -/
@[simp] theorem setHState_kept (s : State) (d : HState) :
    (setHState s d).pending = s.pending ∧ (setHState s d).fresh = s.fresh ∧ (setHState s d).u = s.u ∧
    (setHState s d).cfg = s.cfg ∧ (setHState s d).lock = s.lock ∧ (setHState s d).epoch = s.epoch ∧
    (setHState s d).epochAt = s.epochAt ∧ (setHState s d).creqs = s.creqs ∧
    (setHState s d).commits = s.commits ∧ (setHState s d).cstat = s.cstat ∧ (setHState s d).cseq = s.cseq ∧
    (setHState s d).cap = s.cap ∧ (setHState s d).chans = s.chans ∧ (setHState s d).lanes = s.lanes ∧
    (setHState s d).eps = s.eps ∧ (setHState s d).clusters = s.clusters ∧
    (setHState s d).regions = s.regions ∧ (setHState s d).asm_ = s.asm_ ∧
    (setHState s d).streams = s.streams ∧ (setHState s d).ul0 = s.ul0 ∧ (setHState s d).ul1 = s.ul1 ∧
    (setHState s d).routes = s.routes ∧ (setHState s d).vault = s.vault ∧ (setHState s d).alarm = s.alarm ∧
    (setHState s d).nv = s.nv ∧ (setHState s d).upd = s.upd ∧ (setHState s d).replay = s.replay ∧
    (setHState s d).grid = s.grid ∧ (setHState s d).mode = s.mode ∧ (setHState s d).tdo = s.tdo ∧
    (setHState s d).chain = s.chain ∧ (∀ k, (setHState s d).lane k = s.lane k) ∧
    (∀ k, (setHState s d).ep k = s.ep k) ∧ (∀ k, (setHState s d).region k = s.region k) ∧
    (∀ k, (setHState s d).cluster k = s.cluster k) ∧ (∀ k, (setHState s d).chan k = s.chan k) ∧
    (∀ k, (setHState s d).stream k = s.stream k) ∧ (∀ k, (setHState s d).route k = s.route k) ∧
    (∀ k, (setHState s d).endpoint k = s.endpoint k) ∧ (∀ k, (setHState s d).slot k = s.slot k) ∧
    (∀ v, (setHState s d).uplink v = s.uplink v) := by
  unfold setHState; split <;> simp

/-- What `setUState` leaves alone. -/
@[simp] theorem setUState_kept (s : State) (d : UState) :
    (setUState s d).pending = s.pending ∧ (setUState s d).fresh = s.fresh ∧ (setUState s d).u = s.u ∧
    (setUState s d).cfg = s.cfg ∧ (setUState s d).lock = s.lock ∧ (setUState s d).epoch = s.epoch ∧
    (setUState s d).epochAt = s.epochAt ∧ (setUState s d).creqs = s.creqs ∧
    (setUState s d).commits = s.commits ∧ (setUState s d).cstat = s.cstat ∧ (setUState s d).cseq = s.cseq ∧
    (setUState s d).cap = s.cap ∧ (setUState s d).chans = s.chans ∧ (setUState s d).lanes = s.lanes ∧
    (setUState s d).eps = s.eps ∧ (setUState s d).clusters = s.clusters ∧
    (setUState s d).regions = s.regions ∧ (setUState s d).asm_ = s.asm_ ∧
    (setUState s d).streams = s.streams ∧ (setUState s d).ul0 = s.ul0 ∧ (setUState s d).ul1 = s.ul1 ∧
    (setUState s d).routes = s.routes ∧ (setUState s d).vault = s.vault ∧ (setUState s d).alarm = s.alarm ∧
    (setUState s d).nv = s.nv ∧ (setUState s d).hoard = s.hoard ∧ (setUState s d).replay = s.replay ∧
    (setUState s d).grid = s.grid ∧ (setUState s d).mode = s.mode ∧ (setUState s d).tdo = s.tdo ∧
    (setUState s d).chain = s.chain ∧ (∀ k, (setUState s d).lane k = s.lane k) ∧
    (∀ k, (setUState s d).ep k = s.ep k) ∧ (∀ k, (setUState s d).region k = s.region k) ∧
    (∀ k, (setUState s d).cluster k = s.cluster k) ∧ (∀ k, (setUState s d).chan k = s.chan k) ∧
    (∀ k, (setUState s d).stream k = s.stream k) ∧ (∀ k, (setUState s d).route k = s.route k) ∧
    (∀ k, (setUState s d).endpoint k = s.endpoint k) ∧ (∀ k, (setUState s d).slot k = s.slot k) ∧
    (∀ v, (setUState s d).uplink v = s.uplink v) := by
  unfold setUState; split <;> simp

/-! ### What raising and status do -/

@[simp] theorem setDev_mode (s : State) (d : DevState) : (setDev s d).mode = { s.mode with dev := d } := by
  unfold setDev; split
  · rename_i h; rw [← h]
  · dsimp only
    split
    · rw [runLanes_rest]
      simp
    · simp
@[simp] theorem setTState_grid (s : State) (d : TState) : (setTState s d).grid = { s.grid with tstate := d } := by
  unfold setTState; split
  · rename_i h; rw [← h]
  · simp
@[simp] theorem setHState_hoard (s : State) (d : HState) : (setHState s d).hoard = { s.hoard with hstate := d } := by
  unfold setHState; split
  · rename_i h; rw [← h]
  · simp
@[simp] theorem setUState_upd (s : State) (d : UState) : (setUState s d).upd = { s.upd with ustate := d } := by
  unfold setUState; split
  · rename_i h; rw [← h]
  · simp

/-- The bits of an SQ register after one more of them is set (R315). -/
@[simp] theorem sqSet_bits (r : SqReg) (m : BitVec 24) : (sqSet r m).bits = r.bits ||| m := rfl

theorem bit24_getLsbD {n : Nat} (h : n < 24) : (bit24 n).getLsbD n = true := by
  rw [bit24, BitVec.getLsbD_ofNat, Nat.testBit_two_pow_self, decide_eq_true h]; rfl

/-- GLB_STATUS on Port H after one more bit. -/
@[simp] theorem glb_h (s : State) (n : Nat) : (glb s n).h = { s.h with glb := sqSet s.h.glb (bit24 n) } := rfl
/-- GLB_STATUS on Port M after one more bit. -/
@[simp] theorem glb_m (s : State) (n : Nat) : (glb s n).m = { s.m with glb := sqSet s.m.glb (bit24 n) } := rfl

/-- The bit that `glb` sets is set (R327). -/
theorem glb_glbHas {s : State} {n : Nat} (h : n < 24) : (glb s n).glbHas n = true := by
  simp [State.glbHas, bit24_getLsbD h]

/-- A GLB_STATUS bit once set stays set when another is set. -/
theorem glbHas_glb {s : State} {n k : Nat} (h : s.glbHas k = true) : (glb s n).glbHas k = true := by
  simp only [State.glbHas, Bool.and_eq_true] at h ⊢
  simp [h.1, h.2]

/-- An event that `raise` forms stands in the router cycle (R374). -/
theorem raise_raised (s : State) (src origin : Nat) (data : Word) :
    Raised s (raise s src origin data) src origin data := by
  intro h
  simp [raise, h]

/-- `raise` keeps what already stands in the router cycle. -/
theorem raise_mem {s : State} {e : Event} (src origin : Nat) (data : Word) (h : e ∈ s.cycle) :
    e ∈ (raise s src origin data).cycle := by
  unfold raise; split
  · exact List.mem_append_left _ h
  · exact h

/-! ### Arrival -/

/-- A command that arrives has its effect in the state it meets. -/
theorem run_arrives {s u : State} {dt : Nat} (h : Arrives s dt u) (f : State → State) :
    run dt s f = .next (f u) := by
  simp [run, h.1, ← h.2]

/-- The end of a burst leaves the grid alone. -/
@[simp] theorem csnRise_grid (s : State) (p : Port) : (csnRise s p).grid = s.grid := by
  simp [csnRise]

/-- A frame that arrives acts in the state it meets. -/
theorem hostFrame_arrives {s u : State} {dt : Nat} {p : Port} (h : FrameArrives s dt p u) (f : State → State) :
    hostFrame dt p s f = .next (f u) := by
  rw [h.2.2]
  simp only [hostFrame, run, h.1, h.2.1, Bool.false_eq_true, if_false, csnRise_grid]

/-- A frame that carries a write acts in the state it meets, outside OFF. -/
theorem hostWrite_arrives {s u : State} {dt : Nat} {p : Port} (h : FrameArrives s dt p u)
    (ho : u.mode.dev ≠ .off) (f : State → State) : hostWrite dt p s f = .next (f u) := by
  rw [hostWrite, hostFrame_arrives h, if_neg ho]

end Sys2Proof.Machine
end

