-- ==== Sys2Proof/Laws/Kept.lean ====
section
/-!
SUPPORT. Parts of the state that an operation leaves alone, beyond what Event, EventFrame and StoreFrame say:
the theorem `<operation>_<field>`.
-/

namespace Sys2Proof.Machine

/-- A fold of operations that keep a part of the state keeps it. -/
theorem keep_foldl {α γ : Type} (v : State → γ) {f : State → α → State} {l : List α} {s : State}
    (h : ∀ s a, v (f s a) = v s) : v (l.foldl f s) = v s := by
  induction l generalizing s with
  | nil => rfl
  | cons a l ih => rw [List.foldl_cons, ih, h]

/-- A fold that carries the state beside other values. -/
theorem keep_foldl_at {α β γ : Type} (v : State → γ) (g : β → State) {f : β → α → β} {l : List α} {b : β}
    (h : ∀ b a, v (g (f b a)) = v (g b)) : v (g (l.foldl f b)) = v (g b) := by
  induction l generalizing b with
  | nil => rfl
  | cons a l ih => rw [List.foldl_cons, ih, h]

@[simp] theorem loadSavedLane_grid (s : State) (n : Nat) (x : LaneSaved) :
    (loadSavedLane s n x).grid = s.grid := by simp [loadSavedLane]

@[simp] theorem loadSavedLane_mode (s : State) (n : Nat) (x : LaneSaved) :
    (loadSavedLane s n x).mode = s.mode := by simp [loadSavedLane]

@[simp] theorem macRun_grid (u : Ul) (n : Nat) (s : State) : (macRun u n s).grid = s.grid := by
  induction n generalizing s with
  | zero => rfl
  | succ n ih =>
    simp only [macRun]
    repeat' first
      | with_reducible rfl
      | split
      | simp [ih]

@[simp] theorem macs_grid (s : State) :
    (macs s).grid = s.grid := by simp [macs]

@[simp] theorem handMac_grid (s : State) (f : TxFrame) (u : Ul) :
    (handMac s f u).grid = s.grid := by simp [handMac]

@[simp] theorem choosePort_grid (s : State) (k : Nat) :
    (choosePort s k).grid = s.grid := by simp [choosePort]

@[simp] theorem dropStopped_grid (s : State) (k : Nat) :
    (dropStopped s k).grid = s.grid := by
  unfold dropStopped
  dsimp only
  (repeat' split) <;> simp

@[simp] theorem refreshStream_grid (s : State) (k : Nat) :
    (refreshStream s k).grid = s.grid := by
  unfold refreshStream
  dsimp only
  (repeat' split) <;> simp

@[simp] theorem refreshStreams_grid (s : State) :
    (refreshStreams s).grid = s.grid := by exact keep_foldl State.grid fun s a => by simp

@[simp] theorem countDropped_grid (s : State) (k : Nat) (n : Nat) :
    (countDropped s k n).grid = s.grid := by simp [countDropped]

@[simp] theorem reroute_grid (u : Ul) (s : State) (f : TxFrame) :
    (reroute u s f).grid = s.grid := by
  unfold reroute
  dsimp only
  (repeat' split) <;> simp

@[simp] theorem portDown_grid (s : State) (u : Ul) (cause : Nat) :
    (portDown s u cause).grid = s.grid := by
  unfold portDown
  repeat' first
    | with_reducible rfl
    | with_reducible assumption
    | split
    | (with_reducible refine Eq.trans (keep_foldl State.grid ?_) ?_ <;> intros)
    | (with_reducible refine Eq.trans (keep_foldl_at State.grid Prod.fst ?_) ?_ <;> intros)
    | (with_reducible have h1 := pair_snd ‹_ = (_, _)›; subst h1)
    | (with_reducible have h1 := pair_fst ‹_ = (_, _)›; subst h1)
    | dsimp only
    | simp

@[simp] theorem requestStage_grid (s : State) (g : Nat) :
    (requestStage s g).grid = s.grid := by
  unfold requestStage
  split <;> simp

@[simp] theorem requestStage_mode (s : State) (g : Nat) :
    (requestStage s g).mode = s.mode := by
  unfold requestStage
  split <;> simp

@[simp] theorem commitStatus_grid (s : State) (c : CommitRun) (st : CommitState) (r : Reason) :
    (commitStatus s c st r).grid = s.grid := by simp [commitStatus]

@[simp] theorem commitStatus_mode (s : State) (c : CommitRun) (st : CommitState) (r : Reason) :
    (commitStatus s c st r).mode = s.mode := by simp [commitStatus]

@[simp] theorem commitEnd_grid (s : State) (c : CommitRun) (st : CommitState) (r : Reason) :
    (commitEnd s c st r).grid = s.grid := by simp [commitEnd]

@[simp] theorem setSowing_grid (s : State) (c : CommitRun) (b : Bool) :
    (setSowing s c b).grid = s.grid := by exact keep_foldl State.grid fun s a => by simp

@[simp] theorem setSowing_mode (s : State) (c : CommitRun) (b : Bool) :
    (setSowing s c b).mode = s.mode := by exact keep_foldl State.mode fun s a => by simp

@[simp] theorem syncStaging_grid (s : State) :
    (syncStaging s).grid = s.grid := by simp [syncStaging]

@[simp] theorem underOld_grid (s : State) (old : Tbl Word) :
    (underOld s old).grid = s.grid := by simp [underOld]

@[simp] theorem streamEffect_grid (old : Tbl Word) (s : State) (k : Nat) :
    (streamEffect old s k).grid = s.grid := by
  unfold streamEffect
  dsimp only
  (repeat' split) <;> simp

@[simp] theorem streamsEffect_grid (old : Tbl Word) (s : State) :
    (streamsEffect old s).grid = s.grid := by
  unfold streamsEffect
  repeat' first
    | with_reducible rfl
    | with_reducible assumption
    | split
    | (with_reducible refine Eq.trans (keep_foldl State.grid ?_) ?_ <;> intros)
    | (with_reducible refine Eq.trans (keep_foldl_at State.grid Prod.fst ?_) ?_ <;> intros)
    | (with_reducible have h1 := pair_snd ‹_ = (_, _)›; subst h1)
    | (with_reducible have h1 := pair_fst ‹_ = (_, _)›; subst h1)
    | dsimp only
    | simp

/-- What the changes of one lane and one region keep, `startLanes` keeps. -/
theorem startLanes_keep {γ : Type} (v : State → γ) (hl : ∀ s n f, v (s.onLane n f) = v s)
    (hr : ∀ s g f, v (s.onRegion g f) = v s) (hs : ∀ s n x, v (loadSavedLane s n x) = v s) (s : State) (warm : Bool) :
    v (startLanes s warm) = v s := by
  unfold startLanes
  dsimp only
  rw [keep_foldl v fun s a => by (repeat' split) <;> simp only [hl, hr, hs]]
  split
  · exact keep_foldl v fun s a => by split <;> simp only [hr]
  · rfl

@[simp] theorem startLanes_grid (s : State) (warm : Bool) : (startLanes s warm).grid = s.grid :=
  startLanes_keep State.grid (by simp) (by simp) (by simp) s warm

@[simp] theorem startLanes_mode (s : State) (warm : Bool) : (startLanes s warm).mode = s.mode :=
  startLanes_keep State.mode (by simp) (by simp) (by simp) s warm

@[simp] theorem markAbsent_mode (s : State) (h : Nat) :
    (markAbsent s h).mode = s.mode := by simp [markAbsent]

end Sys2Proof.Machine
end

