-- ==== Sys2Proof/Laws/StoreFrame.lean ====
section
/-!
SUPPORT. What the operations on lanes, regions, records and sensors leave alone: the stores of the
device. Field by field: `congrArg State.nv (declareShort_stores s n data)` says that declaring a short
keeps the non-volatile areas.
-/

namespace Sys2Proof.Machine

@[simp] theorem stores_mk (s : State)
    (fresh : Nat) (h : PortState) (m : PortState) (u : PortState) (cfg : CfgState) (epoch : BitVec 16)
    (epochAt : Option Nat) (cap : CaptureState) (cycle : List Event) (chans : Tbl ChanState)
    (lanes : Tbl LaneState) (eps : Tbl EpState) (clusters : Tbl ClusterState)
    (regions : Tbl RegionState) (asm_ : AsmState) (streams : Tbl StreamState) (routes : Tbl RouteState)
    (hoard : HoardState) (grid : GridState) (mode : ModeState) (chain : Tbl Endpoint) :
    State.stores
      { s with
        fresh := fresh, h := h, m := m, u := u, cfg := cfg, epoch := epoch, epochAt := epochAt
        cap := cap, cycle := cycle, chans := chans, lanes := lanes, eps := eps, clusters := clusters
        regions := regions, asm_ := asm_, streams := streams, routes := routes, hoard := hoard
        grid := grid, mode := mode, chain := chain } = s.stores := by
  cases s; rfl

/-- A fold of operations that keep `stores` keeps it. -/
theorem stores_foldl {α : Type} {f : State → α → State} {l : List α} {s : State}
    (h : ∀ s a, (f s a).stores = s.stores) : (l.foldl f s).stores = s.stores := by
  induction l generalizing s with
  | nil => rfl
  | cons a l ih => rw [List.foldl_cons, ih, h]

/-- A fold that carries the state beside other values. -/
theorem stores_foldl_at {α β : Type} (g : β → State) {f : β → α → β} {l : List α} {b : β}
    (h : ∀ b a, (g (f b a)).stores = (g b).stores) : (g (l.foldl f b)).stores = (g b).stores := by
  induction l generalizing b with
  | nil => rfl
  | cons a l ih => rw [List.foldl_cons, ih, h]

@[simp] theorem onHM_stores (s : State) (f : PortState → PortState) :
    (s.onHM f).stores = s.stores := by
  cases s; rfl
@[simp] theorem setPort_stores (s : State) (p : Port) (x : PortState) :
    (s.setPort p x).stores = s.stores := by
  cases p <;> rfl
@[simp] theorem setRegion_stores (s : State) (g : Nat) (x : RegionState) :
    (s.setRegion g x).stores = s.stores := by
  cases s; rfl
@[simp] theorem setChan_stores (s : State) (c : Nat) (x : ChanState) :
    (s.setChan c x).stores = s.stores := by
  cases s; rfl
@[simp] theorem setStream_stores (s : State) (k : Nat) (x : StreamState) :
    (s.setStream k x).stores = s.stores := by
  cases s; rfl
@[simp] theorem setLane_stores (s : State) (n : Nat) (x : LaneState) :
    (s.setLane n x).stores = s.stores := by
  cases s; rfl
@[simp] theorem setEp_stores (s : State) (i : Nat) (x : EpState) :
    (s.setEp i x).stores = s.stores := by
  cases s; rfl
@[simp] theorem setCluster_stores (s : State) (c : Nat) (x : ClusterState) :
    (s.setCluster c x).stores = s.stores := by
  cases s; rfl
@[simp] theorem setRoute_stores (s : State) (r : Nat) (x : RouteState) :
    (s.setRoute r x).stores = s.stores := by
  cases s; rfl
@[simp] theorem setEndpoint_stores (s : State) (i : Nat) (x : Endpoint) :
    (s.setEndpoint i x).stores = s.stores := by
  cases s; rfl
@[simp] theorem onGrid_stores (s : State) (f : GridState → GridState) :
    (s.onGrid f).stores = s.stores := by
  cases s; rfl
@[simp] theorem onMode_stores (s : State) (f : ModeState → ModeState) :
    (s.onMode f).stores = s.stores := by
  cases s; rfl
@[simp] theorem onHoard_stores (s : State) (f : HoardState → HoardState) :
    (s.onHoard f).stores = s.stores := by
  cases s; rfl
@[simp] theorem onAsm_stores (s : State) (f : AsmState → AsmState) :
    (s.onAsm f).stores = s.stores := by
  cases s; rfl

/-- What keeps `evRest` keeps `stores`. -/
theorem stores_of_evRest {a b : State} (h : a.evRest = b.evRest) : a.stores = b.stores := by
  have h := congrArg State.stores h
  exact h

@[simp] theorem draw_stores (s : State) :
    (State.draw s).2.stores = s.stores := by simp [State.draw]

@[simp] theorem setInForce_stores (s : State) (a : Nat) (w : Word) :
    (State.setInForce s a w).stores = s.stores := by simp [State.setInForce]

@[simp] theorem setStaged_stores (s : State) (p : Port) (a : Nat) (w : Word) :
    (State.setStaged s p a w).stores = s.stores := by
  unfold State.setStaged
  split <;> simp

@[simp] theorem setSecStaged_stores (s : State) (p : Port) (l : List (Nat × Word)) :
    (State.setSecStaged s p l).stores = s.stores := by
  unfold State.setSecStaged
  split <;> simp

@[simp] theorem seenAt_stores (s : State) (G : Int) : (s.seenAt G).stores = s.stores := by
  cases s; rfl

@[simp] theorem under_stores (s : State) (G : Int) (f : State → State) (h : ∀ s, (f s).stores = s.stores) :
    (State.under s G f).stores = s.stores := by simp [State.under, h]

@[simp] theorem glbPort_stores (s : State) (p : Port) (n : Nat) :
    (glbPort s p n).stores = s.stores := stores_of_evRest (glbPort_evRest _ _ _)
@[simp] theorem glb_stores (s : State) (n : Nat) :
    (glb s n).stores = s.stores := stores_of_evRest (glb_evRest _ _)
@[simp] theorem setAlarm_stores (s : State) (n : Nat) :
    (setAlarm s n).stores = s.stores := stores_of_evRest (setAlarm_evRest _ _)
@[simp] theorem setSupply_stores (s : State) (n : Nat) :
    (setSupply s n).stores = s.stores := stores_of_evRest (setSupply_evRest _ _)
@[simp] theorem setQueue_stores (s : State) (n : Nat) :
    (setQueue s n).stores = s.stores := stores_of_evRest (setQueue_evRest _ _)
@[simp] theorem setRegionBit_stores (s : State) (g : Nat) (n : Nat) :
    (setRegionBit s g n).stores = s.stores := stores_of_evRest (setRegionBit_evRest _ _ _)
@[simp] theorem countCrc_stores (s : State) (p : Port) :
    (countCrc s p).stores = s.stores := stores_of_evRest (countCrc_evRest _ _)
@[simp] theorem stopBursts_stores (s : State) :
    (stopBursts s).stores = s.stores := stores_of_evRest (stopBursts_evRest _)
@[simp] theorem ruleChange_stores (s : State) :
    (ruleChange s).stores = s.stores := by
  unfold ruleChange
  split <;> simp

@[simp] theorem raise_stores (s : State) (src : Nat) (origin : Nat) (data : Word) :
    (raise s src origin data).stores = s.stores := stores_of_evRest (raise_evRest _ _ _ _)
@[simp] theorem tickEvent_stores (s : State) :
    (tickEvent s).stores = s.stores := stores_of_evRest (tickEvent_evRest _)
@[simp] theorem retick_stores (s : State) :
    (retick s).stores = s.stores := stores_of_evRest (retick_evRest _)
@[simp] theorem wakeCond_stores (s : State) :
    (wakeCond s).stores = s.stores := stores_of_evRest (wakeCond_evRest _)
@[simp] theorem requestCapture_stores (s : State) (restart : Bool) :
    (requestCapture s restart).stores = s.stores := stores_of_evRest (requestCapture_evRest _ _)
@[simp] theorem queueItem_stores (s : State) (p : Port) (it : Item) :
    (queueItem s p it).stores = s.stores := stores_of_evRest (queueItem_evRest _ _ _)
@[simp] theorem spuDefer_stores (s : State) (c : Nat) :
    (spuDefer s c).stores = s.stores := stores_of_evRest (spuDefer_evRest _ _)
@[simp] theorem freezeEvent_stores (s : State) (it : Item) :
    (freezeEvent s it).stores = s.stores := stores_of_evRest (freezeEvent_evRest _ _)
@[simp] theorem consume_stores (s : State) (c : Nat) (it : Item) :
    (consume s c it).stores = s.stores := stores_of_evRest (consume_evRest _ _ _)
@[simp] theorem deliverItem_stores (s : State) (c : Nat) (it : Item) :
    (deliverItem s c it).stores = s.stores := stores_of_evRest (deliverItem_evRest _ _ _)
@[simp] theorem dropEvent_stores (s : State) (c : Nat) :
    (dropEvent s c).stores = s.stores := stores_of_evRest (dropEvent_evRest _ _)
@[simp] theorem deliverHeld_stores (s : State) (c : Nat) :
    (deliverHeld s c).stores = s.stores := stores_of_evRest (deliverHeld_evRest _ _)
@[simp] theorem deliverEarlier_stores (s : State) (c : Nat) :
    (deliverEarlier s c).stores = s.stores := stores_of_evRest (deliverEarlier_evRest _ _)
@[simp] theorem dropHeld_stores (s : State) (c : Nat) :
    (dropHeld s c).stores = s.stores := stores_of_evRest (dropHeld_evRest _ _)
@[simp] theorem deliverTo_stores (s : State) (ev : Event) (c : Nat) :
    (deliverTo s ev c).stores = s.stores := stores_of_evRest (deliverTo_evRest _ _ _)
@[simp] theorem deliverEvent_stores (s : State) (ev : Event) :
    (deliverEvent s ev).stores = s.stores := stores_of_evRest (deliverEvent_evRest _ _)
@[simp] theorem flushCycle_stores (s : State) :
    (flushCycle s).stores = s.stores := stores_of_evRest (flushCycle_evRest _)
@[simp] theorem advance_stores (s : State) (dt : Nat) :
    (advance s dt).stores = s.stores := stores_of_evRest (advance_evRest _ _)
@[simp] theorem csnRise_stores (s : State) (p : Port) :
    (csnRise s p).stores = s.stores := stores_of_evRest (csnRise_evRest _ _)
@[simp] theorem runLanes_stores (s : State) :
    (runLanes s).stores = s.stores := by
  unfold runLanes
  refine Eq.trans (stores_foldl fun s a => ?_) ?_
  all_goals (repeat' split) <;> simp

@[simp] theorem setDev_stores (s : State) (d : DevState) :
    (setDev s d).stores = s.stores := by
  unfold setDev
  (repeat' split) <;> simp

@[simp] theorem setTState_stores (s : State) (t : TState) :
    (setTState s t).stores = s.stores := stores_of_evRest (setTState_evRest _ _)
@[simp] theorem setHState_stores (s : State) (h : HState) :
    (setHState s h).stores = s.stores := stores_of_evRest (setHState_evRest _ _)
@[simp] theorem withFaults_stores (ns : List Nat) (s : State) (s' : State) :
    (withFaults ns s s').stores = s'.stores := by
  unfold withFaults
  repeat' first
    | with_reducible rfl
    | with_reducible assumption
    | split
    | (with_reducible refine Eq.trans (stores_foldl ?_) ?_ <;> intros)
    | dsimp only
    | simp

@[simp] theorem regionCalEvent_stores (s : State) (g : Nat) (why : Nat) :
    (regionCalEvent s g why).stores = s.stores := stores_of_evRest (regionCalEvent_evRest _ _ _)
@[simp] theorem dllTick_stores (s : State) (g : Nat) (e : Int) :
    (dllTick s g e).stores = s.stores := stores_of_evRest (dllTick_evRest _ _ _)
@[simp] theorem tdcTick_stores (s : State) (g : Nat) (err : Int) :
    (tdcTick s g err).stores = s.stores := stores_of_evRest (tdcTick_evRest _ _ _)
@[simp] theorem regionLoad_stores (s : State) (g : Nat) (w : Word) (loops : Word) :
    (regionLoad s g w loops).stores = s.stores := stores_of_evRest (regionLoad_evRest _ _ _ _)
@[simp] theorem regionLoops_stores (s : State) (g : Nat) (e : RegionErr) :
    (regionLoops s g e).stores = s.stores := stores_of_evRest (regionLoops_evRest _ _ _)
@[simp] theorem becomeSprout_stores (s : State) (i : Nat) :
    (becomeSprout s i).stores = s.stores := by
  unfold becomeSprout
  repeat' first
    | with_reducible rfl
    | with_reducible assumption
    | split
    | dsimp only
    | simp

@[simp] theorem enterSprouts_stores (s : State) (n : Nat) (start : Option Int) :
    (enterSprouts s n start).stores = s.stores := by
  unfold enterSprouts
  repeat' first
    | with_reducible rfl
    | with_reducible assumption
    | split
    | (with_reducible refine Eq.trans (stores_foldl ?_) ?_ <;> intros)
    | dsimp only
    | simp

@[simp] theorem swapSuspect_stores (s : State) (i : Nat) (why : Hold) :
    (swapSuspect s i why).stores = s.stores := by simp [swapSuspect]

@[simp] theorem releaseHold_stores (s : State) (i : Nat) :
    (releaseHold s i).stores = s.stores := by simp [releaseHold]

@[simp] theorem idRead_stores (s : State) (i : Nat) (v : BitVec 64) :
    (idRead s i v).stores = s.stores := by
  unfold idRead
  repeat' first
    | with_reducible rfl
    | with_reducible assumption
    | split
    | dsimp only
    | simp

@[simp] theorem sproutExit_stores (s : State) (i : Nat) :
    (sproutExit s i).stores = s.stores := by
  unfold sproutExit
  split <;> simp

@[simp] theorem loadEps_stores (s : State) (n : Nat) (loops : Word) (l : List (Nat × Word)) :
    (loadEps s n loops l).stores = s.stores := by
  unfold loadEps
  repeat' first
    | with_reducible rfl
    | with_reducible assumption
    | split
    | (with_reducible refine Eq.trans (stores_foldl ?_) ?_ <;> intros)
    | dsimp only
    | simp

@[simp] theorem applyLoad_stores (s : State) (n : Nat) (before : LaneCal) :
    (applyLoad s n before).stores = s.stores := by
  unfold applyLoad
  repeat' first
    | with_reducible rfl
    | with_reducible assumption
    | split
    | dsimp only
    | simp

@[simp] theorem noteEntryCal_stores (s : State) :
    (noteEntryCal s).stores = s.stores := stores_of_evRest (noteEntryCal_evRest _)
@[simp] theorem calSaveWrite_stores (s : State) :
    (calSaveWrite s).stores = s.stores := stores_of_evRest (calSaveWrite_evRest _)
@[simp] theorem loadSavedLane_stores (s : State) (n : Nat) (x : LaneSaved) :
    (loadSavedLane s n x).stores = s.stores := by simp [loadSavedLane]

@[simp] theorem hoardBlock_stores (s : State) (typ : Nat) (lane : Nat) (body : Bytes) :
    (hoardBlock s typ lane body).stores = s.stores := stores_of_evRest (hoardBlock_evRest _ _ _ _)
@[simp] theorem hoardDigest_stores (s : State) (num : BitVec 48) (body : Bytes) :
    (hoardDigest s num body).stores = s.stores := stores_of_evRest (hoardDigest_evRest _ _ _)
@[simp] theorem checkpoint_stores (s : State) (n : Nat) (num : BitVec 48) :
    (checkpoint s n num).stores = s.stores := stores_of_evRest (checkpoint_evRest _ _ _)
@[simp] theorem frameBoundary_stores (s : State) (n : Nat) (num : BitVec 48) :
    (frameBoundary s n num).stores = s.stores := by
  unfold frameBoundary
  repeat' first
    | with_reducible rfl
    | with_reducible assumption
    | split
    | dsimp only
    | simp

@[simp] theorem happen_stores (s : State) (n : Nat) (tick : BitVec 48) (kind : Nat) (pos : Nat) (arg : Bytes) :
    (happen s n tick kind pos arg).stores = s.stores := stores_of_evRest (happen_evRest _ _ _ _ _ _)
@[simp] theorem happenNow_stores (s : State) (n : Nat) (kind : Nat) (pos : Nat) (arg : Bytes) :
    (happenNow s n kind pos arg).stores = s.stores := stores_of_evRest (happenNow_evRest _ _ _ _ _)
@[simp] theorem happenAll_stores (s : State) (ns : List Nat) (kind : Nat) (arg : Bytes) :
    (happenAll s ns kind arg).stores = s.stores := stores_of_evRest (happenAll_evRest _ _ _ _)
@[simp] theorem hoardCommit_stores (s : State) (tc : BitVec 48) (eff : BitVec 48) (groups : BitVec 16) :
    (hoardCommit s tc eff groups).stores = s.stores := by
  unfold hoardCommit
  refine Eq.trans (stores_foldl fun s a => ?_) ?_
  all_goals (repeat' split) <;> simp

@[simp] theorem amendRaw_stores (s : State) (n : Nat) (early : List Int) :
    (amendRaw s n early).stores = s.stores := by simp [amendRaw]

@[simp] theorem regionLost_stores (s : State) (g : Nat) (num : BitVec 48) :
    (regionLost s g num).stores = s.stores := stores_of_evRest (regionLost_evRest _ _ _)
@[simp] theorem overflow_stores (s : State) (g : Nat) (data : Nat) :
    (overflow s g data).stores = s.stores := stores_of_evRest (overflow_evRest _ _ _)
@[simp] theorem writeOnTime_stores (s : State) (g : Nat) (p : Packet) :
    (writeOnTime s g p).stores = s.stores := by simp [writeOnTime]

@[simp] theorem writeLate_stores (s : State) (g : Nat) (p : Packet) :
    (writeLate s g p).stores = s.stores := by
  unfold writeLate
  repeat' first
    | with_reducible rfl
    | with_reducible assumption
    | split
    | dsimp only
    | simp

@[simp] theorem stagePacket_stores (s : State) (p : Packet) :
    (stagePacket s p).stores = s.stores := by
  unfold stagePacket
  repeat' first
    | with_reducible rfl
    | with_reducible assumption
    | split
    | dsimp only
    | simp

@[simp] theorem collect_stores (s : State) (p : Packet) :
    (collect s p).stores = s.stores := by
  unfold collect
  repeat' first
    | with_reducible rfl
    | with_reducible assumption
    | split
    | dsimp only
    | simp

@[simp] theorem handOver_stores (s : State) (n : Nat) (num : BitVec 48) (at_ : Int) (ran : Bool) (base
    : Int) (es : List Entry) (slot : optParam (Option Nat) none) :
    (handOver s n num at_ ran base es slot).stores = s.stores := by simp [handOver]

@[simp] theorem closeCycle_stores (s : State) (n : Nat) :
    (closeCycle s n).stores = s.stores := by
  unfold closeCycle
  repeat' first
    | with_reducible rfl
    | with_reducible assumption
    | split
    | dsimp only
    | simp

@[simp] theorem cutCycle_stores (s : State) (n : Nat) :
    (cutCycle s n).stores = s.stores := by
  unfold cutCycle
  (repeat' split) <;> simp

@[simp] theorem keepRaw_stores (s : State) (n : Nat) (at_ : Int) (fines : List Int) (lev : Int × Int) :
    (keepRaw s n at_ fines lev).stores = s.stores := by
  unfold keepRaw
  repeat' first
    | with_reducible rfl
    | with_reducible assumption
    | split
    | dsimp only
    | simp

@[simp] theorem conditionPacket_stores (s : State) (n : Nat) :
    (conditionPacket s n).stores = s.stores := by
  unfold conditionPacket
  repeat' first
    | with_reducible rfl
    | with_reducible assumption
    | split
    | dsimp only
    | simp

@[simp] theorem countQuiet_stores (s : State) (n : Nat) :
    (countQuiet s n).stores = s.stores := by
  unfold countQuiet
  repeat' first
    | with_reducible rfl
    | with_reducible assumption
    | split
    | (with_reducible refine Eq.trans (stores_foldl ?_) ?_ <;> intros)
    | dsimp only
    | simp

@[simp] theorem renewFault_stores (s : State) (n : Nat) :
    (renewFault s n).stores = s.stores := by
  unfold renewFault
  split <;> simp

@[simp] theorem closeMonitors_stores (s : State) (g : Nat) :
    (closeMonitors s g).stores = s.stores := stores_of_evRest (closeMonitors_evRest _ _)
@[simp] theorem writeStaged_stores (s : State) (g : Nat) :
    (writeStaged s g).stores = s.stores := by
  unfold writeStaged
  repeat' first
    | with_reducible rfl
    | with_reducible assumption
    | split
    | (with_reducible refine Eq.trans (stores_foldl ?_) ?_ <;> intros)
    | dsimp only
    | simp

@[simp] theorem swapBanks_stores (s : State) (g : Nat) :
    (swapBanks s g).stores = s.stores := by
  unfold swapBanks
  repeat' first
    | with_reducible rfl
    | with_reducible assumption
    | split
    | dsimp only
    | simp

@[simp] theorem cutoff_stores (s : State) : (cutoff s).stores = s.stores := by
  unfold cutoff
  repeat' first
    | with_reducible rfl
    | with_reducible assumption
    | split
    | (with_reducible refine Eq.trans (stores_foldl ?_) ?_ <;> intros)
    | dsimp only
    | simp

@[simp] theorem cutoffNow_stores (s : State) :
    (cutoffNow s).stores = s.stores := by
  unfold cutoffNow
  repeat' first
    | with_reducible rfl
    | with_reducible assumption
    | split
    | (extract_lets +onlyGivenNames s1
       have h1 : s1.stores = s.stores
       rotate_left
       clear_value s1
       rotate_left
       dsimp only [s1])
    | (extract_lets +onlyGivenNames x1; clear_value x1)
    | simp

@[simp] theorem passCutoff_stores (s : State) :
    (passCutoff s).stores = s.stores := by
  unfold passCutoff
  split <;> simp

@[simp] theorem flushRegion_stores (s : State) (g : Nat) :
    (flushRegion s g).stores = s.stores := by
  unfold flushRegion
  repeat' first
    | with_reducible rfl
    | with_reducible assumption
    | split
    | dsimp only
    | simp

@[simp] theorem dropCarried_stores (s : State) (g : Nat) (num : BitVec 48) (ns : List Nat) :
    (dropCarried s g num ns).stores = s.stores := stores_of_evRest (dropCarried_evRest _ _ _ _)
@[simp] theorem onEndpoint_stores (s : State) (i : Nat) (f : Endpoint → Endpoint) :
    (State.onEndpoint s i f).stores = s.stores := by simp [State.onEndpoint]

@[simp] theorem chainOff_stores (s : State) (n : Nat) (t : Int) :
    (chainOff s n t).stores = s.stores := by
  exact stores_foldl fun s a => by simp

@[simp] theorem chainSettle_stores (s : State) (n t : Nat) : (chainSettle s n t).stores = s.stores := by
  unfold chainSettle
  rw [draw_stores]
  refine (stores_foldl_at Prod.fst ?_).trans rfl
  intro a p
  dsimp only
  split <;> simp

@[simp] theorem chainForget_stores (s : State) :
    (chainForget s).stores = s.stores := by
  unfold chainForget
  refine Eq.trans (stores_foldl fun s a => ?_) ?_
  all_goals (repeat' split) <;> simp

@[simp] theorem sourceOff_stores (s : State) (n : Nat) (t : Int) :
    (sourceOff s n t).stores = s.stores := by simp [sourceOff]

@[simp] theorem sourceOn_stores (s : State) (n : Nat) :
    (sourceOn s n).stores = s.stores := by
  unfold sourceOn
  repeat' first
    | with_reducible rfl
    | with_reducible assumption
    | split
    | dsimp only
    | simp

@[simp] theorem accComplete_stores (s : State) (n : Nat) (st : AccState) (d0 : Option Word) (d1 :
    Option Word) :
    (accComplete s n st d0 d1).stores = s.stores := by
  unfold accComplete
  repeat' first
    | with_reducible rfl
    | with_reducible assumption
    | split
    | dsimp only
    | simp

@[simp] theorem refuseAccess_stores (s : State) (n : Nat) :
    (refuseAccess s n).stores = s.stores := by simp [refuseAccess]

@[simp] theorem endSpu_stores (s : State) (n : Nat) :
    (endSpu s n).stores = s.stores := by
  unfold endSpu
  repeat' first
    | with_reducible rfl
    | with_reducible assumption
    | split
    | dsimp only
    | simp

@[simp] theorem routeDrop_stores (s : State) (r : Nat) :
    (routeDrop s r).stores = s.stores := by simp [routeDrop]

@[simp] theorem dropRouteWrite_stores (s : State) (i : Nat) :
    (dropRouteWrite s i).stores = s.stores := by
  unfold dropRouteWrite
  split <;> simp

@[simp] theorem dropRouteWrites_stores (s : State) (n : Nat) :
    (dropRouteWrites s n).stores = s.stores := by
  exact stores_foldl fun s a => by simp

@[simp] theorem leaveWave_stores (s : State) (n : Nat) :
    (leaveWave s n).stores = s.stores := by
  unfold leaveWave
  repeat' first
    | with_reducible rfl
    | with_reducible assumption
    | split
    | dsimp only
    | simp

@[simp] theorem unpower_stores (s : State) (n : Nat) :
    (unpower s n).stores = s.stores := by
  unfold unpower
  repeat' first
    | with_reducible rfl
    | with_reducible assumption
    | split
    | (extract_lets +onlyGivenNames s1
       have h1 : s1.stores = s.stores
       rotate_left
       clear_value s1
       rotate_left
       dsimp only [s1])
    | simp

@[simp] theorem startClear_stores (s : State) (n : Nat) (t0 : Option Nat) (keep : Bool) :
    (startClear s n t0 keep).stores = s.stores := by simp [startClear]

@[simp] theorem laneSprouts_stores (s : State) (n : Nat) :
    (laneSprouts s n).stores = s.stores := by
  exact stores_foldl fun s a => by simp

@[simp] theorem powerLane_stores (s : State) (n : Nat) :
    (powerLane s n).stores = s.stores := by
  unfold powerLane
  repeat' first
    | with_reducible rfl
    | with_reducible assumption
    | split
    | dsimp only
    | simp

@[simp] theorem reclear_stores (s : State) (n : Nat) (t0 : Option Nat) :
    (reclear s n t0).stores = s.stores := by
  unfold reclear
  split <;> simp

@[simp] theorem resumeLane_stores (s : State) (n : Nat) :
    (resumeLane s n).stores = s.stores := by
  unfold resumeLane
  repeat' first
    | with_reducible rfl
    | with_reducible assumption
    | split
    | dsimp only
    | simp

@[simp] theorem happenLine_stores (s : State) (n : Nat) (code : Nat) (declared : Nat) :
    (happenLine s n code declared).stores = s.stores := stores_of_evRest (happenLine_evRest _ _ _ _)
@[simp] theorem declareShort_stores (s : State) (n : Nat) (data : Nat) :
    (declareShort s n data).stores = s.stores := by simp [declareShort]

@[simp] theorem declareStuck_stores (s : State) (n : Nat) (data : Nat) :
    (declareStuck s n data).stores = s.stores := by simp [declareStuck]

@[simp] theorem enumDone_stores (s : State) (n : Nat) :
    (enumDone s n).stores = s.stores := by simp [enumDone]

@[simp] theorem keepFlight_stores (s : State) (n : Nat) (T : Nat) :
    (keepFlight s n T).stores = s.stores := by
  unfold keepFlight
  repeat' first
    | with_reducible rfl
    | with_reducible assumption
    | split
    | dsimp only
    | simp

@[simp] theorem keepFlights_stores (s : State) (T : Nat) :
    (keepFlights s T).stores = s.stores := by
  exact stores_foldl fun s a => by simp

@[simp] theorem linStop_stores (s : State) (n : Nat) :
    (linStop s n).stores = s.stores := by simp [linStop]

@[simp] theorem linSleep_stores (s : State) (n : Nat) :
    (linSleep s n).stores = s.stores := by
  unfold linSleep
  split <;> simp

@[simp] theorem leaveMode_stores (s : State) (n : Nat) (t : Nat) :
    (leaveMode s n t).stores = s.stores := by
  unfold leaveMode
  refine Eq.trans (stores_foldl fun s a => ?_) ?_
  all_goals (repeat' split) <;> simp

@[simp] theorem leaveNow_stores (s : State) (n : Nat) :
    (leaveNow s n).stores = s.stores := by
  unfold leaveNow
  split <;> simp

@[simp] theorem leaveFlight_stores (s : State) (n : Nat) :
    (leaveFlight s n).stores = s.stores := by
  unfold leaveFlight
  repeat' first
    | with_reducible rfl
    | with_reducible assumption
    | split
    | dsimp only
    | simp

@[simp] theorem leaveLanes_stores (s : State) :
    (leaveLanes s).stores = s.stores := by
  unfold leaveLanes
  refine Eq.trans (stores_foldl fun s a => ?_) ?_
  all_goals (repeat' split) <;> simp

@[simp] theorem loseTail_stores (s : State) (ns : List Nat) :
    (loseTail s ns).stores = s.stores := by
  unfold loseTail
  repeat' first
    | with_reducible rfl
    | with_reducible assumption
    | split
    | (with_reducible refine Eq.trans (stores_foldl ?_) ?_ <;> intros)
    | dsimp only
    | simp

@[simp] theorem stopLanes_stores (s : State) (ns : List Nat) :
    (stopLanes s ns).stores = s.stores := by
  unfold stopLanes
  refine Eq.trans (stores_foldl fun s a => ?_) ?_
  all_goals (repeat' split) <;> simp

@[simp] theorem seqRestart_stores (s : State) (c : Nat) :
    (seqRestart s c).stores = s.stores := by
  unfold seqRestart
  repeat' first
    | with_reducible rfl
    | with_reducible assumption
    | split
    | (with_reducible refine Eq.trans (stores_foldl ?_) ?_ <;> intros)
    | dsimp only
    | simp

@[simp] theorem tickRestarts_stores (s : State) :
    (tickRestarts s).stores = s.stores := by
  unfold tickRestarts
  repeat' first
    | with_reducible rfl
    | with_reducible assumption
    | split
    | (with_reducible refine Eq.trans (stores_foldl ?_) ?_ <;> intros)
    | dsimp only
    | simp

@[simp] theorem onAknun_stores (s : State) (n : Nat) (f : State → State) (h : ∀ s, (f s).stores =
    s.stores) :
    (onAknun s n f).stores = s.stores := by
  unfold onAknun
  repeat' first
    | with_reducible rfl
    | with_reducible assumption
    | split
    | dsimp only
    | simp [h]

@[simp] theorem lineSlow_stores (s : State) (n : Nat) :
    (lineSlow s n).stores = s.stores := by
  unfold lineSlow
  repeat' first
    | with_reducible rfl
    | with_reducible assumption
    | split
    | dsimp only
    | simp

@[simp] theorem noteAdmits_stores (s : State) (g : Nat) :
    (noteAdmits s g).stores = s.stores := stores_of_evRest (noteAdmits_evRest _ _)
@[simp] theorem unstage_stores (p : Port) (s : State) (am : Nat × Word) :
    (unstage p s am).stores = s.stores := by simp [unstage]

@[simp] theorem discardSession_stores (s : State) (p : Port) :
    (discardSession s p).stores = s.stores := by
  unfold discardSession
  repeat' first
    | with_reducible rfl
    | with_reducible assumption
    | split
    | (with_reducible refine Eq.trans (stores_foldl ?_) ?_ <;> intros)
    | dsimp only
    | simp

@[simp] theorem supervise_stores (s : State) (p : Port) :
    (supervise s p).stores = s.stores := stores_of_evRest (supervise_evRest _ _)
@[simp] theorem closeSession_stores (s : State) (p : Port) :
    (closeSession s p).stores = s.stores := by
  unfold closeSession
  split <;> simp

@[simp] theorem abandonVault_stores (s : State) (p : Port) :
    (abandonVault s p).stores = s.stores := stores_of_evRest (abandonVault_evRest _ _)
@[simp] theorem closeBoth_stores (s : State) :
    (closeBoth s).stores = s.stores := by simp [closeBoth]

@[simp] theorem stopExport_stores (s : State) :
    (stopExport s).stores = s.stores := stores_of_evRest (stopExport_evRest _)
@[simp] theorem lockStreams_stores (s : State) :
    (lockStreams s).stores = s.stores := stores_of_evRest (lockStreams_evRest _)
@[simp] theorem refuseMode_stores (s : State) :
    (refuseMode s).stores = s.stores := stores_of_evRest (refuseMode_evRest _)
@[simp] theorem leaveDev_stores (s : State) (d : DevState) :
    (leaveDev s d).stores = s.stores := by
  unfold leaveDev
  repeat' first
    | with_reducible rfl
    | with_reducible assumption
    | split
    | (with_reducible refine Eq.trans (stores_foldl ?_) ?_ <;> intros)
    | dsimp only
    | simp

@[simp] theorem eraseStreamKeys_stores (s : State) :
    (eraseStreamKeys s).stores = s.stores := stores_of_evRest (eraseStreamKeys_evRest _)
@[simp] theorem choosePort_stores (s : State) (k : Nat) :
    (choosePort s k).stores = s.stores := stores_of_evRest (choosePort_evRest _ _)
@[simp] theorem dropStopped_stores (s : State) (k : Nat) :
    (dropStopped s k).stores = s.stores := by
  unfold dropStopped
  repeat' first
    | with_reducible rfl
    | with_reducible assumption
    | split
    | dsimp only
    | simp

@[simp] theorem refreshStream_stores (s : State) (k : Nat) :
    (refreshStream s k).stores = s.stores := by
  unfold refreshStream
  repeat' first
    | with_reducible rfl
    | with_reducible assumption
    | split
    | dsimp only
    | simp

@[simp] theorem refreshStreams_stores (s : State) :
    (refreshStreams s).stores = s.stores := by
  exact stores_foldl fun s a => by simp

@[simp] theorem countDropped_stores (s : State) (k : Nat) (n : Nat) :
    (countDropped s k n).stores = s.stores := stores_of_evRest (countDropped_evRest _ _ _)
@[simp] theorem keyCurrent_stores (s : State) (k : Nat) (num : BitVec 48) :
    (keyCurrent s k num).stores = s.stores := stores_of_evRest (keyCurrent_evRest _ _ _)
@[simp] theorem seqCheck_stores (s : State) (k : Nat) (num : BitVec 48) :
    (seqCheck s k num).stores = s.stores := stores_of_evRest (seqCheck_evRest _ _ _)
@[simp] theorem keyExpiredEvent_stores (s : State) (k : Nat) :
    (keyExpiredEvent s k).stores = s.stores := stores_of_evRest (keyExpiredEvent_evRest _ _)
@[simp] theorem markSent_stores (k : Nat) (s : State) (r : Rec × Bool) :
    (markSent k s r).stores = s.stores := stores_of_evRest (markSent_evRest _ _ _)
@[simp] theorem onSnap_stores (s : State) (num : BitVec 48) (f : Snap → Snap) :
    (onSnap s num f).stores = s.stores := by simp [onSnap]

@[simp] theorem eccRead_stores (num : BitVec 48) (s : State) (j : Nat) :
    (eccRead num s j).stores = s.stores := by
  unfold eccRead
  (repeat' split) <;> simp

@[simp] theorem dropJob_stores (k : Nat) (s : State) (j : SegJob) :
    (dropJob k s j).stores = s.stores := stores_of_evRest (dropJob_evRest _ _ _)
@[simp] theorem streamSnap_stores (x : Snap) (s : State) (k : Nat) :
    (streamSnap x s k).stores = s.stores := stores_of_evRest (streamSnap_evRest _ _ _)
@[simp] theorem startRephase_stores (s : State) (c : Int) (offset : Option Int) :
    (startRephase s c offset).stores = s.stores := stores_of_evRest (startRephase_evRest _ _ _)
@[simp] theorem hostRephase_stores (s : State) :
    (hostRephase s).stores = s.stores := stores_of_evRest (hostRephase_evRest _)
@[simp] theorem rephaseStep_stores (s : State) :
    (rephaseStep s).stores = s.stores := by
  unfold rephaseStep
  repeat' first
    | with_reducible rfl
    | with_reducible assumption
    | split
    | dsimp only
    | simp

@[simp] theorem steer_stores (s : State) :
    (steer s).stores = s.stores := by simp [steer]

@[simp] theorem farOff_stores (s : State) :
    (farOff s).stores = s.stores := stores_of_evRest (farOff_evRest _)
@[simp] theorem syncState_stores (s : State) (first : Bool) (e2 : Int) :
    (syncState s first e2).stores = s.stores := stores_of_evRest (syncState_evRest _ _ _)
@[simp] theorem syncRx_stores (s : State) (tai : Nat) (logInterval : Int) :
    (syncRx s tai logInterval).stores = s.stores := by
  unfold syncRx
  repeat' first
    | with_reducible rfl
    | with_reducible assumption
    | split
    | dsimp only
    | simp

@[simp] theorem changeFreq_stores (s : State) (mhz : Nat) :
    (changeFreq s mhz).stores = s.stores := by simp [changeFreq]

@[simp] theorem tryPower_stores (s : State) (n : Nat) :
    (tryPower s n).stores = s.stores := by
  unfold tryPower
  split <;> simp

@[simp] theorem requestStage_stores (s : State) (g : Nat) :
    (requestStage s g).stores = s.stores := stores_of_evRest (requestStage_evRest _ _)
@[simp] theorem dropStage_stores (s : State) (g : Nat) :
    (dropStage s g).stores = s.stores := stores_of_evRest (dropStage_evRest _ _)
@[simp] theorem happenRegion_stores (s : State) (ns : List Nat) (code : Nat) (begins : Nat) :
    (happenRegion s ns code begins).stores = s.stores := stores_of_evRest (happenRegion_evRest _ _ _ _)
@[simp] theorem suspendLane_stores (s : State) (n : Nat) :
    (suspendLane s n).stores = s.stores := by simp [suspendLane]

@[simp] theorem suspendRegion_stores (s : State) (g : Nat) :
    (suspendRegion s g).stores = s.stores := by
  unfold suspendRegion
  repeat' first
    | with_reducible rfl
    | with_reducible assumption
    | split
    | (with_reducible refine Eq.trans (stores_foldl ?_) ?_ <;> intros)
    | dsimp only
    | simp

@[simp] theorem resumeRegion_stores (s : State) (g : Nat) :
    (resumeRegion s g).stores = s.stores := by
  unfold resumeRegion
  repeat' first
    | with_reducible rfl
    | with_reducible assumption
    | split
    | (with_reducible refine Eq.trans (stores_foldl ?_) ?_ <;> intros)
    | dsimp only
    | simp

@[simp] theorem isolateRegion_stores (s : State) (g : Nat) :
    (isolateRegion s g).stores = s.stores := by
  unfold isolateRegion
  repeat' first
    | with_reducible rfl
    | with_reducible assumption
    | split
    | (with_reducible refine Eq.trans (stores_foldl ?_) ?_ <;> intros)
    | dsimp only
    | simp

@[simp] theorem setLive_stores (s : State) (b : Bool) (r : Rail) :
    (setLive s b r).stores = s.stores := stores_of_evRest (setLive_evRest _ _ _)

@[simp] theorem staleWaits_stores (s : State) (g : Nat) :
    (staleWaits s g).stores = s.stores := by
  unfold staleWaits
  refine Eq.trans (stores_foldl fun s a => ?_) ?_
  all_goals (repeat' split) <;> simp

@[simp] theorem startProbe_stores (s : State) (n : Nat) :
    (startProbe s n).stores = s.stores := by
  unfold startProbe
  repeat' first
    | with_reducible rfl
    | with_reducible assumption
    | split
    | dsimp only
    | simp

@[simp] theorem routeWriteTo_stores (s : State) (r : Nat) (v : Word) :
    (routeWriteTo s r v).stores = s.stores := by
  unfold routeWriteTo
  repeat' first
    | with_reducible rfl
    | with_reducible assumption
    | split
    | dsimp only
    | simp

@[simp] theorem routeFire_stores (s : State) (r : Nat) (v : Word) :
    (routeFire s r v).stores = s.stores := by
  unfold routeFire
  repeat' first
    | with_reducible rfl
    | with_reducible assumption
    | split
    | dsimp only
    | simp

@[simp] theorem dropIneligible_stores (s : State) :
    (dropIneligible s).stores = s.stores := by
  unfold dropIneligible
  refine Eq.trans (stores_foldl fun s a => ?_) ?_
  all_goals (repeat' split) <;> simp

@[simp] theorem routeEval_stores (s : State) (r : Nat) (rec_ : Option Rec) :
    (routeEval s r rec_).stores = s.stores := by
  unfold routeEval
  repeat' first
    | with_reducible rfl
    | with_reducible assumption
    | split
    | dsimp only
    | simp

@[simp] theorem routesSnap_stores (s : State) (x : Snap) :
    (routesSnap s x).stores = s.stores := by
  exact stores_foldl fun s a => by simp

@[simp] theorem openSession_stores (s : State) (p : Port) :
    (openSession s p).stores = s.stores := by
  unfold openSession
  repeat' first
    | with_reducible rfl
    | with_reducible assumption
    | split
    | dsimp only
    | simp

@[simp] theorem closeWrite_stores (s : State) (p : Port) :
    (closeWrite s p).stores = s.stores := by simp [closeWrite]

@[simp] theorem challengeExpire_stores (s : State) (p : Port) :
    (challengeExpire s p).stores = s.stores := stores_of_evRest (challengeExpire_evRest _ _)
@[simp] theorem losePort_stores (s : State) (p : Port) :
    (losePort s p).stores = s.stores := by simp [losePort]

@[simp] theorem heartbeatMiss_stores (s : State) (p : Port) :
    (heartbeatMiss s p).stores = s.stores := by
  unfold heartbeatMiss
  repeat' first
    | with_reducible rfl
    | with_reducible assumption
    | split
    | dsimp only
    | simp

@[simp] theorem setBoth_stores (s : State) (p : Port) (a : Nat) (m : Word) (d : Word) :
    (setBoth s p a m d).stores = s.stores := by simp [setBoth]

@[simp] theorem revertChannels_stores (s : State) (p : Port) :
    (revertChannels s p).stores = s.stores := by
  unfold revertChannels
  refine Eq.trans (stores_foldl fun s a => ?_) ?_
  all_goals (repeat' split) <;> simp

@[simp] theorem revertStreams_stores (s : State) (p : Port) :
    (revertStreams s p).stores = s.stores := stores_of_evRest (revertStreams_evRest _ _)
@[simp] theorem leaseEnd_stores (s : State) (p : Port) :
    (leaseEnd s p).stores = s.stores := by
  unfold leaseEnd
  repeat' first
    | with_reducible rfl
    | with_reducible assumption
    | split
    | dsimp only
    | simp

@[simp] theorem reclaimPort_stores (s : State) (p : Port) :
    (reclaimPort s p).stores = s.stores := by
  unfold reclaimPort
  split <;> simp

@[simp] theorem portReset_stores (s : State) (p : Port) :
    (portReset s p).stores = s.stores := by
  unfold portReset
  repeat' first
    | with_reducible rfl
    | with_reducible assumption
    | split
    | dsimp only
    | simp

@[simp] theorem zeroLoad_stores (p : Port) (r : VaultReq) (s : State) :
    (zeroLoad p r s).stores = s.stores := stores_of_evRest (zeroLoad_evRest _ _ _)
@[simp] theorem writeResult_stores (s : State) (p : Port) (r : VaultReq) (status : Nat) (data : Bytes) :
    (writeResult s p r status data).stores = s.stores := stores_of_evRest (writeResult_evRest _ _ _ _ _)
@[simp] theorem vaultBusy_stores (s : State) (p : Port) :
    (vaultBusy s p).stores = s.stores := stores_of_evRest (vaultBusy_evRest _ _)

@[simp] theorem endSecure_stores (s : State) (p : Port) (ctr : Word) :
    (endSecure s p ctr).stores = s.stores := by
  unfold endSecure
  split <;> simp

@[simp] theorem threshold_stores (s : State) (i : Nat) (st : RecState) (v : Word) :
    (threshold s i st v).stores = s.stores := by
  unfold threshold
  repeat' first
    | with_reducible rfl
    | with_reducible assumption
    | split
    | dsimp only
    | simp

@[simp] theorem drained_stores (num : BitVec 48) (s : State) (g : Nat) :
    (drained num s g).stores = s.stores := stores_of_evRest (drained_evRest _ _ _)
@[simp] theorem settleClears_stores (s : State) (b : Build) (i : Nat) :
    (settleClears s b i).stores = s.stores := by
  unfold settleClears
  dsimp only
  split <;> simp

@[simp] theorem resolveRec_stores (b : Build) (r : Resolve) (i : Nat) :
    (resolveRec b r i).st.stores = r.st.stores := by
  unfold resolveRec
  dsimp only
  split
  all_goals
    repeat' first
      | (simp; done)
      | split

@[simp] theorem assemble_stores (s : State) (b : Build) (fixed : Nat) (badEcc decayed flips : List Nat) :
    (assemble s b fixed badEcc decayed flips).1.stores = s.stores := by
  unfold assemble
  dsimp only
  with_reducible refine (stores_foldl fun s a => drained_stores _ s a).trans ?_
  rw [onAsm_stores]
  exact stores_foldl_at Resolve.st fun r i => resolveRec_stores b r i

@[simp] theorem endSow_stores (s : State) :
    (endSow s).stores = s.stores := by
  unfold endSow
  repeat' first
    | with_reducible rfl
    | with_reducible assumption
    | split
    | dsimp only
    | simp

@[simp] theorem snapDone_stores (s : State) (b : Build) (fixed : Nat) (badEcc : List Nat) (decayed :
    List Nat) (flips : List Nat) :
    (snapDone s b fixed badEcc decayed flips).stores = s.stores := by
  unfold snapDone
  repeat' first
    | with_reducible rfl
    | with_reducible assumption
    | split
    | (with_reducible refine Eq.trans (stores_foldl ?_) ?_ <;> intros)
    | (with_reducible have h1 := pair_snd ‹_ = (_, _)›; subst h1)
    | (with_reducible have h1 := pair_fst ‹_ = (_, _)›; subst h1)
    | dsimp only
    | simp

@[simp] theorem candidate_stores (s : State) (before : List CommitRun) (d : List (Nat × Word)) :
    (candidate s before d).stores = s.stores := by simp [candidate]

@[simp] theorem takeSec_stores (s : State) (p : Port) (g : BitVec 16) :
    (takeSec s p g).stores = s.stores := by simp [takeSec]

@[simp] theorem takeLoad_stores (s : State) (p : Port) (g : BitVec 16) :
    (takeLoad s p g).stores = s.stores := by
  unfold takeLoad
  repeat' first
    | with_reducible rfl
    | with_reducible assumption
    | split
    | (with_reducible refine Eq.trans (stores_foldl ?_) ?_ <;> intros)
    | dsimp only
    | simp

@[simp] theorem setSowing_stores (s : State) (c : CommitRun) (b : Bool) :
    (setSowing s c b).stores = s.stores := stores_of_evRest (setSowing_evRest _ _ _)
@[simp] theorem sownFrom_stores (s : State) (c : CommitRun) :
    (sownFrom s c).stores = s.stores := by simp [sownFrom]

@[simp] theorem writeReports_stores (s : State) (k : State) (c : CommitRun) (eff : BitVec 48) :
    (writeReports s k c eff).stores = s.stores := stores_of_evRest (writeReports_evRest _ _ _ _)
@[simp] theorem syncStaging_stores (s : State) :
    (syncStaging s).stores = s.stores := by simp [syncStaging]

@[simp] theorem descEffect_stores (old : Tbl Word) (s : State) (i : Nat) :
    (descEffect old s i).stores = s.stores := by
  unfold descEffect
  repeat' first
    | with_reducible rfl
    | with_reducible assumption
    | split
    | dsimp only
    | simp

@[simp] theorem accessEffect_stores (old : Tbl Word) (s : State) (n : Nat) (modeChanged : Bool) :
    (accessEffect old s n modeChanged).stores = s.stores := by
  unfold accessEffect
  repeat' first
    | with_reducible rfl
    | with_reducible assumption
    | split
    | dsimp only
    | simp

@[simp] theorem modeEffect_stores (old : Tbl Word) (s : State) (n : Nat) :
    (modeEffect old s n).stores = s.stores := by
  unfold modeEffect
  repeat' first
    | with_reducible rfl
    | with_reducible assumption
    | split
    | dsimp only
    | simp

@[simp] theorem spuEffect_stores (s : State) (n : Nat) :
    (spuEffect s n).stores = s.stores := by
  unfold spuEffect
  (repeat' split) <;> simp

@[simp] theorem topEffect_stores (s : State) (n : Nat) :
    (topEffect s n).stores = s.stores := by
  unfold topEffect
  repeat' first
    | with_reducible rfl
    | with_reducible assumption
    | split
    | dsimp only
    | simp

@[simp] theorem laneEffect_stores (old : Tbl Word) (s : State) (n : Nat) :
    (laneEffect old s n).stores = s.stores := by
  unfold laneEffect
  repeat' first
    | with_reducible rfl
    | with_reducible assumption
    | split
    | dsimp only
    | simp

@[simp] theorem clusterEffect_stores (s : State) (c : Nat) :
    (clusterEffect s c).stores = s.stores := by simp [clusterEffect]

@[simp] theorem sowEffect_stores (old : Tbl Word) (s : State) (c : CommitRun) :
    (sowEffect old s c).stores = s.stores := by
  unfold sowEffect
  repeat' first
    | with_reducible rfl
    | with_reducible assumption
    | split
    | (with_reducible refine Eq.trans (stores_foldl ?_) ?_ <;> intros)
    | dsimp only
    | simp

@[simp] theorem underOld_stores (s : State) (old : Tbl Word) :
    (underOld s old).stores = s.stores := by simp [underOld]

@[simp] theorem streamEffect_stores (old : Tbl Word) (s : State) (k : Nat) :
    (streamEffect old s k).stores = s.stores := by
  unfold streamEffect
  repeat' first
    | with_reducible rfl
    | with_reducible assumption
    | split
    | dsimp only
    | simp

@[simp] theorem routesEffect_stores (old : Tbl Word) (s : State) :
    (routesEffect old s).stores = s.stores := by
  unfold routesEffect
  refine Eq.trans (stores_foldl fun s a => ?_) ?_
  all_goals (repeat' split) <;> simp

@[simp] theorem channelsEffect_stores (s : State) :
    (channelsEffect s).stores = s.stores := stores_of_evRest (channelsEffect_evRest _)
@[simp] theorem calEffect_stores (s : State) (loads : List (Nat × Word)) :
    (calEffect s loads).stores = s.stores := by
  unfold calEffect
  repeat' first
    | with_reducible rfl
    | with_reducible assumption
    | split
    | (with_reducible refine Eq.trans (stores_foldl ?_) ?_ <;> intros)
    | dsimp only
    | simp

@[simp] theorem discardWrite_stores (s : State) (p : Port) (groups : BitVec 16) :
    (discardWrite s p groups).stores = s.stores := by
  unfold discardWrite
  repeat' first
    | with_reducible rfl
    | with_reducible assumption
    | split
    | (with_reducible refine Eq.trans (stores_foldl ?_) ?_ <;> intros)
    | dsimp only
    | simp

@[simp] theorem checkExport_stores (s : State) :
    (checkExport s).stores = s.stores := stores_of_evRest (checkExport_evRest _)
@[simp] theorem beginTrace_stores (s : State) (lanes : List Nat) :
    (beginTrace s lanes).stores = s.stores := stores_of_evRest (beginTrace_evRest _ _)
@[simp] theorem checkpointAll_stores (s : State) :
    (checkpointAll s).stores = s.stores := by
  exact stores_foldl fun s a => by simp

@[simp] theorem beginBlocks_stores (s : State) :
    (beginBlocks s).stores = s.stores := by
  unfold beginBlocks
  repeat' first
    | with_reducible rfl
    | with_reducible assumption
    | split
    | dsimp only
    | simp

@[simp] theorem startRing_stores (s : State) :
    (startRing s).stores = s.stores := by simp [startRing]

@[simp] theorem startExport_stores (s : State) :
    (startExport s).stores = s.stores := by
  unfold startExport
  repeat' first
    | with_reducible rfl
    | with_reducible assumption
    | split
    | dsimp only
    | simp

@[simp] theorem arm_stores (s : State) (w : Word) :
    (arm s w).stores = s.stores := by
  unfold arm
  split <;> simp

@[simp] theorem exportChange_stores (s : State) (w : Word) :
    (exportChange s w).stores = s.stores := by
  unfold exportChange
  split <;> simp

@[simp] theorem disarm_stores (s : State) :
    (disarm s).stores = s.stores := stores_of_evRest (disarm_evRest _)
@[simp] theorem freeze_stores (s : State) (it : Option Item) :
    (freeze s it).stores = s.stores := stores_of_evRest (freeze_evRest _ _)
@[simp] theorem freezeTick_stores (s : State) (w : Word) :
    (freezeTick s w).stores = s.stores := stores_of_evRest (freezeTick_evRest _ _)
@[simp] theorem hoardWrite_stores (s : State) (w : Word) :
    (hoardWrite s w).stores = s.stores := stores_of_evRest (hoardWrite_evRest _ _)
@[simp] theorem hoardCtlTick_stores (s : State) :
    (hoardCtlTick s).stores = s.stores := stores_of_evRest (hoardCtlTick_evRest _)
@[simp] theorem exportResume_stores (s : State) :
    (exportResume s).stores = s.stores := by
  unfold exportResume
  split <;> simp

@[simp] theorem exportKeyTick_stores (s : State) :
    (exportKeyTick s).stores = s.stores := stores_of_evRest (exportKeyTick_evRest _)
@[simp] theorem rawPeriod_stores (num : BitVec 48) (at_ : Nat) (stop : Nat) (s : State) (n : Nat) :
    (rawPeriod num at_ stop s n).stores = s.stores := by simp [rawPeriod]

@[simp] theorem putDigests_stores (s : State) :
    (putDigests s).stores = s.stores := stores_of_evRest (putDigests_evRest _)
@[simp] theorem rawPeriods_stores (s : State) (num : BitVec 48) (at_ : Nat) (stop : Nat) :
    (rawPeriods s num at_ stop).stores = s.stores := by
  unfold rawPeriods
  repeat' first
    | with_reducible rfl
    | with_reducible assumption
    | split
    | (with_reducible refine Eq.trans (stores_foldl ?_) ?_ <;> intros)
    | dsimp only
    | simp

@[simp] theorem hoardToReplay_stores (s : State) :
    (hoardToReplay s).stores = s.stores := stores_of_evRest (hoardToReplay_evRest _)
@[simp] theorem traceReset_stores (s : State) (n : Nat) (num : BitVec 48) (kind : Nat) :
    (traceReset s n num kind).stores = s.stores := stores_of_evRest (traceReset_evRest _ _ _ _)
@[simp] theorem traceFrame_stores (s : State) (n : Nat) (num : BitVec 48) (at_ : Int) (kind : Nat) (cmd
    : Nat) (pos : Nat) (mark : Int) (strike : Int) (hi : Nat) (lo : Nat) (hasLow : Bool) (a : FrameRun) :
    (traceFrame s n num at_ kind cmd pos mark strike hi lo hasLow a).stores = s.stores := by
  unfold traceFrame
  repeat' first
    | with_reducible rfl
    | with_reducible assumption
    | split
    | dsimp only
    | simp

@[simp] theorem groupRead_stores (s : State) (i : Nat) (v : BitVec 64) :
    (groupRead s i v).stores = s.stores := by
  unfold groupRead
  split <;> simp

@[simp] theorem storeMessage_stores (s : State) (i : Nat) (m : Word) :
    (storeMessage s i m).stores = s.stores := by simp [storeMessage]

@[simp] theorem huskMessage_stores (s : State) (n : Nat) (i : Nat) (m : Word) :
    (huskMessage s n i m).1.stores = s.stores := by
  unfold huskMessage
  repeat' first
    | with_reducible rfl
    | with_reducible assumption
    | split
    | dsimp only
    | simp

@[simp] theorem huskBit_stores (s : State) (n : Nat) (i : Nat) (word : Word) :
    (huskBit s n i word).1.stores = s.stores := by
  unfold huskBit
  repeat' first
    | with_reducible rfl
    | with_reducible assumption
    | split
    | dsimp only
    | simp

@[simp] theorem huskDrop_stores (s : State) (i : Nat) :
    (huskDrop s i).stores = s.stores := by simp [huskDrop]

@[simp] theorem devSample_stores (s : State) (n : Nat) (d : Int) :
    (devSample s n d).stores = s.stores := by simp [devSample]

@[simp] theorem answerMonitors_stores (s : State) (n : Nat) (q : DecodeWith) (d : Decoded) :
    (answerMonitors s n q d).stores = s.stores := by
  unfold answerMonitors
  repeat' first
    | with_reducible rfl
    | with_reducible assumption
    | split
    | (with_reducible refine Eq.trans (stores_foldl ?_) ?_ <;> intros)
    | dsimp only
    | simp

@[simp] theorem jumpSuspect_stores (s : State) (i : Nat) (x : Int) :
    (jumpSuspect s i x).stores = s.stores := by simp [jumpSuspect]

@[simp] theorem tempoSample_stores (s : State) (n : Nat) (p : Nat) (q : DecodeWith) (d : Decoded) :
    (tempoSample s n p q d).1.stores = s.stores := by
  unfold tempoSample
  repeat' first
    | with_reducible rfl
    | with_reducible assumption
    | split
    | dsimp only
    | simp

@[simp] theorem takeAnswer_stores (s : State) (n p : Nat) (num : BitVec 48) (base : Int) (q : DecodeWith) (d : Decoded) :
    (takeAnswer s n p num base q d).1.stores = s.stores := by
  unfold takeAnswer
  repeat' first
    | with_reducible rfl
    | with_reducible assumption
    | split
    | (with_reducible have h1 := pair_snd ‹_ = (_, _)›; subst h1)
    | (with_reducible have h1 := pair_fst ‹_ = (_, _)›; subst h1)
    | (extract_lets +onlyGivenNames s1
       have h1 : s1.stores = s.stores
       rotate_left
       clear_value s1
       rotate_left
       dsimp only [s1])
    | (extract_lets +onlyGivenNames x1; clear_value x1)
    | simp

@[simp] theorem slowMarks_stores (s : State) (n : Nat) :
    (slowMarks s n).stores = s.stores := by
  unfold slowMarks
  repeat' first
    | with_reducible rfl
    | with_reducible assumption
    | split
    | (with_reducible refine Eq.trans (stores_foldl ?_) ?_ <;> intros)
    | dsimp only
    | simp

@[simp] theorem stepLane_stores (s : State) (n : Nat) :
    (stepLane s n).stores = s.stores := by
  exact stores_foldl fun s a => by simp

@[simp] theorem lineCounts_stores (s : State) (n : Nat) :
    (lineCounts s n).stores = s.stores := by
  unfold lineCounts
  repeat' first
    | with_reducible rfl
    | with_reducible assumption
    | split
    | dsimp only
    | simp

@[simp] theorem levelSample_stores (s : State) (n : Nat) (hi : Nat) (lo : Nat) :
    (levelSample s n hi lo).stores = s.stores := by simp [levelSample]

@[simp] theorem aknunBoundary_stores (s : State) (n : Nat) (before : LaneCal) (hi : Nat) (markLow :
    Nat) (lo : Option Nat) (diffs : List Int) (seeds : List Nat) :
    (aknunBoundary s n before hi markLow lo diffs seeds).stores = s.stores := by
  unfold aknunBoundary
  repeat' first
    | with_reducible rfl
    | with_reducible assumption
    | split
    | (with_reducible refine Eq.trans (stores_foldl ?_) ?_ <;> intros)
    | dsimp only
    | simp

@[simp] theorem missFrame_stores (s : State) (n : Nat) (missed : List (Fin 16 × Bool)) :
    (missFrame s n missed).stores = s.stores := by
  exact stores_foldl fun s a => by simp

@[simp] theorem sampleStrike_stores (s : State) (n : Nat) (top : Nat) (whole : Bool) (missed : List
    (Fin 16 × Bool)) :
    (sampleStrike s n top whole missed).stores = s.stores := by
  unfold sampleStrike
  repeat' first
    | with_reducible rfl
    | with_reducible assumption
    | split
    | (with_reducible refine Eq.trans (stores_foldl ?_) ?_ <;> intros)
    | dsimp only
    | simp

@[simp] theorem lineAfter_stores (s : State) (n : Nat) (cut : Bool) :
    (lineAfter s n cut).stores = s.stores := by simp [lineAfter]

@[simp] theorem harvestPos_stores (n : Nat) (num : BitVec 48) (base dE : Int) (shed : List Nat)
    (ws : List AnswerWire) (h : HarvestRun) (p : Nat) :
    (harvestPos n num base dE shed ws h p).st.stores = h.st.stores := by
  unfold harvestPos
  repeat' first
    | with_reducible rfl
    | with_reducible assumption
    | split
    | (with_reducible have h1 := pair_fst ‹_ = (_, _)›; subst h1)
    | (extract_lets +onlyGivenNames s1
       have h1 : s1.stores = h.st.stores
       rotate_left
       clear_value s1
       rotate_left
       dsimp only [s1])
    | (extract_lets +onlyGivenNames x1; clear_value x1)
    | simp

@[simp] theorem harvestFrame_stores (s : State) (n top cmd kind : Nat) (num : BitVec 48) (at_ : Int) (w : HarvestWire) :
    (harvestFrame s n top cmd kind num at_ w).st.stores = s.stores := by
  unfold harvestFrame
  dsimp only
  rw [lineAfter_stores, aknunBoundary_stores, traceFrame_stores, State.onLane_eq, setLane_stores]
  refine (stores_foldl_at HarvestRun.st fun h p => harvestPos_stores _ _ _ _ _ _ h p).trans ?_
  repeat' first
    | with_reducible rfl
    | split
    | simp

@[simp] theorem runHarvest_stores (s : State) (n top cmd : Nat) (num : BitVec 48) (at_ : Int) (w : HarvestWire) :
    (runHarvest s n top cmd num at_ w).stores = s.stores := by
  simp [runHarvest]

@[simp] theorem cutAt_stores (s : State) (n : Nat) (t0 : Nat) (top : Nat) (whole : Bool) (mark : Int) :
    (cutAt s n t0 top whole mark).stores = s.stores := by
  unfold cutAt
  repeat' first
    | with_reducible rfl
    | with_reducible assumption
    | split
    | (with_reducible refine Eq.trans (stores_foldl ?_) ?_ <;> intros)
    | dsimp only
    | simp

@[simp] theorem cutHarvest_stores (s : State) (n t0 : Nat) : (cutHarvest s n t0).stores = s.stores := by
  unfold cutHarvest
  split
  · split <;> simp
  · refine under_stores _ _ _ fun s => ?_
    repeat' first
      | with_reducible rfl
      | split
      | simp

@[simp] theorem silentSprout_stores (s : State) (i : Nat) :
    (silentSprout s i).stores = s.stores := by
  unfold silentSprout
  split <;> simp

@[simp] theorem accessFrame_stores (s : State) (n : Nat) (num : BitVec 48) (at_ : Int) (c : CmdFrame)
    (addr : Nat) (w : FrameWire) :
    (accessFrame s n num at_ c addr w).1.stores = s.stores := by
  unfold accessFrame
  repeat' first
    | with_reducible rfl
    | with_reducible assumption
    | split
    | dsimp only
    | simp

@[simp] theorem startGrowth_stores (s : State) (n : Nat) :
    (startGrowth s n).stores = s.stores := by
  unfold startGrowth
  repeat' first
    | with_reducible rfl
    | with_reducible assumption
    | split
    | dsimp only
    | simp

/-- What a command does in its slot and keeps, the slot keeps. -/
theorem inSlot_stores (s : State) (n k : Nat) (c : CmdFrame) (x : FrameWire)
    (f : State → BitVec 48 → Int → State) (h : ∀ s a b, (f s a b).stores = s.stores) :
    (inSlot s n k c x f).stores = s.stores := by
  refine under_stores _ _ _ fun s => ?_
  dsimp only
  repeat' first
    | with_reducible rfl
    | split
    | simp [h]

@[simp] theorem atPos_stores (s : State) (n : Nat) (pos : Nat) (missed : List (Fin 16 × Bool)) (f :
    Endpoint → Endpoint) :
    (atPos s n pos missed f).stores = s.stores := by
  unfold atPos
  split <;> simp

@[simp] theorem atAwake_stores (s : State) (n : Nat) (pos : Nat) (missed : List (Fin 16 × Bool)) (f :
    Endpoint → Endpoint) :
    (atAwake s n pos missed f).stores = s.stores := by simp [atAwake]

@[simp] theorem takePos_stores (s : State) (n pos : Nat) (missed : List (Fin 16 × Bool)) (d : Option Decoded) :
    (takePos s n pos missed d).stores = s.stores := by
  unfold takePos
  split
  · rfl
  · dsimp only
    split <;> simp

@[simp] theorem enumFailed_stores (s : State) (n : Nat) (p : Nat) :
    (enumFailed s n p).stores = s.stores := by
  unfold enumFailed
  repeat' first
    | with_reducible rfl
    | with_reducible assumption
    | split
    | dsimp only
    | simp

@[simp] theorem enumAnswer_stores (s : State) (n : Nat) (p : Nat) (d : Option Decoded) :
    (enumAnswer s n p d).stores = s.stores := by
  unfold enumAnswer
  (repeat' split) <;> simp

@[simp] theorem warmEp_stores (s : State) (i : Nat) (v : BitVec 64) :
    (warmEp s i v).stores = s.stores := by
  unfold warmEp
  (repeat' split) <;> simp

@[simp] theorem identAnswer_stores (s : State) (n : Nat) (p : Nat) (d : Option Decoded) :
    (identAnswer s n p d).stores = s.stores := by
  unfold identAnswer
  repeat' first
    | with_reducible rfl
    | with_reducible assumption
    | split
    | dsimp only
    | simp

@[simp] theorem closeAnswer_stores (s : State) (n : Nat) (p : Nat) (d : Option Decoded) :
    (closeAnswer s n p d).stores = s.stores := by
  unfold closeAnswer
  split <;> simp

@[simp] theorem accAnswer_stores (s : State) (n : Nat) (d : Option Decoded) (w : List Nat → State →
    State) (h : ∀ x s, (w x s).stores = s.stores) :
    (accAnswer s n d w).stores = s.stores := by
  unfold accAnswer
  split <;> simp [h]

@[simp] theorem endpointWrite_stores (s : State) (n : Nat) (pos : Nat) (addr : Nat) (v : Word) (missed
    : List (Fin 16 × Bool)) (d : Option Decoded) :
    (endpointWrite s n pos addr v missed d).stores = s.stores := by
  unfold endpointWrite
  split <;> simp

@[simp] theorem hostIdent_stores (s : State) (i : Nat) (v : BitVec 64) :
    (hostIdent s i v).stores = s.stores := by
  unfold hostIdent
  repeat' first
    | with_reducible rfl
    | with_reducible assumption
    | split
    | dsimp only
    | simp

@[simp] theorem chainReset_stores (s : State) (n t : Nat) : (chainReset s n t).1.stores = s.stores := by
  simp only [chainReset, chainSettle_stores, chainOff_stores, traceReset_stores]

@[simp] theorem openPass_stores (s : State) (n : Nat) (p : Nat) (missed : List (Fin 16 × Bool)) :
    (openPass s n p missed).stores = s.stores := by simp [openPass]

@[simp] theorem openedAt_stores (s : State) (n : Nat) (p : Nat) :
    (openedAt s n p).stores = s.stores := by simp [openedAt]

@[simp] theorem openWindow_stores (s : State) (n : Nat) (q : SpuState) :
    (openWindow s n q).stores = s.stores := by simp [openWindow]

@[simp] theorem requestSpu_stores (s : State) (n : Nat) (nv : Bool) (p : Pos) (all : Bool) (code :
    BitVec 6) :
    (requestSpu s n nv p all code).stores = s.stores := by
  unfold requestSpu
  repeat' first
    | with_reducible rfl
    | with_reducible assumption
    | split
    | dsimp only
    | simp

@[simp] theorem spuBusy_stores (s : State) (n : Nat) (q : SpuState) (missed : List (Fin 16 × Bool)) :
    (spuBusy s n q missed).stores = s.stores := by
  unfold spuBusy
  repeat' first
    | with_reducible rfl
    | with_reducible assumption
    | split
    | (with_reducible refine Eq.trans (stores_foldl ?_) ?_ <;> intros)
    | dsimp only
    | simp

@[simp] theorem spuCommand_stores (s : State) (n : Nat) (nv : Bool) (p : Pos) (all : Bool) (code : BitVec 6)
    (w : FrameWire) : (spuCommand s n nv p all code w).stores = s.stores := by
  unfold spuCommand
  split
  · rfl
  · split
    · simp
    · split
      · refine inSlot_stores _ _ _ _ _ _ fun s num at_ => ?_
        split
        next h => split <;> simp [pair_fst h]
      · rfl

@[simp] theorem sleepChain_stores (s : State) (n : Nat) (p : Nat) (all : Bool) (missed : List (Fin 16 ×
    Bool)) :
    (sleepChain s n p all missed).stores = s.stores := by
  exact stores_foldl fun s a => by simp

@[simp] theorem wakeAnswer_stores (s : State) (n p : Nat) (wake : Bool) (missed : List (Fin 16 × Bool))
    (d : Option Decoded) : (wakeAnswer s n p wake missed d).stores = s.stores := by
  unfold wakeAnswer
  dsimp only
  split
  · split <;> split <;> simp
  · rfl

@[simp] theorem attestOutcome_stores (s : State) (n : Nat) (p : Nat) (code : Nat) :
    (attestOutcome s n p code).stores = s.stores := by
  unfold attestOutcome
  (repeat' split) <;> simp

@[simp] theorem attestBegun_stores (s : State) (n : Nat) (p : Nat) (c : BitVec 64) (missed : List (Fin
    16 × Bool)) :
    (attestBegun s n p c missed).stores = s.stores := by
  unfold attestBegun
  split <;> simp

@[simp] theorem tagRead_stores (s : State) (n : Nat) (p : Nat) (num : BitVec 48) (at_ : Int) (addr :
    Nat) (w : FrameWire) :
    (tagRead s n p num at_ addr w).1.stores = s.stores := by
  unfold tagRead
  repeat' first
    | with_reducible rfl
    | with_reducible assumption
    | split
    | (with_reducible have h1 := pair_fst ‹_ = (_, _)›; subst h1)
    | dsimp only
    | simp

@[simp] theorem frameCount_stores (s : State) (n : Nat) (ok : Bool) :
    (frameCount s n ok).stores = s.stores := by simp [frameCount]

@[simp] theorem cleanStep_stores (s : State) (i : Nat) (ok : Bool) (clean : Bool) :
    (cleanStep s i ok clean).stores = s.stores := by simp [cleanStep]

@[simp] theorem traceEdges_stores (s : State) (n : Nat) (num : BitVec 48) (at_ : Int) (edges : List
    Int) (all : List Int) (a : Int) (b : Int) :
    (traceEdges s n num at_ edges all a b).stores = s.stores := by
  unfold traceEdges
  repeat' first
    | with_reducible rfl
    | with_reducible assumption
    | split
    | dsimp only
    | simp

@[simp] theorem busBoundary_stores (s : State) (n : Nat) (before : LaneCal) (step : Bool) :
    (busBoundary s n before step).stores = s.stores := by
  unfold busBoundary
  repeat' first
    | with_reducible rfl
    | with_reducible assumption
    | split
    | (with_reducible refine Eq.trans (stores_foldl ?_) ?_ <;> intros)
    | dsimp only
    | simp

@[simp] theorem unstick_stores (s : State) (n : Nat) :
    (unstick s n).stores = s.stores := by
  unfold unstick
  repeat' first
    | with_reducible rfl
    | with_reducible assumption
    | split
    | dsimp only
    | simp

@[simp] theorem serialStep_stores (s : State) (n : Nat) (st : Nat) :
    (serialStep s n st).1.stores = s.stores := by
  unfold serialStep
  repeat' first
    | with_reducible rfl
    | with_reducible assumption
    | split
    | dsimp only
    | simp

@[simp] theorem sentPulse_stores (s : State) (n : Nat) (lcal : Int) :
    (sentPulse s n lcal).1.stores = s.stores := by
  unfold sentPulse
  repeat' first
    | with_reducible rfl
    | with_reducible assumption
    | split
    | dsimp only
    | simp

@[simp] theorem sentEnd_stores (s : State) (n : Nat) (before : LaneCal) (hi : Nat) (lo : Nat) :
    (sentEnd s n before hi lo).stores = s.stores := by simp [sentEnd]

@[simp] theorem nibbleDevs_stores (s : State) (n : Nat) (lcal : Int) (ivs : List Int) :
    (nibbleDevs s n lcal ivs).stores = s.stores := by
  exact stores_foldl fun s a => by simp

@[simp] theorem sentTake_stores (s : State) (n : Nat) (num : BitVec 48) (at_ : Int) (w : SentWire) :
    (sentTake s n num at_ w).1.stores = s.stores := by
  unfold sentTake
  repeat' first
    | with_reducible rfl
    | with_reducible assumption
    | split
    | dsimp only
    | simp

@[simp] theorem sentReceive_stores (s : State) (n : Nat) (num : BitVec 48) (at_ : Int) (w : SentWire) :
    (sentReceive s n num at_ w).stores = s.stores := by
  unfold sentReceive
  repeat' first
    | with_reducible rfl
    | with_reducible assumption
    | split
    | dsimp only
    | simp

@[simp] theorem psi5Entry_stores (s : State) (n : Nat) (num : BitVec 48) (at_ : Int) (base : Int) (e :
    Entry) :
    (psi5Entry s n num at_ base e).stores = s.stores := by
  unfold psi5Entry
  (repeat' split) <;> simp

@[simp] theorem slotOver_stores (s : State) (n : Nat) (k : Nat) (over_ : List Nat) :
    (slotOver s n k over_).stores = s.stores := by
  unfold slotOver
  repeat' first
    | with_reducible rfl
    | with_reducible assumption
    | split
    | dsimp only
    | simp

@[simp] theorem psi5End_stores (s : State) (n : Nat) (before : LaneCal) :
    (psi5End s n before).stores = s.stores := by
  unfold psi5End
  repeat' first
    | with_reducible rfl
    | with_reducible assumption
    | split
    | (with_reducible refine Eq.trans (stores_foldl ?_) ?_ <;> intros)
    | dsimp only
    | simp

@[simp] theorem psi5Receive_stores (s : State) (n : Nat) (k : Nat) (num : BitVec 48) (at_ : Int) (w :
    Psi5Wire) :
    (psi5Receive s n k num at_ w).stores = s.stores := by
  unfold psi5Receive
  repeat' first
    | with_reducible rfl
    | with_reducible assumption
    | split
    | dsimp only
    | simp

@[simp] theorem tellOuts_stores (s : State) (n : Nat) (fid : Nat) (num : BitVec 48) :
    (tellOuts s n fid num).stores = s.stores := by
  unfold tellOuts
  repeat' first
    | with_reducible rfl
    | with_reducible assumption
    | split
    | (with_reducible refine Eq.trans (stores_foldl ?_) ?_ <;> intros)
    | dsimp only
    | simp

@[simp] theorem countBreaks_stores (s : State) (n : Nat) (k : Nat) (recessive : Bool) :
    (countBreaks s n k recessive).stores = s.stores := by simp [countBreaks]

@[simp] theorem linEnd_stores (s : State) (n : Nat) (before : LaneCal) :
    (linEnd s n before).stores = s.stores := by simp [linEnd]

@[simp] theorem diagFrame_stores (s : State) (n : Nat) (start : Int) (num : BitVec 48) (at_ : Int) (ok
    : Bool) (edges : List Int) :
    (diagFrame s n start num at_ ok edges).stores = s.stores := by simp [diagFrame]

@[simp] theorem linReceive_stores (s : State) (n fid : Nat) (num : BitVec 48) (at_ : Int) (w : LinWire) :
    (linReceive s n fid num at_ w).stores = s.stores := by
  unfold linReceive
  extract_lets p0 len publish s1 s2 before s3 bytes sound ok s4 s5 s6 brk ps
  have h2 : s3.stores = s.stores := by
    simp only [s3, s2, s1]
    split <;> simp
  have h4 : s6.stores = s.stores := by
    simp only [s6, s5, s4]
    split <;> simp [h2]
  clear_value s6
  split
  with_reducible have h1 := pair_fst ‹_ = (_, _)›
  subst h1
  simp only [linEnd_stores, State.onLane_eq, setLane_stores, handOver_stores, traceEdges_stores]
  refine Eq.trans (stores_foldl_at Prod.fst fun a p => ?_) h4
  split <;> simp

@[simp] theorem startTrig_stores (s : State) (n : Nat) (at_ : Int) (num : BitVec 48) (inst : Int) :
    (startTrig s n at_ num inst).stores = s.stores := by simp [startTrig]

@[simp] theorem probeTrig_stores (s : State) (n : Nat) :
    (probeTrig s n).stores = s.stores := by simp [probeTrig]

@[simp] theorem probeFrame_stores (s : State) (n : Nat) (w : SentWire) :
    (probeFrame s n w).stores = s.stores := by
  unfold probeFrame
  split <;> simp

@[simp] theorem linOver_stores (s : State) (n : Nat) (fid : Nat) (t : Nat) :
    (linOver s n fid t).stores = s.stores := by simp [linOver]

@[simp] theorem diagFrames_stores (s : State) (n : Nat) (t : Int) (t1 : Int) (num : BitVec 48) (at_ :
    Int) (w : LinWire) :
    (diagFrames s n t t1 num at_ w).stores = s.stores := by simp [diagFrames]

@[simp] theorem diagResult_stores (s : State) (n : Nat) (cut : Bool) (w : LinWire) :
    (diagResult s n cut w).stores = s.stores := by
  unfold diagResult
  repeat' first
    | with_reducible rfl
    | with_reducible assumption
    | split
    | dsimp only
    | simp

@[simp] theorem modeRequest_stores (s : State) (d : DevState) :
    (modeRequest s d).stores = s.stores := stores_of_evRest (modeRequest_evRest _ _)
@[simp] theorem modeWrite_stores (s : State) (p : Port) (secure : Bool) (d : DevState) :
    (modeWrite s p secure d).stores = s.stores := stores_of_evRest (modeWrite_evRest _ _ _ _)
@[simp] theorem reconnect_stores (s : State) : (reconnect s).stores = s.stores := by
  unfold reconnect
  repeat' first
    | with_reducible rfl
    | with_reducible assumption
    | split
    | (with_reducible refine Eq.trans (stores_foldl ?_) ?_ <;> intros)
    | dsimp only
    | simp

@[simp] theorem dropRequest_stores (s : State) :
    (dropRequest s).stores = s.stores := by
  unfold dropRequest
  (repeat' split) <;> simp

@[simp] theorem beginEntry_stores (s : State) :
    (beginEntry s).stores = s.stores := by
  unfold beginEntry
  (repeat' split) <;> simp

@[simp] theorem lanesDown_stores (s : State) (ns : List Nat) :
    (lanesDown s ns).stores = s.stores := by
  unfold lanesDown
  refine Eq.trans (stores_foldl fun s a => ?_) ?_
  all_goals (repeat' split) <;> simp

@[simp] theorem pollRec_stores (s : State) (n : Nat) (p : Nat) (num : BitVec 48) (at_ : Nat) (ran :
    Bool) (es : List Entry) :
    (pollRec s n p num at_ ran es).1.stores = s.stores := by simp [pollRec]

@[simp] theorem pollBus_stores (s : State) (n : Nat) (num : BitVec 48) (at_ : Nat) (f : State → State)
    (h : ∀ s, (f s).stores = s.stores) :
    (pollBus s n num at_ f).1.stores = s.stores := by
  unfold pollBus
  repeat' first
    | with_reducible rfl
    | with_reducible assumption
    | split
    | dsimp only
    | simp [h]

@[simp] theorem afterCut_stores (s : State) (n : Nat) :
    (afterCut s n).1.stores = s.stores := by simp [afterCut]

@[simp] theorem pollPings_stores (s : State) (n : Nat) (num : BitVec 48) (at_ : Nat) (t : Int)
    (pings : List (Pos × FrameWire)) : (pollPings s n num at_ t pings).1.stores = s.stores := by
  unfold pollPings
  refine stores_foldl_at Prod.fst (b := (s, t)) fun a p => ?_
  split
  · split
    · dsimp only
      rw [afterCut_stores, wakeAnswer_stores, accessFrame_stores]
    · rfl
  · rfl

@[simp] theorem pollRoutes_stores (s : State) (n : Nat) (recs : List Rec) :
    (pollRoutes s n recs).stores = s.stores := by
  unfold pollRoutes
  refine Eq.trans (stores_foldl fun s a => ?_) ?_
  all_goals (repeat' split) <;> simp

@[simp] theorem pollLane_stores (s : State) (n : Nat) (num : BitVec 48) (at_ : Nat) (w : HarvestWire)
    (pings : List (Pos × FrameWire)) (sent : Option SentWire) (lin : List (BitVec 6 × LinWire)) :
    (pollLane s n num at_ w pings sent lin).st.stores = s.stores := by
  unfold pollLane
  dsimp only
  split
  · rfl
  · split
    · split
      · dsimp only
        rw [pollPings_stores, afterCut_stores, harvestFrame_stores]
      · rfl
    · split <;> simp
    · dsimp only
      refine stores_foldl_at Prod.fst (b := (s, [])) fun a x => ?_
      split <;> simp
    · rfl

@[simp] theorem poll_stores (s : State) (n : Nat) (w : HarvestWire) (pings : List (Pos × FrameWire))
    (sent : Option SentWire) (lin : List (BitVec 6 × LinWire)) : (poll s n w pings sent lin).stores = s.stores := by
  unfold poll
  extract_lets num at_ d
  split
  · rfl
  · split
    next h2 =>
      rw [pollRoutes_stores, pair_fst h2]
      refine (stores_foldl_at Prod.fst (b := (d.st, [])) fun a p => ?_).trans ?_
      · simp
      · exact pollLane_stores _ _ _ _ _ _ _ _

@[simp] theorem oweWakes_stores (s : State) (n : Nat) :
    (oweWakes s n).stores = s.stores := by
  unfold oweWakes
  repeat' first
    | with_reducible rfl
    | with_reducible assumption
    | split
    | (with_reducible refine Eq.trans (stores_foldl ?_) ?_ <;> intros)
    | dsimp only
    | simp

@[simp] theorem resumeAt_stores (s : State) :
    (resumeAt s).stores = s.stores := by
  unfold resumeAt
  repeat' first
    | with_reducible rfl
    | with_reducible assumption
    | split
    | (with_reducible refine Eq.trans (stores_foldl ?_) ?_ <;> intros)
    | dsimp only
    | simp

@[simp] theorem wardenPort_stores (s : State) (p : Port) :
    (wardenPort s p).stores = s.stores := stores_of_evRest (wardenPort_evRest _ _)
@[simp] theorem wardenResume_stores (s : State) :
    (wardenResume s).stores = s.stores := by
  unfold wardenResume
  repeat' first
    | with_reducible rfl
    | with_reducible assumption
    | split
    | dsimp only
    | simp

@[simp] theorem indSeen_stores (s : State) (a : Nat) :
    (indSeen s a).stores = s.stores := by
  unfold indSeen
  (repeat' split) <;> simp

@[simp] theorem noReference_stores (s : State) :
    (noReference s).stores = s.stores := stores_of_evRest (noReference_evRest _)
@[simp] theorem takeLead_stores (s : State) (lead : Bool) :
    (takeLead s lead).stores = s.stores := stores_of_evRest (takeLead_evRest _ _)
@[simp] theorem startLanes_stores (s : State) (warm : Bool) :
    (startLanes s warm).stores = s.stores := by
  unfold startLanes
  repeat' first
    | with_reducible rfl
    | with_reducible assumption
    | split
    | (with_reducible refine Eq.trans (stores_foldl ?_) ?_ <;> intros)
    | dsimp only
    | simp

@[simp] theorem markAbsent_stores (s : State) (h : Nat) :
    (markAbsent s h).stores = s.stores := stores_of_evRest (markAbsent_evRest _ _)
@[simp] theorem sendMessages_stores (s : State) :
    (sendMessages s).stores = s.stores := stores_of_evRest (sendMessages_evRest _)
@[simp] theorem badMessage_stores (s : State) :
    (badMessage s).stores = s.stores := by simp [badMessage]

@[simp] theorem loseTick_stores (s : State) :
    (loseTick s).stores = s.stores := stores_of_evRest (loseTick_evRest _)
@[simp] theorem longSegment_stores (s : State) (d : Nat) :
    (longSegment s d).stores = s.stores := stores_of_evRest (longSegment_evRest _ _)
@[simp] theorem joinedMark_stores (s : State) (e : Int) (m : Bytes) :
    (joinedMark s e m).stores = s.stores := stores_of_evRest (joinedMark_evRest _ _ _)
@[simp] theorem heard_stores (m : Bytes) (s : State) (h : Nat) :
    (heard m s h).stores = s.stores := stores_of_evRest (heard_evRest _ _ _)
@[simp] theorem echoRx_stores (s : State) (a : Nat) :
    (echoRx s a).stores = s.stores := stores_of_evRest (echoRx_evRest _ _)
@[simp] theorem submit_stores (s : State) (p : Port) (n : Nat) (secure : Bool) :
    (submit s p n secure).stores = s.stores := by
  unfold submit
  repeat' first
    | with_reducible rfl
    | with_reducible assumption
    | split
    | dsimp only
    | simp

@[simp] theorem accWrite_stores (s : State) (p : Port) (n : Nat) (off : Nat) (d : Word) (secure : Bool) :
    (accWrite s p n off d secure).stores = s.stores := by
  unfold accWrite
  repeat' first
    | with_reducible rfl
    | with_reducible assumption
    | split
    | dsimp only
    | simp

@[simp] theorem expire_stores (s : State) (n : Nat) :
    (expire s n).stores = s.stores := by
  unfold expire
  repeat' first
    | with_reducible rfl
    | with_reducible assumption
    | split
    | dsimp only
    | simp

@[simp] theorem linOutWrite_stores (s : State) (i : Nat) (d : Word) :
    (linOutWrite s i d).stores = s.stores := by
  unfold linOutWrite
  split
  · rfl
  · simp

@[simp] theorem stage_stores (s : State) (p : Port) (a : Nat) (d : Word) (m : Word) (secure : Bool) :
    (stage s p a d m secure).stores = s.stores := by simp [stage]

@[simp] theorem sessionWrite_stores (s : State) (p : Port) (d : Word) :
    (sessionWrite s p d).stores = s.stores := by
  unfold sessionWrite
  (repeat' split) <;> simp

@[simp] theorem flushQueue_stores (s : State) (p : Port) :
    (flushQueue s p).stores = s.stores := stores_of_evRest (flushQueue_evRest _ _)
@[simp] theorem evqWrite_stores (s : State) (p : Port) (d : Word) :
    (evqWrite s p d).stores = s.stores := stores_of_evRest (evqWrite_evRest _ _ _)
@[simp] theorem hoardCtlWrite_stores (s : State) (d : Word) (secure : Bool) :
    (hoardCtlWrite s d secure).stores = s.stores := stores_of_evRest (hoardCtlWrite_evRest _ _ _)
@[simp] theorem indCtlWrite_stores (s : State) (p : Port) (d : Word) :
    (indCtlWrite s p d).stores = s.stores := by
  unfold indCtlWrite
  split <;> simp

@[simp] theorem takeHeader_stores (s : State) (p : Port) (r : Result) :
    (takeHeader s p r).stores = s.stores := stores_of_evRest (takeHeader_evRest _ _ _)
@[simp] theorem drive_stores (s : State) (p : Port) (bs : Bytes) :
    (drive s p bs).stores = s.stores := stores_of_evRest (drive_evRest _ _ _)
@[simp] theorem clearInd_stores (s : State) (p : Port) :
    (clearInd s p).stores = s.stores := stores_of_evRest (clearInd_evRest _ _)
@[simp] theorem noteAddr_stores (s : State) (p : Port) (a : Nat) :
    (noteAddr s p a).stores = s.stores := stores_of_evRest (noteAddr_evRest _ _ _)
@[simp] theorem noteDenied_stores (s : State) (p : Port) (a : Nat) :
    (noteDenied s p a).stores = s.stores := stores_of_evRest (noteDenied_evRest _ _ _)
@[simp] theorem noteTorn_stores (s : State) (p : Port) :
    (noteTorn s p).stores = s.stores := stores_of_evRest (noteTorn_evRest _ _)
@[simp] theorem noteBurstCrc_stores (s : State) (p : Port) (a : Nat) :
    (noteBurstCrc s p a).stores = s.stores := stores_of_evRest (noteBurstCrc_evRest _ _ _)
@[simp] theorem noteCount_stores (s : State) (p : Port) (n : Nat) :
    (noteCount s p n).stores = s.stores := stores_of_evRest (noteCount_evRest _ _ _)
@[simp] theorem setIndAddr_stores (s : State) (p : Port) (a : Nat) :
    (setIndAddr s p a).stores = s.stores := stores_of_evRest (setIndAddr_evRest _ _ _)
@[simp] theorem readInd_stores (s : State) (p : Port) (a : Nat) :
    (readInd s p a).2.stores = s.stores := by
  unfold readInd
  (repeat' split) <;> simp

@[simp] theorem readFrameOf_stores (s : State) (p : Port) (addr : BitVec 16) :
    (readFrameOf s p addr).2.2.stores = s.stores := by
  unfold readFrameOf
  repeat' first
    | with_reducible rfl
    | with_reducible assumption
    | split
    | dsimp only
    | simp

@[simp] theorem wordDone_stores (s : State) (p : Port) (ind : Bool) (base : Nat) (w : Nat) :
    (wordDone s p ind base w).stores = s.stores := stores_of_evRest (wordDone_evRest _ _ _ _ _)
@[simp] theorem burstHead_stores (s : State) (p : Port) (write : Bool) (fast : Bool) (cmd : Byte) (addr : BitVec 16) (crc : Byte) :
    (burstHead s p write fast cmd addr crc).2.2.stores = s.stores := stores_of_evRest (burstHead_evRest _ _ _ _ _ _ _)
@[simp] theorem readTied_stores (r : BurstRun) (s : State) (p : Port) (a : Nat) :
    (readTied r s p a).2.stores = s.stores := by
  unfold readTied
  (repeat' split) <;> simp

@[simp] theorem readView_stores (r : BurstRun) (s : State) (p : Port) (a : Nat) :
    (readView r s p a).2.stores = s.stores := stores_of_evRest (readView_evRest _ _ _ _)
@[simp] theorem readWord_stores (r : BurstRun) (p : Port) (s : State) :
    (readWord r p s).2.stores = s.stores := by
  unfold readWord
  repeat' first
    | with_reducible rfl
    | with_reducible assumption
    | split
    | dsimp only
    | simp

@[simp] theorem readWords_stores (p : Port) (n : Nat) (r : BurstRun) (s : State) :
    (readWords p n r s).2.2.stores = s.stores := by
  induction n generalizing r s with
  | zero => rfl
  | succ n ih => simp only [readWords, ih, readWord_stores]

@[simp] theorem keepBurst_stores (s : State) (p : Port) (piece : Piece) (r : BurstRun) :
    (keepBurst s p piece r).stores = s.stores := stores_of_evRest (keepBurst_evRest _ _ _ _)
@[simp] theorem burstReadOn_stores (p : Port) (piece : Piece) (head : Bytes) (words : Nat) (r : BurstRun) (s : State) :
    (burstReadOn p piece head words r s).stores = s.stores := by
  simp [burstReadOn]

@[simp] theorem burstReadOf_stores (s : State) (p : Port) (piece : Piece) (fast : Bool) (cmd : Byte)
    (addr : BitVec 16) (crc : Byte) (words : Nat) : (burstReadOf s p piece fast cmd addr crc words).stores = s.stores := by
  unfold burstReadOf
  split
  · split <;> simp
  · split
    · rfl
    · simp

@[simp] theorem stallHead_stores (s : State) (p : Port) (fast : Bool) (cmd : Byte) (addr : BitVec 16) (crc : Byte) :
    (stallHead s p fast cmd addr crc).2.stores = s.stores := stores_of_evRest (stallHead_evRest _ _ _ _ _ _)
@[simp] theorem stallEnd_stores (s : State) (p : Port) (bs : Bytes) :
    (stallEnd s p bs).stores = s.stores := stores_of_evRest (stallEnd_evRest _ _ _)
@[simp] theorem stallOn_stores (s : State) (p : Port) (stays : Bool) (head : Bytes) (sent : Nat) (fillers : Nat) :
    (stallOn s p stays head sent fillers).stores = s.stores := stores_of_evRest (stallOn_evRest _ _ _ _ _ _)
@[simp] theorem secureHead_stores (s : State) (p : Port) (fast : Bool) (cmd : Byte) (addr : BitVec 16) (len : Byte) (ctr : Word) (crc : Byte) :
    (secureHead s p fast cmd addr len ctr crc).2.stores = s.stores := stores_of_evRest (secureHead_evRest _ _ _ _ _ _ _ _)
@[simp] theorem alignBank_stores (s : State) (g : Nat) :
    (alignBank s g).stores = s.stores := by
  unfold alignBank
  repeat' first
    | with_reducible rfl
    | with_reducible assumption
    | split
    | (with_reducible refine Eq.trans (stores_foldl ?_) ?_ <;> intros)
    | dsimp only
    | simp

@[simp] theorem leaveLead_stores (s : State) :
    (leaveLead s).stores = s.stores := stores_of_evRest (leaveLead_evRest _)
@[simp] theorem stopReverted_stores (s : State) (p : Port) :
    (stopReverted s p).stores = s.stores := by
  unfold stopReverted
  repeat' first
    | with_reducible rfl
    | with_reducible assumption
    | split
    | (with_reducible refine Eq.trans (stores_foldl ?_) ?_ <;> intros)
    | dsimp only
    | simp

@[simp] theorem firstInstant_stores (s : State) :
    (firstInstant s).stores = s.stores := by
  unfold firstInstant
  split <;> simp

@[simp] theorem forgetOld_stores (s : State) :
    (forgetOld s).stores = s.stores := by simp [forgetOld]

@[simp] theorem instant_stores (s : State) : (instant s).stores = s.stores := by
  unfold instant
  extract_lets s1 s2 s3 u s4 s5 s6 s7 s8
  have h2 : s2.stores = s.stores := by simp only [s2, s1]; split <;> simp
  have h5 : s5.stores = s2.stores := by simp only [s5, s4, s3]; split <;> simp
  have h6 : s6.stores = s5.stores := by simp only [s6]; (repeat' split) <;> simp
  have h7 : s7.stores = s6.stores := stores_foldl fun s g => by simp
  have h8 : s8.stores = s7.stores := by simp [s8]
  clear_value s8
  simp [h8, h7, h6, h5, h2]

@[simp] theorem tickLoops_stores (s : State) (errs : List RegionErr) :
    (tickLoops s errs).stores = s.stores := stores_of_evRest (tickLoops_evRest _ _)
@[simp] theorem hoardTick_stores (s : State) (inst : Bool) :
    (hoardTick s inst).stores = s.stores := by
  unfold hoardTick
  (repeat' split) <;> simp

@[simp] theorem replayLine_stores (v : State) (n : Nat) (code : Nat) (on_ : Nat) :
    (replayLine v n code on_).stores = v.stores := by
  unfold replayLine
  repeat' first
    | with_reducible rfl
    | with_reducible assumption
    | split
    | dsimp only
    | simp

@[simp] theorem replayRegion_stores (v : State) (n : Nat) (code : Nat) (on_ : Nat) :
    (replayRegion v n code on_).stores = v.stores := by
  unfold replayRegion
  repeat' first
    | with_reducible rfl
    | with_reducible assumption
    | split
    | dsimp only
    | simp

@[simp] theorem replayHappen_stores (v : State) (n : Nat) (x : Bytes) :
    (replayHappen v n x).stores = v.stores := by
  unfold replayHappen
  repeat' first
    | with_reducible rfl
    | with_reducible assumption
    | split
    | dsimp only
    | simp

@[simp] theorem replayCutoff_stores (v : State) :
    (replayCutoff v).stores = v.stores := by
  unfold replayCutoff
  repeat' first
    | with_reducible rfl
    | with_reducible assumption
    | split
    | (with_reducible refine Eq.trans (stores_foldl ?_) ?_ <;> intros)
    | dsimp only
    | simp

@[simp] theorem replayLaneTick_stores (v : State) (n : Nat) :
    (replayLaneTick v n).stores = v.stores := by
  unfold replayLaneTick
  repeat' first
    | with_reducible rfl
    | with_reducible assumption
    | split
    | dsimp only
    | simp

@[simp] theorem replayTickBlock_stores (v : State) (x : Bytes) :
    (replayTickBlock v x).stores = v.stores := by
  unfold replayTickBlock
  repeat' first
    | with_reducible rfl
    | with_reducible assumption
    | split
    | (with_reducible refine Eq.trans (stores_foldl ?_) ?_ <;> intros)
    | dsimp only
    | simp

@[simp] theorem replayCommand_stores (v : State) (n : Nat) (cmd : Nat) (p : Nat) (body : List Nat) (num
    : BitVec 48) (at_ : Int) (w : FrameWire) :
    (replayCommand v n cmd p body num at_ w).stores = v.stores := by
  unfold replayCommand
  repeat' first
    | with_reducible rfl
    | with_reducible assumption
    | split
    | (with_reducible refine Eq.trans (stores_foldl ?_) ?_ <;> intros)
    | dsimp only
    | simp

@[simp] theorem replayReset_stores (v : State) (n : Nat) (afterCut : Bool) :
    (replayReset v n afterCut).stores = v.stores := by
  unfold replayReset
  repeat' first
    | with_reducible rfl
    | with_reducible assumption
    | split
    | dsimp only
    | simp

@[simp] theorem replayChain_stores (v : State) (n : Nat) :
    (replayChain v n).stores = v.stores := by simp [replayChain]

@[simp] theorem replaySent_stores (v : State) (n : Nat) (num : BitVec 48) (at_ : Int) (edges : List
    Int) (hi : Int) (lo : Int) :
    (replaySent v n num at_ edges hi lo).stores = v.stores := by simp [replaySent]

@[simp] theorem replayPsi5_stores (v : State) (n : Nat) (num : BitVec 48) (at_ : Int) (edges : List Int) (lo hi : Int) :
    (replayPsi5 v n num at_ edges lo hi).stores = v.stores := by
  refine under_stores _ _ _ fun v => ?_
  dsimp only
  split <;> simp

@[simp] theorem replayDiag_stores (v : State) (n : Nat) (fid : Nat) (num : BitVec 48) (at_ : Int)
    (start : Int) (w : LinWire) :
    (replayDiag v n fid num at_ start w).stores = v.stores := by
  unfold replayDiag
  (repeat' split) <;> simp

@[simp] theorem replayLin_stores (v : State) (n : Nat) (num : BitVec 48) (at_ : Int) (edges : List Int) :
    (replayLin v n num at_ edges).stores = v.stores := by
  unfold replayLin
  (repeat' split) <;> simp


end Sys2Proof.Machine
end

