-- ==== Sys2Proof/Laws/Lasting.lean ====
section
/-!
SUPPORT. What no operation but a reset of the device, a LOCK write and a CONFIRM changes: the queue of
commands, LOCK and the rollback counter.
-/

namespace Sys2Proof.Machine

/-- What keeps `stores` keeps `lasting`. -/
theorem lasting_of_stores {a b : State} (h : a.stores = b.stores) : a.lasting = b.lasting := by
  have h := congrArg State.lasting h
  exact h

/-- A fold of operations that keep `lasting` keeps it. -/
theorem lasting_foldl {α : Type} {f : State → α → State} {l : List α} {s : State}
    (h : ∀ s a, (f s a).lasting = s.lasting) : (l.foldl f s).lasting = s.lasting := by
  induction l generalizing s with
  | nil => rfl
  | cons a l ih => rw [List.foldl_cons, ih, h]

/-- A fold that carries the state beside other values. -/
theorem lasting_foldl_at {α β : Type} (g : β → State) {f : β → α → β} {l : List α} {b : β}
    (h : ∀ b a, (g (f b a)).lasting = (g b).lasting) : (g (l.foldl f b)).lasting = (g b).lasting := by
  induction l generalizing b with
  | nil => rfl
  | cons a l ih => rw [List.foldl_cons, ih, h]

@[simp] theorem lasting_mk (s : State)
    (fresh : Nat) (h : PortState) (m : PortState) (u : PortState) (cfg : CfgState) (epoch : BitVec 16)
    (epochAt : Option Nat) (creqs : List CommitReq) (commits : List CommitRun) (cstat : CommitStatus)
    (cseq : BitVec 8) (cap : CaptureState) (cycle : List Event) (chans : Tbl ChanState)
    (lanes : Tbl LaneState) (eps : Tbl EpState) (clusters : Tbl ClusterState)
    (regions : Tbl RegionState) (asm_ : AsmState) (streams : Tbl StreamState) (ul0 : UplinkState)
    (ul1 : UplinkState) (routes : Tbl RouteState) (vault : VaultMem) (alarm : AlarmState)
    (upd : UpdState) (hoard : HoardState) (replay : ReplayRun) (grid : GridState) (mode : ModeState)
    (tdo : Option Word) (chain : Tbl Endpoint) :
    State.lasting
      { s with
        fresh := fresh, h := h, m := m, u := u, cfg := cfg, epoch := epoch, epochAt := epochAt,
        creqs := creqs, commits := commits, cstat := cstat, cseq := cseq, cap := cap, cycle := cycle,
        chans := chans, lanes := lanes, eps := eps, clusters := clusters, regions := regions,
        asm_ := asm_, streams := streams, ul0 := ul0, ul1 := ul1, routes := routes, vault := vault,
        alarm := alarm, upd := upd, hoard := hoard, replay := replay, grid := grid, mode := mode,
        tdo := tdo, chain := chain } = s.lasting := by
  cases s; rfl

/-- A change of the non-volatile areas that keeps the rollback counter. -/
@[simp] theorem lasting_nv (s : State) (x : NvState) (h : x.rollback = s.nv.rollback) :
    State.lasting { s with nv := x } = s.lasting := by
  simp [State.lasting, h]

@[simp] theorem onHM_lasting (s : State) (f : PortState → PortState) :
    (s.onHM f).lasting = s.lasting := by
  cases s; rfl
@[simp] theorem setPort_lasting (s : State) (p : Port) (x : PortState) :
    (s.setPort p x).lasting = s.lasting := by
  cases p <;> rfl
@[simp] theorem setRegion_lasting (s : State) (g : Nat) (x : RegionState) :
    (s.setRegion g x).lasting = s.lasting := by
  cases s; rfl
@[simp] theorem setChan_lasting (s : State) (c : Nat) (x : ChanState) :
    (s.setChan c x).lasting = s.lasting := by
  cases s; rfl
@[simp] theorem setStream_lasting (s : State) (k : Nat) (x : StreamState) :
    (s.setStream k x).lasting = s.lasting := by
  cases s; rfl
@[simp] theorem setLane_lasting (s : State) (n : Nat) (x : LaneState) :
    (s.setLane n x).lasting = s.lasting := by
  cases s; rfl
@[simp] theorem setEp_lasting (s : State) (i : Nat) (x : EpState) :
    (s.setEp i x).lasting = s.lasting := by
  cases s; rfl
@[simp] theorem setCluster_lasting (s : State) (c : Nat) (x : ClusterState) :
    (s.setCluster c x).lasting = s.lasting := by
  cases s; rfl
@[simp] theorem setRoute_lasting (s : State) (r : Nat) (x : RouteState) :
    (s.setRoute r x).lasting = s.lasting := by
  cases s; rfl
@[simp] theorem setEndpoint_lasting (s : State) (i : Nat) (x : Endpoint) :
    (s.setEndpoint i x).lasting = s.lasting := by
  cases s; rfl
@[simp] theorem setUplink_lasting (s : State) (u : Ul) (x : UplinkState) :
    (s.setUplink u x).lasting = s.lasting := by
  cases u <;> rfl
@[simp] theorem onGrid_lasting (s : State) (f : GridState → GridState) :
    (s.onGrid f).lasting = s.lasting := by
  cases s; rfl
@[simp] theorem onMode_lasting (s : State) (f : ModeState → ModeState) :
    (s.onMode f).lasting = s.lasting := by
  cases s; rfl
@[simp] theorem onHoard_lasting (s : State) (f : HoardState → HoardState) :
    (s.onHoard f).lasting = s.lasting := by
  cases s; rfl
@[simp] theorem onAsm_lasting (s : State) (f : AsmState → AsmState) :
    (s.onAsm f).lasting = s.lasting := by
  cases s; rfl
@[simp] theorem onUpd_lasting (s : State) (f : UpdState → UpdState) :
    (s.onUpd f).lasting = s.lasting := by
  cases s; rfl
@[simp] theorem onReplay_lasting (s : State) (f : ReplayRun → ReplayRun) :
    (s.onReplay f).lasting = s.lasting := by
  cases s; rfl
@[simp] theorem onVault_lasting (s : State) (f : VaultMem → VaultMem) :
    (s.onVault f).lasting = s.lasting := by
  cases s; rfl
@[simp] theorem setBank_lasting (s : State) (isB : Bool) (x : ImgBank) :
    (s.setBank isB x).lasting = s.lasting := by
  cases isB <;> simp [State.setBank]

@[simp] theorem draw_lasting (s : State) :
    (State.draw s).2.lasting = s.lasting := lasting_of_stores (draw_stores _)
@[simp] theorem setInForce_lasting (s : State) (a : Nat) (w : Word) :
    (State.setInForce s a w).lasting = s.lasting := lasting_of_stores (setInForce_stores _ _ _)
@[simp] theorem setStaged_lasting (s : State) (p : Port) (a : Nat) (w : Word) :
    (State.setStaged s p a w).lasting = s.lasting := lasting_of_stores (setStaged_stores _ _ _ _)
@[simp] theorem setSecStaged_lasting (s : State) (p : Port) (l : List (Nat × Word)) :
    (State.setSecStaged s p l).lasting = s.lasting := lasting_of_stores (setSecStaged_stores _ _ _)
@[simp] theorem seenAt_lasting (s : State) (G : Int) :
    (State.seenAt s G).lasting = s.lasting := lasting_of_stores (seenAt_stores _ _)
@[simp] theorem under_lasting (s : State) (G : Int) (f : State → State) (h : ∀ s, (f s).lasting =
    s.lasting) :
    (State.under s G f).lasting = s.lasting := by
  unfold State.under
  repeat' first
    | with_reducible rfl
    | with_reducible assumption
    | split
    | dsimp only
    | simp [h]

@[simp] theorem glbPort_lasting (s : State) (p : Port) (n : Nat) :
    (glbPort s p n).lasting = s.lasting := lasting_of_stores (glbPort_stores _ _ _)
@[simp] theorem glb_lasting (s : State) (n : Nat) :
    (glb s n).lasting = s.lasting := lasting_of_stores (glb_stores _ _)
@[simp] theorem setAlarm_lasting (s : State) (n : Nat) :
    (setAlarm s n).lasting = s.lasting := lasting_of_stores (setAlarm_stores _ _)
@[simp] theorem setSupply_lasting (s : State) (n : Nat) :
    (setSupply s n).lasting = s.lasting := lasting_of_stores (setSupply_stores _ _)
@[simp] theorem setQueue_lasting (s : State) (n : Nat) :
    (setQueue s n).lasting = s.lasting := lasting_of_stores (setQueue_stores _ _)
@[simp] theorem setRegionBit_lasting (s : State) (g : Nat) (n : Nat) :
    (setRegionBit s g n).lasting = s.lasting := lasting_of_stores (setRegionBit_stores _ _ _)
@[simp] theorem countCrc_lasting (s : State) (p : Port) :
    (countCrc s p).lasting = s.lasting := lasting_of_stores (countCrc_stores _ _)
@[simp] theorem stopBursts_lasting (s : State) :
    (stopBursts s).lasting = s.lasting := lasting_of_stores (stopBursts_stores _)
@[simp] theorem ruleChange_lasting (s : State) :
    (ruleChange s).lasting = s.lasting := lasting_of_stores (ruleChange_stores _)
@[simp] theorem raise_lasting (s : State) (src : Nat) (origin : Nat) (data : Word) :
    (raise s src origin data).lasting = s.lasting := lasting_of_stores (raise_stores _ _ _ _)
@[simp] theorem tickEvent_lasting (s : State) :
    (tickEvent s).lasting = s.lasting := lasting_of_stores (tickEvent_stores _)
@[simp] theorem retick_lasting (s : State) :
    (retick s).lasting = s.lasting := lasting_of_stores (retick_stores _)
@[simp] theorem wakeCond_lasting (s : State) :
    (wakeCond s).lasting = s.lasting := lasting_of_stores (wakeCond_stores _)
@[simp] theorem requestCapture_lasting (s : State) (restart : Bool) :
    (requestCapture s restart).lasting = s.lasting := lasting_of_stores (requestCapture_stores _ _)
@[simp] theorem queueItem_lasting (s : State) (p : Port) (it : Item) :
    (queueItem s p it).lasting = s.lasting := lasting_of_stores (queueItem_stores _ _ _)
@[simp] theorem spuDefer_lasting (s : State) (c : Nat) :
    (spuDefer s c).lasting = s.lasting := lasting_of_stores (spuDefer_stores _ _)
@[simp] theorem freezeEvent_lasting (s : State) (it : Item) :
    (freezeEvent s it).lasting = s.lasting := lasting_of_stores (freezeEvent_stores _ _)
@[simp] theorem consume_lasting (s : State) (c : Nat) (it : Item) :
    (consume s c it).lasting = s.lasting := lasting_of_stores (consume_stores _ _ _)
@[simp] theorem deliverItem_lasting (s : State) (c : Nat) (it : Item) :
    (deliverItem s c it).lasting = s.lasting := lasting_of_stores (deliverItem_stores _ _ _)
@[simp] theorem dropEvent_lasting (s : State) (c : Nat) :
    (dropEvent s c).lasting = s.lasting := lasting_of_stores (dropEvent_stores _ _)
@[simp] theorem deliverHeld_lasting (s : State) (c : Nat) :
    (deliverHeld s c).lasting = s.lasting := lasting_of_stores (deliverHeld_stores _ _)
@[simp] theorem deliverEarlier_lasting (s : State) (c : Nat) :
    (deliverEarlier s c).lasting = s.lasting := lasting_of_stores (deliverEarlier_stores _ _)
@[simp] theorem dropHeld_lasting (s : State) (c : Nat) :
    (dropHeld s c).lasting = s.lasting := lasting_of_stores (dropHeld_stores _ _)
@[simp] theorem deliverTo_lasting (s : State) (ev : Event) (c : Nat) :
    (deliverTo s ev c).lasting = s.lasting := lasting_of_stores (deliverTo_stores _ _ _)
@[simp] theorem deliverEvent_lasting (s : State) (ev : Event) :
    (deliverEvent s ev).lasting = s.lasting := lasting_of_stores (deliverEvent_stores _ _)
@[simp] theorem flushCycle_lasting (s : State) :
    (flushCycle s).lasting = s.lasting := lasting_of_stores (flushCycle_stores _)
@[simp] theorem advance_lasting (s : State) (dt : Nat) :
    (advance s dt).lasting = s.lasting := lasting_of_stores (advance_stores _ _)
@[simp] theorem csnRise_lasting (s : State) (p : Port) :
    (csnRise s p).lasting = s.lasting := lasting_of_stores (csnRise_stores _ _)
@[simp] theorem runLanes_lasting (s : State) :
    (runLanes s).lasting = s.lasting := lasting_of_stores (runLanes_stores _)
@[simp] theorem setDev_lasting (s : State) (d : DevState) :
    (setDev s d).lasting = s.lasting := lasting_of_stores (setDev_stores _ _)
@[simp] theorem setTState_lasting (s : State) (t : TState) :
    (setTState s t).lasting = s.lasting := lasting_of_stores (setTState_stores _ _)
@[simp] theorem setHState_lasting (s : State) (h : HState) :
    (setHState s h).lasting = s.lasting := lasting_of_stores (setHState_stores _ _)
@[simp] theorem setUState_lasting (s : State) (u : UState) :
    (setUState s u).lasting = s.lasting := by
  unfold setUState
  split <;> simp

@[simp] theorem withFaults_lasting (ns : List Nat) (s : State) (s' : State) :
    (withFaults ns s s').lasting = s'.lasting := lasting_of_stores (withFaults_stores _ _ _)
@[simp] theorem regionCalEvent_lasting (s : State) (g : Nat) (why : Nat) :
    (regionCalEvent s g why).lasting = s.lasting := lasting_of_stores (regionCalEvent_stores _ _ _)
@[simp] theorem dllTick_lasting (s : State) (g : Nat) (e : Int) :
    (dllTick s g e).lasting = s.lasting := lasting_of_stores (dllTick_stores _ _ _)
@[simp] theorem tdcTick_lasting (s : State) (g : Nat) (err : Int) :
    (tdcTick s g err).lasting = s.lasting := lasting_of_stores (tdcTick_stores _ _ _)
@[simp] theorem regionLoad_lasting (s : State) (g : Nat) (w : Word) (loops : Word) :
    (regionLoad s g w loops).lasting = s.lasting := lasting_of_stores (regionLoad_stores _ _ _ _)
@[simp] theorem regionLoops_lasting (s : State) (g : Nat) (e : RegionErr) :
    (regionLoops s g e).lasting = s.lasting := lasting_of_stores (regionLoops_stores _ _ _)
@[simp] theorem becomeSprout_lasting (s : State) (i : Nat) :
    (becomeSprout s i).lasting = s.lasting := lasting_of_stores (becomeSprout_stores _ _)
@[simp] theorem enterSprouts_lasting (s : State) (n : Nat) (start : Option Int) :
    (enterSprouts s n start).lasting = s.lasting := lasting_of_stores (enterSprouts_stores _ _ _)
@[simp] theorem swapSuspect_lasting (s : State) (i : Nat) (why : Hold) :
    (swapSuspect s i why).lasting = s.lasting := lasting_of_stores (swapSuspect_stores _ _ _)
@[simp] theorem releaseHold_lasting (s : State) (i : Nat) :
    (releaseHold s i).lasting = s.lasting := lasting_of_stores (releaseHold_stores _ _)
@[simp] theorem idRead_lasting (s : State) (i : Nat) (v : BitVec 64) :
    (idRead s i v).lasting = s.lasting := lasting_of_stores (idRead_stores _ _ _)
@[simp] theorem sproutExit_lasting (s : State) (i : Nat) :
    (sproutExit s i).lasting = s.lasting := lasting_of_stores (sproutExit_stores _ _)
@[simp] theorem loadEps_lasting (s : State) (n : Nat) (loops : Word) (l : List (Nat × Word)) :
    (loadEps s n loops l).lasting = s.lasting := lasting_of_stores (loadEps_stores _ _ _ _)
@[simp] theorem applyLoad_lasting (s : State) (n : Nat) (before : LaneCal) :
    (applyLoad s n before).lasting = s.lasting := lasting_of_stores (applyLoad_stores _ _ _)
@[simp] theorem calStore_lasting (s : State) (c : CalCopy) :
    (calStore s c).lasting = s.lasting := by
  unfold calStore
  repeat' first
    | with_reducible rfl
    | with_reducible assumption
    | split
    | dsimp only
    | simp
    | rfl

@[simp] theorem calSaveNow_lasting (s : State) :
    (calSaveNow s).lasting = s.lasting := by simp [calSaveNow]

@[simp] theorem calSaveEntry_lasting (s : State) :
    (calSaveEntry s).lasting = s.lasting := by simp [calSaveEntry]

@[simp] theorem noteEntryCal_lasting (s : State) :
    (noteEntryCal s).lasting = s.lasting := lasting_of_stores (noteEntryCal_stores _)
@[simp] theorem calSaveWrite_lasting (s : State) :
    (calSaveWrite s).lasting = s.lasting := lasting_of_stores (calSaveWrite_stores _)
@[simp] theorem loadSavedLane_lasting (s : State) (n : Nat) (x : LaneSaved) :
    (loadSavedLane s n x).lasting = s.lasting := lasting_of_stores (loadSavedLane_stores _ _ _)
@[simp] theorem hoardBlock_lasting (s : State) (typ : Nat) (lane : Nat) (body : Bytes) :
    (hoardBlock s typ lane body).lasting = s.lasting := lasting_of_stores (hoardBlock_stores _ _ _ _)
@[simp] theorem hoardDigest_lasting (s : State) (num : BitVec 48) (body : Bytes) :
    (hoardDigest s num body).lasting = s.lasting := lasting_of_stores (hoardDigest_stores _ _ _)
@[simp] theorem checkpoint_lasting (s : State) (n : Nat) (num : BitVec 48) :
    (checkpoint s n num).lasting = s.lasting := lasting_of_stores (checkpoint_stores _ _ _)
@[simp] theorem frameBoundary_lasting (s : State) (n : Nat) (num : BitVec 48) :
    (frameBoundary s n num).lasting = s.lasting := lasting_of_stores (frameBoundary_stores _ _ _)
@[simp] theorem happen_lasting (s : State) (n : Nat) (tick : BitVec 48) (kind : Nat) (pos : Nat) (arg : Bytes) :
    (happen s n tick kind pos arg).lasting = s.lasting := lasting_of_stores (happen_stores _ _ _ _ _ _)
@[simp] theorem happenNow_lasting (s : State) (n : Nat) (kind : Nat) (pos : Nat) (arg : Bytes) :
    (happenNow s n kind pos arg).lasting = s.lasting := lasting_of_stores (happenNow_stores _ _ _ _ _)
@[simp] theorem happenAll_lasting (s : State) (ns : List Nat) (kind : Nat) (arg : Bytes) :
    (happenAll s ns kind arg).lasting = s.lasting := lasting_of_stores (happenAll_stores _ _ _ _)
@[simp] theorem hoardCommit_lasting (s : State) (tc : BitVec 48) (eff : BitVec 48) (groups : BitVec 16) :
    (hoardCommit s tc eff groups).lasting = s.lasting := lasting_of_stores (hoardCommit_stores _ _ _ _)
@[simp] theorem amendRaw_lasting (s : State) (n : Nat) (early : List Int) :
    (amendRaw s n early).lasting = s.lasting := lasting_of_stores (amendRaw_stores _ _ _)
@[simp] theorem regionLost_lasting (s : State) (g : Nat) (num : BitVec 48) :
    (regionLost s g num).lasting = s.lasting := lasting_of_stores (regionLost_stores _ _ _)
@[simp] theorem overflow_lasting (s : State) (g : Nat) (data : Nat) :
    (overflow s g data).lasting = s.lasting := lasting_of_stores (overflow_stores _ _ _)
@[simp] theorem writeOnTime_lasting (s : State) (g : Nat) (p : Packet) :
    (writeOnTime s g p).lasting = s.lasting := lasting_of_stores (writeOnTime_stores _ _ _)
@[simp] theorem writeLate_lasting (s : State) (g : Nat) (p : Packet) :
    (writeLate s g p).lasting = s.lasting := lasting_of_stores (writeLate_stores _ _ _)
@[simp] theorem stagePacket_lasting (s : State) (p : Packet) :
    (stagePacket s p).lasting = s.lasting := lasting_of_stores (stagePacket_stores _ _)
@[simp] theorem collect_lasting (s : State) (p : Packet) :
    (collect s p).lasting = s.lasting := lasting_of_stores (collect_stores _ _)
@[simp] theorem handOver_lasting (s : State) (n : Nat) (num : BitVec 48) (at_ : Int) (ran : Bool) (base : Int) (es : List Entry) (slot : optParam (Option Nat) none) :
    (handOver s n num at_ ran base es slot).lasting = s.lasting := lasting_of_stores (handOver_stores _ _ _ _ _ _ _ _)
@[simp] theorem closeCycle_lasting (s : State) (n : Nat) :
    (closeCycle s n).lasting = s.lasting := lasting_of_stores (closeCycle_stores _ _)
@[simp] theorem cutCycle_lasting (s : State) (n : Nat) :
    (cutCycle s n).lasting = s.lasting := lasting_of_stores (cutCycle_stores _ _)
@[simp] theorem keepRaw_lasting (s : State) (n : Nat) (at_ : Int) (fines : List Int) (lev : Int × Int) :
    (keepRaw s n at_ fines lev).lasting = s.lasting := lasting_of_stores (keepRaw_stores _ _ _ _ _)
@[simp] theorem conditionPacket_lasting (s : State) (n : Nat) :
    (conditionPacket s n).lasting = s.lasting := lasting_of_stores (conditionPacket_stores _ _)
@[simp] theorem countQuiet_lasting (s : State) (n : Nat) :
    (countQuiet s n).lasting = s.lasting := lasting_of_stores (countQuiet_stores _ _)
@[simp] theorem renewFault_lasting (s : State) (n : Nat) :
    (renewFault s n).lasting = s.lasting := lasting_of_stores (renewFault_stores _ _)
@[simp] theorem closeMonitors_lasting (s : State) (g : Nat) :
    (closeMonitors s g).lasting = s.lasting := lasting_of_stores (closeMonitors_stores _ _)
@[simp] theorem writeStaged_lasting (s : State) (g : Nat) :
    (writeStaged s g).lasting = s.lasting := lasting_of_stores (writeStaged_stores _ _)
@[simp] theorem swapBanks_lasting (s : State) (g : Nat) :
    (swapBanks s g).lasting = s.lasting := lasting_of_stores (swapBanks_stores _ _)
@[simp] theorem cutoff_lasting (s : State) :
    (cutoff s).lasting = s.lasting := lasting_of_stores (cutoff_stores _)
@[simp] theorem cutoffNow_lasting (s : State) :
    (cutoffNow s).lasting = s.lasting := lasting_of_stores (cutoffNow_stores _)
@[simp] theorem passCutoff_lasting (s : State) :
    (passCutoff s).lasting = s.lasting := lasting_of_stores (passCutoff_stores _)
@[simp] theorem flushRegion_lasting (s : State) (g : Nat) :
    (flushRegion s g).lasting = s.lasting := lasting_of_stores (flushRegion_stores _ _)
@[simp] theorem dropCarried_lasting (s : State) (g : Nat) (num : BitVec 48) (ns : List Nat) :
    (dropCarried s g num ns).lasting = s.lasting := lasting_of_stores (dropCarried_stores _ _ _ _)
@[simp] theorem onEndpoint_lasting (s : State) (i : Nat) (f : Endpoint → Endpoint) :
    (State.onEndpoint s i f).lasting = s.lasting := lasting_of_stores (onEndpoint_stores _ _ _)
@[simp] theorem chainOff_lasting (s : State) (n : Nat) (t : Int) :
    (chainOff s n t).lasting = s.lasting := lasting_of_stores (chainOff_stores _ _ _)
@[simp] theorem chainSettle_lasting (s : State) (n : Nat) (t : Nat) :
    (chainSettle s n t).lasting = s.lasting := lasting_of_stores (chainSettle_stores _ _ _)
@[simp] theorem chainForget_lasting (s : State) :
    (chainForget s).lasting = s.lasting := lasting_of_stores (chainForget_stores _)
@[simp] theorem sourceOff_lasting (s : State) (n : Nat) (t : Int) :
    (sourceOff s n t).lasting = s.lasting := lasting_of_stores (sourceOff_stores _ _ _)
@[simp] theorem sourceOn_lasting (s : State) (n : Nat) :
    (sourceOn s n).lasting = s.lasting := lasting_of_stores (sourceOn_stores _ _)
@[simp] theorem accComplete_lasting (s : State) (n : Nat) (st : AccState) (d0 : Option Word) (d1 : Option Word) :
    (accComplete s n st d0 d1).lasting = s.lasting := lasting_of_stores (accComplete_stores _ _ _ _ _)
@[simp] theorem refuseAccess_lasting (s : State) (n : Nat) :
    (refuseAccess s n).lasting = s.lasting := lasting_of_stores (refuseAccess_stores _ _)
@[simp] theorem endSpu_lasting (s : State) (n : Nat) :
    (endSpu s n).lasting = s.lasting := lasting_of_stores (endSpu_stores _ _)
@[simp] theorem routeDrop_lasting (s : State) (r : Nat) :
    (routeDrop s r).lasting = s.lasting := lasting_of_stores (routeDrop_stores _ _)
@[simp] theorem dropRouteWrite_lasting (s : State) (i : Nat) :
    (dropRouteWrite s i).lasting = s.lasting := lasting_of_stores (dropRouteWrite_stores _ _)
@[simp] theorem dropRouteWrites_lasting (s : State) (n : Nat) :
    (dropRouteWrites s n).lasting = s.lasting := lasting_of_stores (dropRouteWrites_stores _ _)
@[simp] theorem leaveWave_lasting (s : State) (n : Nat) :
    (leaveWave s n).lasting = s.lasting := lasting_of_stores (leaveWave_stores _ _)
@[simp] theorem unpower_lasting (s : State) (n : Nat) :
    (unpower s n).lasting = s.lasting := lasting_of_stores (unpower_stores _ _)
@[simp] theorem startClear_lasting (s : State) (n : Nat) (t0 : Option Nat) (keep : Bool) :
    (startClear s n t0 keep).lasting = s.lasting := lasting_of_stores (startClear_stores _ _ _ _)
@[simp] theorem laneSprouts_lasting (s : State) (n : Nat) :
    (laneSprouts s n).lasting = s.lasting := lasting_of_stores (laneSprouts_stores _ _)
@[simp] theorem powerLane_lasting (s : State) (n : Nat) :
    (powerLane s n).lasting = s.lasting := lasting_of_stores (powerLane_stores _ _)
@[simp] theorem reclear_lasting (s : State) (n : Nat) (t0 : Option Nat) :
    (reclear s n t0).lasting = s.lasting := lasting_of_stores (reclear_stores _ _ _)
@[simp] theorem resumeLane_lasting (s : State) (n : Nat) :
    (resumeLane s n).lasting = s.lasting := lasting_of_stores (resumeLane_stores _ _)
@[simp] theorem happenLine_lasting (s : State) (n : Nat) (code : Nat) (declared : Nat) :
    (happenLine s n code declared).lasting = s.lasting := lasting_of_stores (happenLine_stores _ _ _ _)
@[simp] theorem declareShort_lasting (s : State) (n : Nat) (data : Nat) :
    (declareShort s n data).lasting = s.lasting := lasting_of_stores (declareShort_stores _ _ _)
@[simp] theorem declareStuck_lasting (s : State) (n : Nat) (data : Nat) :
    (declareStuck s n data).lasting = s.lasting := lasting_of_stores (declareStuck_stores _ _ _)
@[simp] theorem enumDone_lasting (s : State) (n : Nat) :
    (enumDone s n).lasting = s.lasting := lasting_of_stores (enumDone_stores _ _)
@[simp] theorem keepFlight_lasting (s : State) (n : Nat) (T : Nat) :
    (keepFlight s n T).lasting = s.lasting := lasting_of_stores (keepFlight_stores _ _ _)
@[simp] theorem keepFlights_lasting (s : State) (T : Nat) :
    (keepFlights s T).lasting = s.lasting := lasting_of_stores (keepFlights_stores _ _)
@[simp] theorem linStop_lasting (s : State) (n : Nat) :
    (linStop s n).lasting = s.lasting := lasting_of_stores (linStop_stores _ _)
@[simp] theorem linSleep_lasting (s : State) (n : Nat) :
    (linSleep s n).lasting = s.lasting := lasting_of_stores (linSleep_stores _ _)
@[simp] theorem leaveMode_lasting (s : State) (n : Nat) (t : Nat) :
    (leaveMode s n t).lasting = s.lasting := lasting_of_stores (leaveMode_stores _ _ _)
@[simp] theorem leaveNow_lasting (s : State) (n : Nat) :
    (leaveNow s n).lasting = s.lasting := lasting_of_stores (leaveNow_stores _ _)
@[simp] theorem leaveFlight_lasting (s : State) (n : Nat) :
    (leaveFlight s n).lasting = s.lasting := lasting_of_stores (leaveFlight_stores _ _)
@[simp] theorem leaveLanes_lasting (s : State) :
    (leaveLanes s).lasting = s.lasting := lasting_of_stores (leaveLanes_stores _)
@[simp] theorem loseTail_lasting (s : State) (ns : List Nat) :
    (loseTail s ns).lasting = s.lasting := lasting_of_stores (loseTail_stores _ _)
@[simp] theorem stopLanes_lasting (s : State) (ns : List Nat) :
    (stopLanes s ns).lasting = s.lasting := lasting_of_stores (stopLanes_stores _ _)
@[simp] theorem seqRestart_lasting (s : State) (c : Nat) :
    (seqRestart s c).lasting = s.lasting := lasting_of_stores (seqRestart_stores _ _)
@[simp] theorem tickRestarts_lasting (s : State) :
    (tickRestarts s).lasting = s.lasting := lasting_of_stores (tickRestarts_stores _)
@[simp] theorem onAknun_lasting (s : State) (n : Nat) (f : State → State) (h : ∀ s, (f s).lasting =
    s.lasting) :
    (onAknun s n f).lasting = s.lasting := by
  unfold onAknun
  repeat' first
    | with_reducible rfl
    | with_reducible assumption
    | split
    | dsimp only
    | simp [h]

@[simp] theorem lineSlow_lasting (s : State) (n : Nat) :
    (lineSlow s n).lasting = s.lasting := lasting_of_stores (lineSlow_stores _ _)
@[simp] theorem noteAdmits_lasting (s : State) (g : Nat) :
    (noteAdmits s g).lasting = s.lasting := lasting_of_stores (noteAdmits_stores _ _)
@[simp] theorem unstage_lasting (p : Port) (s : State) (am : Nat × Word) :
    (unstage p s am).lasting = s.lasting := lasting_of_stores (unstage_stores _ _ _)
@[simp] theorem discardSession_lasting (s : State) (p : Port) :
    (discardSession s p).lasting = s.lasting := lasting_of_stores (discardSession_stores _ _)
@[simp] theorem supervise_lasting (s : State) (p : Port) :
    (supervise s p).lasting = s.lasting := lasting_of_stores (supervise_stores _ _)
@[simp] theorem closeSession_lasting (s : State) (p : Port) :
    (closeSession s p).lasting = s.lasting := lasting_of_stores (closeSession_stores _ _)
@[simp] theorem abandonVault_lasting (s : State) (p : Port) :
    (abandonVault s p).lasting = s.lasting := lasting_of_stores (abandonVault_stores _ _)
@[simp] theorem logAlarm_lasting (s : State) (n : Nat) (resp : Nat) :
    (logAlarm s n resp).lasting = s.lasting := by
  unfold logAlarm
  repeat' first
    | with_reducible rfl
    | with_reducible assumption
    | split
    | dsimp only
    | simp
    | rfl

@[simp] theorem alarmNotice_lasting (s : State) (n : Nat) (resp : Nat) :
    (alarmNotice s n resp).lasting = s.lasting := by
  unfold alarmNotice
  split <;> simp

@[simp] theorem abandonProv_lasting (s : State) :
    (abandonProv s).lasting = s.lasting := by
  unfold abandonProv
  repeat' first
    | with_reducible rfl
    | with_reducible assumption
    | split
    | dsimp only
    | simp

@[simp] theorem closeBoth_lasting (s : State) :
    (closeBoth s).lasting = s.lasting := lasting_of_stores (closeBoth_stores _)
@[simp] theorem stopExport_lasting (s : State) :
    (stopExport s).lasting = s.lasting := lasting_of_stores (stopExport_stores _)
@[simp] theorem lockStreams_lasting (s : State) :
    (lockStreams s).lasting = s.lasting := lasting_of_stores (lockStreams_stores _)
@[simp] theorem refuseMode_lasting (s : State) :
    (refuseMode s).lasting = s.lasting := lasting_of_stores (refuseMode_stores _)
@[simp] theorem abandonActivation_lasting (s : State) :
    (abandonActivation s).lasting = s.lasting := by
  unfold abandonActivation
  split <;> simp

@[simp] theorem leaveDev_lasting (s : State) (d : DevState) :
    (leaveDev s d).lasting = s.lasting := lasting_of_stores (leaveDev_stores _ _)
@[simp] theorem lockdownActions_lasting (s : State) :
    (lockdownActions s).lasting = s.lasting := by
  unfold lockdownActions
  repeat' first
    | with_reducible rfl
    | with_reducible assumption
    | split
    | dsimp only
    | simp

@[simp] theorem zeroSlot_lasting (s : State) (i : Nat) :
    (zeroSlot s i).lasting = s.lasting := by simp [zeroSlot]

@[simp] theorem eraseStreamKeys_lasting (s : State) :
    (eraseStreamKeys s).lasting = s.lasting := lasting_of_stores (eraseStreamKeys_stores _)
@[simp] theorem erase1Actions_lasting (s : State) :
    (erase1Actions s).lasting = s.lasting := by simp [erase1Actions]

@[simp] theorem macRun_lasting (u : Ul) (n : Nat) (s : State) : (macRun u n s).lasting = s.lasting := by
  induction n generalizing s with
  | zero => rfl
  | succ n ih =>
    simp only [macRun]
    repeat' first
      | with_reducible rfl
      | split
      | simp [ih]

@[simp] theorem macs_lasting (s : State) :
    (macs s).lasting = s.lasting := by simp [macs]

@[simp] theorem handMac_lasting (s : State) (f : TxFrame) (u : Ul) :
    (handMac s f u).lasting = s.lasting := by simp [handMac]

@[simp] theorem choosePort_lasting (s : State) (k : Nat) :
    (choosePort s k).lasting = s.lasting := lasting_of_stores (choosePort_stores _ _)
@[simp] theorem dropStopped_lasting (s : State) (k : Nat) :
    (dropStopped s k).lasting = s.lasting := lasting_of_stores (dropStopped_stores _ _)
@[simp] theorem refreshStream_lasting (s : State) (k : Nat) :
    (refreshStream s k).lasting = s.lasting := lasting_of_stores (refreshStream_stores _ _)
@[simp] theorem refreshStreams_lasting (s : State) :
    (refreshStreams s).lasting = s.lasting := lasting_of_stores (refreshStreams_stores _)
@[simp] theorem countDropped_lasting (s : State) (k : Nat) (n : Nat) :
    (countDropped s k n).lasting = s.lasting := lasting_of_stores (countDropped_stores _ _ _)
@[simp] theorem keyCurrent_lasting (s : State) (k : Nat) (num : BitVec 48) :
    (keyCurrent s k num).lasting = s.lasting := lasting_of_stores (keyCurrent_stores _ _ _)
@[simp] theorem seqCheck_lasting (s : State) (k : Nat) (num : BitVec 48) :
    (seqCheck s k num).lasting = s.lasting := lasting_of_stores (seqCheck_stores _ _ _)
@[simp] theorem keyExpiredEvent_lasting (s : State) (k : Nat) :
    (keyExpiredEvent s k).lasting = s.lasting := lasting_of_stores (keyExpiredEvent_stores _ _)
@[simp] theorem emit_lasting (s : State) (k : Nat) (num : BitVec 48) (idx : Nat) (g : Option Nat) (via
    : List Ul) (hdr : Bytes) (body : Bytes) :
    (emit s k num idx g via hdr body).lasting = s.lasting := by
  exact lasting_foldl fun s a => by simp

@[simp] theorem markSent_lasting (k : Nat) (s : State) (r : Rec × Bool) :
    (markSent k s r).lasting = s.lasting := lasting_of_stores (markSent_stores _ _ _)
@[simp] theorem onSnap_lasting (s : State) (num : BitVec 48) (f : Snap → Snap) :
    (onSnap s num f).lasting = s.lasting := lasting_of_stores (onSnap_stores _ _ _)
@[simp] theorem eccRead_lasting (num : BitVec 48) (s : State) (j : Nat) :
    (eccRead num s j).lasting = s.lasting := lasting_of_stores (eccRead_stores _ _ _)
@[simp] theorem dropJob_lasting (k : Nat) (s : State) (j : SegJob) :
    (dropJob k s j).lasting = s.lasting := lasting_of_stores (dropJob_stores _ _ _)
@[simp] theorem sealJob_lasting (s : State) (k : Nat) (j : SegJob) (x : Snap) :
    (sealJob s k j x).1.lasting = s.lasting := by
  unfold sealJob
  repeat' first
    | with_reducible rfl
    | with_reducible assumption
    | split
    | (with_reducible refine Eq.trans (lasting_foldl ?_) ?_ <;> intros)
    | dsimp only
    | simp

@[simp] theorem streamTurn_lasting (s : State) (k : Nat) : (streamTurn s k).lasting = s.lasting := by
  unfold streamTurn
  split
  · rfl
  · split
    · exact (lasting_foldl fun s j => dropJob_lasting k s j).trans (by simp)
    · refine under_lasting _ _ _ fun s => ?_
      split
      · dsimp only
        split <;> simp
      · rfl
      · simp

@[simp] theorem sealTurns_lasting (n : Nat) (s : State) : (sealTurns n s).lasting = s.lasting := by
  induction n generalizing s with
  | zero => rfl
  | succ n ih => exact (ih _).trans (lasting_foldl fun s k => streamTurn_lasting s k)

@[simp] theorem sealAll_lasting (s : State) : (sealAll s).lasting = s.lasting := by
  unfold sealAll
  split
  · rfl
  · simp only [macs_lasting, sealTurns_lasting]
    exact lasting_foldl fun s k => streamTurn_lasting s k

@[simp] theorem streamSnap_lasting (x : Snap) (s : State) (k : Nat) :
    (streamSnap x s k).lasting = s.lasting := lasting_of_stores (streamSnap_stores _ _ _)
@[simp] theorem eventSeal_lasting (s : State) (k : Nat) :
    (eventSeal s k).lasting = s.lasting := by
  unfold eventSeal
  repeat' first
    | with_reducible rfl
    | with_reducible assumption
    | split
    | dsimp only
    | simp

@[simp] theorem eventTick_lasting (s : State) (k : Nat) :
    (eventTick s k).lasting = s.lasting := by
  unfold eventTick
  repeat' first
    | with_reducible rfl
    | with_reducible assumption
    | split
    | dsimp only
    | simp

@[simp] theorem streamsTick_lasting (s : State) :
    (streamsTick s).lasting = s.lasting := by
  unfold streamsTick
  repeat' first
    | with_reducible rfl
    | with_reducible assumption
    | split
    | (with_reducible refine Eq.trans (lasting_foldl ?_) ?_ <;> intros)
    | dsimp only
    | simp

@[simp] theorem reroute_lasting (u : Ul) (s : State) (f : TxFrame) :
    (reroute u s f).lasting = s.lasting := by
  unfold reroute
  repeat' first
    | with_reducible rfl
    | with_reducible assumption
    | split
    | dsimp only
    | simp

@[simp] theorem portDown_lasting (s : State) (u : Ul) (cause : Nat) :
    (portDown s u cause).lasting = s.lasting := by
  unfold portDown
  repeat' first
    | with_reducible rfl
    | with_reducible assumption
    | split
    | (with_reducible refine Eq.trans (lasting_foldl ?_) ?_ <;> intros)
    | dsimp only
    | simp

@[simp] theorem portUp_lasting (s : State) (u : Ul) :
    (portUp s u).lasting = s.lasting := by
  unfold portUp
  repeat' first
    | with_reducible rfl
    | with_reducible assumption
    | split
    | (with_reducible refine Eq.trans (lasting_foldl ?_) ?_ <;> intros)
    | dsimp only
    | simp

@[simp] theorem timeFrame_lasting (s : State) (u : Ul) (b : Bytes) :
    (timeFrame s u b).lasting = s.lasting := by
  unfold timeFrame
  split <;> simp

@[simp] theorem startRephase_lasting (s : State) (c : Int) (offset : Option Int) :
    (startRephase s c offset).lasting = s.lasting := lasting_of_stores (startRephase_stores _ _ _)
@[simp] theorem hostRephase_lasting (s : State) :
    (hostRephase s).lasting = s.lasting := lasting_of_stores (hostRephase_stores _)
@[simp] theorem rephaseStep_lasting (s : State) :
    (rephaseStep s).lasting = s.lasting := lasting_of_stores (rephaseStep_stores _)
@[simp] theorem steer_lasting (s : State) :
    (steer s).lasting = s.lasting := lasting_of_stores (steer_stores _)
@[simp] theorem farOff_lasting (s : State) :
    (farOff s).lasting = s.lasting := lasting_of_stores (farOff_stores _)
@[simp] theorem syncState_lasting (s : State) (first : Bool) (e2 : Int) :
    (syncState s first e2).lasting = s.lasting := lasting_of_stores (syncState_stores _ _ _)
@[simp] theorem syncRx_lasting (s : State) (tai : Nat) (logInterval : Int) :
    (syncRx s tai logInterval).lasting = s.lasting := lasting_of_stores (syncRx_stores _ _ _)
@[simp] theorem changeFreq_lasting (s : State) (mhz : Nat) :
    (changeFreq s mhz).lasting = s.lasting := lasting_of_stores (changeFreq_stores _ _)
@[simp] theorem restartMonitors_lasting (s : State) : (restartMonitors s).lasting = s.lasting := by
  unfold restartMonitors
  extract_lets s1 s2
  have h1 : s1.lasting = s.lasting := lasting_foldl fun s n => by simp
  have h2 : s2.lasting = s1.lasting := lasting_foldl fun s g => by simp
  clear_value s2
  simp [h2, h1]

@[simp] theorem captureSample_lasting (s : State) :
    (captureSample s).lasting = s.lasting := by
  unfold captureSample
  (repeat' split) <;> simp

@[simp] theorem tryPower_lasting (s : State) (n : Nat) :
    (tryPower s n).lasting = s.lasting := lasting_of_stores (tryPower_stores _ _)
@[simp] theorem requestStage_lasting (s : State) (g : Nat) :
    (requestStage s g).lasting = s.lasting := lasting_of_stores (requestStage_stores _ _)
@[simp] theorem dropStage_lasting (s : State) (g : Nat) :
    (dropStage s g).lasting = s.lasting := lasting_of_stores (dropStage_stores _ _)
@[simp] theorem happenRegion_lasting (s : State) (ns : List Nat) (code : Nat) (begins : Nat) :
    (happenRegion s ns code begins).lasting = s.lasting := lasting_of_stores (happenRegion_stores _ _ _ _)
@[simp] theorem suspendLane_lasting (s : State) (n : Nat) :
    (suspendLane s n).lasting = s.lasting := lasting_of_stores (suspendLane_stores _ _)
@[simp] theorem suspendRegion_lasting (s : State) (g : Nat) :
    (suspendRegion s g).lasting = s.lasting := lasting_of_stores (suspendRegion_stores _ _)
@[simp] theorem resumeRegion_lasting (s : State) (g : Nat) :
    (resumeRegion s g).lasting = s.lasting := lasting_of_stores (resumeRegion_stores _ _)
@[simp] theorem isolateRegion_lasting (s : State) (g : Nat) :
    (isolateRegion s g).lasting = s.lasting := lasting_of_stores (isolateRegion_stores _ _)
@[simp] theorem setLive_lasting (s : State) (b : Bool) (r : Rail) :
    (setLive s b r).lasting = s.lasting := lasting_of_stores (setLive_stores _ _ _)

@[simp] theorem staleWaits_lasting (s : State) (g : Nat) :
    (staleWaits s g).lasting = s.lasting := lasting_of_stores (staleWaits_stores _ _)
@[simp] theorem startProbe_lasting (s : State) (n : Nat) :
    (startProbe s n).lasting = s.lasting := lasting_of_stores (startProbe_stores _ _)
@[simp] theorem routeWriteTo_lasting (s : State) (r : Nat) (v : Word) :
    (routeWriteTo s r v).lasting = s.lasting := lasting_of_stores (routeWriteTo_stores _ _ _)
@[simp] theorem routeFire_lasting (s : State) (r : Nat) (v : Word) :
    (routeFire s r v).lasting = s.lasting := lasting_of_stores (routeFire_stores _ _ _)
@[simp] theorem dropIneligible_lasting (s : State) :
    (dropIneligible s).lasting = s.lasting := lasting_of_stores (dropIneligible_stores _)
@[simp] theorem routeEval_lasting (s : State) (r : Nat) (rec_ : Option Rec) :
    (routeEval s r rec_).lasting = s.lasting := lasting_of_stores (routeEval_stores _ _ _)
@[simp] theorem routesSnap_lasting (s : State) (x : Snap) :
    (routesSnap s x).lasting = s.lasting := lasting_of_stores (routesSnap_stores _ _)
@[simp] theorem openSession_lasting (s : State) (p : Port) :
    (openSession s p).lasting = s.lasting := lasting_of_stores (openSession_stores _ _)
@[simp] theorem closeWrite_lasting (s : State) (p : Port) :
    (closeWrite s p).lasting = s.lasting := lasting_of_stores (closeWrite_stores _ _)
@[simp] theorem challengeExpire_lasting (s : State) (p : Port) :
    (challengeExpire s p).lasting = s.lasting := lasting_of_stores (challengeExpire_stores _ _)
@[simp] theorem losePort_lasting (s : State) (p : Port) :
    (losePort s p).lasting = s.lasting := lasting_of_stores (losePort_stores _ _)
@[simp] theorem heartbeatMiss_lasting (s : State) (p : Port) :
    (heartbeatMiss s p).lasting = s.lasting := lasting_of_stores (heartbeatMiss_stores _ _)
@[simp] theorem setBoth_lasting (s : State) (p : Port) (a : Nat) (m : Word) (d : Word) :
    (setBoth s p a m d).lasting = s.lasting := lasting_of_stores (setBoth_stores _ _ _ _ _)
@[simp] theorem revertChannels_lasting (s : State) (p : Port) :
    (revertChannels s p).lasting = s.lasting := lasting_of_stores (revertChannels_stores _ _)
@[simp] theorem revertStreams_lasting (s : State) (p : Port) :
    (revertStreams s p).lasting = s.lasting := lasting_of_stores (revertStreams_stores _ _)
@[simp] theorem leaseEnd_lasting (s : State) (p : Port) :
    (leaseEnd s p).lasting = s.lasting := lasting_of_stores (leaseEnd_stores _ _)
@[simp] theorem reclaimPort_lasting (s : State) (p : Port) :
    (reclaimPort s p).lasting = s.lasting := lasting_of_stores (reclaimPort_stores _ _)
@[simp] theorem portReset_lasting (s : State) (p : Port) :
    (portReset s p).lasting = s.lasting := lasting_of_stores (portReset_stores _ _)
@[simp] theorem writeSlot_lasting (s : State) (i : Nat) (key : Bytes) (typ : Nat) (info : Nat) :
    (writeSlot s i key typ info).lasting = s.lasting := by simp [writeSlot]

@[simp] theorem zeroLoad_lasting (p : Port) (r : VaultReq) (s : State) :
    (zeroLoad p r s).lasting = s.lasting := lasting_of_stores (zeroLoad_stores _ _ _)
@[simp] theorem writeResult_lasting (s : State) (p : Port) (r : VaultReq) (status : Nat) (data : Bytes) :
    (writeResult s p r status data).lasting = s.lasting := lasting_of_stores (writeResult_stores _ _ _ _ _)
theorem opLoadPart_lasting (s : State) (p : Port) (r : VaultReq) : (opLoadPart s p r).2.2.lasting = s.lasting := by
  unfold opLoadPart
  repeat' first
    | with_reducible rfl
    | split
    | dsimp only
    | simp

theorem opInstallMaster_lasting (s : State) (p : Port) (r : VaultReq) : (opInstallMaster s p r).2.2.lasting = s.lasting := by
  unfold opInstallMaster
  repeat' first
    | with_reducible rfl
    | split
    | dsimp only
    | simp

theorem opInstallStreamKey_lasting (s : State) (r : VaultReq) : (opInstallStreamKey s r).2.2.lasting = s.lasting := by
  unfold opInstallStreamKey
  repeat' first
    | with_reducible rfl
    | split
    | dsimp only
    | simp

theorem opInstallPairing_lasting (s : State) (p : Port) (r : VaultReq) : (opInstallPairing s p r).2.2.lasting = s.lasting := by
  unfold opInstallPairing
  repeat' first
    | with_reducible rfl
    | split
    | dsimp only
    | simp

theorem opInstallHoard_lasting (s : State) (p : Port) : (opInstallHoard s p).2.2.lasting = s.lasting := by
  unfold opInstallHoard
  repeat' first
    | with_reducible rfl
    | split
    | dsimp only
    | simp

theorem opRotate_lasting (s : State) (p : Port) (r : VaultReq) : (opRotate s p r).2.2.lasting = s.lasting := by
  unfold opRotate
  repeat' first
    | with_reducible rfl
    | split
    | dsimp only
    | simp

theorem opClearSlot_lasting (s : State) (r : VaultReq) : (opClearSlot s r).2.2.lasting = s.lasting := by
  unfold opClearSlot
  repeat' first
    | with_reducible rfl
    | split
    | dsimp only
    | simp

theorem opSetPolicy_lasting (s : State) (r : VaultReq) : (opSetPolicy s r).2.2.lasting = s.lasting := by
  unfold opSetPolicy
  repeat' first
    | with_reducible rfl
    | split
    | dsimp only
    | simp

theorem opReadAttr_lasting (s : State) (r : VaultReq) : (opReadAttr s r).2.2.lasting = s.lasting := by
  unfold opReadAttr
  repeat' first
    | with_reducible rfl
    | split
    | dsimp only

theorem opReadLog_lasting (s : State) (r : VaultReq) : (opReadLog s r).2.2.lasting = s.lasting := by
  unfold opReadLog
  repeat' first
    | with_reducible rfl
    | split

theorem opSign_lasting (s : State) (r : VaultReq) : (opSign s r).2.2.lasting = s.lasting := by
  simp only [opSign, State.draw]
  repeat' first
    | with_reducible rfl
    | split
    | dsimp only
    | simp

theorem opReadOut_lasting (s : State) (r : VaultReq) : (opReadOut s r).2.2.lasting = s.lasting := by
  unfold opReadOut
  repeat' first
    | with_reducible rfl
    | split
    | dsimp only

theorem opSaveConfig_lasting (s : State) : (opSaveConfig s).2.2.lasting = s.lasting := by
  unfold opSaveConfig
  repeat' first
    | with_reducible rfl
    | split
    | dsimp only
    | simp

theorem opProvPart_lasting (s : State) (r : VaultReq) : (opProvPart s r).2.2.lasting = s.lasting := by
  unfold opProvPart
  repeat' first
    | with_reducible rfl
    | split
    | dsimp only
    | simp

theorem opProvCommit_lasting (s : State) (puf : Bool) : (opProvCommit s puf).2.2.lasting = s.lasting := by
  simp only [opProvCommit, State.draw]
  repeat' first
    | with_reducible rfl
    | split
    | dsimp only
    | simp

/-- What a vault operation does, it does to the vault, its buffers and the configuration copies. -/
theorem vaultRun_lasting (s : State) (p : Port) (r : VaultReq) (puf : Bool) : (vaultRun s p r puf).2.2.lasting = s.lasting := by
  unfold vaultRun
  split
  · rfl
  · split <;> simp [opLoadPart_lasting, opInstallMaster_lasting, opInstallStreamKey_lasting, opInstallPairing_lasting,
      opInstallHoard_lasting, opRotate_lasting, opClearSlot_lasting, opSetPolicy_lasting, opReadAttr_lasting,
      opReadLog_lasting, opSign_lasting, opReadOut_lasting, opSaveConfig_lasting, opProvPart_lasting,
      opProvCommit_lasting]

@[simp] theorem vaultComplete_lasting (s : State) (p : Port) (puf : Bool) :
    (vaultComplete s p puf).lasting = s.lasting := by
  unfold vaultComplete
  split
  · rfl
  · next r _ =>
      split
      · rfl
      · have h := vaultRun_lasting s p r puf
        split
        next heq =>
          rw [heq] at h
          simpa using h

@[simp] theorem vaultBusy_lasting (s : State) (p : Port) :
    (vaultBusy s p).lasting = s.lasting := lasting_of_stores (vaultBusy_stores _ _)
@[simp] theorem endSecure_lasting (s : State) (p : Port) (ctr : Word) :
    (endSecure s p ctr).lasting = s.lasting := lasting_of_stores (endSecure_stores _ _ _)
@[simp] theorem settleClears_lasting (s : State) (b : Build) (i : Nat) :
    (settleClears s b i).lasting = s.lasting := lasting_of_stores (settleClears_stores _ _ _)
@[simp] theorem threshold_lasting (s : State) (i : Nat) (st : RecState) (v : Word) :
    (threshold s i st v).lasting = s.lasting := lasting_of_stores (threshold_stores _ _ _ _)
@[simp] theorem drained_lasting (num : BitVec 48) (s : State) (g : Nat) :
    (drained num s g).lasting = s.lasting := lasting_of_stores (drained_stores _ _ _)
@[simp] theorem assemble_lasting (s : State) (b : Build) (fixed : Nat) (badEcc : List Nat) (decayed : List Nat) (flips : List Nat) :
    (assemble s b fixed badEcc decayed flips).1.lasting = s.lasting := lasting_of_stores (assemble_stores _ _ _ _ _ _)
@[simp] theorem endSow_lasting (s : State) :
    (endSow s).lasting = s.lasting := lasting_of_stores (endSow_stores _)
@[simp] theorem snapDone_lasting (s : State) (b : Build) (fixed : Nat) (badEcc : List Nat) (decayed : List Nat) (flips : List Nat) :
    (snapDone s b fixed badEcc decayed flips).lasting = s.lasting := lasting_of_stores (snapDone_stores _ _ _ _ _ _)
@[simp] theorem candidate_lasting (s : State) (before : List CommitRun) (d : List (Nat × Word)) :
    (candidate s before d).lasting = s.lasting := lasting_of_stores (candidate_stores _ _ _)
@[simp] theorem commitStatus_lasting (s : State) (c : CommitRun) (st : CommitState) (r : Reason) :
    (commitStatus s c st r).lasting = s.lasting := by simp [commitStatus]

@[simp] theorem commitEnd_lasting (s : State) (c : CommitRun) (st : CommitState) (r : Reason) :
    (commitEnd s c st r).lasting = s.lasting := by simp [commitEnd]

@[simp] theorem commitWrite_lasting (s : State) (p : Port) (groups : BitVec 16) :
    (commitWrite s p groups).lasting = s.lasting := by
  unfold commitWrite
  split <;> simp

@[simp] theorem takeSec_lasting (s : State) (p : Port) (g : BitVec 16) :
    (takeSec s p g).lasting = s.lasting := lasting_of_stores (takeSec_stores _ _ _)
@[simp] theorem takeLoad_lasting (s : State) (p : Port) (g : BitVec 16) :
    (takeLoad s p g).lasting = s.lasting := lasting_of_stores (takeLoad_stores _ _ _)
@[simp] theorem setSowing_lasting (s : State) (c : CommitRun) (b : Bool) :
    (setSowing s c b).lasting = s.lasting := lasting_of_stores (setSowing_stores _ _ _)
@[simp] theorem sownFrom_lasting (s : State) (c : CommitRun) :
    (sownFrom s c).lasting = s.lasting := lasting_of_stores (sownFrom_stores _ _)
@[simp] theorem writeReports_lasting (s : State) (k : State) (c : CommitRun) (eff : BitVec 48) :
    (writeReports s k c eff).lasting = s.lasting := lasting_of_stores (writeReports_stores _ _ _ _)
@[simp] theorem putCommit_lasting (s : State) (c : CommitRun) (c' : CommitRun) :
    (putCommit s c c').lasting = s.lasting := by simp [putCommit]

@[simp] theorem dropCommit_lasting (s : State) (c : CommitRun) :
    (dropCommit s c).lasting = s.lasting := by simp [dropCommit]

@[simp] theorem syncStaging_lasting (s : State) :
    (syncStaging s).lasting = s.lasting := lasting_of_stores (syncStaging_stores _)
@[simp] theorem bootFallback_lasting (s : State) (c : CommitRun) (r : Reason) :
    (bootFallback s c r).lasting = s.lasting := by
  unfold bootFallback
  repeat' first
    | with_reducible rfl
    | with_reducible assumption
    | split
    | (with_reducible refine Eq.trans (lasting_foldl ?_) ?_ <;> intros)
    | dsimp only
    | simp

@[simp] theorem endSowing_lasting (s : State) (c : CommitRun) :
    (endSowing s c).lasting = s.lasting := by
  unfold endSowing
  repeat' first
    | with_reducible rfl
    | with_reducible assumption
    | split
    | dsimp only
    | simp

@[simp] theorem descEffect_lasting (old : Tbl Word) (s : State) (i : Nat) :
    (descEffect old s i).lasting = s.lasting := lasting_of_stores (descEffect_stores _ _ _)
@[simp] theorem accessEffect_lasting (old : Tbl Word) (s : State) (n : Nat) (modeChanged : Bool) :
    (accessEffect old s n modeChanged).lasting = s.lasting := lasting_of_stores (accessEffect_stores _ _ _ _)
@[simp] theorem modeEffect_lasting (old : Tbl Word) (s : State) (n : Nat) :
    (modeEffect old s n).lasting = s.lasting := lasting_of_stores (modeEffect_stores _ _ _)
@[simp] theorem spuEffect_lasting (s : State) (n : Nat) :
    (spuEffect s n).lasting = s.lasting := lasting_of_stores (spuEffect_stores _ _)
@[simp] theorem topEffect_lasting (s : State) (n : Nat) :
    (topEffect s n).lasting = s.lasting := lasting_of_stores (topEffect_stores _ _)
@[simp] theorem laneEffect_lasting (old : Tbl Word) (s : State) (n : Nat) :
    (laneEffect old s n).lasting = s.lasting := lasting_of_stores (laneEffect_stores _ _ _)
@[simp] theorem clusterEffect_lasting (s : State) (c : Nat) :
    (clusterEffect s c).lasting = s.lasting := lasting_of_stores (clusterEffect_stores _ _)
@[simp] theorem sowEffect_lasting (old : Tbl Word) (s : State) (c : CommitRun) :
    (sowEffect old s c).lasting = s.lasting := lasting_of_stores (sowEffect_stores _ _ _)
@[simp] theorem underOld_lasting (s : State) (old : Tbl Word) :
    (underOld s old).lasting = s.lasting := lasting_of_stores (underOld_stores _ _)
@[simp] theorem streamEffect_lasting (old : Tbl Word) (s : State) (k : Nat) :
    (streamEffect old s k).lasting = s.lasting := lasting_of_stores (streamEffect_stores _ _ _)
@[simp] theorem streamsEffect_lasting (old : Tbl Word) (s : State) :
    (streamsEffect old s).lasting = s.lasting := by
  unfold streamsEffect
  repeat' first
    | with_reducible rfl
    | with_reducible assumption
    | split
    | (with_reducible refine Eq.trans (lasting_foldl ?_) ?_ <;> intros)
    | dsimp only
    | simp

@[simp] theorem routesEffect_lasting (old : Tbl Word) (s : State) :
    (routesEffect old s).lasting = s.lasting := lasting_of_stores (routesEffect_stores _ _)
@[simp] theorem channelsEffect_lasting (s : State) :
    (channelsEffect s).lasting = s.lasting := lasting_of_stores (channelsEffect_stores _)
@[simp] theorem monitorsEffect_lasting (old : Tbl Word) (s : State) :
    (monitorsEffect old s).lasting = s.lasting := by
  unfold monitorsEffect
  repeat' first
    | with_reducible rfl
    | with_reducible assumption
    | split
    | (with_reducible refine Eq.trans (lasting_foldl ?_) ?_ <;> intros)
    | dsimp only
    | simp

@[simp] theorem calEffect_lasting (s : State) (loads : List (Nat × Word)) :
    (calEffect s loads).lasting = s.lasting := lasting_of_stores (calEffect_stores _ _)
@[simp] theorem replayControls_lasting (s : State) (c : CommitRun) :
    (replayControls s c).lasting = s.lasting := by
  unfold replayControls
  split <;> simp

@[simp] theorem effect_lasting (s : State) (c : CommitRun) : (effect s c).lasting = s.lasting := by
  unfold effect
  extract_lets old has s1 live s2 s3 s4 s5 s6 s7 s8 s9 s10 s11 s12
  have h2 : s2.lasting = s.lasting := by simp [s2, s1]
  have h3 : s3.lasting = s2.lasting := lasting_foldl fun s i => descEffect_lasting old s i
  have h4 : s4.lasting = s3.lasting := by simp [s4]
  have h5 : s5.lasting = s4.lasting := by simp only [s5]; split <;> simp
  have h6 : s6.lasting = s5.lasting := by simp only [s6]; split <;> simp
  have h7 : s7.lasting = s6.lasting := by simp only [s7]; split <;> simp
  have h8 : s8.lasting = s7.lasting := by simp only [s8]; split <;> simp
  have h9 : s9.lasting = s8.lasting := by simp only [s9]; split <;> simp
  have h10 : s10.lasting = s9.lasting := by simp only [s10]; split <;> simp
  have h12 : s12.lasting = s10.lasting := by simp [s12, s11]
  have h : s12.lasting = s.lasting := by rw [h12, h10, h9, h8, h7, h6, h5, h4, h3, h2]
  clear_value s12
  split <;> simp [h]

@[simp] theorem commitsEffect_lasting (s : State) :
    (commitsEffect s).lasting = s.lasting := by
  unfold commitsEffect
  repeat' first
    | with_reducible rfl
    | with_reducible assumption
    | split
    | (with_reducible refine Eq.trans (lasting_foldl ?_) ?_ <;> intros)
    | dsimp only
    | simp

@[simp] theorem discardWrite_lasting (s : State) (p : Port) (groups : BitVec 16) :
    (discardWrite s p groups).lasting = s.lasting := lasting_of_stores (discardWrite_stores _ _ _)
@[simp] theorem takeWrite_lasting (s : State) (block : Byte) :
    (takeWrite s block).lasting = s.lasting := by simp [takeWrite]

@[simp] theorem noteError_lasting (s : State) (e : BitVec 5) :
    (noteError s e).lasting = s.lasting := by simp [noteError]

@[simp] theorem endTake_lasting (s : State) (block : Byte) (readBackOk : Bool) :
    (endTake s block readBackOk).lasting = s.lasting := by
  unfold endTake
  rw [setUState_lasting]
  repeat' first
    | with_reducible rfl
    | split
    | dsimp only
    | simp

@[simp] theorem abortWrite_lasting (s : State) :
    (abortWrite s).lasting = s.lasting := by
  unfold abortWrite
  split <;> simp

@[simp] theorem verifyWrite_lasting (s : State) :
    (verifyWrite s).lasting = s.lasting := by simp [verifyWrite]

@[simp] theorem activateWrite_lasting (s : State) (rolling : Bool) :
    (activateWrite s rolling).lasting = s.lasting := by simp [activateWrite]

@[simp] theorem beginPause_lasting (s : State) (a : Nat) :
    (beginPause s a).lasting = s.lasting := by simp [beginPause]

@[simp] theorem runningImage_lasting (s : State) :
    (runningImage s).lasting = s.lasting := by simp [runningImage]

@[simp] theorem endPause_lasting (s : State) :
    (endPause s).lasting = s.lasting := by
  unfold endPause
  repeat' first
    | with_reducible rfl
    | with_reducible assumption
    | split
    | dsimp only
    | simp
    | rfl

@[simp] theorem migrateCfg_lasting (s : State) (writeOk : Bool) :
    (migrateCfg s writeOk).lasting = s.lasting := by
  unfold migrateCfg
  (repeat' split) <;> simp

@[simp] theorem migrateCal_lasting (s : State) (writeOk : Bool) :
    (migrateCal s writeOk).lasting = s.lasting := by
  unfold migrateCal
  (repeat' split) <;> simp

@[simp] theorem endMigration_lasting (s : State) (w : MigWrite) :
    (endMigration s w).lasting = s.lasting := by
  unfold endMigration
  repeat' first
    | with_reducible rfl
    | with_reducible assumption
    | split
    | dsimp only
    | simp


@[simp] theorem checkExport_lasting (s : State) :
    (checkExport s).lasting = s.lasting := lasting_of_stores (checkExport_stores _)
@[simp] theorem sealTrace_lasting (s : State) (body : Bytes) :
    (sealTrace s body).lasting = s.lasting := by
  unfold sealTrace
  repeat' first
    | with_reducible rfl
    | with_reducible assumption
    | split
    | dsimp only
    | simp

@[simp] theorem sealStream_lasting (n : Nat) (s : State) : (sealStream n s).lasting = s.lasting := by
  induction n generalizing s with
  | zero => rfl
  | succ n ih =>
    simp only [sealStream]
    repeat' first
      | with_reducible rfl
      | split
      | simp [ih]

@[simp] theorem exportTick_lasting (s : State) :
    (exportTick s).lasting = s.lasting := by
  unfold exportTick
  split <;> simp

@[simp] theorem beginTrace_lasting (s : State) (lanes : List Nat) :
    (beginTrace s lanes).lasting = s.lasting := lasting_of_stores (beginTrace_stores _ _)
@[simp] theorem checkpointAll_lasting (s : State) :
    (checkpointAll s).lasting = s.lasting := lasting_of_stores (checkpointAll_stores _)
@[simp] theorem beginBlocks_lasting (s : State) :
    (beginBlocks s).lasting = s.lasting := lasting_of_stores (beginBlocks_stores _)
@[simp] theorem startRing_lasting (s : State) :
    (startRing s).lasting = s.lasting := lasting_of_stores (startRing_stores _)
@[simp] theorem startExport_lasting (s : State) :
    (startExport s).lasting = s.lasting := lasting_of_stores (startExport_stores _)
@[simp] theorem arm_lasting (s : State) (w : Word) :
    (arm s w).lasting = s.lasting := lasting_of_stores (arm_stores _ _)
@[simp] theorem exportChange_lasting (s : State) (w : Word) :
    (exportChange s w).lasting = s.lasting := lasting_of_stores (exportChange_stores _ _)
@[simp] theorem disarm_lasting (s : State) :
    (disarm s).lasting = s.lasting := lasting_of_stores (disarm_stores _)
@[simp] theorem freeze_lasting (s : State) (it : Option Item) :
    (freeze s it).lasting = s.lasting := lasting_of_stores (freeze_stores _ _)
@[simp] theorem freezeTick_lasting (s : State) (w : Word) :
    (freezeTick s w).lasting = s.lasting := lasting_of_stores (freezeTick_stores _ _)
@[simp] theorem hoardWrite_lasting (s : State) (w : Word) :
    (hoardWrite s w).lasting = s.lasting := lasting_of_stores (hoardWrite_stores _ _)
@[simp] theorem hoardCtlTick_lasting (s : State) :
    (hoardCtlTick s).lasting = s.lasting := lasting_of_stores (hoardCtlTick_stores _)
@[simp] theorem exportResume_lasting (s : State) :
    (exportResume s).lasting = s.lasting := lasting_of_stores (exportResume_stores _)
@[simp] theorem exportKeyTick_lasting (s : State) :
    (exportKeyTick s).lasting = s.lasting := lasting_of_stores (exportKeyTick_stores _)
@[simp] theorem rawPeriod_lasting (num : BitVec 48) (at_ : Nat) (stop : Nat) (s : State) (n : Nat) :
    (rawPeriod num at_ stop s n).lasting = s.lasting := lasting_of_stores (rawPeriod_stores _ _ _ _ _)
@[simp] theorem putDigests_lasting (s : State) :
    (putDigests s).lasting = s.lasting := lasting_of_stores (putDigests_stores _)
@[simp] theorem rawPeriods_lasting (s : State) (num : BitVec 48) (at_ : Nat) (stop : Nat) :
    (rawPeriods s num at_ stop).lasting = s.lasting := lasting_of_stores (rawPeriods_stores _ _ _ _)
@[simp] theorem hoardToReplay_lasting (s : State) :
    (hoardToReplay s).lasting = s.lasting := lasting_of_stores (hoardToReplay_stores _)
@[simp] theorem traceReset_lasting (s : State) (n : Nat) (num : BitVec 48) (kind : Nat) :
    (traceReset s n num kind).lasting = s.lasting := lasting_of_stores (traceReset_stores _ _ _ _)
@[simp] theorem traceFrame_lasting (s : State) (n : Nat) (num : BitVec 48) (at_ : Int) (kind : Nat) (cmd : Nat) (pos : Nat) (mark : Int) (strike : Int) (hi : Nat) (lo : Nat) (hasLow : Bool) (a : FrameRun) :
    (traceFrame s n num at_ kind cmd pos mark strike hi lo hasLow a).lasting = s.lasting := lasting_of_stores (traceFrame_stores _ _ _ _ _ _ _ _ _ _ _ _ _)
@[simp] theorem groupRead_lasting (s : State) (i : Nat) (v : BitVec 64) :
    (groupRead s i v).lasting = s.lasting := lasting_of_stores (groupRead_stores _ _ _)
@[simp] theorem storeMessage_lasting (s : State) (i : Nat) (m : Word) :
    (storeMessage s i m).lasting = s.lasting := lasting_of_stores (storeMessage_stores _ _ _)
@[simp] theorem huskMessage_lasting (s : State) (n : Nat) (i : Nat) (m : Word) :
    (huskMessage s n i m).1.lasting = s.lasting := lasting_of_stores (huskMessage_stores _ _ _ _)
@[simp] theorem huskBit_lasting (s : State) (n : Nat) (i : Nat) (word : Word) :
    (huskBit s n i word).1.lasting = s.lasting := lasting_of_stores (huskBit_stores _ _ _ _)
@[simp] theorem huskDrop_lasting (s : State) (i : Nat) :
    (huskDrop s i).lasting = s.lasting := lasting_of_stores (huskDrop_stores _ _)
@[simp] theorem devSample_lasting (s : State) (n : Nat) (d : Int) :
    (devSample s n d).lasting = s.lasting := lasting_of_stores (devSample_stores _ _ _)
@[simp] theorem answerMonitors_lasting (s : State) (n : Nat) (q : DecodeWith) (d : Decoded) :
    (answerMonitors s n q d).lasting = s.lasting := lasting_of_stores (answerMonitors_stores _ _ _ _)
@[simp] theorem jumpSuspect_lasting (s : State) (i : Nat) (x : Int) :
    (jumpSuspect s i x).lasting = s.lasting := lasting_of_stores (jumpSuspect_stores _ _ _)
@[simp] theorem tempoSample_lasting (s : State) (n : Nat) (p : Nat) (q : DecodeWith) (d : Decoded) :
    (tempoSample s n p q d).1.lasting = s.lasting := lasting_of_stores (tempoSample_stores _ _ _ _ _)
@[simp] theorem takeAnswer_lasting (s : State) (n : Nat) (p : Nat) (num : BitVec 48) (base : Int) (q : DecodeWith) (d : Decoded) :
    (takeAnswer s n p num base q d).1.lasting = s.lasting := lasting_of_stores (takeAnswer_stores _ _ _ _ _ _ _)
@[simp] theorem slowMarks_lasting (s : State) (n : Nat) :
    (slowMarks s n).lasting = s.lasting := lasting_of_stores (slowMarks_stores _ _)
@[simp] theorem stepLane_lasting (s : State) (n : Nat) :
    (stepLane s n).lasting = s.lasting := lasting_of_stores (stepLane_stores _ _)
@[simp] theorem lineCounts_lasting (s : State) (n : Nat) :
    (lineCounts s n).lasting = s.lasting := lasting_of_stores (lineCounts_stores _ _)
@[simp] theorem levelSample_lasting (s : State) (n : Nat) (hi : Nat) (lo : Nat) :
    (levelSample s n hi lo).lasting = s.lasting := lasting_of_stores (levelSample_stores _ _ _ _)
@[simp] theorem aknunBoundary_lasting (s : State) (n : Nat) (before : LaneCal) (hi : Nat) (markLow : Nat) (lo : Option Nat) (diffs : List Int) (seeds : List Nat) :
    (aknunBoundary s n before hi markLow lo diffs seeds).lasting = s.lasting := lasting_of_stores (aknunBoundary_stores _ _ _ _ _ _ _ _)
@[simp] theorem missFrame_lasting (s : State) (n : Nat) (missed : List (Fin 16 × Bool)) :
    (missFrame s n missed).lasting = s.lasting := lasting_of_stores (missFrame_stores _ _ _)
@[simp] theorem sampleStrike_lasting (s : State) (n : Nat) (top : Nat) (whole : Bool) (missed : List (Fin 16 × Bool)) :
    (sampleStrike s n top whole missed).lasting = s.lasting := lasting_of_stores (sampleStrike_stores _ _ _ _ _)
@[simp] theorem lineAfter_lasting (s : State) (n : Nat) (cut : Bool) :
    (lineAfter s n cut).lasting = s.lasting := lasting_of_stores (lineAfter_stores _ _ _)
@[simp] theorem runHarvest_lasting (s : State) (n : Nat) (top : Nat) (cmd : Nat) (num : BitVec 48) (at_ : Int) (w : HarvestWire) :
    (runHarvest s n top cmd num at_ w).lasting = s.lasting := lasting_of_stores (runHarvest_stores _ _ _ _ _ _ _)
@[simp] theorem cutAt_lasting (s : State) (n : Nat) (t0 : Nat) (top : Nat) (whole : Bool) (mark : Int) :
    (cutAt s n t0 top whole mark).lasting = s.lasting := lasting_of_stores (cutAt_stores _ _ _ _ _ _)
@[simp] theorem cutHarvest_lasting (s : State) (n : Nat) (t0 : Nat) :
    (cutHarvest s n t0).lasting = s.lasting := lasting_of_stores (cutHarvest_stores _ _ _)
@[simp] theorem silentSprout_lasting (s : State) (i : Nat) :
    (silentSprout s i).lasting = s.lasting := lasting_of_stores (silentSprout_stores _ _)
@[simp] theorem accessFrame_lasting (s : State) (n : Nat) (num : BitVec 48) (at_ : Int) (c : CmdFrame) (addr : Nat) (w : FrameWire) :
    (accessFrame s n num at_ c addr w).1.lasting = s.lasting := lasting_of_stores (accessFrame_stores _ _ _ _ _ _ _)
@[simp] theorem startGrowth_lasting (s : State) (n : Nat) :
    (startGrowth s n).lasting = s.lasting := lasting_of_stores (startGrowth_stores _ _)
/-- What a command does in its slot and keeps, the slot keeps. -/
theorem inSlot_lasting (s : State) (n k : Nat) (c : CmdFrame) (x : FrameWire)
    (f : State → BitVec 48 → Int → State) (h : ∀ s a b, (f s a b).lasting = s.lasting) :
    (inSlot s n k c x f).lasting = s.lasting := by
  refine under_lasting _ _ _ fun s => ?_
  dsimp only
  repeat' first
    | with_reducible rfl
    | split
    | simp [h]

@[simp] theorem atPos_lasting (s : State) (n : Nat) (pos : Nat) (missed : List (Fin 16 × Bool)) (f : Endpoint → Endpoint) :
    (atPos s n pos missed f).lasting = s.lasting := lasting_of_stores (atPos_stores _ _ _ _ _)
@[simp] theorem atAwake_lasting (s : State) (n : Nat) (pos : Nat) (missed : List (Fin 16 × Bool)) (f : Endpoint → Endpoint) :
    (atAwake s n pos missed f).lasting = s.lasting := lasting_of_stores (atAwake_stores _ _ _ _ _)
@[simp] theorem takePos_lasting (s : State) (n : Nat) (pos : Nat) (missed : List (Fin 16 × Bool)) (d : Option Decoded) :
    (takePos s n pos missed d).lasting = s.lasting := lasting_of_stores (takePos_stores _ _ _ _ _)
@[simp] theorem enumFailed_lasting (s : State) (n : Nat) (p : Nat) :
    (enumFailed s n p).lasting = s.lasting := lasting_of_stores (enumFailed_stores _ _ _)
@[simp] theorem enumAnswer_lasting (s : State) (n : Nat) (p : Nat) (d : Option Decoded) :
    (enumAnswer s n p d).lasting = s.lasting := lasting_of_stores (enumAnswer_stores _ _ _ _)
@[simp] theorem warmEp_lasting (s : State) (i : Nat) (v : BitVec 64) :
    (warmEp s i v).lasting = s.lasting := lasting_of_stores (warmEp_stores _ _ _)
@[simp] theorem identAnswer_lasting (s : State) (n : Nat) (p : Nat) (d : Option Decoded) :
    (identAnswer s n p d).lasting = s.lasting := lasting_of_stores (identAnswer_stores _ _ _ _)
@[simp] theorem closeAnswer_lasting (s : State) (n : Nat) (p : Nat) (d : Option Decoded) :
    (closeAnswer s n p d).lasting = s.lasting := lasting_of_stores (closeAnswer_stores _ _ _ _)
@[simp] theorem accAnswer_lasting (s : State) (n : Nat) (d : Option Decoded) (w : List Nat → State →
    State) (h : ∀ x s, (w x s).lasting = s.lasting) :
    (accAnswer s n d w).lasting = s.lasting := by
  unfold accAnswer
  repeat' first
    | with_reducible rfl
    | with_reducible assumption
    | split
    | dsimp only
    | simp [h]

@[simp] theorem endpointWrite_lasting (s : State) (n : Nat) (pos : Nat) (addr : Nat) (v : Word) (missed : List (Fin 16 × Bool)) (d : Option Decoded) :
    (endpointWrite s n pos addr v missed d).lasting = s.lasting := lasting_of_stores (endpointWrite_stores _ _ _ _ _ _ _)
@[simp] theorem hostIdent_lasting (s : State) (i : Nat) (v : BitVec 64) :
    (hostIdent s i v).lasting = s.lasting := lasting_of_stores (hostIdent_stores _ _ _)
@[simp] theorem chainReset_lasting (s : State) (n : Nat) (t : Nat) :
    (chainReset s n t).1.lasting = s.lasting := lasting_of_stores (chainReset_stores _ _ _)
@[simp] theorem openPass_lasting (s : State) (n : Nat) (p : Nat) (missed : List (Fin 16 × Bool)) :
    (openPass s n p missed).lasting = s.lasting := lasting_of_stores (openPass_stores _ _ _ _)
@[simp] theorem openedAt_lasting (s : State) (n : Nat) (p : Nat) :
    (openedAt s n p).lasting = s.lasting := lasting_of_stores (openedAt_stores _ _ _)
@[simp] theorem openWindow_lasting (s : State) (n : Nat) (q : SpuState) :
    (openWindow s n q).lasting = s.lasting := lasting_of_stores (openWindow_stores _ _ _)
@[simp] theorem requestSpu_lasting (s : State) (n : Nat) (nv : Bool) (p : Pos) (all : Bool) (code : BitVec 6) :
    (requestSpu s n nv p all code).lasting = s.lasting := lasting_of_stores (requestSpu_stores _ _ _ _ _ _)
@[simp] theorem spuBusy_lasting (s : State) (n : Nat) (q : SpuState) (missed : List (Fin 16 × Bool)) :
    (spuBusy s n q missed).lasting = s.lasting := lasting_of_stores (spuBusy_stores _ _ _ _)
@[simp] theorem spuCommand_lasting (s : State) (n : Nat) (nv : Bool) (p : Pos) (all : Bool) (code : BitVec 6) (w : FrameWire) :
    (spuCommand s n nv p all code w).lasting = s.lasting := lasting_of_stores (spuCommand_stores _ _ _ _ _ _ _)
@[simp] theorem sleepChain_lasting (s : State) (n : Nat) (p : Nat) (all : Bool) (missed : List (Fin 16 × Bool)) :
    (sleepChain s n p all missed).lasting = s.lasting := lasting_of_stores (sleepChain_stores _ _ _ _ _)
@[simp] theorem wakeAnswer_lasting (s : State) (n : Nat) (p : Nat) (wake : Bool) (missed : List (Fin 16 × Bool)) (d : Option Decoded) :
    (wakeAnswer s n p wake missed d).lasting = s.lasting := lasting_of_stores (wakeAnswer_stores _ _ _ _ _ _)
@[simp] theorem attestOutcome_lasting (s : State) (n : Nat) (p : Nat) (code : Nat) :
    (attestOutcome s n p code).lasting = s.lasting := lasting_of_stores (attestOutcome_stores _ _ _ _)
@[simp] theorem attestBegun_lasting (s : State) (n : Nat) (p : Nat) (c : BitVec 64) (missed : List (Fin 16 × Bool)) :
    (attestBegun s n p c missed).lasting = s.lasting := lasting_of_stores (attestBegun_stores _ _ _ _ _)
@[simp] theorem tagRead_lasting (s : State) (n : Nat) (p : Nat) (num : BitVec 48) (at_ : Int) (addr : Nat) (w : FrameWire) :
    (tagRead s n p num at_ addr w).1.lasting = s.lasting := lasting_of_stores (tagRead_stores _ _ _ _ _ _ _)
@[simp] theorem frameCount_lasting (s : State) (n : Nat) (ok : Bool) :
    (frameCount s n ok).lasting = s.lasting := lasting_of_stores (frameCount_stores _ _ _)
@[simp] theorem cleanStep_lasting (s : State) (i : Nat) (ok : Bool) (clean : Bool) :
    (cleanStep s i ok clean).lasting = s.lasting := lasting_of_stores (cleanStep_stores _ _ _ _)
@[simp] theorem traceEdges_lasting (s : State) (n : Nat) (num : BitVec 48) (at_ : Int) (edges : List Int) (all : List Int) (a : Int) (b : Int) :
    (traceEdges s n num at_ edges all a b).lasting = s.lasting := lasting_of_stores (traceEdges_stores _ _ _ _ _ _ _ _)
@[simp] theorem busBoundary_lasting (s : State) (n : Nat) (before : LaneCal) (step : Bool) :
    (busBoundary s n before step).lasting = s.lasting := lasting_of_stores (busBoundary_stores _ _ _ _)
@[simp] theorem unstick_lasting (s : State) (n : Nat) :
    (unstick s n).lasting = s.lasting := lasting_of_stores (unstick_stores _ _)
@[simp] theorem serialStep_lasting (s : State) (n : Nat) (st : Nat) :
    (serialStep s n st).1.lasting = s.lasting := lasting_of_stores (serialStep_stores _ _ _)
@[simp] theorem sentPulse_lasting (s : State) (n : Nat) (lcal : Int) :
    (sentPulse s n lcal).1.lasting = s.lasting := lasting_of_stores (sentPulse_stores _ _ _)
@[simp] theorem sentEnd_lasting (s : State) (n : Nat) (before : LaneCal) (hi : Nat) (lo : Nat) :
    (sentEnd s n before hi lo).lasting = s.lasting := lasting_of_stores (sentEnd_stores _ _ _ _ _)
@[simp] theorem nibbleDevs_lasting (s : State) (n : Nat) (lcal : Int) (ivs : List Int) :
    (nibbleDevs s n lcal ivs).lasting = s.lasting := lasting_of_stores (nibbleDevs_stores _ _ _ _)
@[simp] theorem sentTake_lasting (s : State) (n : Nat) (num : BitVec 48) (at_ : Int) (w : SentWire) :
    (sentTake s n num at_ w).1.lasting = s.lasting := lasting_of_stores (sentTake_stores _ _ _ _ _)
@[simp] theorem sentReceive_lasting (s : State) (n : Nat) (num : BitVec 48) (at_ : Int) (w : SentWire) :
    (sentReceive s n num at_ w).lasting = s.lasting := lasting_of_stores (sentReceive_stores _ _ _ _ _)
@[simp] theorem psi5Entry_lasting (s : State) (n : Nat) (num : BitVec 48) (at_ : Int) (base : Int) (e : Entry) :
    (psi5Entry s n num at_ base e).lasting = s.lasting := lasting_of_stores (psi5Entry_stores _ _ _ _ _ _)
@[simp] theorem slotOver_lasting (s : State) (n : Nat) (k : Nat) (over_ : List Nat) :
    (slotOver s n k over_).lasting = s.lasting := lasting_of_stores (slotOver_stores _ _ _ _)
@[simp] theorem psi5End_lasting (s : State) (n : Nat) (before : LaneCal) :
    (psi5End s n before).lasting = s.lasting := lasting_of_stores (psi5End_stores _ _ _)
@[simp] theorem psi5Receive_lasting (s : State) (n : Nat) (k : Nat) (num : BitVec 48) (at_ : Int) (w : Psi5Wire) :
    (psi5Receive s n k num at_ w).lasting = s.lasting := lasting_of_stores (psi5Receive_stores _ _ _ _ _ _)
@[simp] theorem tellOuts_lasting (s : State) (n : Nat) (fid : Nat) (num : BitVec 48) :
    (tellOuts s n fid num).lasting = s.lasting := lasting_of_stores (tellOuts_stores _ _ _ _)
@[simp] theorem countBreaks_lasting (s : State) (n : Nat) (k : Nat) (recessive : Bool) :
    (countBreaks s n k recessive).lasting = s.lasting := lasting_of_stores (countBreaks_stores _ _ _ _)
@[simp] theorem linEnd_lasting (s : State) (n : Nat) (before : LaneCal) :
    (linEnd s n before).lasting = s.lasting := lasting_of_stores (linEnd_stores _ _ _)
@[simp] theorem diagFrame_lasting (s : State) (n : Nat) (start : Int) (num : BitVec 48) (at_ : Int) (ok : Bool) (edges : List Int) :
    (diagFrame s n start num at_ ok edges).lasting = s.lasting := lasting_of_stores (diagFrame_stores _ _ _ _ _ _ _)
@[simp] theorem linReceive_lasting (s : State) (n : Nat) (fid : Nat) (num : BitVec 48) (at_ : Int) (w : LinWire) :
    (linReceive s n fid num at_ w).lasting = s.lasting := lasting_of_stores (linReceive_stores _ _ _ _ _ _)
@[simp] theorem startTrig_lasting (s : State) (n : Nat) (at_ : Int) (num : BitVec 48) (inst : Int) :
    (startTrig s n at_ num inst).lasting = s.lasting := lasting_of_stores (startTrig_stores _ _ _ _ _)
@[simp] theorem probeTrig_lasting (s : State) (n : Nat) :
    (probeTrig s n).lasting = s.lasting := lasting_of_stores (probeTrig_stores _ _)
@[simp] theorem probeFrame_lasting (s : State) (n : Nat) (w : SentWire) :
    (probeFrame s n w).lasting = s.lasting := lasting_of_stores (probeFrame_stores _ _ _)
@[simp] theorem linOver_lasting (s : State) (n : Nat) (fid : Nat) (t : Nat) :
    (linOver s n fid t).lasting = s.lasting := lasting_of_stores (linOver_stores _ _ _ _)
@[simp] theorem diagFrames_lasting (s : State) (n : Nat) (t : Int) (t1 : Int) (num : BitVec 48) (at_ : Int) (w : LinWire) :
    (diagFrames s n t t1 num at_ w).lasting = s.lasting := lasting_of_stores (diagFrames_stores _ _ _ _ _ _ _)
@[simp] theorem diagResult_lasting (s : State) (n : Nat) (cut : Bool) (w : LinWire) :
    (diagResult s n cut w).lasting = s.lasting := lasting_of_stores (diagResult_stores _ _ _ _)
@[simp] theorem modeRequest_lasting (s : State) (d : DevState) :
    (modeRequest s d).lasting = s.lasting := lasting_of_stores (modeRequest_stores _ _)
@[simp] theorem modeWrite_lasting (s : State) (p : Port) (secure : Bool) (d : DevState) :
    (modeWrite s p secure d).lasting = s.lasting := lasting_of_stores (modeWrite_stores _ _ _ _)
@[simp] theorem reconnect_lasting (s : State) :
    (reconnect s).lasting = s.lasting := lasting_of_stores (reconnect_stores _)
@[simp] theorem dropRequest_lasting (s : State) :
    (dropRequest s).lasting = s.lasting := lasting_of_stores (dropRequest_stores _)
@[simp] theorem enterState_lasting (s : State) (d : DevState) :
    (enterState s d).lasting = s.lasting := by
  unfold enterState
  repeat' first
    | with_reducible rfl
    | with_reducible assumption
    | split
    | dsimp only
    | simp

@[simp] theorem modeChange_lasting (s : State) :
    (modeChange s).lasting = s.lasting := by
  unfold modeChange
  (repeat' split) <;> simp

@[simp] theorem beginEntry_lasting (s : State) :
    (beginEntry s).lasting = s.lasting := lasting_of_stores (beginEntry_stores _)
@[simp] theorem parkUplink_lasting (s : State) (u : Ul) :
    (parkUplink s u).lasting = s.lasting := by simp [parkUplink]

@[simp] theorem lanesDown_lasting (s : State) (ns : List Nat) :
    (lanesDown s ns).lasting = s.lasting := lasting_of_stores (lanesDown_stores _ _)
@[simp] theorem enterOff_lasting (s : State) :
    (enterOff s).lasting = s.lasting := by
  unfold enterOff
  repeat' first
    | with_reducible rfl
    | with_reducible assumption
    | split
    | (with_reducible refine Eq.trans (lasting_foldl ?_) ?_ <;> intros)
    | dsimp only
    | simp

@[simp] theorem enterSentinel_lasting (s : State) :
    (enterSentinel s).lasting = s.lasting := by
  unfold enterSentinel
  repeat' first
    | with_reducible rfl
    | with_reducible assumption
    | split
    | (with_reducible refine Eq.trans (lasting_foldl ?_) ?_ <;> intros)
    | dsimp only
    | simp

@[simp] theorem pollRec_lasting (s : State) (n : Nat) (p : Nat) (num : BitVec 48) (at_ : Nat) (ran : Bool) (es : List Entry) :
    (pollRec s n p num at_ ran es).1.lasting = s.lasting := lasting_of_stores (pollRec_stores _ _ _ _ _ _ _)
@[simp] theorem pollBus_lasting (s : State) (n : Nat) (num : BitVec 48) (at_ : Nat) (f : State → State)
    (h : ∀ s, (f s).lasting = s.lasting) :
    (pollBus s n num at_ f).1.lasting = s.lasting := by
  unfold pollBus
  repeat' first
    | with_reducible rfl
    | with_reducible assumption
    | split
    | dsimp only
    | simp [h]

@[simp] theorem afterCut_lasting (s : State) (n : Nat) :
    (afterCut s n).1.lasting = s.lasting := lasting_of_stores (afterCut_stores _ _)
@[simp] theorem pollPings_lasting (s : State) (n : Nat) (num : BitVec 48) (at_ : Nat) (t : Int) (pings : List (Pos × FrameWire)) :
    (pollPings s n num at_ t pings).1.lasting = s.lasting := lasting_of_stores (pollPings_stores _ _ _ _ _ _)
@[simp] theorem pollRoutes_lasting (s : State) (n : Nat) (recs : List Rec) :
    (pollRoutes s n recs).lasting = s.lasting := lasting_of_stores (pollRoutes_stores _ _ _)
@[simp] theorem poll_lasting (s : State) (n : Nat) (w : HarvestWire) (pings : List (Pos × FrameWire))
    (sent : Option SentWire) (lin : List (BitVec 6 × LinWire)) : (poll s n w pings sent lin).lasting = s.lasting := by
  unfold poll
  extract_lets num at_ d
  split
  · rfl
  · split
    next h2 =>
      rw [pollRoutes_lasting, pair_fst h2]
      refine (lasting_foldl_at Prod.fst (b := (d.st, [])) fun a p => ?_).trans ?_
      · simp
      · exact lasting_of_stores (pollLane_stores _ _ _ _ _ _ _ _)

@[simp] theorem oweWakes_lasting (s : State) (n : Nat) :
    (oweWakes s n).lasting = s.lasting := lasting_of_stores (oweWakes_stores _ _)
@[simp] theorem leaveSentinel_lasting (s : State) : (leaveSentinel s).lasting = s.lasting := by
  unfold leaveSentinel
  split
  · split
    · dsimp only
      rw [onMode_lasting]
      exact (lasting_foldl fun s x => by simp).trans (by simp)
    · rfl
  · rfl

@[simp] theorem resumeAt_lasting (s : State) :
    (resumeAt s).lasting = s.lasting := lasting_of_stores (resumeAt_stores _)
@[simp] theorem wardenCommit_lasting (s : State) (c : CommitRun) :
    (wardenCommit s c).lasting = s.lasting := by
  unfold wardenCommit
  (repeat' split) <;> simp

@[simp] theorem wardenPort_lasting (s : State) (p : Port) :
    (wardenPort s p).lasting = s.lasting := lasting_of_stores (wardenPort_stores _ _)
@[simp] theorem wardenStop_lasting (s : State) :
    (wardenStop s).lasting = s.lasting := by
  unfold wardenStop
  repeat' first
    | with_reducible rfl
    | with_reducible assumption
    | split
    | (with_reducible refine Eq.trans (lasting_foldl ?_) ?_ <;> intros)
    | dsimp only
    | simp

@[simp] theorem wardenResume_lasting (s : State) :
    (wardenResume s).lasting = s.lasting := lasting_of_stores (wardenResume_stores _)
@[simp] theorem indSeen_lasting (s : State) (a : Nat) :
    (indSeen s a).lasting = s.lasting := lasting_of_stores (indSeen_stores _ _)
@[simp] theorem noReference_lasting (s : State) :
    (noReference s).lasting = s.lasting := lasting_of_stores (noReference_stores _)
@[simp] theorem takeLead_lasting (s : State) (lead : Bool) :
    (takeLead s lead).lasting = s.lasting := lasting_of_stores (takeLead_stores _ _)
@[simp] theorem testRng_lasting (s : State) (ok : Bool) :
    (testRng s ok).lasting = s.lasting := by simp [testRng]

@[simp] theorem rebuildKek_lasting (s : State) (ok : Bool) :
    (rebuildKek s ok).lasting = s.lasting := by simp [rebuildKek]

@[simp] theorem checkSlots_lasting (s : State) (bad : List (Nat × Nat)) (corrected : List Nat) :
    (checkSlots s bad corrected).lasting = s.lasting := by
  unfold checkSlots
  repeat' first
    | with_reducible rfl
    | with_reducible assumption
    | split
    | (with_reducible refine Eq.trans (lasting_foldl ?_) ?_ <;> intros)
    | dsimp only
    | simp

@[simp] theorem startBank_lasting (s : State) :
    (startBank s).lasting = s.lasting := by simp [startBank]

@[simp] theorem recordDigest_lasting (s : State) (isB : Bool) : (recordDigest s isB).lasting = s.lasting := by
  unfold recordDigest
  repeat' first
    | with_reducible rfl
    | split
    | dsimp only
    | simp

@[simp] theorem fallbackBank_lasting (s : State) :
    (fallbackBank s).lasting = s.lasting := by simp [fallbackBank]


@[simp] theorem bootCommit_lasting (s : State) :
    (bootCommit s).lasting = s.lasting := by
  unfold bootCommit
  repeat' first
    | with_reducible rfl
    | with_reducible assumption
    | split
    | dsimp only
    | simp

@[simp] theorem startLanes_lasting (s : State) (warm : Bool) :
    (startLanes s warm).lasting = s.lasting := lasting_of_stores (startLanes_stores _ _)
@[simp] theorem startGrid_lasting (s : State) :
    (startGrid s).lasting = s.lasting := by
  unfold startGrid
  split <;> simp

@[simp] theorem bootEnd_lasting (s : State) (warm : Bool) :
    (bootEnd s warm).lasting = s.lasting := by
  unfold bootEnd
  repeat' first
    | with_reducible rfl
    | with_reducible assumption
    | split
    | (with_reducible refine Eq.trans (lasting_foldl ?_) ?_ <;> intros)
    | dsimp only
    | simp

theorem coldImage_lasting {s t : State} (h : coldImage s = some t) : t.lasting = s.lasting := by
  unfold coldImage at h
  dsimp only at h
  split at h
  · obtain rfl := Option.some.inj h; simp
  · split at h
    · obtain rfl := Option.some.inj h; simp
    · cases h

@[simp] theorem bootRest_lasting (s : State) (test : SelfTest) (refPresent : Bool) (bad : List (Nat × Nat))
    (corrected : List Nat) : (bootRest s test refPresent bad corrected).lasting = s.lasting := by
  unfold bootRest
  extract_lets s1 s2
  have h2 : s2.lasting = s.lasting := by
    simp only [s2, s1]
    split <;> simp
  clear_value s2
  split
  · simp [h2]
  · split
    next h => simp [coldImage_lasting h, h2]
    next => simp [h2]

@[simp] theorem startSow_lasting (s : State) :
    (startSow s).lasting = s.lasting := by
  unfold startSow
  repeat' first
    | with_reducible rfl
    | with_reducible assumption
    | split
    | (with_reducible refine Eq.trans (lasting_foldl ?_) ?_ <;> intros)
    | dsimp only
    | simp

@[simp] theorem markAbsent_lasting (s : State) (h : Nat) :
    (markAbsent s h).lasting = s.lasting := lasting_of_stores (markAbsent_stores _ _)
@[simp] theorem endDiscovery_lasting (s : State) :
    (endDiscovery s).lasting = s.lasting := by
  unfold endDiscovery
  repeat' first
    | with_reducible rfl
    | with_reducible assumption
    | split
    | (with_reducible refine Eq.trans (lasting_foldl ?_) ?_ <;> intros)
    | dsimp only
    | simp

@[simp] theorem sendMessages_lasting (s : State) :
    (sendMessages s).lasting = s.lasting := lasting_of_stores (sendMessages_stores _)
@[simp] theorem badMessage_lasting (s : State) :
    (badMessage s).lasting = s.lasting := lasting_of_stores (badMessage_stores _)
@[simp] theorem loseTick_lasting (s : State) :
    (loseTick s).lasting = s.lasting := lasting_of_stores (loseTick_stores _)
@[simp] theorem longSegment_lasting (s : State) (d : Nat) :
    (longSegment s d).lasting = s.lasting := lasting_of_stores (longSegment_stores _ _)
@[simp] theorem joinGrid_lasting (s : State) (e : Int) :
    (joinGrid s e).lasting = s.lasting := by
  unfold joinGrid
  (repeat' split) <;> simp

@[simp] theorem joiningMark_lasting (s : State) (arrival : Int) (m : Bytes) :
    (joiningMark s arrival m).lasting = s.lasting := by
  unfold joiningMark
  repeat' first
    | with_reducible rfl
    | with_reducible assumption
    | split
    | dsimp only
    | simp

@[simp] theorem joinedMark_lasting (s : State) (e : Int) (m : Bytes) :
    (joinedMark s e m).lasting = s.lasting := lasting_of_stores (joinedMark_stores _ _ _)
@[simp] theorem heard_lasting (m : Bytes) (s : State) (h : Nat) :
    (heard m s h).lasting = s.lasting := lasting_of_stores (heard_stores _ _ _)
@[simp] theorem echoRx_lasting (s : State) (a : Nat) :
    (echoRx s a).lasting = s.lasting := lasting_of_stores (echoRx_stores _ _)
@[simp] theorem submit_lasting (s : State) (p : Port) (n : Nat) (secure : Bool) :
    (submit s p n secure).lasting = s.lasting := lasting_of_stores (submit_stores _ _ _ _)
@[simp] theorem accWrite_lasting (s : State) (p : Port) (n : Nat) (off : Nat) (d : Word) (secure : Bool) :
    (accWrite s p n off d secure).lasting = s.lasting := lasting_of_stores (accWrite_stores _ _ _ _ _ _)
@[simp] theorem expire_lasting (s : State) (n : Nat) :
    (expire s n).lasting = s.lasting := lasting_of_stores (expire_stores _ _)
@[simp] theorem linOutWrite_lasting (s : State) (i : Nat) (d : Word) :
    (linOutWrite s i d).lasting = s.lasting := lasting_of_stores (linOutWrite_stores _ _ _)
@[simp] theorem stage_lasting (s : State) (p : Port) (a : Nat) (d : Word) (m : Word) (secure : Bool) :
    (stage s p a d m secure).lasting = s.lasting := lasting_of_stores (stage_stores _ _ _ _ _ _)
@[simp] theorem injectWord_lasting (s : State) (d : Word) :
    (injectWord s d).lasting = s.lasting := by simp [injectWord]

@[simp] theorem putInd_lasting (s : State) (p : Port) (a : Nat) (d : Word) (m : Word) (secure : Bool) :
    (putInd s p a d m secure).lasting = s.lasting := by
  unfold putInd
  repeat' first
    | with_reducible rfl
    | with_reducible assumption
    | split
    | dsimp only
    | simp

@[simp] theorem sessionWrite_lasting (s : State) (p : Port) (d : Word) :
    (sessionWrite s p d).lasting = s.lasting := lasting_of_stores (sessionWrite_stores _ _ _)
@[simp] theorem flushQueue_lasting (s : State) (p : Port) :
    (flushQueue s p).lasting = s.lasting := lasting_of_stores (flushQueue_stores _ _)
@[simp] theorem evqWrite_lasting (s : State) (p : Port) (d : Word) :
    (evqWrite s p d).lasting = s.lasting := lasting_of_stores (evqWrite_stores _ _ _)
@[simp] theorem updateWriteU_lasting (s : State) (d : Word) :
    (updateWriteU s d).lasting = s.lasting := by
  unfold updateWriteU
  repeat' first
    | with_reducible rfl
    | with_reducible assumption
    | split
    | dsimp only
    | simp


@[simp] theorem hoardCtlWrite_lasting (s : State) (d : Word) (secure : Bool) :
    (hoardCtlWrite s d secure).lasting = s.lasting := lasting_of_stores (hoardCtlWrite_stores _ _ _)
@[simp] theorem indCtlWrite_lasting (s : State) (p : Port) (d : Word) :
    (indCtlWrite s p d).lasting = s.lasting := lasting_of_stores (indCtlWrite_stores _ _ _)
@[simp] theorem takeHeader_lasting (s : State) (p : Port) (r : Result) :
    (takeHeader s p r).lasting = s.lasting := lasting_of_stores (takeHeader_stores _ _ _)
@[simp] theorem drive_lasting (s : State) (p : Port) (bs : Bytes) :
    (drive s p bs).lasting = s.lasting := lasting_of_stores (drive_stores _ _ _)
@[simp] theorem clearInd_lasting (s : State) (p : Port) :
    (clearInd s p).lasting = s.lasting := lasting_of_stores (clearInd_stores _ _)
@[simp] theorem noteAddr_lasting (s : State) (p : Port) (a : Nat) :
    (noteAddr s p a).lasting = s.lasting := lasting_of_stores (noteAddr_stores _ _ _)
@[simp] theorem noteDenied_lasting (s : State) (p : Port) (a : Nat) :
    (noteDenied s p a).lasting = s.lasting := lasting_of_stores (noteDenied_stores _ _ _)
@[simp] theorem noteTorn_lasting (s : State) (p : Port) :
    (noteTorn s p).lasting = s.lasting := lasting_of_stores (noteTorn_stores _ _)
@[simp] theorem noteBurstCrc_lasting (s : State) (p : Port) (a : Nat) :
    (noteBurstCrc s p a).lasting = s.lasting := lasting_of_stores (noteBurstCrc_stores _ _ _)
@[simp] theorem noteCount_lasting (s : State) (p : Port) (n : Nat) :
    (noteCount s p n).lasting = s.lasting := lasting_of_stores (noteCount_stores _ _ _)
@[simp] theorem setIndAddr_lasting (s : State) (p : Port) (a : Nat) :
    (setIndAddr s p a).lasting = s.lasting := lasting_of_stores (setIndAddr_stores _ _ _)
@[simp] theorem readInd_lasting (s : State) (p : Port) (a : Nat) :
    (readInd s p a).2.lasting = s.lasting := lasting_of_stores (readInd_stores _ _ _)
@[simp] theorem readFrameOf_lasting (s : State) (p : Port) (addr : BitVec 16) :
    (readFrameOf s p addr).2.2.lasting = s.lasting := lasting_of_stores (readFrameOf_stores _ _ _)
@[simp] theorem wordDone_lasting (s : State) (p : Port) (ind : Bool) (base : Nat) (w : Nat) :
    (wordDone s p ind base w).lasting = s.lasting := lasting_of_stores (wordDone_stores _ _ _ _ _)
@[simp] theorem burstHead_lasting (s : State) (p : Port) (write : Bool) (fast : Bool) (cmd : Byte) (addr : BitVec 16) (crc : Byte) :
    (burstHead s p write fast cmd addr crc).2.2.lasting = s.lasting := lasting_of_stores (burstHead_stores _ _ _ _ _ _ _)
@[simp] theorem readTied_lasting (r : BurstRun) (s : State) (p : Port) (a : Nat) :
    (readTied r s p a).2.lasting = s.lasting := lasting_of_stores (readTied_stores _ _ _ _)
@[simp] theorem readView_lasting (r : BurstRun) (s : State) (p : Port) (a : Nat) :
    (readView r s p a).2.lasting = s.lasting := lasting_of_stores (readView_stores _ _ _ _)
@[simp] theorem readWord_lasting (r : BurstRun) (p : Port) (s : State) :
    (readWord r p s).2.lasting = s.lasting := lasting_of_stores (readWord_stores _ _ _)
@[simp] theorem readWords_lasting (p : Port) (n : Nat) (r : BurstRun) (s : State) :
    (readWords p n r s).2.2.lasting = s.lasting := lasting_of_stores (readWords_stores _ _ _ _)

@[simp] theorem keepBurst_lasting (s : State) (p : Port) (piece : Piece) (r : BurstRun) :
    (keepBurst s p piece r).lasting = s.lasting := lasting_of_stores (keepBurst_stores _ _ _ _)
@[simp] theorem burstReadOn_lasting (p : Port) (piece : Piece) (head : Bytes) (words : Nat) (r : BurstRun) (s : State) :
    (burstReadOn p piece head words r s).lasting = s.lasting := lasting_of_stores (burstReadOn_stores _ _ _ _ _ _)
@[simp] theorem burstReadOf_lasting (s : State) (p : Port) (piece : Piece) (fast : Bool) (cmd : Byte) (addr : BitVec 16) (crc : Byte) (words : Nat) :
    (burstReadOf s p piece fast cmd addr crc words).lasting = s.lasting := lasting_of_stores (burstReadOf_stores _ _ _ _ _ _ _ _)
@[simp] theorem stallHead_lasting (s : State) (p : Port) (fast : Bool) (cmd : Byte) (addr : BitVec 16) (crc : Byte) :
    (stallHead s p fast cmd addr crc).2.lasting = s.lasting := lasting_of_stores (stallHead_stores _ _ _ _ _ _)
@[simp] theorem stallEnd_lasting (s : State) (p : Port) (bs : Bytes) :
    (stallEnd s p bs).lasting = s.lasting := lasting_of_stores (stallEnd_stores _ _ _)
@[simp] theorem stallOn_lasting (s : State) (p : Port) (stays : Bool) (head : Bytes) (sent : Nat) (fillers : Nat) :
    (stallOn s p stays head sent fillers).lasting = s.lasting := lasting_of_stores (stallOn_stores _ _ _ _ _ _)
@[simp] theorem secureHead_lasting (s : State) (p : Port) (fast : Bool) (cmd : Byte) (addr : BitVec 16) (len : Byte) (ctr : Word) (crc : Byte) :
    (secureHead s p fast cmd addr len ctr crc).2.lasting = s.lasting := lasting_of_stores (secureHead_stores _ _ _ _ _ _ _ _)
@[simp] theorem moveNumbers_lasting (s : State) (d : BitVec 48) :
    (moveNumbers s d).lasting = s.lasting := by
  unfold moveNumbers
  repeat' first
    | with_reducible rfl
    | with_reducible assumption
    | split
    | (with_reducible refine Eq.trans (lasting_foldl ?_) ?_ <;> intros)
    | dsimp only
    | simp

@[simp] theorem nextTick_lasting (s : State) :
    (nextTick s).lasting = s.lasting := by
  unfold nextTick
  repeat' first
    | with_reducible rfl
    | with_reducible assumption
    | split
    | dsimp only
    | simp

@[simp] theorem alignBank_lasting (s : State) (g : Nat) :
    (alignBank s g).lasting = s.lasting := lasting_of_stores (alignBank_stores _ _)
@[simp] theorem leaveLead_lasting (s : State) :
    (leaveLead s).lasting = s.lasting := lasting_of_stores (leaveLead_stores _)
@[simp] theorem stopReverted_lasting (s : State) (p : Port) :
    (stopReverted s p).lasting = s.lasting := lasting_of_stores (stopReverted_stores _ _)
@[simp] theorem firstInstant_lasting (s : State) :
    (firstInstant s).lasting = s.lasting := lasting_of_stores (firstInstant_stores _)
@[simp] theorem forgetOld_lasting (s : State) :
    (forgetOld s).lasting = s.lasting := lasting_of_stores (forgetOld_stores _)
@[simp] theorem instant_lasting (s : State) :
    (instant s).lasting = s.lasting := lasting_of_stores (instant_stores _)
@[simp] theorem tickLoops_lasting (s : State) (errs : List RegionErr) :
    (tickLoops s errs).lasting = s.lasting := lasting_of_stores (tickLoops_stores _ _)
@[simp] theorem hoardTick_lasting (s : State) (inst : Bool) :
    (hoardTick s inst).lasting = s.lasting := lasting_of_stores (hoardTick_stores _ _)
@[simp] theorem dueSave_lasting (s : State) :
    (dueSave s).lasting = s.lasting := by
  unfold dueSave
  split <;> simp

@[simp] theorem endTick_lasting (s : State) :
    (endTick s).lasting = s.lasting := by
  unfold endTick
  split <;> simp

@[simp] theorem replayDisconnect_lasting (s : State) :
    (replayDisconnect s).lasting = s.lasting := by
  unfold replayDisconnect
  repeat' first
    | with_reducible rfl
    | with_reducible assumption
    | split
    | (with_reducible refine Eq.trans (lasting_foldl ?_) ?_ <;> intros)
    | dsimp only
    | simp

@[simp] theorem tickWork_lasting (s : State) (errs : List RegionErr) : (tickWork s errs).lasting = s.lasting := by
  unfold tickWork
  extract_lets inst s1 s2 s3 s4 s5 s6
  have h2 : s2.lasting = s.lasting := by simp only [s2, s1]; split <;> simp
  have h4 : s4.lasting = s2.lasting := by simp [s4, s3]
  have h5 : s5.lasting = s4.lasting := lasting_foldl fun s g => by simp
  have h6 : s6.lasting = s5.lasting := by simp only [s6]; split <;> simp
  clear_value s6
  simp [h6, h5, h4, h2]

@[simp] theorem replayDev_lasting (s : State) :
    (replayDev s).lasting = s.lasting := by
  exact lasting_foldl fun s a => by simp

@[simp] theorem replayAbsorb_lasting (s : State) (v : State) :
    (replayAbsorb s v).lasting = s.lasting := by
  exact lasting_foldl fun s a => by simp

@[simp] theorem onReplayed_lasting (s : State) (f : State → State) : (onReplayed s f).lasting = s.lasting := by
  simp [onReplayed]

@[simp] theorem replayStop_lasting (s : State) (st : ReplayState) (reason : Byte) :
    (replayStop s st reason).lasting = s.lasting := by simp [replayStop]

@[simp] theorem abandon_lasting (s : State) (reason : Byte) :
    (abandon s reason).lasting = s.lasting := by simp [abandon]

@[simp] theorem replayStart_lasting (s : State) :
    (replayStart s).lasting = s.lasting := by
  unfold replayStart
  repeat' first
    | with_reducible rfl
    | with_reducible assumption
    | split
    | dsimp only
    | simp

@[simp] theorem replayWord_lasting (s : State) (a : Nat) (w : Word) :
    (replayWord s a w).lasting = s.lasting := by simp [replayWord]

@[simp] theorem replayWords_lasting (s : State) (a : Nat) (ws : List Word) :
    (replayWords s a ws).lasting = s.lasting := by
  exact lasting_foldl fun s a => by simp

@[simp] theorem replayLaneCfg_lasting (s : State) (n : Nat) (parts : Bytes) (pos : List Nat) (desc :
    Nat → Bytes) :
    (replayLaneCfg s n parts pos desc).lasting = s.lasting := by
  unfold replayLaneCfg
  refine Eq.trans (lasting_foldl fun s a => ?_) ?_
  all_goals (repeat' split) <;> simp

@[simp] theorem lanesStarted_lasting (s : State) :
    (lanesStarted s).lasting = s.lasting := by
  unfold lanesStarted
  repeat' first
    | with_reducible rfl
    | with_reducible assumption
    | split
    | dsimp only
    | simp

@[simp] theorem replayCheckpoint_lasting (s : State) (b : Block) :
    (replayCheckpoint s b).lasting = s.lasting := by
  unfold replayCheckpoint
  repeat' first
    | with_reducible rfl
    | with_reducible assumption
    | split
    | (extract_lets +onlyGivenNames s1
       have h1 : s1.lasting = s.lasting
       rotate_left
       clear_value s1
       rotate_left
       dsimp only [s1])
    | (extract_lets +onlyGivenNames x1; clear_value x1)
    | simp

@[simp] theorem replayCommit_lasting (s : State) (b : Block) :
    (replayCommit s b).lasting = s.lasting := by
  unfold replayCommit
  repeat' first
    | with_reducible rfl
    | with_reducible assumption
    | split
    | (extract_lets +onlyGivenNames s1
       have h1 : s1.lasting = s.lasting
       rotate_left
       clear_value s1
       rotate_left
       dsimp only [s1])
    | (extract_lets +onlyGivenNames x1; clear_value x1)
    | simp

@[simp] theorem replayLine_lasting (v : State) (n : Nat) (code : Nat) (on_ : Nat) :
    (replayLine v n code on_).lasting = v.lasting := lasting_of_stores (replayLine_stores _ _ _ _)
@[simp] theorem replayRegion_lasting (v : State) (n : Nat) (code : Nat) (on_ : Nat) :
    (replayRegion v n code on_).lasting = v.lasting := lasting_of_stores (replayRegion_stores _ _ _ _)
@[simp] theorem replayHappen_lasting (v : State) (n : Nat) (x : Bytes) :
    (replayHappen v n x).lasting = v.lasting := lasting_of_stores (replayHappen_stores _ _ _)
@[simp] theorem replayHappening_lasting (s : State) (b : Block) :
    (replayHappening s b).lasting = s.lasting := by
  unfold replayHappening
  repeat' first
    | with_reducible rfl
    | with_reducible assumption
    | split
    | dsimp only
    | simp

@[simp] theorem replayCutoff_lasting (v : State) :
    (replayCutoff v).lasting = v.lasting := lasting_of_stores (replayCutoff_stores _)
@[simp] theorem replayLaneTick_lasting (v : State) (n : Nat) :
    (replayLaneTick v n).lasting = v.lasting := lasting_of_stores (replayLaneTick_stores _ _)
@[simp] theorem replayTickBlock_lasting (v : State) (x : Bytes) :
    (replayTickBlock v x).lasting = v.lasting := lasting_of_stores (replayTickBlock_stores _ _)
@[simp] theorem replayCommand_lasting (v : State) (n : Nat) (cmd : Nat) (p : Nat) (body : List Nat) (num : BitVec 48) (at_ : Int) (w : FrameWire) :
    (replayCommand v n cmd p body num at_ w).lasting = v.lasting := lasting_of_stores (replayCommand_stores _ _ _ _ _ _ _ _)
@[simp] theorem replayReset_lasting (v : State) (n : Nat) (afterCut : Bool) :
    (replayReset v n afterCut).lasting = v.lasting := lasting_of_stores (replayReset_stores _ _ _)
@[simp] theorem replayChain_lasting (v : State) (n : Nat) :
    (replayChain v n).lasting = v.lasting := lasting_of_stores (replayChain_stores _ _)
@[simp] theorem afterFrame_lasting (s : State) (n : Nat) (num : BitVec 48) (cut : Bool) :
    (afterFrame s n num cut).lasting = s.lasting := by simp [afterFrame]

@[simp] theorem replayAknun_lasting (s : State) (b : Block) :
    (replayAknun s b).lasting = s.lasting := by
  unfold replayAknun
  repeat' first
    | with_reducible rfl
    | with_reducible assumption
    | split
    | dsimp only
    | simp

@[simp] theorem replaySent_lasting (v : State) (n : Nat) (num : BitVec 48) (at_ : Int) (edges : List Int) (hi : Int) (lo : Int) :
    (replaySent v n num at_ edges hi lo).lasting = v.lasting := lasting_of_stores (replaySent_stores _ _ _ _ _ _ _)
@[simp] theorem replayPsi5_lasting (v : State) (n : Nat) (num : BitVec 48) (at_ : Int) (edges : List Int) (lo : Int) (hi : Int) :
    (replayPsi5 v n num at_ edges lo hi).lasting = v.lasting := lasting_of_stores (replayPsi5_stores _ _ _ _ _ _ _)
@[simp] theorem replayDiag_lasting (v : State) (n : Nat) (fid : Nat) (num : BitVec 48) (at_ : Int) (start : Int) (w : LinWire) :
    (replayDiag v n fid num at_ start w).lasting = v.lasting := lasting_of_stores (replayDiag_stores _ _ _ _ _ _ _)
@[simp] theorem replayLin_lasting (v : State) (n : Nat) (num : BitVec 48) (at_ : Int) (edges : List Int) :
    (replayLin v n num at_ edges).lasting = v.lasting := lasting_of_stores (replayLin_stores _ _ _ _ _)
@[simp] theorem replayEdges_lasting (s : State) (b : Block) :
    (replayEdges s b).lasting = s.lasting := by simp [replayEdges]

theorem keepTail_lasting (n : Nat) (s : State) (es : List Int) : (rawFrames.keepTail n s es).lasting = s.lasting := by
  simp [rawFrames.keepTail]

@[simp] theorem rawFrames_lasting (n : Nat) (stop : Int) (tail : List Int) (fuel : Nat) (ps : List Pulse)
    (levs : List (Nat × Nat)) (s : State) : (rawFrames n stop tail fuel ps levs s).lasting = s.lasting := by
  induction fuel generalizing ps levs s with
  | zero => rfl
  | succ fuel ih =>
    cases ps with
    | nil => exact keepTail_lasting n s tail
    | cons p ps =>
      simp only [rawFrames]
      repeat' first
        | with_reducible rfl
        | split
        | simp [ih, keepTail_lasting]

@[simp] theorem rawSent_lasting (n fuel : Nat) (fs : List Int) (levs : List (Nat × Nat)) (s : State) :
    (rawSent n fuel fs levs s).lasting = s.lasting := by
  induction fuel generalizing fs levs s with
  | zero => rfl
  | succ fuel ih =>
    simp only [rawSent]
    repeat' first
      | with_reducible rfl
      | split
      | simp [ih]

@[simp] theorem rawRuns_lasting (s : State) (n : Nat) (edges : List Int) (levs : List (Nat × Nat)) :
    (rawRuns s n edges levs).lasting = s.lasting := by
  exact lasting_foldl fun s a => by simp

@[simp] theorem replayRaw_lasting (s : State) (b : Block) :
    (replayRaw s b).lasting = s.lasting := by
  unfold replayRaw
  repeat' first
    | with_reducible rfl
    | with_reducible assumption
    | split
    | (with_reducible have h1 := pair_snd ‹_ = (_, _)›; subst h1)
    | (with_reducible have h1 := pair_fst ‹_ = (_, _)›; subst h1)
    | dsimp only
    | simp

@[simp] theorem replayDigest_lasting (s : State) (b : Block) :
    (replayDigest s b).lasting = s.lasting := by
  unfold replayDigest
  repeat' first
    | with_reducible rfl
    | with_reducible assumption
    | split
    | dsimp only
    | simp

@[simp] theorem replayGap_lasting (s : State) (n : Nat) :
    (replayGap s n).lasting = s.lasting := by simp [replayGap]

@[simp] theorem replayBlockType_lasting (s : State) (b : Block) :
    (replayBlockType s b).lasting = s.lasting := by
  unfold replayBlockType
  (repeat' split) <;> simp

@[simp] theorem replayBlock_lasting (s : State) (b : Block) :
    (replayBlock s b).lasting = s.lasting := by
  unfold replayBlock
  repeat' first
    | with_reducible rfl
    | with_reducible assumption
    | split
    | dsimp only
    | simp

@[simp] theorem replayBlocks_lasting (fuel n : Nat) (s : State) : (replayBlocks fuel n s).lasting = s.lasting := by
  induction fuel generalizing n s with
  | zero => rfl
  | succ fuel ih =>
    simp only [replayBlocks]
    repeat' first
      | with_reducible rfl
      | split
      | simp [ih]


end Sys2Proof.Machine
end

