-- ==== Sys2Proof/Laws/Ring.lean ====
section
/-! SUPPORT. The ring of eight words in which the vault keeps the free-run counter (R412): it
always has eight words, and the counter is one of them. -/

namespace Sys2Proof.Machine

theorem frcRing_length (frc : BitVec 21) : (frcRing frc).length = 8 := by
  simp [frcRing]

/-- The word that the counter wrote last holds the counter itself. -/
theorem mem_frcRing (frc : BitVec 21) : frc ∈ frcRing frc := by
  refine List.mem_map.2 ⟨frc.toNat % 8, List.mem_range.2 (by omega), ?_⟩
  have h : (frc.toNat + 8 - frc.toNat % 8) % 8 = 0 := by omega
  simp [h]

end Sys2Proof.Machine
end

