-- ==== Sys2Proof/WellFormed.lean ====
section
/-!
DEFINITION. Which commands are well formed: the shapes that the spec fixes for what a lane measures,
for a message, for a frame of a control port and for the parameters of a vault request. The machine runs on any
command (log entry 1); a claim that speaks of a whole frame asks for a well-formed one.
-/

namespace Sys2Proof

/-- The header is six pips (R97), each answer at most a tempo pip and 20 more (R101, R191), and no lane has
more than 16 positions (R5). -/
def HarvestWire.wf (w : HarvestWire) : Bool :=
  w.header.length == 6 && decide (w.answers.length ≤ 16) && w.answers.all (fun a => decide (a.pips.length ≤ 21))

/-- A register-access frame whose master body has `body` pips and whose answer has at most `answer` pips, the
tempo pip among them (R101). -/
def FrameWire.wf (body answer : Nat) (w : FrameWire) : Bool :=
  w.header.length == 6 && w.body.length == body && decide (w.answer.pips.length ≤ answer)

/-- A SENT frame has an edge for its calibration pulse and at most one more for each of ten periods
(R143, R144). -/
def SentWire.wf (w : SentWire) : Bool := decide (1 ≤ w.edges.length) && decide (w.edges.length ≤ 11)

/-- A PSI5 frame carries its data bits and one parity or three CRC bits after its start bits (R149, R153). -/
def Psi5Wire.wf (w : Psi5Wire) : Bool := decide (w.bits.length ≤ 31)

/-- A LIN response is at most eight bytes (R160). -/
def LinWire.wf (w : LinWire) : Bool := decide (w.bytes.length ≤ 8)

/-- A secure burst carries as many words as its length byte says, when it is whole (R298). -/
def burstWhole (len : Byte) (words : List CrcWord) : Bool := words.length == len.toNat

/-- A transaction that stopped before its end has not carried more than it announced (R301). -/
def Partial.wf : Partial → Bool
  | .read _ _ _ => true
  | .write _ => true
  | .burstRead _ _ _ _ => true
  | .burstWrite _ _ _ _ => true
  | .stall _ _ => true
  | .secureWrite _ => true
  | .secureBurst _ _ len _ _ words tag =>
    decide (words.length ≤ len.toNat) && (match tag with
      | some (t, _) => t.length == 8 && words.length == len.toNat
      | none => true)

/-- A command is well formed where every list in it has the length that its rule gives. -/
def Instr.wf : Instr → Bool
  | .boot _ _ _ bad corrected => decide bad.Nodup && decide corrected.Nodup
  | .gridTick errs => decide (errs.length ≤ 8)
  | .downstreamMessage _ _ msg => msg.length == 40
  | .upstreamMessage _ msg => msg.length == 40
  | .harvest _ _ w => w.wf
  | .harvestPartial _ _ top w => w.wf && decide (w.answers.length ≤ top.val + 1)
  | .read _ _ w => w.wf 6 21
  | .write _ _ w => w.wf 24 3
  | .enum _ _ w => w.wf 0 3
  | .ident _ _ w => w.wf 0 37
  | .convert _ _ _ _ _ w => w.wf 6 0
  | .commitNv _ _ _ _ _ w => w.wf 6 0
  | .sleep _ _ _ _ w => w.wf 6 0
  | .wakePing _ _ _ _ w => w.wf 6 3
  | .closePass _ _ w => w.wf 0 3
  | .openPass _ _ _ w => w.wf 0 3
  | .attest _ _ _ w => w.wf 36 3
  | .attestTagCheck _ _ _ hi lo => hi.wf 6 21 && lo.wf 6 21
  | .sentFrame _ _ w => w.wf
  | .psi5Frame _ _ _ w => w.wf
  | .linFrameSlot _ _ _ w => w.wf
  | .linDiagPair _ _ w => w.wf
  | .linkRetry _ _ lanes _ => decide lanes.Nodup
  | .snapshotDone _ single badEcc decayed => decide single.flips.Nodup && decide badEcc.Nodup && decide decayed.Nodup
  | .secureBurst _ _ _ _ _ len _ _ words _ _ => burstWhole len words
  | .transactionAbort _ _ x => x.got.wf
  | .uplinkRx _ _ frame => decide (frame.length ≤ 1522)
  | .loadPart _ _ _ _ enc => enc.length == 8
  | .sign _ _ _ challenge => challenge.length == 12
  | .provPart _ _ _ _ bytes => bytes.length == 8
  | .sentinelPoll _ _ w pings _ lin => w.wf && pings.all (fun x => x.2.wf 6 3) && lin.all (fun x => x.2.wf)
  | .powerOnReset _ | .rstN _ _ | .discoveryEnd | .followerStartTimeout | .stageAdmit _ | .laneStep _ _
  | .stageChargeRelease _ | .enumWaveAdmit | .freeRunAdvance | .syncRx _ _ _ _ | .acquisitionComplete _ _
  | .lockAcquired _ | .syncTimeout _ _ | .holdMax _ | .rephase _ _ | .rephaseStep | .peerDelay _ _ _
  | .echoMark _ _ | .followLost | .followerLost _ | .referenceLoss _ | .referenceReturn | .corePll _ | .lanePll _
  | .lanePllRelock _ | .sproutOnSilence _ | .lineSlow _ | .enumerationStart _ _ | .enumRetry _ _ | .enumRepoll _
  | .spuAdmit _ | .spuWindowEnd _ _ | .spuOverload _ _ | .stuckLow _ _ | .busClear _ _ | .busClearLineHigh _ _
  | .shortToGround _ _ | .shortHigh _ _ | .lineSwing _ | .isolationRetry _ _ | .seqParity _ _ | .seqReload _
  | .laneModeStart _ | .spcTrigger _ _ _ | .sentStuck _ _ | .sentSilent _ _ | .syncPulse _ _ _ | .psi5Silent _ _
  | .psi5Overcurrent _ _ | .linWakeUp _ _ | .linScheduleStart _ | .linWake _ _ _ | .linStuck _ _ _
  | .linStuckClear _ _ | .harvestCutoff _ | .queueTimeout _ _ | .queuePtr _ _ _ | .keyLimit _ | .uplinkDown _ _ _
  | .uplinkUp _ _ | .revert _ | .wakeOutRelease _ | .rememberedDelivery _ _ | .spuDeferEnd _ _
  | .portRead _ _ _ _ _ _ | .portWrite _ _ _ _ _ _ _ | .burstRead _ _ _ _ _ _ _ | .burstWrite _ _ _ _ _ _ _
  | .stallRead _ _ _ _ _ _ | .secureWrite _ _ _ _ _ _ _ _ _ | .seqWriteBack _ _ _ _ | .registerWrite _ _ _ _ _
  | .commit _ _ _ | .commitTake | .sowingComplete | .commitEffective | .lockSet _ _ _ | .captureReq _ _ _
  | .captureSample | .captureDone _ | .discard _ _ _ | .flush _ _ _ | .evqFlush _ _ | .calSave _ _
  | .goRead _ _ _ _ _ | .goWrite _ _ _ _ _ | .goIdent _ _ _ _ | .goLinDiag _ _ _ | .expired _ | .preset _ _
  | .reclaim _ _ | .open_ _ _ | .close _ _ | .sessionResponse _ _ _ | .challengeTimeout _ _ | .heartbeatMissed _ _
  | .leaseExpiry _ _ | .installMaster _ _ _ _ | .installStreamKey _ _ _ _ _ _ _ _ | .installPairingRoot _ _ _ _ _
  | .installHoardKey _ _ _ | .rotatePortKey _ _ _ _ | .clearSlot _ _ _ _ | .setPolicy _ _ _ _
  | .readSlotAttr _ _ _ _ | .readLog _ _ _ _ | .readOut _ _ _ _ _ | .saveConfig _ _ _ | .provCommit _ _ _
  | .vaultResult _ _ | .shellOpen _ | .shellShort _ | .light _ | .voltGlitch _ | .clockGlitch _ | .tempHigh _
  | .tempLow _ | .testAccess _ _ | .idcode | .bypass _ | .railWarning _ _ | .railReset _ _ | .railRecovery _ _ _
  | .vlinkSecond _ _ | .vlinkRecovery _ _ | .regionIsolated _ _ | .regionIsolationEnd _ _ | .vbatSecond _
  | .vbatRecovery _ | .regionCal _ | .modeReqOff _ _ | .modeReqSentinel _ _ | .modeReqRun _ _ | .modeReqRecover _ _
  | .modeReqTest _ _ _ | .modeReqReplay _ _ _ | .modeChange | .offEntry _ | .sentinelEntry _ | .sentinelExit _
  | .lockstepMismatch _ | .wardenRestart _ | .hoardArm | .hoardFreeze _ _ | .hoardExport | .hoardFrozen _
  | .replayInject _ _ _ | .traceStart | .replayTick | .replayEnd _ | .takeBlock _ _ | .verify _ | .abort _ _
  | .activate _ _ | .activationPause _ | .activationPauseEnd _ | .migrationComplete _ _ | .confirm _ _
  | .rollback _ _ | .corePllRelock _ | .psi5ShortHigh _ _ | .verifyComplete _ | .takeComplete _ _ => true

end Sys2Proof
end

