-- ==== Sys2Proof/Tests/Slice0.lean ====
section
/-!
SUPPORT. Tests: an ill-formed term for each check of WellFormed, worked examples of the spec, and for the clauses
of each statement of Certificates a state and operands that meet their hypotheses.
-/

namespace Sys2Proof.Tests

open Sys2Proof Sys2Proof.Machine

set_option Elab.async false

/-! ### Building states -/

/-- A lead in RUN at a grid tick, with an empty harness. -/
def wRun : State :=
  { State.reset with
    mode := { dev := .run, booted := true }
    grid := { on := true, tickAt := 100000, now := 100000, gridAt := 100000, tick := 8, gridNum := 8 } }

/-- The state that a command of time 0 meets. -/
abbrev met (s : State) : State := advance s 0

/-- The state that a host frame of time 0 meets on a port. -/
abbrev metBy (p : Port) (s : State) : State :=
  (csnRise (advance s 0) p).onPort p (fun x => { x with lastGood := (advance s 0).grid.now })

/-- The state that a frame on a lane of time 0 meets. -/
abbrev metLine (s : State) : State := passCutoff (advance s 0)

/-- The state at another time of the same tick period. -/
def atTime (t : Nat) (s : State) : State := s.onGrid (fun g => { g with now := t })
/-- The state with its latest tick at another time. -/
def atTick (t : Nat) (s : State) : State := s.onGrid (fun g => { g with now := t, tickAt := t, gridAt := t })
/-- The state with these words in force, in ascending address. -/
def withWords (ws : List (Nat × Word)) (s : State) : State := { s with cfg := { s.cfg with live := ws } }
def withLane (n : Nat) (l : LaneState) (s : State) : State := s.setLane n l
def withEp (i : Nat) (e : EpState) (s : State) : State := s.setEp i e
def withRegion (g : Nat) (r : RegionState) (s : State) : State := s.setRegion g r
def withGrid (f : GridState → GridState) (s : State) : State := { s with grid := f s.grid }
def withMode (f : ModeState → ModeState) (s : State) : State := { s with mode := f s.mode }
def withPort (p : Port) (f : PortState → PortState) (s : State) : State := s.onPort p f
def withUpd (u : UpdState) (s : State) : State := { s with upd := u }
def withHoard (h : HoardState) (s : State) : State := { s with hoard := h }
def withReplay (r : ReplayRun) (s : State) : State := { s with replay := r }

/-! ### Building what a lane measures, at standard grade -/

/-- A pulse of a length in steps. -/
def pulse (len : Nat) : Pulse := { fall := 0, rise := some (8 * len) }
/-- The pulses of these symbols. -/
def pulses (xs : List Nat) : List Pulse := xs.map (fun x => pulse (200 + 120 * x))
/-- An answer with its tempo pip. -/
def wAnswer (xs : List Nat) : AnswerWire := { low := 50, pips := pulses (3 :: xs), pace := none }
/-- A register-access frame as the lane drives it, with its answer. -/
def wFrame (c : CmdFrame) (xs : List Nat) : FrameWire :=
  { hi := 200, markLow := 50, mark := pulse 2000, header := pulses (headerSyms c.cmd c.pos), body := pulses c.body
    answer := wAnswer xs }
/-- A frame that nothing answers. -/
def wSilent (c : CmdFrame) : FrameWire := { wFrame c [] with answer := { low := 0, pips := [], pace := none } }
/-- A harvest that strikes one position, whose answer is word 0 with its CRC. -/
def wHarvest : HarvestWire :=
  { hi := 200, markLow := 50, mark := pulse 2000, header := pulses (headerSyms 0 0), strike := pulse 100
    answers := [wAnswer (symsOf 40 0)] }
/-- A LIN response of two bytes with its checksum. -/
def wLin : LinWire :=
  { brk := 0, bytes := [(1, true), (2, true)], check := some 0xFC, inSlot := true, readbackOk := true
    breakRecessive := false, edges := [] }
/-- A LIN diagnostic answer of eight bytes with its checksum. -/
def wLinDiag : LinWire := { wLin with bytes := List.replicate 8 (0, true), check := some 0xFF }
def wLinNone : LinWire := { wLin with bytes := [], check := none }

/-! ### Lanes -/

/-- Lane 0 in RUN as an Aknun lane with one endpoint, whose harvest of the period is over. -/
def wLane : State :=
  withLane 0 { lstate := .run, mode := .aknun, enumN := 1, lastTag := some 8, cal := { seedNext := false } }
    (withWords [(0, 0x20FA0000), (0x040000, 0x2F000000)] (atTime 149000 wRun))

/-- The same lane with its harvest to come. -/
def wDue : State :=
  withRegion 0 { bankA := { snap := 8, at_ := 100000 } } (wLane.onLane 0 (fun l => { l with lastTag := none }))

/-- The same with a second descriptor above the chain. -/
def wDue2 : State := withWords [(0, 0x20FA0000), (32, 0x20FA0000), (0x040000, 0x2F000000)] wDue

def wLaneWith (f : LaneState → LaneState) : State := wLane.onLane 0 f
/-- The lane with a second descriptor. -/
def wTwo : State := withWords [(0, 0x20FA0000), (32, 0x20FA0000), (0x040000, 0x2F000000)] wLane
def wAcc (op : BitVec 3) : State := wLaneWith (fun l => { l with acc := { op := op, rstate := .pending, addr := 0x20 } })
def wEnum (p step : Nat) : State :=
  wTwo.onLane 0 (fun l => { l with lstate := .enumerating, enumPos := some p, enumStep := step, enumN := p })
def wSpu (q : SpuState) : State := wLaneWith (fun l => { l with spu := some q })
def wReq : SpuState :=
  { reqTick := 8, nv := false, pos := 0, all := false, code := 0, admitted := none, window := none }

/-! ### Messages, keys and sessions -/

/-- A grid-link message with its CRC-32. -/
def wMsg (b : Bytes) : Bytes := fit 36 0 b ++ beBytes 4 (crc32 (fit 36 0 b)).toNat
/-- A lead's message: TYPE 0, TICK 9, SEG_DELAY 0x1234. -/
def wDown : Bytes := wMsg ([0x00, 0x00] ++ beBytes 6 9 ++ List.replicate 10 0 ++ [0x12, 0x34])
/-- An upstream message of the follower at hop 1 that has just joined. -/
def wUp : Bytes := wMsg [0x01, 0x01, 0x00, 0x00, 0x00, 0x00, 0x05, 0x12]
/-- A lane whose endpoint has been challenged 4 ms ago under a pairing root. -/
def wAttest : State :=
  let s := (withWords [(0, 0x20FA0400), (16, 0x00010000), (20, 0x00000001), (0x040000, 0x2F000000)] wLane)
  let s := withEp 0 { lastId := 0x0001000000000001 } (atTime 1749000 (atTick 1700000 s))
  { s with vault := { state := .provisioned, kek := [1], slots := [(16, { key := [1], typ := 5, info := 1 })] } }
def wAttested : State := wAttest.onEp 0 (fun e => { e with chal := some (7, 0) })

/-! ### SENT, PSI5 and LIN lanes -/

/-- Lane 0 as a SENT lane in RUN with trigger (SPC), 3 us ticks and six nibbles, and its one source. -/
def wSpc : State :=
  withRegion 0 { bankA := { snap := 8, at_ := 100000 } } (withLane 0 { lstate := .run, mode := .sent }
    (withWords [(0, 0x40FA0000), (0x040000, 0x40000000), (0x040004, 0x83C60000)] (atTime 149000 wRun)))
/-- The same lane free-running. -/
def wSent : State := withWords [(0, 0x40FA0000), (0x040000, 0x40000000), (0x040004, 0x03C60000)] wSpc
/-- The falling edges after intervals of these many 3 us ticks. -/
def wTicks (xs : List Nat) : SentWire :=
  { hi := 200, low := 50, edges := (List.range (xs.length + 1)).map (fun i => 9600 * ((xs.take i).sum : Nat)), rises := [] }
/-- A SENT frame of zeros: calibration pulse, status, six nibbles and the CRC nibble. -/
def wSentFrame : SentWire := wTicks [56, 12, 12, 12, 12, 12, 12, 12, 12 + sentCrc false [0, 0, 0, 0, 0, 0]]

/-- Lane 0 as a PSI5 lane in RUN in synchronous mode, a pulse every period and one slot of 16 bits with parity. -/
def wPsi5 : State :=
  withRegion 0 { bankA := { snap := 8, at_ := 100000 } } (withLane 0 { lstate := .run, mode := .psi5 }
    (withWords [(0, 0x60FA0000), (0x040000, 0x60000000), (0x04000C, 0x80001000), (0x048010, 0x85880000)]
      (atTime 149000 wRun)))
/-- The same lane after its sync pulse. -/
def wPulsed : State := wPsi5.onLane 0 (fun l => { l with trig := some { at_ := 100000, num := 8, inst := 100000 } })
/-- A PSI5 frame of zeros in slot 1. -/
def wPsi5Frame : Psi5Wire :=
  { edge := 17600, stamp := 0, bitTime := 51200, codingOk := true, bits := List.replicate 17 false, iLo := 28, iHi := 132
    edges := [] }

/-- Lane 0 as a LIN lane in RUN whose schedule has a frame slot and a diagnostic pair. -/
def wBus : State :=
  withRegion 0 { bankA := { snap := 8, at_ := 1000000 } }
    (withLane 0 { lstate := .run, mode := .lin, linRun := true
                  linSched := [(1, 80, 0, 10), (0x3C, 80, 0, 5), (0x3D, 80, 5, 5)] }
    (withWords [(0, 0x80FA0000), (0x040000, 0x80000000)] (atTick 1000000 wRun)))
def wDiag : State := wBus.onLane 0 (fun l => { l with acc := { op := 3, rstate := .pending, at_ := 600000 } })
def wAsleep : State := wBus.onLane 0 (fun l => { l with linRun := false })

/-! ### Ports, sessions and the trace -/

/-- An Ethernet frame of 64 bytes with these bytes after its addresses, and its FCS. -/
def wEther (b : Bytes) : Bytes :=
  withFcs (fit 60 0 (List.replicate 12 0 ++ b))

/-- A session is open on Port H with counter 4 and an empty key. -/
def wOpened : State := withPort .h (fun x => { x with sess := .opened, lastCtr := 4 }) wRun
/-- A PROVISIONED vault with Port H's key. -/
def wKeys : State :=
  { wRun with vault := { state := .provisioned, kek := [1], slots := [(6, { key := List.replicate 32 7, typ := 4 })] } }
/-- The response that answers a challenge of zeros. -/
def wResponse : BitVec 64 :=
  BitVec.ofNat 64 (beNat (cmac64 (List.replicate 32 7) ([0x00, 0x4F] ++ List.replicate 20 0 ++ [portByte .h])))
def wChallenged : State := withPort .h (fun x => { x with sess := .challenged }) wKeys
def wEvent : Event := { src := 1, origin := 0, data := 5, tick := 3, sub := 0 }
def wItem : Item := { ev := wEvent, remembered := false, chan := 0 }
/-- The tag of a secure frame on Port H of `wOpened`. -/
def wTag (cmd : Byte) (addr : BitVec 16) (len : Nat) (ctr : Word) (ds : List Word) : BitVec 64 :=
  BitVec.ofNat 64 (beNat (frameTag wOpened.h .h cmd addr len ctr ds))

/-- A commit of Port H for group 10. -/
def wCommit : CommitRun :=
  { cseq := 3, ports := 1, groups := 0x0400, diff := [(0x058000, 5)], tc := 0, sow := 0, loads := [], kNew := 3
    eff := some 8, sown := true }
def wSowing : CommitRun := { wCommit with groups := 0x0001, diff := [], sow := 0x01, eff := none, sown := false }
/-- A commit of Port H falls due at the latest tick. -/
def wAsked : State := { wRun with creqs := [{ port := .h, groups := 0x0400, due := 100000 }] }

/-- A block of a trace. -/
def wBlock (typ : Byte) (body : Bytes) : Bytes :=
  let b := [typ, 0, 0, 0] ++ beBytes 2 body.length ++ [0, 0] ++ body
  b ++ beBytes 4 (crc32 b).toNat
/-- A replay whose input holds these bytes. -/
def wReplay (r : ReplayRun) : State := withReplay r (withMode (fun m => { m with dev := .replay }) wRun)
/-- An update whose block buffer holds zeros with their CRC-32. -/
def wTaking : State := withUpd { ustate := .receiving, taking := some 1, buffer := [(0x1000, 0xC71C0011)] } wRun


/-- The hypotheses of the clauses of StepRunsTheFront. -/
theorem witness_step_runs_the_front :
    State.reset.pending = [] :=
  by decide +kernel


/-- The hypotheses of the clauses of ResetsBeginBoot. -/
theorem witness_resets_begin_boot :
    (1000 ≤ (1000)) ∧
    ((200) ≤ 200) :=
  ⟨by decide +kernel,
    by decide +kernel⟩


/-- The hypotheses of the clauses of BootEnds. -/
theorem witness_boot_ends :
    State.reset.mode.inReset = false ∧ State.reset.mode.booted = false ∧ State.reset.mode.dev ≠ .off ∧
    State.reset.upd.romOnly = false ∧ (takeLead State.reset true) = takeLead State.reset (⟨true, true⟩ :
    BootPins).lead ∧ (checkSlots (rebuildKek (testRng (takeLead State.reset true) true) true) [] []) =
    checkSlots (rebuildKek (testRng (if (⟨true, true⟩ : BootPins).ref then (takeLead State.reset true) else
    noReference (takeLead State.reset true)) (⟨true, true⟩ : SelfTest).rng) (⟨true, true⟩ : SelfTest).puf) (([]
    : List (Fin 32 × Fin 6)).map (fun x => (x.1.val, x.2.val))) (([] : List (Fin 32)).map Fin.val) ∧ startWarm
    (checkSlots (rebuildKek (testRng (takeLead State.reset true) true) true) [] []) = false ∧ imgVerify
    (checkSlots (rebuildKek (testRng (takeLead State.reset true) true) true) [] []) ((checkSlots (rebuildKek
    (testRng (takeLead State.reset true) true) true) [] []).bank (checkSlots (rebuildKek (testRng (takeLead
    State.reset true) true) true) [] []).nv.bootB) ≠ 0 ∧ imgVerify (checkSlots (rebuildKek (testRng (takeLead
    State.reset true) true) true) [] []) ((checkSlots (rebuildKek (testRng (takeLead State.reset true) true)
    true) [] []).bank !(checkSlots (rebuildKek (testRng (takeLead State.reset true) true) true) [] []).nv.bootB)
    ≠ 0 :=
  by decide +kernel

def s04a : State :=
  withMode (fun x => { x with dev := .boot, inDisc := true }) (atTick 800000 wRun)
def s04b : State :=
  withMode (fun x => { x with dev := .boot, inDisc := true }) (withGrid (fun g =>
    { g with followers := 1, joinedCnt := 1 }) wRun)
def s04c : State :=
  withMode (fun x => { x with dev := .boot, inDisc := true }) (withGrid (fun g => { g with followers := 1 })
    (atTick 40000000 wRun))
def s04d : State :=
  withMode (fun x => { x with dev := .boot, inDisc := true }) (withGrid (fun g =>
    { g with lead := false, savedHop := 2 }) (atTick 40000000 wRun))

/-- The hypotheses of the clauses of DiscoveryEnds. -/
theorem witness_discovery_ends :
    (s04a.grid.on = true ∧ s04a.grid.lead = true ∧ s04a.mode.inDisc = true ∧ s04a.grid.now = s04a.grid.tickAt ∧
      s04a.mode.dev = .boot ∧ (if s04a.grid.followers = 0 then s04a.grid.discAt + 800000 ≤ s04a.grid.now else
      s04a.grid.joinedCnt = s04a.grid.followers ∨ s04a.grid.discAt + 40000000 ≤ s04a.grid.now)) ∧
    (s04b.grid.on = true ∧ s04b.grid.lead = true ∧ s04b.mode.inDisc = true ∧ s04b.grid.now = s04b.grid.tickAt ∧
      s04b.mode.dev = .boot ∧ (if s04b.grid.followers = 0 then s04b.grid.discAt + 800000 ≤ s04b.grid.now else
      s04b.grid.joinedCnt = s04b.grid.followers ∨ s04b.grid.discAt + 40000000 ≤ s04b.grid.now)) ∧
    (s04c.grid.on = true ∧ s04c.grid.lead = true ∧ s04c.mode.inDisc = true ∧ s04c.grid.now = s04c.grid.tickAt ∧
      s04c.mode.dev = .boot ∧ (if s04c.grid.followers = 0 then s04c.grid.discAt + 800000 ≤ s04c.grid.now else
      s04c.grid.joinedCnt = s04c.grid.followers ∨ s04c.grid.discAt + 40000000 ≤ s04c.grid.now)) ∧
    (s04d.grid.on = true ∧ s04d.grid.lead = false ∧ s04d.mode.inDisc = true ∧ s04d.grid.marks = 0 ∧
      s04d.grid.joined = false ∧ s04d.grid.discAt + 40000000 ≤ s04d.grid.now ∧ s04d.grid.savedHop ≠ 0 ∧
      s04d.mode.dev = .boot) :=
  ⟨by decide +kernel,
    by decide +kernel,
    by decide +kernel,
    by decide +kernel⟩

def s05a : State :=
  withRegion 7 { stageReq := true } wRun
def s05b : State :=
  withRegion 7 { stageReq := true, stageAt := some 0, stageStep := 31 } (atTick 793600 wRun)
def s05c : State :=
  withRegion 0 { stageReq := true, stageAt := some 100000 } wRun
def s05d : State :=
  withRegion 0 { charged := true, stageAt := some 0 } (atTick 1193600 wRun)
def s05e : State :=
  withLane 511 { lstate := .run, coldWait := true } wRun

/-- The hypotheses of the clauses of StagesPowerRegions. -/
theorem witness_stages_power_regions :
    (s05a.grid.on = true ∧ (s05a.region (7 : Region)).stageReq = true ∧ (s05a.region (7 : Region)).stageAt =
      none ∧ (s05a.region (7 : Region)).warn = false ∧ s05a.grid.now = s05a.grid.tickAt ∧ (∀ a,
      s05a.mode.stageLast = some a → a + 800000 ≤ s05a.grid.now) ∧ (s05a.mode.warm = true → 400000 + 800000 * (7
      : Region).val ≤ s05a.grid.now) ∧ dieCharge s05a + 4224 ≤ 20000 ∧ (∀ f : Region, (s05a.region f).stageReq =
      true → (s05a.region f).stageAt = none → (s05a.region f).warn = false → (s05a.region (7 :
      Region)).stageAsked < (s05a.region f).stageAsked ∨ (s05a.region f).stageAsked = (s05a.region (7 :
      Region)).stageAsked ∧ (7 : Region) ≤ f)) ∧
    ((s05b.region (7 : Region)).stageAt = some (0 : Nat) ∧ (s05b.region (7 : Region)).stageReq = true ∧
      (s05b.region (7 : Region)).stageStep = (31 : Fin 32).val ∧ s05b.grid.now ≤ (0 : Nat) + 25600 * (31 : Fin
      32).val ∧ (0 : Nat) + 25600 * (31 : Fin 32).val ≤ s05b.lastStep ∧ (advance s05b ((0 : Nat) + 25600 * (31 :
      Fin 32).val - s05b.grid.now)) = advance s05b ((0 : Nat) + 25600 * (31 : Fin 32).val - s05b.grid.now)) ∧
    ((s05c.region (0 : Region)).stageAt = some (100000 : Nat) ∧ (s05c.region (0 : Region)).stageReq = true ∧
      (s05c.region (0 : Region)).stageStep = (0 : Fin 32).val ∧ s05c.grid.now ≤ (100000 : Nat) + 25600 * (0 :
      Fin 32).val ∧ (100000 : Nat) + 25600 * (0 : Fin 32).val ≤ s05c.lastStep ∧ (advance s05c ((100000 : Nat) +
      25600 * (0 : Fin 32).val - s05c.grid.now)) = advance s05c ((100000 : Nat) + 25600 * (0 : Fin 32).val -
      s05c.grid.now)) ∧
    ((s05d.region (0 : Region)).charged = true ∧ (s05d.region (0 : Region)).stageAt = some (0 : Nat) ∧ (0 :
      Nat) + 1193600 ≤ s05d.grid.now ∧ s05d.grid.now = s05d.grid.tickAt) ∧
    (nextWave s05e ≠ [] ∧ (∀ n ∈ s05e.mode.wave.getD [], (s05e.lane n).lstate ≠ .enumerating) ∧ s05e.grid.now =
      s05e.grid.tickAt ∧ (∀ n ∈ nextWave s05e, probed s05e n = true ∧ (s05e.region (laneRegion n)).warn = false)
      ∧ s05e.regions.any (fun x => x.2.warmStage) = false ∧ dieCharge s05e + 132 * (nextWave s05e).length ≤
      20000) :=
  ⟨⟨by decide +kernel, by decide +kernel, by decide +kernel, by decide +kernel, by decide +kernel,
    (fun a h => by cases h), by decide +kernel, by decide +kernel, by decide +kernel⟩,
    by decide +kernel,
    by decide +kernel,
    by decide +kernel,
    by decide +kernel⟩

def s06a : State :=
  withGrid (fun g => { g with frcTicks := 16777215 }) wRun
def s06b : State :=
  withGrid (fun g => { g with rephase := some { stepTick := 8, c := -25000, offset := none, relayed := false } })
    wRun

/-- The hypotheses of the clauses of TicksAdvance. -/
theorem witness_ticks_advance :
    (wRun.mode.inReset = false ∧ wRun.grid.on = true ∧ stepDue wRun = false) ∧
    (State.reset.mode.inReset = false ∧ State.reset.grid.frcDone = false ∧ (State.reset.grid.on = false ∨ 2 ^
      24 ≤ State.reset.grid.frcTicks + 1)) ∧
    (s06a.mode.inReset = false ∧ s06a.grid.frcDone = false ∧ (s06a.grid.on = false ∨ 2 ^ 24 ≤
      s06a.grid.frcTicks + 1)) ∧
    (s06b.grid.on = true ∧ s06b.grid.rephase = some
      ({ stepTick := 8, c := -25000, offset := none, relayed := false } : Rephase) ∧
      ({ stepTick := 8, c := -25000, offset := none, relayed := false } : Rephase).stepTick = s06b.grid.tick ∧
      s06b.grid.now = s06b.grid.tickAt) :=
  ⟨by decide +kernel,
    by decide +kernel,
    by decide +kernel,
    by decide +kernel⟩

def s07a : State :=
  { wRun with ul0 := { up := true } }
def s07b : State :=
  withGrid (fun g => { g with tstate := .acquiring, acqCnt := 8 }) wRun
def s07c : State :=
  withGrid (fun g => { g with tstate := .rephaseWait, okCnt := 8 }) wRun
def s07d : State :=
  withGrid (fun g => { g with tstate := .locked, syncAt := some 0 }) (atTick 1200000000 wRun)
def s07e : State :=
  withGrid (fun g => { g with tstate := .holdover }) (atTick 400000000 wRun)

/-- The hypotheses of the clauses of TimeStatesAtTheLead. -/
theorem witness_time_states_at_the_lead :
    (Arrives s07a 0 (met s07a) ∧ (met s07a).grid.on = true ∧ (met s07a).grid.lead = true ∧ syncValid (met s07a)
      (.ul0 : Ul) ({ domain := 0, selected := true, tai := 0 } : SyncMsg).domain.toNat
      ({ domain := 0, selected := true, tai := 0 } : SyncMsg).selected (-5 : Int) = true ∧ (met
      s07a).grid.tstate = .free) ∧
    (Arrives s07a 0 (met s07a) ∧ (met s07a).grid.on = true ∧ (met s07a).grid.lead = true ∧ syncValid (met s07a)
      (.ul0 : Ul) ({ domain := 0, selected := true, tai := 1000000000 } : SyncMsg).domain.toNat
      ({ domain := 0, selected := true, tai := 1000000000 } : SyncMsg).selected (0 : Int) = true ∧ (met
      s07a).grid.tstate = .free) ∧
    (Arrives s07b 0 (met s07b) ∧ (met s07b).grid.lead = true ∧ (met s07b).grid.tstate = .acquiring ∧ (met
      s07b).grid.acqDone = false ∧ 8 ≤ (met s07b).grid.acqCnt ∧ (met s07b).grid.rephase = none ∧ (-10000 :
      Int).natAbs ≤ 10000) ∧
    (Arrives s07c 0 (met s07c) ∧ (met s07c).grid.lead = true ∧ 8 ≤ (met s07c).grid.okCnt ∧ (met
      s07c).grid.rephase = none ∧ ((met s07c).grid.tstate = .acquiring ∨ (met s07c).grid.tstate = .holdover ∨
      (met s07c).grid.tstate = .rephaseWait)) ∧
    (Arrives s07d 0 (met s07d) ∧ (met s07d).grid.lead = true ∧ (met s07d).grid.syncAt = some (0 : Nat) ∧ (0 :
      Nat) + 3 * syncSteps (met s07d).grid ≤ (met s07d).grid.now ∧ (met s07d).grid.syncLost = false ∧ (met
      s07d).grid.tstate = .locked) ∧
    (Arrives s07e 0 (met s07e) ∧ (met s07e).grid.tstate = .holdover ∧ (met s07e).grid.holdAt + holdMaxSteps
      (met s07e) ≤ (met s07e).grid.now) :=
  ⟨⟨⟨rfl, rfl⟩, by decide +kernel⟩,
    ⟨⟨rfl, rfl⟩, by decide +kernel⟩,
    ⟨⟨rfl, rfl⟩, by decide +kernel⟩,
    ⟨⟨rfl, rfl⟩, by decide +kernel⟩,
    ⟨⟨rfl, rfl⟩, by decide +kernel⟩,
    ⟨⟨rfl, rfl⟩, by decide +kernel⟩⟩

def s08a : State :=
  withGrid (fun g => { g with tstate := .locked, shift := 30000 }) wRun
def s08b : State :=
  atTick 400000000 { wRun with ul1 := { up := true, pdelay := some 3 } }

/-- The hypotheses of the clauses of RephaseAndPeerDelay. -/
theorem witness_rephase_and_peer_delay :
    (FrameArrives s08a 0 (.h : Port) (metBy .h s08a) ∧ (metBy .h s08a).mode.dev ≠ .off ∧ (.h : Port) ≠ .u ∧
      (metBy .h s08a).grid.lead = true ∧ (metBy .h s08a).grid.tstate ≠ .free ∧ (metBy .h s08a).grid.rephase =
      none) ∧
    (Arrives s07a 0 (met s07a) ∧ ((met s07a).uplink (.ul0 : Ul)).up = true ∧ (((met s07a).uplink (.ul0 :
      Ul)).pdelay = none ∨ ((met s07a).uplink (.ul0 : Ul)).pdelayAt + pdelaySteps (met s07a) ≤ (met
      s07a).grid.now)) ∧
    (Arrives s08b 0 (met s08b) ∧ ((met s08b).uplink (.ul1 : Ul)).up = true ∧ (((met s08b).uplink (.ul1 :
      Ul)).pdelay = none ∨ ((met s08b).uplink (.ul1 : Ul)).pdelayAt + pdelaySteps (met s08b) ≤ (met
      s08b).grid.now)) :=
  ⟨⟨⟨rfl, by decide +kernel, rfl⟩, by decide +kernel⟩,
    ⟨⟨rfl, rfl⟩, by decide +kernel⟩,
    ⟨⟨rfl, rfl⟩, by decide +kernel⟩⟩

def s09a : State :=
  withGrid (fun g => { g with lead := false, joined := true }) wRun
def s09b : State :=
  withGrid (fun g => { g with echoes := [1, 2, 3, 4, 5, 6] }) wRun
def s09c : State :=
  withGrid (fun g => { g with echoes := [10, 11, 12, 13, 14, 15, 16] }) wRun
def s09d : State :=
  withGrid (fun g => { g with lead := false, joined := true, tstate := .follow }) (atTick 100400 wRun)
def s09e : State :=
  withGrid (fun g => { g with members := [1, 3] }) (atTick 400000 wRun)

/-- The hypotheses of the clauses of GridLinkMessages. -/
theorem witness_grid_link_messages :
    (Arrives s09a 0 (met s09a) ∧ (met s09a).grid.lead = false ∧ (met s09a).mode.booted = true ∧ msgOk (wDown :
      List Byte) = true ∧ msgNat (wDown : List Byte) 0 1 ≠ 3 ∧ msgNat (wDown : List Byte) 1 1 / 16 % 2 = 0 ∧
      msgNat (wDown : List Byte) 1 1 / 2 % 2 = 0 ∧ msgNat (wDown : List Byte) 1 1 / 8 % 2 = 0 ∧ (met
      s09a).grid.joined = true ∧ (tickError (met s09a).grid (-400 : Int)).natAbs ≤ 400) ∧
    (Arrives s09a 0 (met s09a) ∧ (met s09a).grid.lead = false ∧ (met s09a).mode.booted = true ∧ msgOk ([] :
      List Byte) = false) ∧
    (Arrives wRun 0 (met wRun) ∧ (met wRun).grid.lead = true ∧ (met wRun).mode.booted = true ∧ msgOk (wUp :
      List Byte) = true ∧ msgNat (wUp : List Byte) 0 1 = 1 ∧ msgNat (wUp : List Byte) 1 1 % 2 = 1 ∧ msgNat (wUp
      : List Byte) 1 1 / 4 % 2 = 0 ∧ msgNat (wUp : List Byte) 4 1 = 0 ∧ (met wRun).grid.members = []) ∧
    (Arrives s09b 0 (met s09b) ∧ (met s09b).mode.booted = true ∧ (met s09b).grid.echoes.length < 7) ∧
    (Arrives s09c 0 (met s09c) ∧ (met s09c).mode.booted = true ∧ (met s09c).grid.echoes.length = 7 ∧ (30 : Nat)
      = ((met s09c).grid.echoes ++ [(30 : Nat)]).foldl max 0 ∧ (10 : Nat) = ((met s09c).grid.echoes ++ [(30 :
      Nat)]).foldl min (30 : Nat)) ∧
    (s09d.grid.on = true ∧ s09d.grid.joined = true ∧ s09d.grid.tstate = .follow ∧ s09d.grid.markAt + 100400 ≤
      s09d.grid.now) ∧
    (s09e.grid.lead = true ∧ (3 : Fin 4).val ∈ s09e.grid.members ∧ s09e.grid.now = s09e.grid.tickAt ∧ Tbl.get
      (fun _ => 0) s09e.grid.upAt (3 : Fin 4) + 400000 ≤ s09e.grid.now ∧ (3 : Fin 4).val ≠ 0) :=
  ⟨⟨⟨rfl, rfl⟩, by decide +kernel⟩,
    ⟨⟨rfl, rfl⟩, by decide +kernel⟩,
    ⟨⟨rfl, rfl⟩, by decide +kernel⟩,
    ⟨⟨rfl, rfl⟩, by decide +kernel⟩,
    ⟨⟨rfl, rfl⟩, by decide +kernel⟩,
    by decide +kernel,
    by decide +kernel⟩

def s10a : State :=
  withGrid (fun g => { g with degraded := true }) wRun
def s10b : State :=
  withGrid (fun g => { g with standbyOk := false, swapped := true }) wRun
def s10c : State :=
  withMode (fun m => { m with dev := .sentinel }) (withGrid (fun g => { g with clk := .reference }) wRun)
def s10d : State :=
  withGrid (fun g => { g with lanePll := false }) wRun

/-- The hypotheses of the clauses of ClocksFailAndReturn. -/
theorem witness_clocks_fail_and_return :
    (Arrives wRun 0 (met wRun) ∧ (met wRun).grid.degraded = false) ∧
    (s10a.mode.inReset = false ∧ s10a.grid.degraded = true ∧ (s10a.grid.on = false ∨ s10a.grid.now =
      s10a.grid.tickAt)) ∧
    (Arrives wRun 0 (met wRun) ∧ clkNow (met wRun) = .pll) ∧
    (Arrives s10b 0 (met s10b) ∧ (met s10b).mode.dev ≠ .sentinel ∧ (met s10b).grid.clk = .pll ∧ (met
      s10b).grid.standbyOk = false) ∧
    (Arrives s10c 0 (met s10c) ∧ (met s10c).mode.dev = .sentinel ∧ (met s10c).grid.clk = .reference ∧ (met
      s10c).grid.clkBack = none) ∧
    (Arrives wRun 0 (met wRun) ∧ (met wRun).grid.lanePll = true) ∧
    (Arrives s10d 0 (met s10d) ∧ (met s10d).grid.lanePll = false) :=
  ⟨⟨⟨rfl, rfl⟩, by decide +kernel⟩,
    by decide +kernel,
    ⟨⟨rfl, rfl⟩, by decide +kernel⟩,
    ⟨⟨rfl, rfl⟩, by decide +kernel⟩,
    ⟨⟨rfl, rfl⟩, by decide +kernel⟩,
    ⟨⟨rfl, rfl⟩, by decide +kernel⟩,
    ⟨⟨rfl, rfl⟩, by decide +kernel⟩⟩

def s11a : State :=
  withEp 8191 { sprout := false, quiet := 8 } wRun
def s11b : State :=
  withLane 511 { cal := { slowCnt := 8, dE := 90 } } wRun

/-- The hypotheses of the clauses of HarvestsHandOverPackets. -/
theorem witness_harvests_hand_over_packets :
    (LineArrives wDue 0 (metLine wDue) ∧ laneSnap (metLine wDue) (0 : Lane) = ((8 : BitVec 48), (100000 : Int))
      ∧ ((metLine wDue).seenAt (100000 : Int)) = (metLine wDue).seenAt (100000 : Int) ∧ harvestReady ((metLine
      wDue).seenAt (100000 : Int)) (0 : Lane) (8 : BitVec 48) (100000 : Int) = true ∧ harvestWhole ((metLine
      wDue).seenAt (100000 : Int)) (0 : Lane) (8 : BitVec 48) = true ∧ ((metLine wDue).region (laneRegion (0 :
      Lane))).open_.snap = (8 : BitVec 48) ∧ ((metLine wDue).region (laneRegion (0 : Lane))).open_.at_ = (100000
      : Int) ∧ ((metLine wDue).region (laneRegion (0 : Lane))).open_.lost = false) ∧
    (LineArrives wDue2 0 (metLine wDue2) ∧ laneSnap (metLine wDue2) (0 : Lane) = ((8 : BitVec 48), (100000 :
      Int)) ∧ ((metLine wDue2).seenAt (100000 : Int)) = (metLine wDue2).seenAt (100000 : Int) ∧ harvestReady
      ((metLine wDue2).seenAt (100000 : Int)) (0 : Lane) (8 : BitVec 48) (100000 : Int) = true ∧ harvestWhole
      ((metLine wDue2).seenAt (100000 : Int)) (0 : Lane) (8 : BitVec 48) = false ∧ harvestTop ((metLine
      wDue2).seenAt (100000 : Int)) (0 : Lane) (8 : BitVec 48) = some (0 : Pos).val ∧ ((metLine wDue2).region
      (laneRegion (0 : Lane))).open_.snap = (8 : BitVec 48) ∧ ((metLine wDue2).region (laneRegion (0 :
      Lane))).open_.at_ = (100000 : Int) ∧ ((metLine wDue2).region (laneRegion (0 : Lane))).open_.lost = false) ∧
    (8 ≤ (s11a.ep (8191 : Idx)).quiet) ∧
    (8 ≤ (s11b.lane (511 : Lane)).cal.slowCnt ∧ (s11b.lane (511 : Lane)).slowLine = false) :=
  ⟨⟨⟨rfl, rfl⟩, by decide +kernel⟩,
    ⟨⟨rfl, rfl⟩, by decide +kernel⟩,
    by decide +kernel,
    by decide +kernel⟩

def s12a : State :=
  wAcc 0
def s12b : State :=
  wAcc 1
def s12c : State :=
  wAcc 2

/-- The hypotheses of the clauses of HostAccessIsServed. -/
theorem witness_host_access_is_served :
    (Arrives s12a 0 (met s12a) ∧ ({ op := 0, rstate := .pending, addr := 0x20 } : AccGroup) = ((met s12a).lane
      (0 : Lane)).acc ∧ ({ op := 0, rstate := .pending, addr := 0x20 } : AccGroup).rstate = .pending ∧
      ({ op := 0, rstate := .pending, addr := 0x20 } : AccGroup).op = 0 ∧ routeWrite (met s12a) (0 : Lane) =
      none ∧ (readFrame 0 0x20 : CmdFrame) = readFrame ({ op := 0, rstate := .pending, addr := 0x20 } :
      AccGroup).pos.toNat ({ op := 0, rstate := .pending, addr := 0x20 } : AccGroup).addr.toNat ∧ (met
      s12a).grid.now - cmdSteps (met s12a) (0 : Lane) (readFrame 0 0x20 : CmdFrame) (wFrame (readFrame 0 0x20)
      (symsOf 40 (5 * 256 + crc8 (msb 4 0 ++ msb 8 0x20 ++ msb 32 5))) : FrameWire) <
      ({ op := 0, rstate := .pending, addr := 0x20 } : AccGroup).at_ + 256 * period (met s12a) ∧ SlotRuns (met
      s12a) (0 : Lane) 4 (readFrame 0 0x20 : CmdFrame) (wFrame (readFrame 0 0x20) (symsOf 40 (5 * 256 + crc8
      (msb 4 0 ++ msb 8 0x20 ++ msb 32 5))) : FrameWire)) ∧
    (Arrives s12a 0 (met s12a) ∧ ({ op := 0, rstate := .pending, addr := 0x20 } : AccGroup) = ((met s12a).lane
      (0 : Lane)).acc ∧ ({ op := 0, rstate := .pending, addr := 0x20 } : AccGroup).rstate = .pending ∧
      ({ op := 0, rstate := .pending, addr := 0x20 } : AccGroup).op = 0 ∧ routeWrite (met s12a) (0 : Lane) =
      none ∧ (readFrame 0 0x20 : CmdFrame) = readFrame ({ op := 0, rstate := .pending, addr := 0x20 } :
      AccGroup).pos.toNat ({ op := 0, rstate := .pending, addr := 0x20 } : AccGroup).addr.toNat ∧ (met
      s12a).grid.now - cmdSteps (met s12a) (0 : Lane) (readFrame 0 0x20 : CmdFrame) (wSilent (readFrame 0 0x20)
      : FrameWire) < ({ op := 0, rstate := .pending, addr := 0x20 } : AccGroup).at_ + 256 * period (met s12a) ∧
      SlotRuns (met s12a) (0 : Lane) 4 (readFrame 0 0x20 : CmdFrame) (wSilent (readFrame 0 0x20) : FrameWire)) ∧
    (Arrives s12b 0 (met s12b) ∧ ({ op := 1, rstate := .pending, addr := 0x20 } : AccGroup) = ((met s12b).lane
      (0 : Lane)).acc ∧ ({ op := 1, rstate := .pending, addr := 0x20 } : AccGroup).rstate = .pending ∧
      ({ op := 1, rstate := .pending, addr := 0x20 } : AccGroup).op = 1 ∧ routeWrite (met s12b) (0 : Lane) =
      none ∧ (writeFrame 0 0x20 0 : CmdFrame) = writeFrame ({ op := 1, rstate := .pending, addr := 0x20 } :
      AccGroup).pos.toNat ({ op := 1, rstate := .pending, addr := 0x20 } : AccGroup).addr.toNat
      ({ op := 1, rstate := .pending, addr := 0x20 } : AccGroup).data0 ∧ (met s12b).grid.now - cmdSteps (met
      s12b) (0 : Lane) (writeFrame 0 0x20 0 : CmdFrame) (wFrame (writeFrame 0 0x20 0) [1, 2] : FrameWire) <
      ({ op := 1, rstate := .pending, addr := 0x20 } : AccGroup).at_ + 256 * period (met s12b) ∧ SlotRuns (met
      s12b) (0 : Lane) 4 (writeFrame 0 0x20 0 : CmdFrame) (wFrame (writeFrame 0 0x20 0) [1, 2] : FrameWire)) ∧
    (Arrives s12c 0 (met s12c) ∧ ({ op := 2, rstate := .pending, addr := 0x20 } : AccGroup) = ((met s12c).lane
      (0 : Lane)).acc ∧ ({ op := 2, rstate := .pending, addr := 0x20 } : AccGroup).rstate = .pending ∧
      ({ op := 2, rstate := .pending, addr := 0x20 } : AccGroup).op = 2 ∧ routeWrite (met s12c) (0 : Lane) =
      none ∧ ((met s12c).lane (0 : Lane)).enumPos = none ∧ identOwedPos (met s12c) (0 : Lane) = none ∧
      (identFrame 0 : CmdFrame) = identFrame ({ op := 2, rstate := .pending, addr := 0x20 } :
      AccGroup).pos.toNat ∧ (met s12c).grid.now - cmdSteps (met s12c) (0 : Lane) (identFrame 0 : CmdFrame)
      (wFrame (identFrame 0) (symsOf 72 (4294967301 * 256 + crc8 (msb 4 0 ++ msb 64 4294967301))) : FrameWire) <
      ({ op := 2, rstate := .pending, addr := 0x20 } : AccGroup).at_ + 256 * period (met s12c) ∧ SlotRuns (met
      s12c) (0 : Lane) 4 (identFrame 0 : CmdFrame) (wFrame (identFrame 0) (symsOf 72 (4294967301 * 256 + crc8
      (msb 4 0 ++ msb 64 4294967301))) : FrameWire)) :=
  ⟨⟨⟨rfl, rfl⟩, by unfold SlotRuns; decide +kernel⟩,
    ⟨⟨rfl, rfl⟩, by unfold SlotRuns; decide +kernel⟩,
    ⟨⟨rfl, rfl⟩, by unfold SlotRuns; decide +kernel⟩,
    ⟨⟨rfl, rfl⟩, by unfold SlotRuns; decide +kernel⟩⟩

def s13a : State :=
  wLaneWith (fun l => { l with lstate := .enumerating, enumN := 3 })
def s13b : State :=
  wEnum 1 0
def s13c : State :=
  wEnum 0 2
def s13d : State :=
  wLaneWith (fun l => { l with openOwed := some 0 })
def s13e : State :=
  (atTick 102400000 wTwo).onLane 0 (fun l => { l with enumFail := true, failPos := 1 })
def s13f : State :=
  (atTick 25600000 wLane).onLane 0 (fun l => { l with enumN := 0, chainEnd := true })

/-- The hypotheses of the clauses of EnumerationAdvances. -/
theorem witness_enumeration_advances :
    (Arrives s13a 0 (met s13a) ∧ ((met s13a).lane (0 : Lane)).mode = .aknun ∧ laneClocked (met s13a) (0 : Lane)
      = true ∧ (((met s13a).lane (0 : Lane)).lstate = .enumerating ∨ ((met s13a).lane (0 : Lane)).lstate = .run
      ∧ ((met s13a).lane (0 : Lane)).enumOwed = true) ∧ ((met s13a).lane (0 : Lane)).enumPos = none ∧ ((met
      s13a).lane (0 : Lane)).clearAt = none ∧ ((met s13a).lane (0 : Lane)).readyAt - graded (met s13a) (0 :
      Lane) 16000 ≤ (met s13a).grid.now ∧ topPos (met s13a) (0 : Lane) ≠ none) ∧
    (Arrives s13b 0 (met s13b) ∧ EnumRuns (met s13b) (0 : Lane) (enumFrame (1 : Nat) : CmdFrame) (wFrame
      (enumFrame 1) [0, 1] : FrameWire) ∧ ((met s13b).lane (0 : Lane)).enumPos = some (1 : Nat) ∧ ((met
      s13b).lane (0 : Lane)).enumStep = 0 ∧ enumWaited ((met s13b).lane (0 : Lane)) ((met s13b).grid.now -
      cmdSteps (met s13b) (0 : Lane) (enumFrame (1 : Nat) : CmdFrame) (wFrame (enumFrame 1) [0, 1] : FrameWire))
      = true ∧ withinTop (met s13b) (0 : Lane) (1 : Nat) = true) ∧
    (Arrives s13b 0 (met s13b) ∧ EnumRuns (met s13b) (0 : Lane) (enumFrame (1 : Nat) : CmdFrame) (wSilent
      (enumFrame 1) : FrameWire) ∧ ((met s13b).lane (0 : Lane)).enumPos = some (1 : Nat) ∧ ((met s13b).lane (0 :
      Lane)).enumStep = 0 ∧ enumWaited ((met s13b).lane (0 : Lane)) ((met s13b).grid.now - cmdSteps (met s13b)
      (0 : Lane) (enumFrame (1 : Nat) : CmdFrame) (wSilent (enumFrame 1) : FrameWire)) = true ∧ withinTop (met
      s13b) (0 : Lane) (1 : Nat) = true) ∧
    (Arrives s13c 0 (met s13c) ∧ EnumRuns (met s13c) (0 : Lane) (closeFrame (0 : Nat) : CmdFrame) (wFrame
      (closeFrame 0) [0, 3] : FrameWire) ∧ ((met s13c).lane (0 : Lane)).enumPos = some (0 : Nat) ∧ ((met
      s13c).lane (0 : Lane)).enumStep = 2 ∧ ((met s13c).lane (0 : Lane)).coldWait = false ∧ withinTop (met s13c)
      (0 : Lane) ((0 : Nat) + 1) = true ∧ status (slotAnswer (met s13c) (enumTaken (met s13c) (0 : Lane)
      (closeFrame (0 : Nat) : CmdFrame) (wFrame (closeFrame 0) [0, 3] : FrameWire)) (0 : Lane) (closeFrame (0 :
      Nat) : CmdFrame) 0 (wFrame (closeFrame 0) [0, 3] : FrameWire)) = some 0) ∧
    (Arrives s13d 0 (met s13d) ∧ openDue (slotMeets (met s13d) (0 : Lane)) (0 : Lane) = some (0 : Pos).val ∧
      SlotRuns (met s13d) (0 : Lane) 0 (openFrame (0 : Pos) : CmdFrame) (wFrame (openFrame 0) [0, 3] :
      FrameWire) ∧ (accessFrame (slotTaken (met s13d) (0 : Lane) (openFrame (0 : Pos) : CmdFrame) (wFrame
      (openFrame 0) [0, 3] : FrameWire)) (0 : Lane) (slotSnap (met s13d) (0 : Lane)).1 (slotSnap (met s13d) (0 :
      Lane)).2 (openFrame (0 : Pos) : CmdFrame) 0 (wFrame (openFrame 0) [0, 3] : FrameWire)).2.2 = true) ∧
    (Arrives s13e 0 (met s13e) ∧ ((met s13e).lane (0 : Lane)).lstate = .run ∧ ((met s13e).lane (0 :
      Lane)).enumFail = true ∧ ((met s13e).lane (0 : Lane)).enumPos = none ∧ withinTop (met s13e) (0 : Lane)
      ((met s13e).lane (0 : Lane)).failPos.toNat = true ∧ openWaits (met s13e) (0 : Lane) = false ∧ ((met
      s13e).lane (0 : Lane)).enumAt + 102400000 ≤ (met s13e).grid.now) ∧
    ((s13f.lane (0 : Lane)).lstate = .run ∧ (s13f.lane (0 : Lane)).chainEnd = true ∧ (s13f.lane (0 :
      Lane)).enumPos = none ∧ withinTop s13f (0 : Lane) (s13f.lane (0 : Lane)).enumN = true ∧ openWaits s13f (0
      : Lane) = false ∧ (s13f.lane (0 : Lane)).repollAt + 25600000 ≤ s13f.grid.now) :=
  ⟨⟨⟨rfl, rfl⟩, by decide +kernel⟩,
    ⟨⟨rfl, rfl⟩, by unfold EnumRuns; decide +kernel⟩,
    ⟨⟨rfl, rfl⟩, by unfold EnumRuns; decide +kernel⟩,
    ⟨⟨rfl, rfl⟩, by unfold EnumRuns; decide +kernel⟩,
    ⟨⟨rfl, rfl⟩, by unfold SlotRuns; decide +kernel⟩,
    ⟨⟨rfl, rfl⟩, by decide +kernel⟩,
    by decide +kernel⟩

def s14a : State :=
  wSpu { wReq with admitted := some 8 }
def s14b : State :=
  wSpu wReq |> atTick 100000
def s14c : State :=
  wSpu { wReq with admitted := some 8, window := some (0, 149000) }
def s14d : State :=
  wSpu { wReq with admitted := some 8, window := some (0, 149001) }

/-- The hypotheses of the clauses of StrongWindows. -/
theorem witness_strong_windows :
    (Arrives wLane 0 (met wLane) ∧ (met wLane).mode.dev ≠ .boot ∧ (met wLane).mode.dev ≠ .sow ∧ ((met
      wLane).lane (0 : Lane)).spu = none ∧ ((met wLane).lane (0 : Lane)).mode = .aknun ∧ ((met wLane).lane (0 :
      Lane)).lstate = .run ∧ spuOk (met wLane) (0 : Lane) = true) ∧
    (Arrives wLane 0 (met wLane) ∧ (met wLane).mode.dev ≠ .boot ∧ (met wLane).mode.dev ≠ .sow ∧ ((met
      wLane).lane (0 : Lane)).spu = none ∧ ((met wLane).lane (0 : Lane)).mode = .aknun ∧ ((met wLane).lane (0 :
      Lane)).lstate = .run ∧ spuOk (met wLane) (0 : Lane) = true) ∧
    (Arrives s14a 0 (met s14a) ∧ (met s14a).mode.dev ≠ .boot ∧ (met s14a).mode.dev ≠ .sow ∧ ((met s14a).lane (0
      : Lane)).spu = some ({ wReq with admitted := some 8 } : SpuState) ∧ ({ wReq with admitted := some 8 } :
      SpuState).admitted ≠ none ∧ ({ wReq with admitted := some 8 } : SpuState).window = none ∧
      ({ wReq with admitted := some 8 } : SpuState).nv = (false : Bool) ∧ SlotRuns (met s14a) (0 : Lane) 1
      (controlFrame (if (false : Bool) then 6 else 5) (if ({ wReq with admitted := some 8 } : SpuState).all then
      15 else ({ wReq with admitted := some 8 } : SpuState).pos) (b2n ({ wReq with admitted := some 8 } :
      SpuState).all * 128 + ({ wReq with admitted := some 8 } : SpuState).code.toNat) 0 : CmdFrame) (wFrame
      (controlFrame 5 0 0 0) [] : FrameWire) ∧ (accessFrame (slotTaken (met s14a) (0 : Lane) (controlFrame (if
      (false : Bool) then 6 else 5) (if ({ wReq with admitted := some 8 } : SpuState).all then 15 else
      ({ wReq with admitted := some 8 } : SpuState).pos) (b2n ({ wReq with admitted := some 8 } : SpuState).all
      * 128 + ({ wReq with admitted := some 8 } : SpuState).code.toNat) 0 : CmdFrame) (wFrame (controlFrame 5 0
      0 0) [] : FrameWire)) (0 : Lane) (slotSnap (met s14a) (0 : Lane)).1 (slotSnap (met s14a) (0 : Lane)).2
      (controlFrame (if (false : Bool) then 6 else 5) (if ({ wReq with admitted := some 8 } : SpuState).all then
      15 else ({ wReq with admitted := some 8 } : SpuState).pos) (b2n ({ wReq with admitted := some 8 } :
      SpuState).all * 128 + ({ wReq with admitted := some 8 } : SpuState).code.toNat) 0 : CmdFrame) 0 (wFrame
      (controlFrame 5 0 0 0) [] : FrameWire)).2.2 = true) ∧
    ((s14b.lane (0 : Lane)).spu = some (wReq : SpuState) ∧ (wReq : SpuState).admitted = none ∧ s14b.grid.now =
      s14b.grid.tickAt ∧ regionAdmits s14b (0 : Lane) = true ∧ dieCharge s14b + 400 ≤ 20000 ∧ stageBlocks s14b =
      false ∧ olderWaits s14b (0 : Lane) (wReq : SpuState).reqTick = false) ∧
    (Arrives s14c 0 (met s14c) ∧ ((met s14c).lane (0 : Lane)).spu = some
      ({ wReq with admitted := some 8, window := some (0, 149000) } : SpuState) ∧
      ({ wReq with admitted := some 8, window := some (0, 149000) } : SpuState).window = some ((0 : Nat),
      (149000 : Nat)) ∧ (149000 : Nat) ≤ (met s14c).grid.now) ∧
    (Arrives s14d 0 (met s14d) ∧ ((met s14d).lane (0 : Lane)).spu = some
      ({ wReq with admitted := some 8, window := some (0, 149001) } : SpuState) ∧
      ({ wReq with admitted := some 8, window := some (0, 149001) } : SpuState).window = some ((0 : Nat),
      (149001 : Nat)) ∧ (met s14d).grid.now < (149001 : Nat)) :=
  ⟨⟨⟨rfl, rfl⟩, by decide +kernel⟩,
    ⟨⟨rfl, rfl⟩, by decide +kernel⟩,
    ⟨⟨rfl, rfl⟩, by unfold SlotRuns; decide +kernel⟩,
    by decide +kernel,
    ⟨⟨rfl, rfl⟩, by decide +kernel⟩,
    ⟨⟨rfl, rfl⟩, by decide +kernel⟩⟩

def s15a : State :=
  wAttested.onEp 0 (fun e => { e with tagHi := some 0 })

/-- The hypotheses of the clauses of SleepAndAttest. -/
theorem witness_sleep_and_attest :
    (Arrives wLane 0 (met wLane) ∧ (0 : Pos).val < ((met wLane).lane (0 : Lane)).enumN ∧ SlotRuns (met wLane)
      (0 : Lane) 5 (controlFrame 7 (0 : Pos) 0 0 : CmdFrame) (wFrame (controlFrame 7 0 0 0) [] : FrameWire) ∧
      (accessFrame (slotTaken (met wLane) (0 : Lane) (controlFrame 7 (0 : Pos) 0 0 : CmdFrame) (wFrame
      (controlFrame 7 0 0 0) [] : FrameWire)) (0 : Lane) (slotSnap (met wLane) (0 : Lane)).1 (slotSnap (met
      wLane) (0 : Lane)).2 (controlFrame 7 (0 : Pos) 0 0 : CmdFrame) 0 (wFrame (controlFrame 7 0 0 0) [] :
      FrameWire)).2.2 = true) ∧
    (Arrives wLane 0 (met wLane) ∧ (0 : Pos).val < ((met wLane).lane (0 : Lane)).enumN ∧ (((met wLane).ep
      (epIdx (0 : Lane) (0 : Pos))).wakeOwed = true → (true : Bool) = true) ∧ SlotRuns (met wLane) (0 : Lane) 5
      (controlFrame 8 (0 : Pos) (b2n (true : Bool)) 2 : CmdFrame) (wFrame (controlFrame 8 0 1 2) [1, 2] :
      FrameWire) ∧ status (slotAnswer (met wLane) (slotTaken (met wLane) (0 : Lane) (controlFrame 8 (0 : Pos)
      (b2n (true : Bool)) 2 : CmdFrame) (wFrame (controlFrame 8 0 1 2) [1, 2] : FrameWire)) (0 : Lane)
      (controlFrame 8 (0 : Pos) (b2n (true : Bool)) 2 : CmdFrame) 0 (wFrame (controlFrame 8 0 1 2) [1, 2] :
      FrameWire)) = some (1 : Nat)) ∧
    (Arrives wAttested 0 (met wAttested) ∧ ((met wAttested).ep (epIdx (0 : Lane) (0 : Pos))).chal = some ((7 :
      BitVec 64), (0 : Nat)) ∧ (0 : Nat) + 1600000 ≤ ((met wAttested).grid.now - cmdSteps (met wAttested) (0 :
      Lane) (readFrame (0 : Pos) 8 : CmdFrame) (wFrame (readFrame 0 8) (symsOf 40 (crc8 (msb 4 0 ++ msb 8 8 ++
      msb 32 0))) : FrameWire) : Nat) ∧ attestOwed (met wAttested) (epIdx (0 : Lane) (0 : Pos)) = true ∧
      attestPos (met wAttested) (0 : Lane) ((met wAttested).grid.now - cmdSteps (met wAttested) (0 : Lane)
      (readFrame (0 : Pos) 8 : CmdFrame) (wFrame (readFrame 0 8) (symsOf 40 (crc8 (msb 4 0 ++ msb 8 8 ++ msb 32
      0))) : FrameWire) : Nat) = some (0 : Pos).val ∧ ((met wAttested).ep (epIdx (0 : Lane) (0 : Pos))).tagHi =
      none ∧ SlotRuns (met wAttested) (0 : Lane) 3 (readFrame (0 : Pos) 8 : CmdFrame) (wFrame (readFrame 0 8)
      (symsOf 40 (crc8 (msb 4 0 ++ msb 8 8 ++ msb 32 0))) : FrameWire) ∧ accepted (slotAnswer (met wAttested)
      (slotTaken (met wAttested) (0 : Lane) (readFrame (0 : Pos) 8 : CmdFrame) (wFrame (readFrame 0 8) (symsOf
      40 (crc8 (msb 4 0 ++ msb 8 8 ++ msb 32 0))) : FrameWire)) (0 : Lane) (readFrame (0 : Pos) 8 : CmdFrame) 8
      (wFrame (readFrame 0 8) (symsOf 40 (crc8 (msb 4 0 ++ msb 8 8 ++ msb 32 0))) : FrameWire)) = some (symsOf
      40 (crc8 (msb 4 0 ++ msb 8 8 ++ msb 32 0)) : List Nat)) ∧
    (Arrives s15a 0 (met s15a) ∧ ((met s15a).ep (epIdx (0 : Lane) (0 : Pos))).chal = some ((7 : BitVec 64), (0
      : Nat)) ∧ (0 : Nat) + 1600000 ≤ ((met s15a).grid.now - cmdSteps (met s15a) (0 : Lane) (readFrame (0 : Pos)
      8) (wFrame (readFrame 0 9) (symsOf 40 (crc8 (msb 4 0 ++ msb 8 9 ++ msb 32 0))) : FrameWire) : Nat) ∧
      attestOwed (met s15a) (epIdx (0 : Lane) (0 : Pos)) = true ∧ attestPos (met s15a) (0 : Lane) ((met
      s15a).grid.now - cmdSteps (met s15a) (0 : Lane) (readFrame (0 : Pos) 8) (wFrame (readFrame 0 9) (symsOf 40
      (crc8 (msb 4 0 ++ msb 8 9 ++ msb 32 0))) : FrameWire) : Nat) = some (0 : Pos).val ∧ ((met s15a).ep (epIdx
      (0 : Lane) (0 : Pos))).tagHi = some (0 : Word) ∧ SlotRuns (met s15a) (0 : Lane) 3 (readFrame (0 : Pos) 9 :
      CmdFrame) (wFrame (readFrame 0 9) (symsOf 40 (crc8 (msb 4 0 ++ msb 8 9 ++ msb 32 0))) : FrameWire) ∧
      pairingRoot (met s15a) ((descId (slotMeets (met s15a) (0 : Lane)) (epIdx (0 : Lane) (0 : Pos)) : BitVec
      64).toNat / 2 ^ 48) = some (0 : Nat) ∧ accepted (slotAnswer (met s15a) (slotTaken (met s15a) (0 : Lane)
      (readFrame (0 : Pos) 9 : CmdFrame) (wFrame (readFrame 0 9) (symsOf 40 (crc8 (msb 4 0 ++ msb 8 9 ++ msb 32
      0))) : FrameWire)) (0 : Lane) (readFrame (0 : Pos) 9 : CmdFrame) 9 (wFrame (readFrame 0 9) (symsOf 40
      (crc8 (msb 4 0 ++ msb 8 9 ++ msb 32 0))) : FrameWire)) = some (symsOf 40 (crc8 (msb 4 0 ++ msb 8 9 ++ msb
      32 0)) : List Nat)) :=
  ⟨⟨⟨rfl, rfl⟩, by unfold SlotRuns; decide +kernel⟩,
    ⟨⟨rfl, rfl⟩, by unfold SlotRuns; decide +kernel⟩,
    ⟨⟨rfl, rfl⟩, by unfold SlotRuns; decide +kernel⟩,
    ⟨⟨rfl, rfl⟩, by unfold SlotRuns; decide +kernel⟩⟩

def s16a : State :=
  wLaneWith (fun l => { l with lstate := .clearing })
def s16b : State :=
  wLaneWith (fun l => { l with lstate := .clearing, clearAt := some 133000 })
def s16c : State :=
  wLaneWith (fun l => { l with lstate := .clearing, clearAt := some 109000 })
def s16d : State :=
  withLane 511 { mode := .psi5, lstate := .run } wRun
def s16e : State :=
  withLane 511 { cal := { swingCnt := 8 } } wRun
def s16f : State :=
  withLane 0 { mode := .aknun, lstate := .isolated, short := true } (atTick 400000 wRun)
def s16g : State :=
  withLane 0 { mode := .aknun, lstate := .isolated, short := true, isoTry := 4 } (atTick 102400000 wRun)

/-- The hypotheses of the clauses of LineFaultsIsolate. -/
theorem witness_line_faults_isolate :
    (Arrives wLane 0 (met wLane) ∧ ((met wLane).lane (0 : Lane)).mode = .aknun ∧ powered (met wLane) (0 : Lane)
      = true) ∧
    (Arrives s16a 0 (met s16a) ∧ ((met s16a).lane (0 : Lane)).lstate = .clearing ∧ ((met s16a).lane (0 :
      Lane)).clearAt = none ∧ laneClocked (met s16a) (0 : Lane) = true) ∧
    (Arrives s16b 0 (met s16b) ∧ ((met s16b).lane (0 : Lane)).clearAt = some (133000 : Nat) ∧ (133000 : Nat) +
      graded (met s16b) (0 : Lane) 16000 ≤ (met s16b).grid.now ∧ laneClocked (met s16b) (0 : Lane) = true) ∧
    (Arrives s16c 0 (met s16c) ∧ ((met s16c).lane (0 : Lane)).mode = .aknun ∧ ((met s16c).lane (0 :
      Lane)).clearAt = some (109000 : Nat) ∧ (109000 : Nat) + graded (met s16c) (0 : Lane) 40000 ≤ (met
      s16c).grid.now ∧ ((met s16c).lane (0 : Lane)).lstate ≠ .isolated) ∧
    (Arrives wLane 0 (met wLane) ∧ powered (met wLane) (0 : Lane) = true ∧ ((met wLane).lane (0 : Lane)).mode =
      .aknun) ∧
    (Arrives s16d 0 (met s16d) ∧ powered (met s16d) (511 : Lane) = true ∧ ((met s16d).lane (511 : Lane)).mode =
      .psi5) ∧
    (Arrives s16d 0 (met s16d) ∧ powered (met s16d) (511 : Lane) = true ∧ ((met s16d).lane (511 : Lane)).mode =
      .psi5) ∧
    (8 ≤ (s16e.lane (511 : Lane)).cal.swingCnt ∧ (s16e.lane (511 : Lane)).swing = false) ∧
    ((s16f.lane (0 : Lane)).lstate = .isolated ∧ (s16f.region (laneRegion (0 : Lane))).iso = false ∧
      s16f.grid.now = s16f.grid.tickAt ∧ (s16f.lane (0 : Lane)).isoAt + retryWait (s16f.lane (0 : Lane)).isoTry
      ≤ s16f.grid.now) ∧
    ((s16g.lane (0 : Lane)).lstate = .isolated ∧ (s16g.region (laneRegion (0 : Lane))).iso = false ∧
      s16g.grid.now = s16g.grid.tickAt ∧ (s16g.lane (0 : Lane)).isoAt + retryWait (s16g.lane (0 : Lane)).isoTry
      ≤ s16g.grid.now) :=
  ⟨⟨⟨rfl, rfl⟩, by decide +kernel⟩,
    ⟨⟨rfl, rfl⟩, by decide +kernel⟩,
    ⟨⟨rfl, rfl⟩, by decide +kernel⟩,
    ⟨⟨rfl, rfl⟩, by decide +kernel⟩,
    ⟨⟨rfl, rfl⟩, by decide +kernel⟩,
    ⟨⟨rfl, rfl⟩, by decide +kernel⟩,
    ⟨⟨rfl, rfl⟩, by decide +kernel⟩,
    by decide +kernel,
    by decide +kernel,
    by decide +kernel⟩

def s17a : State :=
  wRun.setCluster 63 { seq := .stopped }
def s17b : State :=
  withLane 0 { modeAt := some 100000 } (withWords [(0x040000, 0x2F000000)] wRun)
def s17c : State :=
  withRegion 7 { dllStuck := 64 } wRun
def s17d : State :=
  withRegion 7 { ogLimit := 1 } wRun

/-- The hypotheses of the clauses of ClustersModesAndRegionLoops. -/
theorem witness_clusters_modes_and_region_loops :
    (Arrives wRun 0 (met wRun) ∧ ((met wRun).cluster (63 : Cluster)).seq ≠ .stopped) ∧
    ((s17a.cluster (63 : Cluster)).seq = .stopped) ∧
    ((s17b.lane (0 : Lane)).modeAt = some (100000 : Nat) ∧ s17b.grid.now = s17b.grid.tickAt ∧ (100000 : Nat) ≤
      s17b.grid.now ∧ (s17b.lane (0 : Lane)).lstate = .unpowered ∧ (s17b.region (laneRegion (0 :
      Lane))).stageReq = false ∧ mayPower s17b (0 : Lane) = true) ∧
    ((s17c.region (7 : Region)).dllStuck = 64) ∧
    ((s17d.region (7 : Region)).dllStuck ≠ 64 ∧ (s17d.region (7 : Region)).ogLimit = 1) :=
  ⟨⟨⟨rfl, rfl⟩, by decide +kernel⟩,
    by decide +kernel,
    by decide +kernel,
    by decide +kernel,
    by decide +kernel⟩

def s18a : State :=
  wSent |> atTick 4000000
def s18b : State :=
  withLane 0 { lstate := .run, mode := .psi5 } (atTick 4000000 wRun)

/-- The hypotheses of the clauses of SentAndPsi5Frames. -/
theorem witness_sent_and_psi5_frames :
    (Arrives wSpc 0 (met wSpc) ∧ laneSnap (met wSpc) (0 : Lane) = ((8 : BitVec 48), (100000 : Int)) ∧ ((met
      wSpc).seenAt (100000 : Int)) = (met wSpc).seenAt (100000 : Int) ∧ probeDue (met wSpc) (0 : Lane) = false ∧
      probeOver ((met wSpc).seenAt (100000 : Int)) (0 : Lane) = true ∧ busRuns ((met wSpc).seenAt (100000 :
      Int)) (0 : Lane) .sent = true ∧ sentSpc ((met wSpc).seenAt (100000 : Int)) (0 : Lane) = true ∧ frameRuns
      ((met wSpc).seenAt (100000 : Int)) (8 : BitVec 48) = true ∧ epDue ((met wSpc).seenAt (100000 : Int))
      (epIdx (0 : Lane) 0) (8 : BitVec 48) = true ∧ descProto ((met wSpc).seenAt (100000 : Int)) (epIdx (0 :
      Lane) 0) ≠ 0 ∧ ((met wSpc).lane (0 : Lane)).lastTag ≠ some (8 : BitVec 48) ∧ trigSent ((met wSpc).seenAt
      (100000 : Int)) (0 : Lane) (8 : BitVec 48) = false ∧ windowed ((met wSpc).seenAt (100000 : Int)) (0 :
      Lane) (100000 : Int) = false) ∧
    (LineArrives wSent 0 (metLine wSent) ∧ probing (metLine wSent) (0 : Lane) = false ∧ sentSnap (metLine
      wSent) (0 : Lane) = ((8 : BitVec 48), (100000 : Int)) ∧ ((metLine wSent).seenAt (100000 : Int)) = (metLine
      wSent).seenAt (100000 : Int) ∧ busRuns ((metLine wSent).seenAt (100000 : Int)) (0 : Lane) .sent = true ∧
      awaits ((metLine wSent).seenAt (100000 : Int)) (0 : Lane) (sentSpc ((metLine wSent).seenAt (100000 : Int))
      (0 : Lane)) (8 : BitVec 48) = true ∧ (((metLine wSent).lane (0 : Lane)).readyAt : Int) ≤ ((100000 : Int) +
      (wSentFrame : SentWire).edges.headD 0 / 8 : Int) ∧ (metLine wSent).upd.pauseSpan = none ∧ ((metLine
      wSent).lane (0 : Lane)).leaveAt = none ∧ (busMeets (metLine wSent) (0 : Lane) (8 : BitVec 48) (100000 :
      Int) ((100000 : Int) + (wSentFrame : SentWire).edges.headD 0 / 8 : Int)) = busMeets (metLine wSent) (0 :
      Lane) (8 : BitVec 48) (100000 : Int) ((100000 : Int) + (wSentFrame : SentWire).edges.headD 0 / 8 : Int) ∧
      sentAccepts (busMeets (metLine wSent) (0 : Lane) (8 : BitVec 48) (100000 : Int) ((100000 : Int) +
      (wSentFrame : SentWire).edges.headD 0 / 8 : Int)) (0 : Lane) (wSentFrame : SentWire) = true) ∧
    (LineArrives wSent 0 (metLine wSent) ∧ probing (metLine wSent) (0 : Lane) = false ∧ sentSnap (metLine
      wSent) (0 : Lane) = ((8 : BitVec 48), (100000 : Int)) ∧ ((metLine wSent).seenAt (100000 : Int)) = (metLine
      wSent).seenAt (100000 : Int) ∧ busRuns ((metLine wSent).seenAt (100000 : Int)) (0 : Lane) .sent = true ∧
      awaits ((metLine wSent).seenAt (100000 : Int)) (0 : Lane) (sentSpc ((metLine wSent).seenAt (100000 : Int))
      (0 : Lane)) (8 : BitVec 48) = true ∧ (((metLine wSent).lane (0 : Lane)).readyAt : Int) ≤ ((100000 : Int) +
      (wTicks [56, 12] : SentWire).edges.headD 0 / 8 : Int) ∧ (metLine wSent).upd.pauseSpan = none ∧ ((metLine
      wSent).lane (0 : Lane)).leaveAt = none ∧ (busMeets (metLine wSent) (0 : Lane) (8 : BitVec 48) (100000 :
      Int) ((100000 : Int) + (wTicks [56, 12] : SentWire).edges.headD 0 / 8 : Int)) = busMeets (metLine wSent)
      (0 : Lane) (8 : BitVec 48) (100000 : Int) ((100000 : Int) + (wTicks [56, 12] : SentWire).edges.headD 0 / 8
      : Int) ∧ sentAccepts (busMeets (metLine wSent) (0 : Lane) (8 : BitVec 48) (100000 : Int) ((100000 : Int) +
      (wTicks [56, 12] : SentWire).edges.headD 0 / 8 : Int)) (0 : Lane) (wTicks [56, 12] : SentWire) = false) ∧
    (Arrives wSent 0 (met wSent) ∧ ((met wSent).lane (0 : Lane)).mode = .sent ∧ ((met wSent).lane (0 :
      Lane)).lstate = .run ∧ trigBusy (met wSent) (0 : Lane) = false ∧ ((met wSent).lane (0 : Lane)).stuck =
      false) ∧
    (Arrives s18a 0 (met s18a) ∧ ((met s18a).lane (0 : Lane)).mode = .sent ∧ ((met s18a).lane (0 :
      Lane)).lstate = .run ∧ ((met s18a).lane (0 : Lane)).lastEdge + 4000000 ≤ (met s18a).grid.now) ∧
    (Arrives wPsi5 0 (met wPsi5) ∧ laneSnap (met wPsi5) (0 : Lane) = ((8 : BitVec 48), (100000 : Int)) ∧ ((met
      wPsi5).seenAt (100000 : Int)) = (met wPsi5).seenAt (100000 : Int) ∧ busRuns ((met wPsi5).seenAt (100000 :
      Int)) (0 : Lane) .psi5 = true ∧ psi5Sync ((met wPsi5).seenAt (100000 : Int)) (0 : Lane) = true ∧ frameRuns
      ((met wPsi5).seenAt (100000 : Int)) (8 : BitVec 48) = true ∧ ((met wPsi5).lane (0 : Lane)).syncFrom ≤ (met
      wPsi5).grid.now ∧ (psi5Every ((met wPsi5).seenAt (100000 : Int)) (0 : Lane) = true ∨ ∃ p ∈ lanePositions
      ((met wPsi5).seenAt (100000 : Int)) (0 : Lane), epDue ((met wPsi5).seenAt (100000 : Int)) (epIdx (0 :
      Lane) p) (8 : BitVec 48) = true) ∧ trigSent ((met wPsi5).seenAt (100000 : Int)) (0 : Lane) (8 : BitVec 48)
      = false ∧ windowed ((met wPsi5).seenAt (100000 : Int)) (0 : Lane) (100000 : Int) = false) ∧
    (LineArrives wPulsed 0 (metLine wPulsed) ∧ psi5Snap (metLine wPulsed) (0 : Lane) = ((8 : BitVec 48),
      (100000 : Int)) ∧ ((metLine wPulsed).seenAt (100000 : Int)) = (metLine wPulsed).seenAt (100000 : Int) ∧
      busRuns ((metLine wPulsed).seenAt (100000 : Int)) (0 : Lane) .psi5 = true ∧ psi5Sync ((metLine
      wPulsed).seenAt (100000 : Int)) (0 : Lane) = true ∧ awaits ((metLine wPulsed).seenAt (100000 : Int)) (0 :
      Lane) true (8 : BitVec 48) = true ∧ slotEn ((metLine wPulsed).seenAt (100000 : Int)) (0 : Lane) (0 : Fin
      4) = true ∧ (((metLine wPulsed).lane (0 : Lane)).readyAt : Int) ≤ (100000 : Int) + (wPsi5Frame :
      Psi5Wire).stamp / 8 ∧ ((metLine wPulsed).lane (0 : Lane)).leaveAt = none ∧ (busMeets (metLine wPulsed) (0
      : Lane) (8 : BitVec 48) (100000 : Int) ((100000 : Int) + (wPsi5Frame : Psi5Wire).stamp / 8)) = busMeets
      (metLine wPulsed) (0 : Lane) (8 : BitVec 48) (100000 : Int) ((100000 : Int) + (wPsi5Frame :
      Psi5Wire).stamp / 8) ∧ psi5Accepts (busMeets (metLine wPulsed) (0 : Lane) (8 : BitVec 48) (100000 : Int)
      ((100000 : Int) + (wPsi5Frame : Psi5Wire).stamp / 8)) (0 : Lane) (0 : Fin 4) (8 : BitVec 48) (wPsi5Frame :
      Psi5Wire) = true) ∧
    (Arrives s18b 0 (met s18b) ∧ ((met s18b).lane (0 : Lane)).mode = .psi5 ∧ ((met s18b).lane (0 :
      Lane)).lstate = .run ∧ psi5Sync (met s18b) (0 : Lane) = false ∧ ((met s18b).lane (0 : Lane)).lastEdge +
      4000000 ≤ (met s18b).grid.now) :=
  ⟨⟨⟨rfl, rfl⟩, by decide +kernel⟩,
    ⟨⟨rfl, rfl⟩, by decide +kernel⟩,
    ⟨⟨rfl, rfl⟩, by decide +kernel⟩,
    ⟨⟨rfl, rfl⟩, by decide +kernel⟩,
    ⟨⟨rfl, rfl⟩, by decide +kernel⟩,
    ⟨⟨rfl, rfl⟩, by decide +kernel⟩,
    ⟨⟨rfl, rfl⟩, by decide +kernel⟩,
    ⟨⟨rfl, rfl⟩, by decide +kernel⟩⟩

def s19a : State :=
  (atTick 40000000 wAsleep).onLane 0 (fun l => { l with linWoke := some 0 })
def s19b : State :=
  wAsleep |> withMode (fun m => { m with dev := .sentinel, polls := [(0, 8)] })
def s19c : State :=
  wBus.onLane 0 (fun l => { l with linBreaks := 3 })
def s19d : State :=
  wBus.onLane 0 (fun l => { l with stuck := true })

/-- The hypotheses of the clauses of LinBusRuns. -/
theorem witness_lin_bus_runs :
    (LineArrives wBus 0 (metLine wBus) ∧ linSlotNow (metLine wBus) (0 : Lane) (1 : BitVec 6).toNat = some
      (600000 : Nat) ∧ ((metLine wBus).seenAt (600000 : Nat)) = (metLine wBus).seenAt (600000 : Nat) ∧ busRuns
      ((metLine wBus).seenAt (600000 : Nat)) (0 : Lane) .lin = true ∧ ((metLine wBus).lane (0 : Lane)).linRun =
      true ∧ ((metLine wBus).lane (0 : Lane)).stuck = false ∧ (1 : BitVec 6).toNat < 0x3C ∧ ((metLine wBus).lane
      (0 : Lane)).readyAt ≤ (600000 : Nat) ∧ (metLine wBus).upd.pauseSpan = none ∧ ((metLine wBus).lane (0 :
      Lane)).leaveAt = none ∧ freeSnap ((metLine wBus).seenAt (600000 : Nat)) (metLine wBus).grid.now = ((8 :
      BitVec 48), (1000000 : Int))) ∧
    (LineArrives wDiag 0 (metLine wDiag) ∧ pairNow (metLine wDiag) (0 : Lane) = some (600000 : Nat) ∧ busRuns
      ((metLine wDiag).seenAt (600000 : Nat)) (0 : Lane) .lin = true ∧ ((metLine wDiag).lane (0 : Lane)).linRun
      = true ∧ ((metLine wDiag).lane (0 : Lane)).stuck = false ∧ ((metLine wDiag).lane (0 : Lane)).acc.rstate =
      .pending ∧ ((metLine wDiag).lane (0 : Lane)).acc.op = 3 ∧ ((metLine wDiag).lane (0 : Lane)).acc.at_ ≤
      (600000 : Nat) ∧ (600000 : Nat) < ((metLine wDiag).lane (0 : Lane)).acc.at_ + 256 * period (metLine wDiag)
      ∧ (metLine wDiag).upd.pauseSpan = none ∧ ((metLine wDiag).lane (0 : Lane)).leaveAt = none) ∧
    (LineArrives wDiag 0 (metLine wDiag) ∧ pairNow (metLine wDiag) (0 : Lane) = some (600000 : Nat) ∧ busRuns
      ((metLine wDiag).seenAt (600000 : Nat)) (0 : Lane) .lin = true ∧ ((metLine wDiag).lane (0 : Lane)).linRun
      = true ∧ ((metLine wDiag).lane (0 : Lane)).stuck = false ∧ ((metLine wDiag).lane (0 : Lane)).acc.rstate =
      .pending ∧ ((metLine wDiag).lane (0 : Lane)).acc.op = 3 ∧ ((metLine wDiag).lane (0 : Lane)).acc.at_ ≤
      (600000 : Nat) ∧ (600000 : Nat) < ((metLine wDiag).lane (0 : Lane)).acc.at_ + 256 * period (metLine wDiag)
      ∧ (metLine wDiag).upd.pauseSpan = none ∧ ((metLine wDiag).lane (0 : Lane)).leaveAt = none) ∧
    (Arrives wAsleep 0 (met wAsleep) ∧ busRuns (met wAsleep) (0 : Lane) .lin = true ∧ ((met wAsleep).lane (0 :
      Lane)).linRun = false ∧ ((met wAsleep).lane (0 : Lane)).stuck = false ∧ ((met wAsleep).lane (0 :
      Lane)).linWoke = none ∧ (met wAsleep).mode.dev ≠ .sentinel) ∧
    ((s19a.lane (0 : Lane)).linWoke = some (0 : Nat) ∧ busRuns s19a (0 : Lane) .lin = true ∧ (0 : Nat) +
      40000000 ≤ s19a.grid.now ∧ s19a.grid.now = s19a.grid.tickAt) ∧
    (Arrives wAsleep 0 (met wAsleep) ∧ ((met wAsleep).lane (0 : Lane)).mode = .lin ∧ ((met wAsleep).lane (0 :
      Lane)).lstate = .run ∧ ((met wAsleep).lane (0 : Lane)).linRun = false ∧ 150 ≤ (150 : Nat) ∧ (150 : Nat) ≤
      5000) ∧
    (Arrives s19b 0 (met s19b) ∧ ((met s19b).lane (0 : Lane)).mode = .lin ∧ ((met s19b).lane (0 : Lane)).lstate
      = .run ∧ ((met s19b).lane (0 : Lane)).linRun = false ∧ 150 ≤ (5000 : Nat) ∧ (5000 : Nat) ≤ 5000 ∧ (met
      s19b).mode.dev = .sentinel ∧ (met s19b).mode.polls.any (fun x => x.1 == (0 : Lane).val) = true) ∧
    (Arrives s19c 0 (met s19c) ∧ ((met s19c).lane (0 : Lane)).mode = .lin ∧ ((met s19c).lane (0 : Lane)).lstate
      = .run ∧ ((met s19c).lane (0 : Lane)).stuck = false ∧ ((true : Bool) = true → 3 ≤ ((met s19c).lane (0 :
      Lane)).linBreaks)) ∧
    (Arrives wBus 0 (met wBus) ∧ ((met wBus).lane (0 : Lane)).mode = .lin ∧ ((met wBus).lane (0 : Lane)).lstate
      = .run ∧ ((met wBus).lane (0 : Lane)).stuck = false ∧ ((false : Bool) = true → 3 ≤ ((met wBus).lane (0 :
      Lane)).linBreaks)) ∧
    (Arrives s19d 0 (met s19d) ∧ ((met s19d).lane (0 : Lane)).mode = .lin ∧ ((met s19d).lane (0 : Lane)).stuck
      = true) :=
  ⟨⟨⟨rfl, rfl⟩, by decide +kernel⟩,
    ⟨⟨rfl, rfl⟩, by decide +kernel⟩,
    ⟨⟨rfl, rfl⟩, by decide +kernel⟩,
    ⟨⟨rfl, rfl⟩, by decide +kernel⟩,
    by decide +kernel,
    ⟨⟨rfl, rfl⟩, by decide +kernel⟩,
    ⟨⟨rfl, rfl⟩, by decide +kernel⟩,
    ⟨⟨rfl, rfl⟩, by decide +kernel⟩,
    ⟨⟨rfl, rfl⟩, by decide +kernel⟩,
    ⟨⟨rfl, rfl⟩, by decide +kernel⟩⟩

def s20a : State :=
  withRegion 0 { bankA := { snap := 8, at_ := 100000 } } (withGrid (fun g =>
    { g with tick := 15, tickAt := 450000, now := 492000 }) wRun)
def s20b : State :=
  withRegion 0 { bankA := { snap := 8, at_ := 100000 } } (withGrid (fun g =>
    { g with tick := 15, tickAt := 450000, now := 499000 }) { wRun with asm_ := { stopped := none } })
def s20c : State :=
  withRegion 0
    { bankB := { closedAt := some 99600, pkts := [{ lane := 0, tag := 8, inst := 100000, cond := .none, base := 0, entries := [] }] } }
    (withWords [(0x04C3C0, 0x00020001)] wRun)

/-- The hypotheses of the clauses of BanksSwapAndDrain. -/
theorem witness_banks_swap_and_drain :
    (Arrives s20a 0 (met s20a) ∧ cutoffDue (met s20a) = true ∧ built (met s20a) (met s20a).grid.gridNum = false) ∧
    (Arrives s20b 0 (met s20b) ∧ cutoffDue (met s20b) = true ∧ built (met s20b) (met s20b).grid.gridNum = true) ∧
    (Arrives s20c 0 (met s20c) ∧ ((met s20c).region (0 : Region)).closed.closedAt = some (99600 : Nat) ∧ ((met
      s20c).region (0 : Region)).closed.pkts ≠ [] ∧ 2 ≤ fld ((met s20c).inForce (aRegion (0 : Region) 0x3C0)) 17
      16 ∧ (99600 : Nat) + 400 * ranged 1 4095 (fld ((met s20c).inForce (aRegion (0 : Region) 0x3C0)) 11 0) ≤
      (met s20c).grid.now) ∧
    (Arrives wRun 0 (met wRun)) ∧
    (Arrives wRun 0 (met wRun)) :=
  ⟨⟨⟨rfl, rfl⟩, by decide +kernel⟩,
    ⟨⟨rfl, rfl⟩, by decide +kernel⟩,
    ⟨⟨rfl, rfl⟩, by decide +kernel⟩,
    ⟨rfl, rfl⟩,
    ⟨rfl, rfl⟩⟩

def s21a : State :=
  withMode (fun m => { m with dev := .sow })
    { wLane with asm_ := { build := [{ num := 8, at_ := 100000, pexp := 3, flags := 0, lostRegions := [], lostLanes := [] }] } }

/-- The hypotheses of the clauses of SnapshotsComplete. -/
theorem witness_snapshots_complete :
    Arrives s21a 0 (met s21a) ∧ (met s21a).asm_.build =
    ({ num := 8, at_ := 100000, pexp := 3, flags := 0, lostRegions := [], lostLanes := [] } : Build) :: ([] :
    List Build) :=
  ⟨⟨rfl, rfl⟩, by decide +kernel⟩

def s22a : State :=
  wRun.setStream 31 { key := some { key := [1], id := 1, gen := 0, actSnap := 0 }, segUsed := 939524096 }
def s22b : State :=
  withWords [(0x062800, 0x80000000)] { wRun with ul0 := { up := true, pdelay := some 1 } }
def s22c : State :=
  { wRun with ul1 := { up := true, pdelay := some 1 } }
def s22d : State :=
  withWords [(0x062800, 0x40000000)] wRun
def s22e : State :=
  (withWords [(0x062800, 0x52000000)] { atTick 400000000 wRun with ul0 := { up := true } }).setStream 0
    { moved := true }
def s22f : State :=
  { wRun with ul1 := { up := true } }

/-- The hypotheses of the clauses of UplinksGoDownAndUp. -/
theorem witness_uplinks_go_down_and_up :
    ((s22a.stream (31 : Fin 32)).key ≠ none ∧ keyAtWarn (s22a.stream (31 : Fin 32)).segUsed (s22a.stream (31 :
      Fin 32)).keyTicks = true ∧ (s22a.stream (31 : Fin 32)).warned = false) ∧
    (Arrives s22b 0 (met s22b) ∧ ((met s22b).uplink (.ul0 : Ul)).up = true ∧ ((.autoNeg : DownCause) = .autoNeg
      → pmode (met s22b) (.ul0 : Ul) = 2)) ∧
    (Arrives s22c 0 (met s22c) ∧ ((met s22c).uplink (.ul1 : Ul)).up = true ∧ ((.syncLost : DownCause) =
      .autoNeg → pmode (met s22c) (.ul1 : Ul) = 2)) ∧
    (Arrives s22d 0 (met s22d) ∧ ((met s22d).uplink (.ul0 : Ul)).up = false ∧ ((met s22d).uplink (.ul0 :
      Ul)).parked = false ∧ pmode (met s22d) (.ul0 : Ul) ≠ 0) ∧
    ((s22e.stream (0 : Fin 32)).moved = true ∧ redund s22e ≠ 0 ∧ (s22e.uplink (ownPort s22e (0 : Fin 32))).up =
      true ∧ revertBit s22e (ownPort s22e (0 : Fin 32)) = true ∧ (s22e.uplink (ownPort s22e (0 : Fin 32))).upAt
      + second ≤ s22e.grid.now ∧ s22e.grid.now = s22e.grid.gridAt) ∧
    (Arrives s22f 0 (met s22f) ∧ ((met s22f).uplink (.ul1 : Ul)).up = true ∧ frameWhole (wEther [0x88, 0x08, 0,
      1] : List Byte) = true ∧ frameNat (wEther [0x88, 0x08, 0, 1] : List Byte) 12 2 = 0x8808 ∧ frameNat (wEther
      [0x88, 0x08, 0, 1] : List Byte) 14 2 = 1) ∧
    (Arrives s22f 0 (met s22f) ∧ ((met s22f).uplink (.ul1 : Ul)).up = true ∧ (frameWhole (wEther [0x08, 0x00,
      0, 1] : List Byte) = false ∨ (frameNat (wEther [0x08, 0x00, 0, 1] : List Byte) 12 2 ≠ 0x88F7 ∨ frameNat
      (wEther [0x08, 0x00, 0, 1] : List Byte) 0 6 ≠ 0x0180C200000E) ∧ (frameNat (wEther [0x08, 0x00, 0, 1] :
      List Byte) 12 2 ≠ 0x8808 ∨ frameNat (wEther [0x08, 0x00, 0, 1] : List Byte) 14 2 ≠ 1))) ∧
    (Arrives s22f 0 (met s22f) ∧ ((met s22f).uplink (.ul1 : Ul)).up = true ∧ (frameWhole ([] : List Byte) =
      false ∨ (frameNat ([] : List Byte) 12 2 ≠ 0x88F7 ∨ frameNat ([] : List Byte) 0 6 ≠ 0x0180C200000E) ∧
      (frameNat ([] : List Byte) 12 2 ≠ 0x8808 ∨ frameNat ([] : List Byte) 14 2 ≠ 1))) :=
  ⟨by decide +kernel,
    ⟨⟨rfl, rfl⟩, by decide +kernel⟩,
    ⟨⟨rfl, rfl⟩, by decide +kernel⟩,
    ⟨⟨rfl, rfl⟩, by decide +kernel⟩,
    by decide +kernel,
    ⟨⟨rfl, rfl⟩, by decide +kernel⟩,
    ⟨⟨rfl, rfl⟩, by decide +kernel⟩,
    ⟨⟨rfl, rfl⟩, by decide +kernel⟩⟩

def s23a : State :=
  withMode (fun m => { m with wakeOut := true }) (atTick 4000000 wRun)
def s23b : State :=
  (withWords [(0x0502F0, 0x81000000)] wRun).setChan 31 { held := some wEvent }
def s23c : State :=
  { withWords [(0x050100, 0x83000000)] wRun with cap := { cstate := .copying } }.setChan 0 { held := some wEvent }
def s23d : State :=
  withRegion 0 { deferTo := 100000 } wRun

/-- The hypotheses of the clauses of RouterDeliversLater. -/
theorem witness_router_delivers_later :
    (Arrives s23a 0 (met s23a) ∧ (met s23a).mode.dev = .run ∧ (met s23a).mode.wakeAt + 4000000 ≤ (met
      s23a).grid.now) ∧
    (Arrives s23b 0 (met s23b) ∧ ((met s23b).chan (31 : Fin 32)).held = some (wEvent : Event) ∧ consumerBusy
      (met s23b) (31 : Fin 32) = false ∧ earlierHeld (met s23b) (31 : Fin 32) = false) ∧
    (Arrives s23c 0 (met s23c) ∧ ((met s23c).chan (0 : Fin 32)).held = some (wEvent : Event) ∧ (consumerBusy
      (met s23c) (0 : Fin 32) = true ∨ earlierHeld (met s23c) (0 : Fin 32) = true)) ∧
    (Arrives s23d 0 (met s23d) ∧ ((met s23d).region (0 : Region)).deferTo ≤ (met s23d).grid.now) :=
  ⟨⟨⟨rfl, rfl⟩, by decide +kernel⟩,
    ⟨⟨rfl, rfl⟩, by decide +kernel⟩,
    ⟨⟨rfl, rfl⟩, by decide +kernel⟩,
    ⟨⟨rfl, rfl⟩, by decide +kernel⟩⟩

def s24a : State :=
  withPort .h (fun x => { x with glb := { bits := 0x800000, seq := 9 } }) wRun

/-- The hypotheses of the clauses of OrdinaryFramesAnswer. -/
theorem witness_ordinary_frames_answer :
    (Arrives s24a 0 (met s24a) ∧ layoutIs (.h : Port) (0x00 : Byte) 0 = true ∧ busyNow (met s24a) (false :
      Bool) = false ∧ portCrc (headBytes (0x00 : Byte) (0x010 : BitVec 16)) = (portCrc (headBytes 0x00 0x010) :
      Byte) ∧ badCmd (.h : Port) (0x00 : Byte) = false ∧ badAddr (0x010 : BitVec 16) = false ∧ dirReads (.h :
      Port) (0x010 : BitVec 16).toNat = true ∧ (0x010 : BitVec 16) ≠ 0x044 ∧ (takeHeader (csnRise (met s24a) (.h
      : Port)) (.h : Port) .ok) = takeHeader (csnRise (met s24a) (.h : Port)) (.h : Port) .ok) ∧
    (Arrives wRun 0 (met wRun) ∧ layoutIs (.u : Port) (0x00 : Byte) 0 = true ∧ busyNow (met wRun) (true : Bool)
      = false ∧ portCrc (headBytes (0x00 : Byte) (0x104 : BitVec 16)) = (portCrc (headBytes 0x00 0x104) : Byte)
      ∧ badCmd (.u : Port) (0x00 : Byte) = false ∧ badAddr (0x104 : BitVec 16) = false ∧ dirReads (.u : Port)
      (0x104 : BitVec 16).toNat = true ∧ (0x104 : BitVec 16) ≠ 0x044 ∧ (takeHeader (csnRise (met wRun) (.u :
      Port)) (.u : Port) .ok) = takeHeader (csnRise (met wRun) (.u : Port)) (.u : Port) .ok) ∧
    (Arrives wRun 0 (met wRun) ∧ layoutIs (.h : Port) (0x00 : Byte) 0 = true ∧ busyNow (met wRun) (false :
      Bool) = false ∧ portCrc (headBytes (0x00 : Byte) (0x010 : BitVec 16)) ≠ (0xFF : Byte)) ∧
    (Arrives wRun 0 (met wRun) ∧ layoutIs (.u : Port) (0x20 : Byte) 1 = true ∧ busyNow (met wRun) (false :
      Bool) = false ∧ portCrc (headBytes (0x20 : Byte) (0x040 : BitVec 16) ++ beBytes 4 (0x00FFFFFC :
      Word).toNat) = (portCrc (headBytes 0x20 0x040 ++ beBytes 4 0x00FFFFFC) : Byte) ∧ badCmd (.u : Port) (0x20
      : Byte) = false ∧ (0x040 : BitVec 16) = 0x040 ∧ (met wRun).mode.dev ≠ .off) ∧
    (Arrives wRun 0 (met wRun) ∧ layoutIs (.m : Port) (0x20 : Byte) 1 = true ∧ busyNow (met wRun) (false :
      Bool) = false ∧ portCrc (headBytes (0x20 : Byte) (0x014 : BitVec 16) ++ beBytes 4 (0xFFFFFFFF :
      Word).toNat) = (portCrc (headBytes 0x20 0x014 ++ beBytes 4 0xFFFFFFFF) : Byte) ∧ badCmd (.m : Port) (0x20
      : Byte) = false ∧ (0x014 : BitVec 16) = 0x014 ∧ (.m : Port) ≠ .u ∧ (met wRun).mode.dev ≠ .off) ∧
    (Arrives wRun 0 (met wRun)) ∧
    (Arrives s24a 0 (met s24a) ∧ ((.read 0x00 0x010 0 : Partial) = .read (0x00 : Byte) (0x010 : BitVec 16) (0 :
      Byte) ∨ (.read 0x00 0x010 0 : Partial) = .write (some ((0x00 : Byte), (0x010 : BitVec 16), (0 : Word), (0
      : Byte))))) :=
  ⟨⟨⟨rfl, rfl⟩, by decide +kernel⟩,
    ⟨⟨rfl, rfl⟩, by decide +kernel⟩,
    ⟨⟨rfl, rfl⟩, by decide +kernel⟩,
    ⟨⟨rfl, rfl⟩, by decide +kernel⟩,
    ⟨⟨rfl, rfl⟩, by decide +kernel⟩,
    ⟨rfl, rfl⟩,
    ⟨⟨rfl, rfl⟩, by decide +kernel⟩⟩

def s25a : State :=
  withPort .h (fun x => { x with indAddr := 0xFFFFFC }) wRun
def s25b : State :=
  withPort .u (fun x => { x with indAddr := 0x03FFFC }) wRun
def s25c : State :=
  withPort .h (fun x => { x with indAddr := 0x03FFE4 }) wRun
def s25d : State :=
  withPort .h (fun x => { x with indAddr := 0x000004 }) wRun
def s25e : State :=
  withPort .h (fun x => { x with evq := [wItem, wItem] }) wRun
def s25f : State :=
  withPort .m (fun x => { x with stall := 0 }) wRun
def s25g : State :=
  withPort .h (fun x => { x with lastItem := some wItem }) wRun
def s25h : State :=
  withPort .h (fun x => { x with evq := [wItem] }) wRun

/-- The hypotheses of the clauses of BurstsAndStallReads. -/
theorem witness_bursts_and_stall_reads :
    (Arrives s25a 0 (met s25a) ∧ layoutIs (.h : Port) (0x40 : Byte) 2 = true ∧ busyNow (met s25a) (false :
      Bool) = false ∧ portCrc (headBytes (0x40 : Byte) 0x044) = (portCrc (headBytes 0x40 0x044) : Byte) ∧ badCmd
      (.h : Port) (0x40 : Byte) = false) ∧
    (Arrives s25b 0 (met s25b) ∧ layoutIs (.u : Port) (0x40 : Byte) 2 = true ∧ busyNow (met s25b) (false :
      Bool) = false ∧ portCrc (headBytes (0x40 : Byte) 0x044) = (portCrc (headBytes 0x40 0x044) : Byte) ∧ badCmd
      (.u : Port) (0x40 : Byte) = false) ∧
    (Arrives s25c 0 (met s25c) ∧ layoutIs (.h : Port) (0x60 : Byte) 3 = true ∧ busyNow (met s25c) (false :
      Bool) = false ∧ portCrc (headBytes (0x60 : Byte) 0x044) = (portCrc (headBytes 0x60 0x044) : Byte) ∧ badCmd
      (.h : Port) (0x60 : Byte) = false ∧ (.h : Port) ≠ .u ∧ (met s25c).mode.dev ≠ .off ∧ (0x03FFE4 : Nat) =
      indAt (met s25c) (.h : Port) ∧ (0x03FFE4 : Nat) < 0x040000 ∧ (0x03FFE4 : Nat) % 32 = 4) ∧
    (Arrives s25d 0 (met s25d) ∧ layoutIs (.h : Port) (0x60 : Byte) 3 = true ∧ busyNow (met s25d) (false :
      Bool) = false ∧ portCrc (headBytes (0x60 : Byte) 0x044) = (portCrc (headBytes 0x60 0x044) : Byte) ∧ badCmd
      (.h : Port) (0x60 : Byte) = false ∧ (.h : Port) ≠ .u ∧ (met s25d).mode.dev ≠ .off ∧ (4 : Nat) = indAt (met
      s25d) (.h : Port) ∧ (4 : Nat) < 0x040000 ∧ (4 : Nat) % 32 = 4 ∧ (wordCrc 4 0 + 1) ≠ wordCrc (4 : Nat) (0 :
      Word)) ∧
    (Arrives s25e 0 (met s25e) ∧ layoutIs (.h : Port) (0x80 : Byte) 4 = true ∧ busyNow (met s25e) (false :
      Bool) = false ∧ portCrc (headBytes (0x80 : Byte) 0x0E4) = (portCrc (headBytes 0x80 0x0E4) : Byte) ∧ badCmd
      (.h : Port) (0x80 : Byte) = false ∧ (0x80 : Byte).toNat % 2 = 0 ∧ ((met s25e).port (.h : Port)).evq =
      (wItem) :: ([wItem])) ∧
    (Arrives s25f 0 (met s25f) ∧ layoutIs (.m : Port) (0x80 : Byte) 4 = true ∧ busyNow (met s25f) (false :
      Bool) = false ∧ portCrc (headBytes (0x80 : Byte) 0x0E4) = (portCrc (headBytes 0x80 0x0E4) : Byte) ∧ badCmd
      (.m : Port) (0x80 : Byte) = false ∧ (0x80 : Byte).toNat % 2 = 0 ∧ ((met s25f).port (.m : Port)).evq = []) ∧
    (Arrives s25g 0 (met s25g) ∧ layoutIs (.h : Port) (0x81 : Byte) 4 = true ∧ busyNow (met s25g) (false :
      Bool) = false ∧ portCrc (headBytes (0x81 : Byte) 0x0E4) = (portCrc (headBytes 0x81 0x0E4) : Byte) ∧ badCmd
      (.h : Port) (0x81 : Byte) = false ∧ (0x81 : Byte).toNat % 2 = 1) ∧
    (Arrives s25h 0 (met s25h)) :=
  ⟨⟨⟨rfl, rfl⟩, by decide +kernel⟩,
    ⟨⟨rfl, rfl⟩, by decide +kernel⟩,
    ⟨⟨rfl, rfl⟩, by decide +kernel⟩,
    ⟨⟨rfl, rfl⟩, by decide +kernel⟩,
    ⟨⟨rfl, rfl⟩, by decide +kernel⟩,
    ⟨⟨rfl, rfl⟩, by decide +kernel⟩,
    ⟨⟨rfl, rfl⟩, by decide +kernel⟩,
    ⟨rfl, rfl⟩⟩

def s26a : State :=
  withPort .h (fun x => { x with indAddr := 0x000010 }) wOpened

/-- The hypotheses of the clauses of SecureFramesPass. -/
theorem witness_secure_frames_pass :
    (Arrives wOpened 0 (met wOpened) ∧ layoutIs (.h : Port) (0xA0 : Byte) 5 = true ∧ busyNow (met wOpened)
      (false : Bool) = false ∧ portCrc (headBytes (0xA0 : Byte) 0x028 ++ beBytes 4 (0x3F : Word).toNat ++
      beBytes 4 (5 : Word).toNat ++ beBytes 8 (wTag 0xA0 0x028 1 5 [0x3F] : BitVec 64).toNat) = (portCrc
      (headBytes 0xA0 0x028 ++ beBytes 4 0x3F ++ beBytes 4 5 ++ beBytes 8 (wTag 0xA0 0x028 1 5 [0x3F]).toNat) :
      Byte) ∧ badCmd (.h : Port) (0xA0 : Byte) = false ∧ (.h : Port) ≠ .u ∧ (met wOpened).mode.dev ≠ .off ∧
      ((met wOpened).port (.h : Port)).sess = .opened ∧ ((met wOpened).port (.h : Port)).lastCtr.toNat < (5 :
      Word).toNat ∧ (5 : Word) ≠ 0xFFFFFFFF ∧ frameTag ((met wOpened).port (.h : Port)) (.h : Port) (0xA0 :
      Byte) 0x028 1 (5 : Word) [(0x3F : Word)] = beBytes 8 (wTag 0xA0 0x028 1 5 [0x3F] : BitVec 64).toNat) ∧
    (Arrives wOpened 0 (met wOpened) ∧ layoutIs (.h : Port) (0xA0 : Byte) 5 = true ∧ busyNow (met wOpened)
      (false : Bool) = false ∧ portCrc (headBytes (0xA0 : Byte) 0x028 ++ beBytes 4 (0x3F : Word).toNat ++
      beBytes 4 (4 : Word).toNat ++ beBytes 8 (0 : BitVec 64).toNat) = (portCrc (headBytes 0xA0 0x028 ++ beBytes
      4 0x3F ++ beBytes 4 4 ++ beBytes 8 0) : Byte) ∧ badCmd (.h : Port) (0xA0 : Byte) = false ∧ ((met
      wOpened).port (.h : Port)).sess = .opened ∧ (4 : Word).toNat ≤ ((met wOpened).port (.h :
      Port)).lastCtr.toNat ∧ (recent (met wOpened).grid.now second (met wOpened).alarm.joint).length < 7) ∧
    (Arrives s26a 0 (met s26a) ∧ layoutIs (.h : Port) (0xC0 : Byte) 6 = true ∧ busyNow (met s26a) (false :
      Bool) = false ∧ portCrc (headBytes (0xC0 : Byte) 0x044 ++ [2] ++ beBytes 4 (5 : Word).toNat) = (portCrc
      (headBytes 0xC0 0x044 ++ [2] ++ beBytes 4 5) : Byte) ∧ badCmd (.h : Port) (0xC0 : Byte) = false ∧ (.h :
      Port) ≠ .u ∧ (met s26a).mode.dev ≠ .off ∧ ((met s26a).port (.h : Port)).sess = .opened ∧ ((met s26a).port
      (.h : Port)).lastCtr.toNat < (5 : Word).toNat ∧ (5 : Word) ≠ 0xFFFFFFFF ∧ (0x10 : Nat) = indAt (met s26a)
      (.h : Port) ∧ (0x10 : Nat) < 0x040000 ∧ (0x10 : Nat) % 32 = 0x10 ∧ ([{ data := 1, crc := wordCrc 0x10 1 },
      { data := 2, crc := wordCrc 0x14 2 }] : List CrcWord) =
      [{ data := (1 : Word), crc := wordCrc (0x10 : Nat) (1 : Word) },
      { data := (2 : Word), crc := wordCrc ((0x10 : Nat) + 4) (2 : Word) }] ∧ frameTag ((met s26a).port (.h :
      Port)) (.h : Port) (0xC0 : Byte) 0x044 2 (5 : Word) [(1 : Word), (2 : Word)] = beBytes 8 (wTag 0xC0 0x044
      2 5 [1, 2] : BitVec 64).toNat ∧ portCrc (beBytes 8 (wTag 0xC0 0x044 2 5 [1, 2] : BitVec 64).toNat) =
      (portCrc (beBytes 8 (wTag 0xC0 0x044 2 5 [1, 2]).toNat) : Byte)) :=
  ⟨⟨⟨rfl, rfl⟩, by decide +kernel⟩,
    ⟨⟨rfl, rfl⟩, by decide +kernel⟩,
    ⟨⟨rfl, rfl⟩, by decide +kernel⟩⟩

def s27a : State :=
  wRun.setStaged .h 4 5

/-- The hypotheses of the clauses of HostWritesAct. -/
theorem witness_host_writes_act :
    (FrameArrives s24a 0 (.h : Port) (metBy .h s24a) ∧ (.h : Port) ≠ .u ∧ (0x010 : BitVec 9).toNat % 4 = 0 ∧
      (0x010 : BitVec 9) ≠ 0x00C ∧ sqReg ((metBy .h s24a).port (.h : Port)) (0x010 : BitVec 9).toNat = some
      ({ bits := 0x800000, seq := 9 } : SqReg) ∧ BitVec.ofNat 8 (fld (0x09FFFFFF : Word) 31 24) =
      ({ bits := 0x800000, seq := 9 } : SqReg).seq) ∧
    (FrameArrives s24a 0 (.h : Port) (metBy .h s24a) ∧ (.h : Port) ≠ .u ∧ (0x010 : BitVec 9).toNat % 4 = 0 ∧
      (0x010 : BitVec 9) ≠ 0x00C ∧ sqReg ((metBy .h s24a).port (.h : Port)) (0x010 : BitVec 9).toNat = some
      ({ bits := 0x800000, seq := 9 } : SqReg) ∧ BitVec.ofNat 8 (fld (0x08FFFFFF : Word) 31 24) ≠
      ({ bits := 0x800000, seq := 9 } : SqReg).seq) ∧
    (FrameArrives wRun 0 (.m : Port) (metBy .m wRun) ∧ (.m : Port) ≠ .u ∧ (metBy .m wRun).mode.dev ≠ .off ∧
      (0x03FFE4 : BitVec 24).toNat < 0x040000 ∧ (0x03FFE4 : BitVec 24).toNat % 32 = 4) ∧
    (FrameArrives wRun 0 (.h : Port) (metBy .h wRun) ∧ (.h : Port) ≠ .u) ∧
    (FrameArrives wRun 0 (.h : Port) (metBy .h wRun) ∧ (.h : Port) ≠ .u ∧ (metBy .h wRun).mode.dev ≠ .off ∧
      (0xFFFF) ≠ 0 ∧ commitState (metBy .h wRun) = true) ∧
    (FrameArrives wOpened 0 (.h : Port) (metBy .h wOpened) ∧ (.h : Port) ≠ .u ∧ (metBy .h wOpened).mode.dev ≠
      .off ∧ ((metBy .h wOpened).port (.h : Port)).sess = .opened) ∧
    (FrameArrives wRun 0 (.h : Port) (metBy .h wRun) ∧ (.h : Port) ≠ .u ∧ (metBy .h wRun).mode.dev ≠ .off ∧
      (metBy .h wRun).cap.req = none) ∧
    (FrameArrives wRun 0 (.h : Port) (metBy .h wRun) ∧ (.h : Port) ≠ .u ∧ (metBy .h wRun).mode.dev ≠ .off) ∧
    (FrameArrives s25h 0 (.h : Port) (metBy .h s25h) ∧ (.h : Port) ≠ .u ∧ (metBy .h s25h).mode.dev ≠ .off) ∧
    (FrameArrives wRun 0 (.h : Port) (metBy .h wRun) ∧ (.h : Port) ≠ .u ∧ (metBy .h wRun).mode.dev ≠ .off ∧
      (metBy .h wRun).upd.migrating = false ∧ (metBy .h wRun).mode.dev = .run ∧ (metBy .h wRun).mode.savedAt =
      none) ∧
    (FrameArrives s27a 0 (.h : Port) (metBy .h s27a) ∧ (.h : Port) ≠ .u ∧ (metBy .h s27a).mode.dev ≠ .off) :=
  ⟨⟨⟨rfl, by decide +kernel, rfl⟩, by decide +kernel⟩,
    ⟨⟨rfl, by decide +kernel, rfl⟩, by decide +kernel⟩,
    ⟨⟨rfl, by decide +kernel, rfl⟩, by decide +kernel⟩,
    ⟨⟨rfl, by decide +kernel, rfl⟩, by decide +kernel⟩,
    ⟨⟨rfl, by decide +kernel, rfl⟩, by decide +kernel⟩,
    ⟨⟨rfl, by decide +kernel, rfl⟩, by decide +kernel⟩,
    ⟨⟨rfl, by decide +kernel, rfl⟩, by decide +kernel⟩,
    ⟨⟨rfl, by decide +kernel, rfl⟩, by decide +kernel⟩,
    ⟨⟨rfl, by decide +kernel, rfl⟩, by decide +kernel⟩,
    ⟨⟨rfl, by decide +kernel, rfl⟩, by decide +kernel⟩,
    ⟨⟨rfl, by decide +kernel, rfl⟩, by decide +kernel⟩⟩

def s28a : State :=
  wBus.onLane 0 (fun l => { l with acc := { data0 := 0x01000000 } })
def s28b : State :=
  wAcc 0 |> atTick 102400000

/-- The hypotheses of the clauses of EndpointRequestsBegin. -/
theorem witness_endpoint_requests_begin :
    (FrameArrives wLane 0 (.h : Port) (metBy .h wLane) ∧ (.h : Port) ≠ .u ∧ (metBy .h wLane).mode.dev ≠ .off ∧
      ((metBy .h wLane).lane (0 : Lane)).acc.rstate ≠ .pending ∧ ((.goRead 0 .h 0 0 0x20 : Instr) = .goRead 0
      (.h : Port) (0 : Lane) (0 : Pos) (0x20 : Byte) ∧ (0 : BitVec 3) = 0 ∨ (.goRead 0 .h 0 0 0x20 : Instr) =
      .goWrite 0 (.h : Port) (0 : Lane) (0 : Pos) (0x20 : Byte) ∧ (0 : BitVec 3) = 1 ∨ (.goRead 0 .h 0 0 0x20 :
      Instr) = .goIdent 0 (.h : Port) (0 : Lane) (0 : Pos) ∧ (0 : BitVec 3) = 2 ∧ (0x20 : Byte) = 0)) ∧
    (FrameArrives wRun 0 (.m : Port) (metBy .m wRun) ∧ (.m : Port) ≠ .u ∧ (metBy .m wRun).mode.dev ≠ .off ∧
      ((metBy .m wRun).lane (511 : Lane)).acc.rstate ≠ .pending ∧ ((.goIdent 0 .m 511 15 : Instr) = .goRead 0
      (.m : Port) (511 : Lane) (15 : Pos) (0 : Byte) ∧ (2 : BitVec 3) = 0 ∨ (.goIdent 0 .m 511 15 : Instr) =
      .goWrite 0 (.m : Port) (511 : Lane) (15 : Pos) (0 : Byte) ∧ (2 : BitVec 3) = 1 ∨ (.goIdent 0 .m 511 15 :
      Instr) = .goIdent 0 (.m : Port) (511 : Lane) (15 : Pos) ∧ (2 : BitVec 3) = 2 ∧ (0 : Byte) = 0)) ∧
    (FrameArrives s28a 0 (.h : Port) (metBy .h s28a) ∧ (.h : Port) ≠ .u ∧ (metBy .h s28a).mode.dev ≠ .off ∧
      ((metBy .h s28a).lane (0 : Lane)).acc.rstate ≠ .pending) ∧
    ((s28b.lane (0 : Lane)).acc.rstate = .pending ∧ (s28b.lane (0 : Lane)).acc.begun = false ∧ diagBegun s28b
      (0 : Lane) = false ∧ (s28b.lane (0 : Lane)).acc.at_ + 256 * period s28b ≤ s28b.grid.now) :=
  ⟨⟨⟨rfl, by decide +kernel, rfl⟩, by decide +kernel⟩,
    ⟨⟨rfl, by decide +kernel, rfl⟩, by decide +kernel⟩,
    ⟨⟨rfl, by decide +kernel, rfl⟩, by decide +kernel⟩,
    by decide +kernel⟩

def s29a : State :=
  { wAsked with commits := [wCommit] }

/-- The hypotheses of the clauses of CommitsAreTaken. -/
theorem witness_commits_are_taken :
    (s29a.grid.on = true ∧ s29a.grid.now = s29a.grid.tickAt ∧
      ([{ port := .h, groups := 0x0400, due := 100000 }] : List CommitReq) = s29a.creqs.filter (fun y => decide
      (y.due ≤ s29a.grid.now)) ∧ ([{ port := .h, groups := 0x0400, due := 100000 }] : List CommitReq) ≠ [] ∧
      s29a.mode.restarting = false ∧ ({ wRun with commits := [wCommit] }) =
      { s29a with creqs := s29a.creqs.filter (fun y => decide (s29a.grid.now < y.due)) } ∧ (0x0400 : BitVec 16)
      = dueGroups ([{ port := .h, groups := 0x0400, due := 100000 }] : List CommitReq) .h ∧ (0 : BitVec 16) =
      dueGroups ([{ port := .h, groups := 0x0400, due := 100000 }] : List CommitReq) .m ∧ ([] : List (Nat ×
      Word)) = commitDiff ({ wRun with commits := [wCommit] }) (0x0400 : BitVec 16) (0 : BitVec 16) ∧ ([] : List
      (Nat × Word)) = (if ((0x0400 : BitVec 16) ||| (0 : BitVec 16)).getLsbD 14 then commitLoads
      ({ wRun with commits := [wCommit] }) (candidate ({ wRun with commits := [wCommit] })
      ({ wRun with commits := [wCommit] }).commits ([] : List (Nat × Word))) (0x0400 : BitVec 16) (0 : BitVec
      16) else []) ∧ commitCheck { ({ wRun with commits := [wCommit] }) with cseq := s29a.cseq + 1 } ((0x0400 :
      BitVec 16) ||| (0 : BitVec 16)) (0x0400 : BitVec 16) (0 : BitVec 16) ([] : List (Nat × Word)) ([] : List
      (Nat × Word)) = some ((5, 10)) ∧ ((5, 10)).1 ≠ 0x0E) ∧
    (wAsked.grid.on = true ∧ wAsked.grid.now = wAsked.grid.tickAt ∧
      ([{ port := .h, groups := 0x0400, due := 100000 }] : List CommitReq) = wAsked.creqs.filter (fun r =>
      decide (r.due ≤ wAsked.grid.now)) ∧ ([{ port := .h, groups := 0x0400, due := 100000 }] : List CommitReq) ≠
      [] ∧ wAsked.mode.restarting = false ∧ wRun =
      { wAsked with creqs := wAsked.creqs.filter (fun r => decide (wAsked.grid.now < r.due)) } ∧ (0x0400 :
      BitVec 16) = dueGroups ([{ port := .h, groups := 0x0400, due := 100000 }] : List CommitReq) .h ∧ (0 :
      BitVec 16) = dueGroups ([{ port := .h, groups := 0x0400, due := 100000 }] : List CommitReq) .m ∧ ([] :
      List (Nat × Word)) = commitDiff wRun (0x0400 : BitVec 16) (0 : BitVec 16) ∧ ([] : List (Nat × Word)) = (if
      ((0x0400 : BitVec 16) ||| (0 : BitVec 16)).getLsbD 14 then commitLoads wRun (candidate wRun wRun.commits
      ([] : List (Nat × Word))) (0x0400 : BitVec 16) (0 : BitVec 16) else []) ∧ commitCheck
      { wRun with cseq := wAsked.cseq + 1 } ((0x0400 : BitVec 16) ||| (0 : BitVec 16)) (0x0400 : BitVec 16) (0 :
      BitVec 16) ([] : List (Nat × Word)) ([] : List (Nat × Word)) = none) :=
  ⟨by decide +kernel,
    by decide +kernel⟩

def s30a : State :=
  { wRun with commits := [wSowing] }
def s30b : State :=
  withWords [(0, 0x20FA0000), (0x040000, 0x40000000)] { wRun with commits := [wSowing] }
def s30c : State :=
  { wRun with commits := [wCommit, wSowing] }

/-- The hypotheses of the clauses of CommitsTakeEffect. -/
theorem witness_commits_take_effect :
    (s30a.grid.on = true ∧ s30a.grid.now = s30a.grid.tickAt ∧ s30a.mode.restarting = false ∧ s30a.mode.inDisc =
      false ∧ s30a.commits.find? (fun y => !y.sown) = some (wSowing : CommitRun) ∧ (∀ g ∈ (wSowing :
      CommitRun).regions, regionFails (sownFrom s30a (wSowing : CommitRun)) g = [])) ∧
    (s30b.grid.on = true ∧ s30b.grid.now = s30b.grid.tickAt ∧ s30b.mode.restarting = false ∧ s30b.mode.inDisc =
      false ∧ s30b.commits.find? (fun y => !y.sown) = some (wSowing : CommitRun) ∧ (wSowing : CommitRun).ports ≠
      0 ∧ (wSowing : CommitRun).regions.find? (fun y => !(regionFails (sownFrom s30b (wSowing : CommitRun))
      y).isEmpty) = some (0)) ∧
    (s30c.grid.on = true ∧ s30c.grid.now = s30c.grid.tickAt ∧ (wCommit : CommitRun).ports ≠ 0 ∧
      s30c.commits.filter (effective s30c) = [(wCommit : CommitRun)]) :=
  ⟨by decide +kernel,
    by decide +kernel,
    by decide +kernel⟩

def s31a : State :=
  { wRun with cap := { req := some (100000, true), ccount := 63 } }
def s31b : State :=
  { wRun with cap := { copying := some { ccount := 1, tick := 8 }, held := [{}, {}] } }

/-- The hypotheses of the clauses of CapturesComplete. -/
theorem witness_captures_complete :
    (captureDue s31a = true) ∧
    (Arrives s31b 0 (met s31b) ∧ (met s31b).cap.copying = some ({ ccount := 1, tick := 8 } : Capture)) :=
  ⟨by decide +kernel,
    ⟨⟨rfl, rfl⟩, by decide +kernel⟩⟩

def s32a : State :=
  wChallenged |> atTick 400000000

/-- The hypotheses of the clauses of SessionsOpenAndClose. -/
theorem witness_sessions_open_and_close :
    (FrameArrives wKeys 0 (.h : Port) (metBy .h wKeys) ∧ (.h : Port) ≠ .u ∧ (metBy .h wKeys).mode.dev ≠ .off ∧
      (metBy .h wKeys).vault.state = .provisioned ∧ (metBy .h wKeys).alarm.lockdown = false ∧ (metBy .h
      wKeys).vault.rngFail = false ∧ vaultOpen (metBy .h wKeys) = true ∧ ((metBy .h wKeys).port (.h :
      Port)).openFail = none) ∧
    (FrameArrives wChallenged 0 (.h : Port) (metBy .h wChallenged) ∧ (metBy .h wChallenged).mode.dev ≠ .off ∧
      ((metBy .h wChallenged).port (.h : Port)).sess = .challenged ∧ (setWords (List.replicate 7 0) 5
      (bytesWords (beBytes 8 wResponse.toNat)) : List Word) = setWords ((metBy .h wChallenged).port (.h :
      Port)).words 5 (bytesWords (beBytes 8 (wResponse : BitVec 64).toNat)) ∧ slotEmpty (metBy .h wChallenged)
      (portSlot (.h : Port)) = false ∧ (List.replicate 32 7 : Bytes) = ((metBy .h wChallenged).slot (portSlot
      (.h : Port))).key ∧ (List.replicate 32 7 : Bytes) ≠ [] ∧ (List.replicate 20 0 ++ [portByte .h] : Bytes) =
      wordBytes (setWords (List.replicate 7 0) 5 (bytesWords (beBytes 8 wResponse.toNat)) : List Word) 0 5 ++
      [portByte (.h : Port)] ∧ cmac64 (List.replicate 32 7 : Bytes) ([0x00, 0x4F] ++ (List.replicate 20 0 ++
      [portByte .h] : Bytes)) = wordBytes (setWords (List.replicate 7 0) 5 (bytesWords (beBytes 8
      wResponse.toNat)) : List Word) 5 2) ∧
    (FrameArrives wChallenged 0 (.h : Port) (metBy .h wChallenged) ∧ (metBy .h wChallenged).mode.dev ≠ .off ∧
      ((metBy .h wChallenged).port (.h : Port)).sess = .challenged ∧ (List.replicate 7 0 : List Word) = setWords
      ((metBy .h wChallenged).port (.h : Port)).words 5 (bytesWords (beBytes 8 (0 : BitVec 64).toNat)) ∧
      slotEmpty (metBy .h wChallenged) (portSlot (.h : Port)) = false ∧ (List.replicate 32 7 : Bytes) = ((metBy
      .h wChallenged).slot (portSlot (.h : Port))).key ∧ (List.replicate 32 7 : Bytes) ≠ [] ∧ (List.replicate 20
      0 ++ [portByte .h] : Bytes) = wordBytes (List.replicate 7 0 : List Word) 0 5 ++ [portByte (.h : Port)] ∧
      cmac64 (List.replicate 32 7 : Bytes) ([0x00, 0x4F] ++ (List.replicate 20 0 ++ [portByte .h] : Bytes)) ≠
      wordBytes (List.replicate 7 0 : List Word) 5 2 ∧ (recent (metBy .h wChallenged).grid.now second (metBy .h
      wChallenged).alarm.joint).length < 7) ∧
    (Arrives s32a 0 (met s32a) ∧ ((met s32a).port (.h : Port)).sess = .challenged ∧ ((met s32a).port (.h :
      Port)).chalAt + second ≤ (met s32a).grid.now) ∧
    (FrameArrives wOpened 0 (.h : Port) (metBy .h wOpened) ∧ (metBy .h wOpened).mode.dev ≠ .off ∧ ((metBy .h
      wOpened).port (.h : Port)).sess = .opened) :=
  ⟨⟨⟨rfl, by decide +kernel, rfl⟩, by decide +kernel⟩,
    ⟨⟨rfl, by decide +kernel, rfl⟩, by decide +kernel⟩,
    ⟨⟨rfl, by decide +kernel, rfl⟩, by decide +kernel⟩,
    ⟨⟨rfl, rfl⟩, by decide +kernel⟩,
    ⟨⟨rfl, by decide +kernel, rfl⟩, by decide +kernel⟩⟩

def s33a : State :=
  withPort .h (fun x => { x with pstate := .active, hb := 0 }) (atTick 400000 wRun)
def s33b : State :=
  withPort .m (fun x => { x with pstate := .lost, lease := 1 }) (withWords [(0x050100, 0x80000000), (0x0502F0,
    0xA0000000)] (atTick 40000000 wRun))
def s33c : State :=
  withPort .h (fun x => { x with pstate := .reverted }) wRun
def s33d : State :=
  withPort .h (fun x => { x with pstate := .active, indAddr := 4 }) wOpened

/-- The hypotheses of the clauses of PortsAreSupervised. -/
theorem witness_ports_are_supervised :
    (Arrives s33a 0 (met s33a) ∧ (.h : Port) ≠ .u ∧ ((met s33a).port (.h : Port)).pstate = .active ∧ ((met
      s33a).port (.h : Port)).inFrame = false ∧ ((met s33a).port (.h : Port)).lastGood + 400000 * ranged 1 1000
      ((met s33a).port (.h : Port)).hb.toNat ≤ (met s33a).grid.now) ∧
    (Arrives s33b 0 (met s33b) ∧ (.m : Port) ≠ .u ∧ ((met s33b).port (.m : Port)).pstate = .lost ∧ ((met
      s33b).port (.m : Port)).lostAt + 40000000 * ranged 1 600 ((met s33b).port (.m : Port)).lease.toNat ≤ (met
      s33b).grid.now) ∧
    (FrameArrives s33c 0 (.h : Port) (metBy .h s33c) ∧ (.h : Port) ≠ .u ∧ (metBy .h s33c).mode.dev ≠ .off ∧
      (((metBy .h s33c).port (.h : Port)).pstate = .lost ∨ ((metBy .h s33c).port (.h : Port)).pstate =
      .reverted) ∧ (reclaimSecure (metBy .h s33c) (.h : Port) = true → ((metBy .h s33c).port (.h : Port)).sess =
      .opened)) ∧
    (FrameArrives s33d 0 (.h : Port) (metBy .h s33d) ∧ (.h : Port) ≠ .u ∧ (metBy .h s33d).mode.dev ≠ .off) :=
  ⟨⟨⟨rfl, rfl⟩, by decide +kernel⟩,
    ⟨⟨rfl, rfl⟩, by decide +kernel⟩,
    ⟨⟨rfl, by decide +kernel, rfl⟩, by decide +kernel⟩,
    ⟨⟨rfl, by decide +kernel, rfl⟩, by decide +kernel⟩⟩


/-- The hypotheses of the clauses of VaultRequestsAreTaken. -/
theorem witness_vault_requests_are_taken :
    (FrameArrives wOpened 0 (.h : Port) (metBy .h wOpened) ∧ SessionTakes (metBy .h wOpened) (.h : Port) (5 :
      Word)) ∧
    (FrameArrives wOpened 0 (.h : Port) (metBy .h wOpened) ∧ SessionTakes (metBy .h wOpened) (.h : Port)
      (0xFFFFFFFE : Word) ∧ (metBy .h wOpened).lock.getLsbD 2 = false) :=
  ⟨⟨⟨rfl, by decide +kernel, rfl⟩, by unfold SessionTakes; decide +kernel⟩,
    ⟨⟨rfl, by decide +kernel, rfl⟩, by unfold SessionTakes; decide +kernel, by decide +kernel⟩⟩

def s35a : State :=
  withPort .h (fun x =>
    { x with pend := some { op := 0x08, sel := 0, arg := 0, operand := [5], ctr := some 4, keyPol := false, streamId := 0, at_ := 0 } })
    wOpened
def s35b : State :=
  withPort .h (fun x =>
    { x with pend := some { op := 0x0D, sel := 0, arg := 0, operand := [], ctr := some 4, keyPol := false, streamId := 0, at_ := 0 } })
    { wOpened with nv := { cfgA := some { format := 0, tick := 5, words := [], hop := 0, followers := 0, converted := false, valid := true }, cfgB := some { format := 1, tick := 4, words := [], hop := 0, followers := 0, converted := true, valid := true }, oldCfg := true } }

/-- The hypotheses of the clauses of VaultResultsAnswer. -/
theorem witness_vault_results_answer :
    (Arrives s35a 0 (met s35a) ∧ ((met s35a).port (.h : Port)).pend = some
      ({ op := 0x08, sel := 0, arg := 0, operand := [5], ctr := some 4, keyPol := false, streamId := 0, at_ := 0 }
      : VaultReq) ∧ vaultWaits (met s35a) (.h : Port)
      ({ op := 0x08, sel := 0, arg := 0, operand := [5], ctr := some 4, keyPol := false, streamId := 0, at_ := 0 }
      : VaultReq) = false ∧ vaultOpen (met s35a) = true ∧ (met s35a).mode.restarting = false ∧ ((met s35a).port
      (.h : Port)).words.length = 7) ∧
    (Arrives wOpened 0 (met wOpened) ∧ ((met wOpened).port (.h : Port)).pend = none) ∧
    (Arrives s35b 0 (met s35b) ∧ ((met s35b).port (.h : Port)).pend = some
      ({ op := 0x0D, sel := 0, arg := 0, operand := [], ctr := some 4, keyPol := false, streamId := 0, at_ := 0 }
      : VaultReq) ∧ vaultWaits (met s35b) (.h : Port)
      ({ op := 0x0D, sel := 0, arg := 0, operand := [], ctr := some 4, keyPol := false, streamId := 0, at_ := 0 }
      : VaultReq) = false ∧ vaultOpen (met s35b) = true ∧ (met s35b).mode.restarting = false ∧ ((met s35b).port
      (.h : Port)).words.length = 7) :=
  ⟨⟨⟨rfl, rfl⟩, by decide +kernel⟩,
    ⟨⟨rfl, rfl⟩, by decide +kernel⟩,
    ⟨⟨rfl, rfl⟩, by decide +kernel⟩⟩

def s36a : State :=
  withMode (fun m => { m with dev := .test }) wRun

/-- The hypotheses of the clauses of AlarmsFire. -/
theorem witness_alarms_fire :
    (Arrives wRun 0 (met wRun) ∧ ((1, .shellOpen 0) : Nat × Instr) ∈ alarmRows 0) ∧
    (Arrives wRun 0 (met wRun) ∧ ((2, .shellShort 0) : Nat × Instr) ∈ alarmRows 0) ∧
    (Arrives wRun 0 (met wRun) ∧ ((10, .testAccess 0 .instruction) : Nat × Instr) ∈ alarmRows 0) ∧
    (Arrives s36a 0 (met s36a) ∧ (met s36a).mode.dev = .test) ∧
    (Arrives wRun 0 (met wRun) ∧ (met wRun).mode.dev ≠ .test) :=
  ⟨⟨⟨rfl, rfl⟩, by decide +kernel⟩,
    ⟨⟨rfl, rfl⟩, by decide +kernel⟩,
    ⟨⟨rfl, rfl⟩, by decide +kernel⟩,
    ⟨⟨rfl, rfl⟩, by decide +kernel⟩,
    ⟨⟨rfl, rfl⟩, by decide +kernel⟩⟩

def s37a : State :=
  withMode (fun m => { m with vbatWarn := true }) wRun
def s37b : State :=
  withMode (fun m => { m with inReset := true }) State.reset

/-- The hypotheses of the clauses of RailsWarnAndRecover. -/
theorem witness_rails_warn_and_recover :
    (Arrives wRun 0 (met wRun) ∧ railLive (met wRun) (.vlink 7 : Rail) = false) ∧
    (Arrives wRun 0 (met wRun) ∧ railLive (met wRun) (.vddCore : Rail) = false) ∧
    (Arrives s37a 0 (met s37a) ∧ railLive (met s37a) (.vbat : Rail) = true) ∧
    (s37b.mode.inReset = true) :=
  ⟨⟨⟨rfl, rfl⟩, by decide +kernel⟩,
    ⟨⟨rfl, rfl⟩, by decide +kernel⟩,
    ⟨⟨rfl, rfl⟩, by decide +kernel⟩,
    by decide +kernel⟩

def s38a : State :=
  withRegion 0 { stageReq := true } wLane
def s38b : State :=
  withRegion 0 { second := true } (wLaneWith (fun l => { l with suspended := true, lstate := .unpowered }))
def s38c : State :=
  withMode (fun m => { m with vbatSusp := true }) (wBus.onLane 0 (fun l =>
    { l with suspended := true, lstate := .unpowered }))

/-- The hypotheses of the clauses of RailsSuspendLanes. -/
theorem witness_rails_suspend_lanes :
    (Arrives s38a 0 (met s38a) ∧ ((met s38a).region (0 : Region)).second = false) ∧
    (Arrives s38b 0 (met s38b) ∧ ((met s38b).region (0 : Region)).second = true ∧ ((met s38b).region (0 :
      Region)).iso = false) ∧
    (Arrives wBus 0 (met wBus) ∧ (met wBus).mode.vbatSusp = false) ∧
    (Arrives s38c 0 (met s38c) ∧ (met s38c).mode.vbatSusp = true) :=
  ⟨⟨⟨rfl, rfl⟩, by decide +kernel⟩,
    ⟨⟨rfl, rfl⟩, by decide +kernel⟩,
    ⟨⟨rfl, rfl⟩, by decide +kernel⟩,
    ⟨⟨rfl, rfl⟩, by decide +kernel⟩⟩

def s39a : State :=
  withRegion 7 { iso := true, second := true } wRun

/-- The hypotheses of the clauses of RegionsAreIsolated. -/
theorem witness_regions_are_isolated :
    (Arrives wLane 0 (met wLane) ∧ ((met wLane).region (0 : Region)).iso = false) ∧
    (Arrives s39a 0 (met s39a) ∧ ((met s39a).region (7 : Region)).iso = true) :=
  ⟨⟨⟨rfl, rfl⟩, by decide +kernel⟩,
    ⟨⟨rfl, rfl⟩, by decide +kernel⟩⟩


/-- The hypotheses of the clauses of ModeRequestsWait. -/
theorem witness_mode_requests_wait :
    (FrameArrives wRun 0 (.h : Port) (metBy .h wRun) ∧ (.h : Port) ≠ .u ∧ ((.recover, .modeReqRecover 0 .h) :
      DevState × Instr) ∈ modeRows 0 (.h : Port)) ∧
    (FrameArrives wRun 0 (.h : Port) (metBy .h wRun) ∧ (.h : Port) ≠ .u ∧ ((.off, .modeReqOff 0 .h) : DevState
      × Instr) ∈ modeRows 0 (.h : Port)) ∧
    (FrameArrives wRun 0 (.h : Port) (metBy .h wRun) ∧ (.h : Port) ≠ .u ∧ ((.run, .modeReqRun 0 .h) : DevState
      × Instr) ∈ modeRows 0 (.h : Port)) ∧
    (FrameArrives wRun 0 (.h : Port) (metBy .h wRun) ∧ (.h : Port) ≠ .u ∧ ((.replay, .modeReqReplay 0 .h true)
      : DevState × Instr) ∈ modeRows 0 (.h : Port)) ∧
    (FrameArrives wRun 0 (.h : Port) (metBy .h wRun)) ∧
    (FrameArrives wRun 0 (.h : Port) (metBy .h wRun)) :=
  ⟨⟨⟨rfl, by decide +kernel, rfl⟩, by decide +kernel⟩,
    ⟨⟨rfl, by decide +kernel, rfl⟩, by decide +kernel⟩,
    ⟨⟨rfl, by decide +kernel, rfl⟩, by decide +kernel⟩,
    ⟨⟨rfl, by decide +kernel, rfl⟩, by decide +kernel⟩,
    ⟨rfl, by decide +kernel, rfl⟩,
    ⟨rfl, by decide +kernel, rfl⟩⟩

def s41a : State :=
  withMode (fun m => { m with req := some (.recover, 100000) }) wRun
def s41b : State :=
  withMode (fun m => { m with req := some (.replay, 100000) }) wRun
def s41c : State :=
  withMode (fun m => { m with entering := true, req := some (.off, 0) }) wLane
def s41d : State :=
  withMode (fun m => { m with entering := true, req := some (.sentinel, 0), polls := [(0, 8)] }) wLane
def s41e : State :=
  withMode (fun m => { m with dev := .sentinel, polls := [(0, 8)] }) (withWords [(0, 0x20FA0200), (0x040000,
    0x2F000000), (0x070000, 0x90000000)] wDue)
def s41f : State :=
  withMode (fun m => { m with dev := .sentinel, polls := [(0, 64)] }) (withWords [(0, 0x20FA0200), (0x040000,
    0x2F000000), (0x070000, 0x90000000)] (withGrid (fun g =>
    { g with tick := 66, gridNum := 64, tickAt := 200000, gridAt := 100000, now := 249000 }) wDue))
def s41g : State :=
  withMode (fun m => { m with dev := .sentinel, leaving := some (0, .run) }) wRun

/-- The hypotheses of the clauses of DeviceStatesChange. -/
theorem witness_device_states_change :
    (s41a.grid.on = true ∧ s41a.grid.now = s41a.grid.tickAt ∧ s41a.mode.req = some ((.recover : DevState),
      (100000 : Nat)) ∧ (100000 : Nat) ≤ s41a.grid.now ∧ tickState s41a (.recover : DevState) = true ∧ permitted
      s41a.mode.dev (.recover : DevState) = true) ∧
    (s41b.grid.on = true ∧ s41b.grid.now = s41b.grid.tickAt ∧ s41b.mode.req = some ((.replay : DevState),
      (100000 : Nat)) ∧ (100000 : Nat) ≤ s41b.grid.now ∧ tickState s41b (.replay : DevState) = true ∧ permitted
      s41b.mode.dev (.replay : DevState) = true) ∧
    (Arrives s41c 0 (met s41c) ∧ entryDone (met s41c) .off = true) ∧
    (Arrives s41d 0 (met s41d) ∧ entryDone (met s41d) .sentinel = true) ∧
    (Arrives s41e 0 (met s41e) ∧ pollDue (met s41e) (0 : Lane) = true ∧ pollSources (met s41e) (0 : Lane) ≠ []
      ∧ (pollLane (met s41e) (0 : Lane) (pollNum (met s41e) (0 : Lane)) (pollAt (met s41e) (0 : Lane))
      ({ wHarvest with header := pulses (headerSyms 11 0) } : HarvestWire) ([] : List (Pos × FrameWire)) (none :
      Option SentWire) ([] : List (BitVec 6 × LinWire))).over_ ≤ (met s41e).grid.now) ∧
    (Arrives s41f 0 (met s41f) ∧ pollDue (met s41f) (0 : Lane) = true ∧ pollSources (met s41f) (0 : Lane) ≠ []
      ∧ (pollLane (met s41f) (0 : Lane) (pollNum (met s41f) (0 : Lane)) (pollAt (met s41f) (0 : Lane))
      ({ wHarvest with header := pulses (headerSyms 11 0) } : HarvestWire) ([] : List (Pos × FrameWire)) (none :
      Option SentWire) ([] : List (BitVec 6 × LinWire))).over_ ≤ (met s41f).grid.now) ∧
    (Arrives s41g 0 (met s41g) ∧ (met s41g).mode.dev = .sentinel ∧ (met s41g).mode.leaving ≠ none ∧ (met
      s41g).mode.resume = none) :=
  ⟨by decide +kernel,
    by decide +kernel,
    ⟨⟨rfl, rfl⟩, by decide +kernel⟩,
    ⟨⟨rfl, rfl⟩, by decide +kernel⟩,
    ⟨⟨rfl, rfl⟩, by decide +kernel⟩,
    ⟨⟨rfl, rfl⟩, by decide +kernel⟩,
    ⟨⟨rfl, rfl⟩, by decide +kernel⟩⟩

def s42a : State :=
  { wChallenged with commits := [wCommit], cap := { copying := some {} } }
def s42b : State :=
  withMode (fun m =>
    { m with restarting := true, restarts := [0, 1], entering := true, req := some (.sentinel, 0) }) wRun

/-- The hypotheses of the clauses of WardenRestarts. -/
theorem witness_warden_restarts :
    (Arrives s42a 0 (met s42a) ∧ (met s42a).mode.restarting = false) ∧
    (Arrives s42b 0 (met s42b) ∧ (met s42b).mode.restarting = true) :=
  ⟨⟨⟨rfl, rfl⟩, by decide +kernel⟩,
    ⟨⟨rfl, rfl⟩, by decide +kernel⟩⟩

def s43a : State :=
  withHoard { ctlNext := some 0x8080_0000 } (withWords [(0x0C0900, 0x00000003)] wRun)
def s43b : State :=
  withHoard { ctlNext := some 0xA080_0000 } wRun
def s43c : State :=
  withHoard { ctlNext := some 0xC080_0000 } wRun
def s43d : State :=
  withHoard { hstate := .armed, arm := true, preNow := 255 } wRun
def s43e : State :=
  withHoard { hstate := .armed, arm := true, preNow := 255, ctlNext := some 0xC080_0000 } wRun
def s43f : State :=
  withHoard { ctlNext := some 0x8000_0000, arm := true, expo := true, hstate := .exporting } wRun
def s43g : State :=
  withHoard { hstate := .post } wRun

/-- The hypotheses of the clauses of HoardRecords. -/
theorem witness_hoard_records :
    (s43a.hoard.ctlNext = some (0x8080_0000 : Word) ∧ s43a.grid.on = true ∧ s43a.grid.now = s43a.grid.tickAt ∧
      bit (0x8080_0000 : Word) 31 = true ∧ s43a.hoard.arm = false ∧ s43a.mode.dev ≠ .replay) ∧
    (s43b.hoard.ctlNext = some (0xA080_0000 : Word) ∧ s43b.grid.on = true ∧ s43b.grid.now = s43b.grid.tickAt ∧
      bit (0xA080_0000 : Word) 31 = true ∧ s43b.hoard.arm = false ∧ s43b.mode.dev ≠ .replay) ∧
    (s43c.hoard.ctlNext = some (0xC080_0000 : Word) ∧ s43c.grid.on = true ∧ s43c.grid.now = s43c.grid.tickAt ∧
      bit (0xC080_0000 : Word) 31 = true ∧ s43c.hoard.arm = false ∧ s43c.mode.dev ≠ .replay) ∧
    (FrameArrives s43d 0 (.h : Port) (metBy .h s43d) ∧ (.h : Port) ≠ .u ∧ (metBy .h s43d).mode.dev ≠ .off) ∧
    (s43e.hoard.ctlNext = some (0xC080_0000 : Word) ∧ s43e.hoard.hstate = .armed ∧ bit (0xC080_0000 : Word) 30
      = true ∧ bit (0xC080_0000 : Word) 31 = true ∧ s43e.hoard.arm = true ∧ bit (0xC080_0000 : Word) 29 =
      s43e.hoard.expo ∧ s43e.mode.dev ≠ .replay) ∧
    (s43f.hoard.ctlNext = some (0x8000_0000 : Word) ∧ s43f.grid.on = true ∧ s43f.grid.now = s43f.grid.tickAt ∧
      bit (0x8000_0000 : Word) 31 = true ∧ s43f.hoard.arm = true ∧ bit (0x8000_0000 : Word) 29 = false ∧
      s43f.hoard.expo = true ∧ s43f.mode.dev ≠ .replay) ∧
    (Arrives s43g 0 (met s43g) ∧ (met s43g).hoard.hstate = .post ∧ (met s43g).hoard.postLeft = 0) :=
  ⟨by decide +kernel,
    by decide +kernel,
    by decide +kernel,
    ⟨⟨rfl, by decide +kernel, rfl⟩, by decide +kernel⟩,
    by decide +kernel,
    by decide +kernel,
    ⟨⟨rfl, rfl⟩, by decide +kernel⟩⟩

def s44a : State :=
  wReplay {}
def s44b : State :=
  wReplay { rstate := .loading, buffer := wBlock 0x50 [1] }
def s44c : State :=
  wReplay { rstate := .loading, buffer := wBlock 0x20 [1] }
def s44d : State :=
  wReplay { rstate := .loading, buffer := (wBlock 0x10 (List.replicate 128 1)).set 139 0 }
def s44e : State :=
  wReplay { rstate := .loading, buffer := wBlock 0x10 (List.replicate 128 1) }
def s44f : State :=
  wReplay
    { rstate := .loading, checked := true, buffer := wBlock 0x20 (List.replicate 8 0) ++ wBlock 0x20 (List.replicate 8 0) }
def s44g : State :=
  wReplay { rstate := .loading, buffer := List.replicate 8 0 }
def s44h : State :=
  wReplay { rstate := .running, checked := true, seq := some 1, buffer := wBlock 0x20 [] }
def s44i : State :=
  wReplay { rstate := .running, checked := true, buffer := [1, 0, 0, 0, 0, 0, 0, 0, 0, 0, 0, 0] }

/-- The hypotheses of the clauses of ReplaysRun. -/
theorem witness_replays_run :
    (FrameArrives s44a 0 .u (metBy .u s44a) ∧ (metBy .u s44a).mode.dev = .replay ∧ (0 : Nat) = (metBy .u
      s44a).replay.taken ∧ (metBy .u s44a).replay.buffer.length + 4 ≤ 1048576) ∧
    (FrameArrives s44a 0 .u (metBy .u s44a) ∧ ((metBy .u s44a).mode.dev ≠ .replay ∨ (4 : Nat) ≠ (metBy .u
      s44a).replay.taken ∨ 1048576 < (metBy .u s44a).replay.buffer.length + 4)) ∧
    (FrameArrives wRun 0 .u (metBy .u wRun) ∧ ((metBy .u wRun).mode.dev ≠ .replay ∨ (0 : Nat) ≠ (metBy .u
      wRun).replay.taken ∨ 1048576 < (metBy .u wRun).replay.buffer.length + 4)) ∧
    (s44b.mode.dev = .replay ∧ s44b.replay.rstate = .loading ∧ s44b.replay.checked = false ∧
      s44b.mode.restarting = false ∧ fieldN s44b.replay.buffer 0 1 ≠ 0 ∧ blockReady s44b.replay.buffer = true ∧
      (blockAt (wBlock 0x50 [1]) : Block) = blockAt s44b.replay.buffer ∧ knownType (blockAt (wBlock 0x50 [1]) :
      Block).typ = false) ∧
    (s44c.mode.dev = .replay ∧ s44c.replay.rstate = .loading ∧ s44c.replay.checked = false ∧
      s44c.mode.restarting = false ∧ fieldN s44c.replay.buffer 0 1 ≠ 0 ∧ blockReady s44c.replay.buffer = true ∧
      (blockAt (wBlock 0x20 [1]) : Block) = blockAt s44c.replay.buffer ∧ knownType (blockAt (wBlock 0x20 [1]) :
      Block).typ = true ∧ ((blockAt (wBlock 0x20 [1]) : Block).typ ≠ 0x10 ∨ (blockAt (wBlock 0x20 [1]) :
      Block).body.length ≠ 128)) ∧
    (s44d.mode.dev = .replay ∧ s44d.replay.rstate = .loading ∧ s44d.replay.checked = false ∧
      s44d.mode.restarting = false ∧ fieldN s44d.replay.buffer 0 1 ≠ 0 ∧ blockReady s44d.replay.buffer = true ∧
      (blockAt ((wBlock 0x10 (List.replicate 128 1)).set 139 0) : Block) = blockAt s44d.replay.buffer ∧ (blockAt
      ((wBlock 0x10 (List.replicate 128 1)).set 139 0) : Block).typ = 0x10 ∧ (blockAt ((wBlock 0x10
      (List.replicate 128 1)).set 139 0) : Block).body.length = 128 ∧ (blockAt ((wBlock 0x10 (List.replicate 128
      1)).set 139 0) : Block).crcOk = false) ∧
    (s44e.mode.dev = .replay ∧ s44e.replay.rstate = .loading ∧ s44e.replay.checked = false ∧
      s44e.mode.restarting = false ∧ fieldN s44e.replay.buffer 0 1 ≠ 0 ∧ blockReady s44e.replay.buffer = true ∧
      (blockAt (wBlock 0x10 (List.replicate 128 1)) : Block) = blockAt s44e.replay.buffer ∧ (blockAt (wBlock
      0x10 (List.replicate 128 1)) : Block).typ = 0x10 ∧ (blockAt (wBlock 0x10 (List.replicate 128 1)) :
      Block).body.length = 128 ∧ (blockAt (wBlock 0x10 (List.replicate 128 1)) : Block).crcOk = true ∧ (fieldN
      (blockAt (wBlock 0x10 (List.replicate 128 1)) : Block).body 12 2 ≠ s44e.upd.fwVersion.toNat ∨ fieldN
      (blockAt (wBlock 0x10 (List.replicate 128 1)) : Block).body 8 3 ≠ devId.toNat / 256)) ∧
    (nextSpan s44f = some (20 : Nat) ∧ replayGoing s44f = true ∧ s44f.grid.now = s44f.grid.tickAt ∧
      s44f.replay.lastAt ≠ some s44f.grid.tickAt) ∧
    (Arrives s44g 0 (met s44g) ∧ replayOpen (met s44g) = true ∧ 8 ≤ (met s44g).replay.buffer.length ∧ fieldN
      (met s44g).replay.buffer 0 1 = 0) ∧
    (Arrives s44h 0 (met s44h) ∧ replayOpen (met s44h) = true ∧ 8 ≤ (met s44h).replay.buffer.length ∧ fieldN
      (met s44h).replay.buffer 0 1 ≠ 0 ∧ (met s44h).replay.checked = true ∧ blockReady (met s44h).replay.buffer
      = true ∧ (blockAt (met s44h).replay.buffer).crcOk = true ∧ (blockAt (met s44h).replay.buffer).gap = false
      ∧ (met s44h).replay.seq = some (1) ∧ (1) ≠ (blockAt (met s44h).replay.buffer).seq) ∧
    (Arrives s44i 0 (met s44i) ∧ replayOpen (met s44i) = true ∧ 8 ≤ (met s44i).replay.buffer.length ∧ fieldN
      (met s44i).replay.buffer 0 1 ≠ 0 ∧ (met s44i).replay.checked = true ∧ blockReady (met s44i).replay.buffer
      = true ∧ (blockAt (met s44i).replay.buffer).crcOk = false) :=
  ⟨⟨⟨rfl, by decide +kernel, rfl⟩, by decide +kernel⟩,
    ⟨⟨rfl, by decide +kernel, rfl⟩, by decide +kernel⟩,
    ⟨⟨rfl, by decide +kernel, rfl⟩, by decide +kernel⟩,
    by decide +kernel,
    by decide +kernel,
    by decide +kernel,
    by decide +kernel,
    by decide +kernel,
    ⟨⟨rfl, rfl⟩, by decide +kernel⟩,
    ⟨⟨rfl, rfl⟩, by decide +kernel⟩,
    ⟨⟨rfl, rfl⟩, by decide +kernel⟩⟩

def s45a : State :=
  withUpd { taking := some 255, buffer := [(0, 1)] } wRun
def s45b : State :=
  withUpd { ustate := .verifying } wRun
def s45c : State :=
  withUpd { ustate := .failed, error := 3, taken := [1] } wRun

/-- The hypotheses of the clauses of UpdatesAreTransferred. -/
theorem witness_updates_are_transferred :
    (FrameArrives wRun 0 .u (metBy .u wRun) ∧ transferOpen (metBy .u wRun) = true) ∧
    (FrameArrives wRun 0 .u (metBy .u wRun) ∧ transferOpen (metBy .u wRun) = true) ∧
    (Arrives wTaking 0 (met wTaking) ∧ (met wTaking).upd.taking = some (1 : Byte)) ∧
    (Arrives s45a 0 (met s45a) ∧ (met s45a).upd.taking = some (255 : Byte)) ∧
    (Arrives s45b 0 (met s45b) ∧ (met s45b).upd.ustate = .verifying ∧ (met s45b).upd.romOnly = false ∧
      verifyChecks (met s45b) = 0x03) ∧
    (FrameArrives s45c 0 (.u : Port) (metBy .u s45c) ∧ (metBy .u s45c).mode.dev ≠ .off ∧ ((metBy .u
      s45c).upd.ustate = .receiving ∨ (metBy .u s45c).upd.ustate = .verifying ∨ (metBy .u s45c).upd.ustate =
      .ready ∨ (metBy .u s45c).upd.ustate = .failed)) :=
  ⟨⟨⟨rfl, by decide +kernel, rfl⟩, by decide +kernel⟩,
    ⟨⟨rfl, by decide +kernel, rfl⟩, by decide +kernel⟩,
    ⟨⟨rfl, rfl⟩, by decide +kernel⟩,
    ⟨⟨rfl, rfl⟩, by decide +kernel⟩,
    ⟨⟨rfl, rfl⟩, by decide +kernel⟩,
    ⟨⟨rfl, by decide +kernel, rfl⟩, by decide +kernel⟩⟩

def s46a : State :=
  withUpd { ustate := .ready } wOpened
def s46b : State :=
  withUpd { ustate := .unconfirmed } wOpened
def s46c : State :=
  withUpd { ustate := .activating, activateAt := some 500000 } (withGrid (fun g =>
    { g with tstate := .locked, ownNum := false, trueNum := 15, tick := 15, tickAt := 450000, now := 492000 }) wRun)
def s46d : State :=
  withUpd { ustate := .activating, pauseA := some 0 } wRun
def s46e : State :=
  withUpd { ustate := .activating, migrating := true } wRun

/-- The hypotheses of the clauses of UpdatesActivate. -/
theorem witness_updates_activate :
    (FrameArrives s46a 0 (.h : Port) (metBy .h s46a) ∧ (.h : Port) ≠ .u ∧ (metBy .h s46a).mode.dev ≠ .off ∧
      ((metBy .h s46a).port (.h : Port)).sess = .opened ∧ activateOk (metBy .h s46a) = true) ∧
    (FrameArrives s46b 0 (.h : Port) (metBy .h s46b) ∧ (.h : Port) ≠ .u ∧ (metBy .h s46b).mode.dev ≠ .off ∧
      ((metBy .h s46b).port (.h : Port)).sess = .opened ∧ rollbackOk (metBy .h s46b) = true) ∧
    (FrameArrives s46b 0 (.h : Port) (metBy .h s46b) ∧ (.h : Port) ≠ .u ∧ (metBy .h s46b).mode.dev ≠ .off ∧
      ((metBy .h s46b).port (.h : Port)).sess = .opened ∧ (metBy .h s46b).upd.ustate = .unconfirmed) ∧
    (Arrives s46c 0 (met s46c) ∧ (met s46c).upd.activateAt = some (500000 : Nat) ∧ (met s46c).grid.on = true ∧
      (met s46c).grid.gridAt < (500000 : Nat) ∧ (500000 : Nat) ≤ (nextInstant (met s46c)).2 ∧ (nextInstant (met
      s46c)).2 = (met s46c).grid.now + 8000) ∧
    (Arrives s46d 0 (met s46d) ∧ (met s46d).upd.pauseA = some (0 : Nat) ∧ (0 : Nat) + 100000 ≤ (met
      s46d).grid.now) ∧
    (Arrives s46e 0 (met s46e) ∧ (met s46e).upd.migrating = true ∧ (met s46e).mode.restarting = false) :=
  ⟨⟨⟨rfl, by decide +kernel, rfl⟩, by decide +kernel⟩,
    ⟨⟨rfl, by decide +kernel, rfl⟩, by decide +kernel⟩,
    ⟨⟨rfl, by decide +kernel, rfl⟩, by decide +kernel⟩,
    ⟨⟨rfl, rfl⟩, by decide +kernel⟩,
    ⟨⟨rfl, rfl⟩, by decide +kernel⟩,
    ⟨⟨rfl, rfl⟩, by decide +kernel⟩⟩

/-! ### An attestation whose challenge is a free value -/

/-- The challenge that the device draws. -/
def wChallenge : BitVec 64 := (Config.random (met wAttest).fresh).setWidth 64
def wDrawn : State := (met wAttest).draw.2
def wAsk : CmdFrame := attestFrame 0 wChallenge
def wAskWire : FrameWire := wFrame wAsk [0, 3]
def wAsking : State := happen (slotTaken wDrawn 0 wAsk wAskWire) 0 (slotSnap wDrawn 0).1 0x0B 0 (beBytes 8 wChallenge.toNat)

theorem foldl_exact (q : DecodeWith) (h : q.dE = 0) : ∀ (l : List (Nat × Nat × Pulse)) (a : FrameRun), a.errs = 0 →
    (∀ e ∈ l, pulseLen q.og e.2.2 = some (e.2.1 : Int)) → (l.foldl (ownPip q) a).errs = 0 := by
  intro l
  induction l with
  | nil => intro a ha _; exact ha
  | cons e r ih =>
    intro a ha hl
    refine ih _ ?_ (fun x hx => hl x (List.mem_cons_of_mem _ hx))
    have he := hl e List.mem_cons_self
    have hs : (0 : Int) ≤ q.scale 40 := by simp only [DecodeWith.scale]; positivity
    simp [ownPip, FrameRun.over_, ha, he, h, not_lt.2 hs, b2n]

theorem masterPips_exact (s : State) (n : Nat) (og : Int) (h0 : og = 0) (hg : ∀ t, graded s n t = t) (xs : List Nat) :
    ∀ e ∈ masterPips s n xs (pulses xs), pulseLen og e.2.2 = some (e.2.1 : Int) := by
  intro e he
  simp only [masterPips, List.mem_map, List.mem_range] at he
  obtain ⟨i, hi, rfl⟩ := he
  subst h0
  simp [pulses, pulse, symSteps, hg, hi, pulseLen, stamp25]
  simp only [rnd]
  omega

theorem abandoned_not (a : FrameRun) (h : a.errs = 0) : a.over_ = false := by simp [FrameRun.over_, h]

/-- What a command frame answers where the lane drives its own pips exactly. -/
theorem accessFrame_exact (s : State) (n : Nat) (num : BitVec 48) (g : Int) (c : CmdFrame) (xs : List Nat)
    (hr : frameBoundary s n num = s) (hd : (s.lane n).cal.dE = 0) (ho : (s.lane n).cal.og = 0)
    (hn : (s.lane n).cal.seedNext = false) (hg : ∀ t, graded s n t = t) (hc : c.answer ≠ 0) (h3 : (c.cmd == 3) = false) :
    (accessFrame s n num g c 0 (wFrame c xs)).2.1 =
      some (decodeAnswer { decodeWith s n c.pos 0 with } c.answer (c.ok 0) (wAnswer xs).pips) := by
  have hh : ((frameHead s n { decodeWith s n c.pos 0 with stretched := false } c.cmd c.pos (pulse 2000)
      (pulses (headerSyms c.cmd c.pos))).1).errs = 0 := by
    simp only [frameHead, hn, Bool.false_and, Bool.false_eq_true, if_false]
    refine foldl_exact _ rfl _ _ rfl (masterPips_exact s n _ ho hg _)
  have hq : (frameHead s n { decodeWith s n c.pos 0 with stretched := false } c.cmd c.pos (pulse 2000)
      (pulses (headerSyms c.cmd c.pos))).2 = 0 := by
    simp [frameHead, hn, decodeWith]
  simp only [accessFrame, hr, hd, wFrame]
  generalize frameHead s n { decodeWith s n c.pos 0 with stretched := false } c.cmd c.pos (pulse 2000) (pulses (headerSyms c.cmd c.pos)) = f
    at hh hq
  obtain ⟨a, dE⟩ := f
  simp only at hh hq
  subst hq
  simp only [bne_self_eq_false, Bool.false_eq_true, if_false, h3, Bool.or_false]
  generalize hb : List.foldl (ownPip _) a _ = b
  have hbe : b.errs = 0 := by
    rw [← hb]
    exact foldl_exact _ rfl _ _ hh (masterPips_exact _ n _ ho (fun t => hg t) _)
  have hb3 : (c.cmd != 3) = true := by simp [bne, h3]
  simp [abandoned_not b hbe, hc, hb3, decodeWith]

/-- The hypotheses of the clause of SleepAndAttest on ATTEST. -/
theorem witness_attest :
    Arrives wAttest 0 (met wAttest) ∧ attestOwed (met wAttest) (epIdx 0 0) = true ∧
    ((met wAttest).ep (epIdx 0 0)).chal = none ∧
    pairingRoot (met wAttest) ((descId (met wAttest) (epIdx 0 0)).toNat / 2 ^ 48) = some 0 ∧
    attestPos wDrawn 0 (wDrawn.grid.now - cmdSteps wDrawn 0 wAsk wAskWire) = some 0 ∧
    SlotRuns wDrawn 0 3 wAsk wAskWire ∧
    status (slotAnswer wDrawn wAsking 0 wAsk 0 wAskWire) =
      some 0 := by
  refine ⟨⟨rfl, rfl⟩, by decide +kernel, by decide +kernel, by decide +kernel, by decide +kernel,
    by unfold SlotRuns; decide +kernel, ?_⟩
  have h := accessFrame_exact wAsking 0 (slotSnap wDrawn 0).1 (slotSnap wDrawn 0).2 wAsk [0, 3]
    rfl rfl rfl rfl (fun t => by simp only [graded, show cfgGrade wAsking 0 = 1 from rfl]; omega)
    (by decide) (by decide)
  simp only [slotAnswer, wAskWire, h]
  decide +kernel
/-! ### A trace of this device: DEV_ID holds bytes that the silicon fixes -/

theorem beNat_three (d : Nat) (h : d < 2 ^ 24) : beNat (beBytes 3 d) = d := by
  simp only [beBytes, beNat, List.foldl_cons, List.foldl_nil, BitVec.toNat_ofNat]
  omega

theorem beNat_four (d : Nat) (h : d < 2 ^ 32) : beNat (beBytes 4 d) = d := by
  simp only [beBytes, beNat, List.foldl_cons, List.foldl_nil, BitVec.toNat_ofNat]
  omega

/-- A whole block reads back as it was made, with a right CRC-32. -/
theorem blockAt_wBlock (typ : Byte) (b : Bytes) (h : b.length < 65536) :
    blockReady (wBlock typ b) = true ∧ (blockAt (wBlock typ b)).typ = typ.toNat ∧ (blockAt (wBlock typ b)).body = b ∧
      (blockAt (wBlock typ b)).crcOk = true := by
  obtain ⟨x, hx⟩ : ∃ x : Bytes, x = [typ, 0, 0, 0] ++ beBytes 2 b.length ++ [0, 0] ++ b := ⟨_, rfl⟩
  have hw : wBlock typ b = x ++ beBytes 4 (crc32 x).toNat := by rw [hx]; rfl
  have hl : x.length = 8 + b.length := by simp [hx, beBytes]; omega
  have hn : blockLen (wBlock typ b) = 12 + b.length := by
    simp [blockLen, hw, hx, fieldN, fit, beBytes, beNat, BitVec.toNat_ofNat]
    omega
  have ht : (wBlock typ b).take (8 + b.length) = x := by rw [hw, ← hl, List.take_left]
  have hd : (wBlock typ b).drop (8 + b.length) = beBytes 4 (crc32 x).toNat := by rw [hw, ← hl, List.drop_left]
  have hm : 12 + b.length - 4 = 8 + b.length := by omega
  refine ⟨?_, ?_, ?_, ?_⟩
  · simp only [blockReady, hn, decide_eq_true_eq]
    simp [hw, hl, beBytes]
    omega
  · simp [blockAt, hw, hx, fieldN, fit, beNat]
  · simp only [blockAt, hn, hm, ht]
    simp [hx, beBytes]
  · simp only [blockAt, hn, hm, ht, fieldN, hd]
    exact beq_iff_eq.2 (beNat_four _ (crc32 x).isLt).symm

/-- The body of a TRACE_START block of this device. -/
def wStart : Bytes := List.replicate 8 0 ++ (beBytes 3 (devId.toNat / 256) ++ List.replicate 117 0)
def wLoading : State := wReplay { rstate := .loading, buffer := wBlock 0x10 wStart }

/-- The hypotheses of the clause of ReplaysRun on a trace that passes the device check. -/
theorem witness_trace_start :
    wLoading.mode.dev = .replay ∧ wLoading.replay.rstate = .loading ∧ wLoading.replay.checked = false ∧
    wLoading.mode.restarting = false ∧ blockReady wLoading.replay.buffer = true ∧
    (blockAt wLoading.replay.buffer).crcOk = true ∧ (blockAt wLoading.replay.buffer).typ = 0x10 ∧
    (blockAt wLoading.replay.buffer).body.length = 128 ∧
    fieldN (blockAt wLoading.replay.buffer).body 12 2 = wLoading.upd.fwVersion.toNat ∧
    fieldN (blockAt wLoading.replay.buffer).body 8 3 = devId.toNat / 256 := by
  have hb : wLoading.replay.buffer = wBlock 0x10 wStart := rfl
  obtain ⟨h1, h2, h3, h4⟩ := blockAt_wBlock 0x10 wStart (by simp [wStart, beBytes])
  rw [hb, h3]
  refine ⟨rfl, rfl, rfl, rfl, h1, h4, h2, by simp [wStart, beBytes], by decide +kernel, ?_⟩
  exact beNat_three _ (by have := devId.isLt; omega)
/-! ### A warm start, whose digest record is under a key that the silicon fixes -/

/-- A provisioned device in BOOT with both saved copies. -/
def wCold : State :=
  { State.reset with
    vault := { state := .provisioned, helper := 1, kek := beBytes 32 (Config.kek 1).toNat }
    nv := { cfgA := some { format := 0, tick := 0, words := [], hop := 0, followers := 0, converted := false, valid := true }
            calA := some { format := 0, tick := 0, lanes := [], eps := [], regions := [], converted := false, valid := true } } }
def wWarm : State := recordDigest wCold false

/-- Every slot is good. -/
theorem checkSlots_good (s : State) (h : s.vault.slots = []) : checkSlots s [] [] = s := by
  have fix : ∀ (f : State → Nat → State), (∀ i, f s i = s) → ∀ l : List Nat, l.foldl f s = s := by
    intro f hf l
    induction l with
    | nil => rfl
    | cons i r ih => rw [List.foldl_cons, hf, ih]
  refine fix _ (fun i => ?_) _
  have hn : (List.range 5).filter ([] : List Nat).contains = [] := by decide
  simp [State.slot, h, Tbl.get, slotHealth, hn]

/-- The hypotheses of BootEnds where the start is warm. -/
theorem witness_warm_start :
    wWarm.mode.inReset = false ∧ wWarm.mode.booted = false ∧ wWarm.mode.dev ≠ .off ∧ wWarm.upd.romOnly = false ∧
    startWarm (checkSlots (rebuildKek wWarm true) [] []) = true := by
  refine ⟨rfl, rfl, by decide, rfl, ?_⟩
  rw [checkSlots_good _ rfl]
  have h : digestOk (rebuildKek wWarm true) false = true := by
    show (true && (digestRecord wCold (wCold.bank false) == digestRecord wCold (wCold.bank false))) = true
    rw [beq_self_eq_true]
    rfl
  have hf : imgFormat ((rebuildKek wWarm true).bank false) = 0 := by decide +kernel
  have hv : (rebuildKek wWarm true).vault.state = .provisioned := rfl
  have hb : (rebuildKek wWarm true).nv.bootB = false := rfl
  have hc : newerCfg (rebuildKek wWarm true) = wCold.nv.cfgA := rfl
  have hk : newerCal (rebuildKek wWarm true) = wCold.nv.calA := rfl
  simp only [startWarm, hv, hb, h, hc, hk, hf]
  decide
/-! ### Frames and invariants: commands that change something -/

theorem witness_lane_commands :
    laneOf (.lineSlow 511) = some 511 ∧
    ∃ t, exec (.lineSlow 511) (withLane 511 { cal := { slowCnt := 8 } } wRun) = .next t ∧
      (t.lane 511).slowLine = true :=
  ⟨rfl, _, rfl, by decide +kernel⟩

theorem witness_region_commands :
    regionOf (.regionCal 7) = some 7 ∧
    ∃ t, exec (.regionCal 7) (withRegion 7 { dllStuck := 64 } wRun) = .next t ∧ (t.region 7).dllStuck = 65 :=
  ⟨rfl, _, rfl, by decide +kernel⟩

theorem witness_event_level_commands :
    eventLevel (.corePll 0) = true ∧ (∃ t, exec (.corePll 0) wRun = .next t ∧ t.grid.clk = .pll ∧ t.grid.swapped = true) ∧
    (∃ t, exec (.lanePll 0) (withRegion 0 { bankA := { snap := 8 } } wRun) = .next t ∧ t.asm_.pllLost = true) ∧
    (∃ t, exec (.commit 0 .h 1) wRun = .next t ∧ t.creqs.length = 1) ∧
    (∃ t, exec (.discard 0 .h 0xFFFF) (wRun.setStaged .h 0 0x20000000) = .next t ∧ t.staged .h 0 = 0) ∧
    (∃ t, exec (.seqParity 0 0) wRun = .next t ∧ (t.cluster 0).seq = .stopped) ∧
    (∃ t, exec (.takeBlock 0 7) wRun = .next t ∧ t.upd.taking = some 7) ∧
    (∃ t, exec (.close 0 .h) wOpened = .next t ∧ t.h.sess = .closed) :=
  ⟨rfl, ⟨_, rfl, by decide +kernel⟩, ⟨_, rfl, by decide +kernel⟩, ⟨_, rfl, by decide +kernel⟩,
    ⟨_, rfl, by decide +kernel⟩, ⟨_, rfl, by decide +kernel⟩, ⟨_, rfl, by decide +kernel⟩, ⟨_, rfl, by decide +kernel⟩⟩

/-- LOCK gains a bit by its own write, and loses its bits by a reset. -/
theorem witness_lock_bits_hold :
    (∃ t, step { wOpened with pending := [.lockSet 0 .h 0x20] } = .next t ∧ t.lock = 0x20) ∧
    ∃ t, step { wRun with lock := 0x3F, pending := [.rstN 1000 true] } = .next t ∧ t.lock = 0 :=
  ⟨⟨_, rfl, by decide +kernel⟩, _, rfl, by decide +kernel⟩

/-- A reset leaves the rollback counter, and CONFIRM of an older image does not lower it. -/
theorem witness_rollback_counter_never_falls :
    (∃ t, step { wRun with nv := { rollback := 9 }, pending := [.rstN 1000 true] } = .next t ∧ t.nv.rollback = 9) ∧
    ∃ t, step { wOpened with nv := { rollback := 9, unconfirmed := true }, upd := { ustate := .unconfirmed }
                             pending := [.confirm 0 .h] } = .next t ∧ t.nv.rollback = 9 ∧ t.nv.unconfirmed = false :=
  ⟨⟨_, rfl, by decide +kernel⟩, _, rfl, by decide +kernel⟩

theorem witness_sequence_numbers_follow_the_fields :
    (∀ r ∈ ([{ bits := 1, seq := 255 }, {}] : List SqReg), (r.seq = 0 ↔ r.bits = 0)) ∧
    (sqSet { bits := 1, seq := 255 } 2).seq = 1 ∧ (sqSet {} 0x800000).seq = 1 ∧
    (sqClear { bits := 3, seq := 7 } 1).seq = 7 ∧ (sqClear { bits := 3, seq := 7 } 3).seq = 0 ∧
    ({ bits := 0xFFFFFE, seq := 1 } : SqReg).bits.toNat < 2 ^ 24 - 1 ∧
    (sqReg State.reset.h 0x010).isSome = true ∧ (sqReg State.reset.m 0x0DC).isSome = true ∧
    (sqSubtract { bits := 5, seq := 7 } 3).seq = 7 ∧ (sqSubtract { bits := 5, seq := 7 } 5).seq = 0 := by decide +kernel

theorem witness_error_counts_stay_below_four :
    errAfter .missing 3 = 3 ∧ errAfter .fault 2 = 3 ∧ errAfter .valid 3 = 0 ∧ errAfter .sprout 3 = 3 ∧
    (wRun.ep 8191).err ≤ 3 := by decide +kernel

/-! ### Ill-formed commands: one for each check of WellFormed -/

theorem test_ill_formed :
    Instr.wf (.boot ⟨false, false⟩ ⟨true, true⟩ ⟨true, true⟩ [(3, 5), (3, 5)] []) = false ∧
    Instr.wf (.boot ⟨false, false⟩ ⟨true, true⟩ ⟨true, true⟩ [] [3, 3]) = false ∧
    Instr.wf (.gridTick (List.replicate 9 { phase := 0, tdc := 0 })) = false ∧
    Instr.wf (.downstreamMessage 0 0 []) = false ∧ Instr.wf (.upstreamMessage 0 []) = false ∧
    Instr.wf (.harvest 0 0 { wHarvest with header := [] }) = false ∧
    Instr.wf (.harvest 0 0 { wHarvest with answers := List.replicate 17 (wAnswer []) }) = false ∧
    Instr.wf (.harvest 0 0 { wHarvest with answers := [wAnswer (List.replicate 21 0)] }) = false ∧
    Instr.wf (.harvestPartial 0 0 0 { wHarvest with answers := List.replicate 2 (wAnswer []) }) = false ∧
    Instr.wf (.read 0 0 (wSilent (enumFrame 0))) = false ∧ Instr.wf (.write 0 0 (wSilent (enumFrame 0))) = false ∧
    Instr.wf (.enum 0 0 (wFrame (enumFrame 0) [0, 0, 0])) = false ∧
    Instr.wf (.ident 0 0 (wSilent (readFrame 0 0))) = false ∧ Instr.wf (.closePass 0 0 (wSilent (readFrame 0 0))) = false ∧
    Instr.wf (.openPass 0 0 0 (wSilent (readFrame 0 0))) = false ∧
    Instr.wf (.convert 0 0 0 false 0 (wFrame (controlFrame 5 0 0 0) [])) = false ∧
    Instr.wf (.commitNv 0 0 0 false 0 (wFrame (controlFrame 6 0 0 0) [])) = false ∧
    Instr.wf (.sleep 0 0 0 false (wFrame (controlFrame 7 0 0 0) [])) = false ∧
    Instr.wf (.wakePing 0 0 0 false (wSilent (enumFrame 0))) = false ∧
    Instr.wf (.attest 0 0 0 (wSilent (enumFrame 0))) = false ∧
    Instr.wf (.attestTagCheck 0 0 0 (wSilent (enumFrame 0)) (wSilent (readFrame 0 9))) = false := by decide +kernel

theorem test_ill_formed_others :
    Instr.wf (.sentFrame 0 0 { wSentFrame with edges := [] }) = false ∧
    Instr.wf (.sentFrame 0 0 (wTicks (List.replicate 11 12))) = false ∧
    Instr.wf (.psi5Frame 0 0 0 { wPsi5Frame with bits := List.replicate 32 false }) = false ∧
    Instr.wf (.linFrameSlot 0 0 1 { wLin with bytes := List.replicate 9 (0, true) }) = false ∧
    Instr.wf (.linDiagPair 0 0 { wLin with bytes := List.replicate 9 (0, true) }) = false ∧
    Instr.wf (.linkRetry 0 0 [1, 1] false) = false ∧ Instr.wf (.snapshotDone 0 ⟨0, []⟩ [1, 1] []) = false ∧
    Instr.wf (.snapshotDone 0 ⟨0, []⟩ [] [1, 1]) = false ∧ Instr.wf (.snapshotDone 0 ⟨0, [1, 1]⟩ [] []) = false ∧
    Instr.wf (.uplinkRx 0 .ul0 (List.replicate 1523 0)) = false ∧
    Instr.wf (.secureBurst 0 .h false 0xC0 0x044 2 5 0 [] 0 0) = false ∧
    Instr.wf (.transactionAbort 0 .h ⟨false, .secureBurst 0xC0 0x044 0 5 0 [⟨0, 0⟩] none⟩) = false ∧
    Instr.wf (.transactionAbort 0 .h ⟨false, .secureBurst 0xC0 0x044 1 5 0 [] (some (List.replicate 8 0, 0))⟩) = false ∧
    Instr.wf (.loadPart 0 .h 5 0 []) = false ∧ Instr.wf (.sign 0 .h 5 []) = false ∧
    Instr.wf (.provPart 0 .h 5 0 []) = false ∧
    Instr.wf (.sentinelPoll 0 0 { wHarvest with header := [] } [] none []) = false ∧
    Instr.wf (.sentinelPoll 0 0 wHarvest [(0, wSilent (enumFrame 0))] none []) = false ∧
    Instr.wf (.sentinelPoll 0 0 wHarvest [] none [(1, { wLin with bytes := List.replicate 9 (0, true) })]) = false := by
  decide +kernel

/-! ### Worked examples of the spec -/

/-- The HARVEST header's six pips, and the CRC-8 of the answer of endpoint 1:307:5 (spec/04). -/
theorem test_frame_checks :
    headerSyms 0 15 = [0, 0, 3, 3, 1, 2] ∧ crc8 (msb 4 5 ++ msb 32 0x012C4F03) = 0xA4 ∧
    symsOf 40 (0x012C4F03 * 256 + 0xA4) = [0, 0, 0, 1, 0, 2, 3, 0, 1, 0, 3, 3, 0, 0, 0, 3, 2, 2, 1, 0] := by
  decide +kernel

/-- The sprout answer on lane 142 (spec/03): d_E, the tempo pip, and data pips A, B and C. -/
theorem test_sprout_answer :
    let q : DecodeWith := { og := 0, dE := 85, grade := 1, sprout := true, asc := 65536, stretched := false }
    medianI [85, 86, 85, 84, 86, 85, 87, 85] = 85 ∧ classify q none (pulse 627) = .inr 3 ∧
      classify q (some 542) (pulse 511) = .inr 2 ∧ classify q (some 542) (pulse 396) = .inr 1 ∧
      classify q (some 542) (pulse 454) = .inl .timing := by decide +kernel

/-- The SENT frame on lane 35 (spec/05): its nibbles and its CRC. -/
theorem test_sent_example :
    nibblesOf 67872 [14544, 23028, 26650, 16968, 15756, 29120, 19392, 21816] = [0, 7, 10, 2, 1, 12, 4, 6] ∧
    sentCrc true [7, 10, 2, 1, 12, 4] = 6 := by decide +kernel

/-- COMMIT with CG8 in an ordinary WRITE (spec/10): its CRC, the answer 00 B3, and the commit that waits. -/
theorem test_commit_write :
    ∃ t, exec (.portWrite 0 .h false 0x20 0x002C 0x00000100 0x6B) wRun = .next t ∧ t.h.sdo = [0x00, 0xB3] ∧
      t.creqs = [{ port := .h, groups := 0x0100, due := 104000 }] :=
  ⟨_, rfl, by decide +kernel⟩

/-- A stall read of an empty queue ends with 5A 00 42 (spec/10). -/
theorem test_empty_item : stallBytes none = [0x5A, 0x00, 0x42] := by decide +kernel

/-- Port H in TEST with QUEUE and COMMIT set under SEQ 0x2D, which CAPTURE has made 0x2E. -/
def wTest : State :=
  withPort .h (fun x => { x with glb := sqSet { bits := 0x0C0000, seq := 0x2D } 0x020000, irqEn := 0x0E0000 })
    (withMode (fun m => { m with dev := .test }) wRun)

/-- Clearing GLB_STATUS in TEST (spec/11): step 3 is stale, step 4 reads 0x2E0E_0000 and step 5 clears. -/
theorem test_clear_glb_status :
    (∃ t, exec (.seqWriteBack 0 .h 0x010 0x2D0C0000) wTest = .next t ∧ t.h.glb = wTest.h.glb) ∧
    dirWord wTest .h 0x010 = 0x2E0E0000 ∧
    ∃ t, exec (.seqWriteBack 0 .h 0x010 0x2E0E0000) wTest = .next t ∧ t.h.glb.bits = 0 ∧ t.h.glb.seq = 0 :=
  ⟨⟨_, rfl, by decide +kernel⟩, by decide +kernel, _, rfl, by decide +kernel⟩

/-- Lane 307 and the table index of its position 5 (spec/00). -/
theorem test_numbers : laneRegion 307 = 4 ∧ laneCluster 307 = 38 ∧ lanePlace 307 = 3 ∧ epIdx 307 5 = 4917 := by decide

/-- A calibrated pulse at both ends of a window and just outside, by grade, and a late one (R197, R78). -/
def pulseAnswer (g : Nat) (stretched : Bool) (as lm : Int) : AnswerEnd ⊕ Nat :=
  classify ⟨0, 3, g, false, as, stretched⟩ (some 560) ⟨800, some (800 + 8 * (lm + 3))⟩

theorem witness_PulsesDecodeInCalibratedWindows :
    pulseAnswer 1 false 65536 280 = .inr 1 ∧ pulseAnswer 1 false 65536 279 = .inl .timing ∧
      pulseAnswer 1 false 65536 359 = .inr 1 ∧ pulseAnswer 1 false 65536 360 = .inl .timing ∧
      pulseAnswer 0 false 61604 94 = .inr 0 ∧ pulseAnswer 2 false 69468 1200 = .inr 3 ∧
      pulseAnswer 2 false 69468 1201 = .inl .late ∧ pulseAnswer 2 true 69468 1201 = .inr 3 := by decide

end Sys2Proof.Tests
end

section
/-!
SUPPORT. What a device reset leaves (R12): the parts of the state that it sets, and those that it keeps.
-/

namespace Sys2Proof.Machine

@[simp] theorem deviceReset_h (s : State) (cause : Nat) (lead : Bool) : (deviceReset s cause lead).h = {} := rfl
@[simp] theorem deviceReset_m (s : State) (cause : Nat) (lead : Bool) : (deviceReset s cause lead).m = {} := rfl
@[simp] theorem deviceReset_cfg (s : State) (cause : Nat) (lead : Bool) : (deviceReset s cause lead).cfg = {} := rfl
@[simp] theorem deviceReset_lock (s : State) (cause : Nat) (lead : Bool) : (deviceReset s cause lead).lock = 0 := rfl
@[simp] theorem deviceReset_cstat (s : State) (cause : Nat) (lead : Bool) :
    (deviceReset s cause lead).cstat = {} := rfl
@[simp] theorem deviceReset_lockdown (s : State) (cause : Nat) (lead : Bool) :
    (deviceReset s cause lead).alarm.lockdown = false := rfl
@[simp] theorem deviceReset_mode (s : State) (cause : Nat) (lead : Bool) :
    (deviceReset s cause lead).mode = { cause := BitVec.ofNat 4 cause, resets := s.mode.resets + 1 } := rfl
@[simp] theorem deviceReset_pending (s : State) (cause : Nat) (lead : Bool) :
    (deviceReset s cause lead).pending = s.pending := rfl
@[simp] theorem deviceReset_nv (s : State) (cause : Nat) (lead : Bool) :
    (deviceReset s cause lead).nv = resetNv s := rfl

/-- Ports H and M after a device reset are those of the reset state. -/
theorem deviceReset_port (s : State) (cause : Nat) (lead : Bool) {p : Port} (hp : p ≠ .u) :
    (deviceReset s cause lead).port p = State.reset.port p := by
  cases p
  case u => exact absurd rfl hp
  all_goals rfl

/-- Without a SAVE_CONFIG under way, a device reset leaves the non-volatile areas alone (R12). -/
theorem resetNv_idle {s : State} (hh : saveRunning s .h = false) (hm : saveRunning s .m = false) : resetNv s = s.nv := by
  simp [resetNv, hh, hm]

/-- A SAVE_CONFIG under way loses the copy that it was writing, and no more (R470). -/
theorem resetNv_saving {s : State} (h : saveRunning s .h = true ∨ saveRunning s .m = true) :
    resetNv s = { s.nv with cfgA := (resetNv s).cfgA, cfgB := (resetNv s).cfgB } ∧
      if saveToA s.nv.oldCfg CfgCopy.converted CfgCopy.tick CfgCopy.valid s.nv.cfgA s.nv.cfgB = true
      then (resetNv s).cfgB = s.nv.cfgB ∧ ∀ c, (resetNv s).cfgA = some c → c.valid = false
      else (resetNv s).cfgA = s.nv.cfgA ∧ ∀ c, (resetNv s).cfgB = some c → c.valid = false := by
  rw [← Bool.or_eq_true] at h
  have lost : ∀ (o : Option CfgCopy) (c : CfgCopy),
      o.map (fun c => { c with valid := false }) = some c → c.valid = false := by
    intro o c hc
    obtain ⟨_, _, rfl⟩ := Option.map_eq_some_iff.1 hc
    rfl
  unfold resetNv
  rw [if_pos h]
  split
  · exact ⟨rfl, rfl, lost _⟩
  · exact ⟨rfl, rfl, lost _⟩

/-- The alarm log keeps its entries through a device reset; their times count anew (R424). -/
theorem resetAlarm_log (s : State) (cause : Nat) :
    (resetAlarm s cause).log.map (fun e => (e.number, e.tick, e.source, e.stateResp)) =
      s.alarm.log.map (fun e => (e.number, e.tick, e.source, e.stateResp)) := by
  simp [resetAlarm]

/-- The hoard is IDLE after a device reset, with the frozen trace that it held (R474). -/
theorem resetHoard_keeps_trace (h : HoardState) :
    (resetHoard h).hstate = .idle ∧ (resetHoard h).held = h.held ∧ (h.held = true → (resetHoard h).ring = h.ring) := by
  unfold resetHoard
  split
  · next held => exact ⟨rfl, held.symm, fun _ => rfl⟩
  · next held => exact ⟨rfl, (Bool.not_eq_true _ ▸ held).symm, fun h => absurd h held⟩

/-- A device reset, with what its own row adds to the mode: the rails that hold the device in reset (R430). -/
theorem afterReset_deviceReset (s : State) (cause : Nat) (lead : Bool) (f : ModeState → ModeState)
    (hf : ∀ m, (f m).dev = m.dev ∧ (f m).cause = m.cause ∧ (f m).booted = m.booted) :
    AfterReset s ((deviceReset s cause lead).onMode f) (BitVec.ofNat 4 cause) := by
  obtain ⟨hdev, hcause, hbooted⟩ := hf (deviceReset s cause lead).mode
  obtain ⟨hidle, hheld, hring⟩ := resetHoard_keeps_trace s.hoard
  exact ⟨hdev, hcause, hbooted, rfl, rfl, rfl, rfl, rfl, rfl, rfl, rfl, resetNv_idle, resetNv_saving,
    resetAlarm_log s cause, hidle, hheld, hring⟩

/-- The state that a rail's fall leaves: reset, and held in reset (R430). -/
theorem railReset_afterReset (s : State) (r : ResetRail) (lead : Bool) :
    ∃ t, exec (.railReset r lead) s = .next t ∧ AfterReset s t (BitVec.ofNat 4 (resetCause r)) ∧
      t.mode.inReset = true :=
  ⟨_, rfl, afterReset_deviceReset s _ lead _ fun _ => ⟨rfl, rfl, rfl⟩, rfl⟩

/-- RST_N low for at least 1 us resets the device (R520). -/
theorem rstN_afterReset (s : State) {lowNs : Nat} (h : 1000 ≤ lowNs) (lead : Bool) :
    ∃ t, exec (.rstN lowNs lead) s = .next t ∧ AfterReset s t 0x1 ∧ t.mode.inReset = s.mode.inReset := by
  refine ⟨_, congrArg Host.Outcome.next (if_pos (Or.inl h)), afterReset_deviceReset s 1 lead _ fun _ => ⟨rfl, rfl, rfl⟩, rfl⟩

/-- RST_N low for at most 200 ns does nothing (R520). -/
theorem rstN_rejected (s : State) {lowNs : Nat} (h : lowNs ≤ 200) (lead : Bool) :
    exec (.rstN lowNs lead) s = .next s :=
  congrArg Host.Outcome.next (if_neg (by omega))

/-- Settles O2. -/
theorem resetsBeginBoot : Obligations.ResetsBeginBoot := by
  intro s lead
  refine ⟨⟨_, rfl, afterReset_deviceReset s 0 lead id fun _ => ⟨rfl, rfl, rfl⟩, rfl⟩,
    fun _ h => rstN_afterReset s h lead, fun _ h => rstN_rejected s h lead, ?_, ?_, ?_, ?_⟩
  · exact railReset_afterReset s .vio lead
  · exact railReset_afterReset s .vddLane lead
  · exact railReset_afterReset s .vddCore lead
  · exact railReset_afterReset s .vdda18 lead

/-! ### The Reset columns -/

/-- ALARM_POLICY, SUPPLY_THRESH and GRID_CTL are no words of a loop: what is in force is what they read as. -/
theorem calNow_alarmPolicy (s : State) : calNow s kAlarmPolicy = s.inForce kAlarmPolicy := by
  simp only [calNow, show word4 kAlarmPolicy = .alarmPolicy from by decide +kernel]
theorem calNow_supplyThresh (s : State) : calNow s kSupplyThresh = s.inForce kSupplyThresh := by
  simp only [calNow, show word4 kSupplyThresh = .supplyThresh from by decide +kernel]
theorem calNow_gridCtl (s : State) : calNow s kGridCtl = s.inForce kGridCtl := by
  simp only [calNow, show word4 kGridCtl = .gridCtl from by decide +kernel]

/-- A staged word that is no word of a loop depends on the configuration and the port's view alone. -/
theorem viewWord_congr {s t : State} {p : Port} {k : Nat} (hp : s.port p = t.port p) (hc : s.cfg = t.cfg)
    (hk : ∀ s : State, calNow s k = s.inForce k) : viewWord s p k = viewWord t p k := by
  have hf : s.inForce k = t.inForce k := by simp only [State.inForce, hc]
  have hs : s.staged p k = t.staged p k := by
    cases p
    case u => exact hf
    all_goals simp only [State.staged, hc]
  simp only [viewWord, hp, hk, hf, hs]

/-- The direct registers of Ports H and M that stand at a fixed value after a reset, with their Reset columns (R326
to R344). -/
def resetColumn : List (Nat × Word) :=
  [(0x00C, 0), (0x010, 0), (0x014, 0), (0x018, 0), (0x01C, 0x00110568), (0x020, 0), (0x024, 0), (0x028, 0),
    (0x030, 0), (0x040, 0), (0x04C, 0), (0x050, 0x433E8003), (0x060, 0x00005064), (0x0E4, 0), (0x0E8, 0x20)]

/-- The reset state reads the Reset columns. -/
theorem dirWord_reset {p : Port} (hp : p ≠ .u) : ∀ x ∈ resetColumn, dirWord State.reset p x.1 = x.2 := by
  cases p
  case h => decide +kernel
  case m => decide +kernel
  case u => exact absurd rfl hp

/-- These registers read after a device reset what they read in the reset state: nothing that the device keeps
shows in them. -/
theorem dirWord_deviceReset (s : State) (cause : Nat) (lead : Bool) {p : Port} (hp : p ≠ .u) :
    ∀ x ∈ resetColumn, dirWord (deviceReset s cause lead) p x.1 = dirWord State.reset p x.1 := by
  have hport := deviceReset_port s cause lead hp
  have hview := fun k => viewWord_congr (k := k) hport (deviceReset_cfg s cause lead)
  have halarm : alarmWord (deviceReset s cause lead) p = alarmWord State.reset p := by
    simp only [alarmWord, if_neg hp, hport]; rfl
  have hsupply : supplyWord (deviceReset s cause lead) p = supplyWord State.reset p := by
    simp only [supplyWord, hport]; rfl
  have hsession : sessionWord (deviceReset s cause lead) p = sessionWord State.reset p := by
    simp only [sessionWord, hport]; rfl
  simp only [resetColumn, List.forall_mem_cons, dirWord, hport, hview _ calNow_alarmPolicy,
    hview _ calNow_supplyThresh, hview _ calNow_gridCtl, halarm, hsupply, hsession]
  simp [State.reset]

/-- Settles O48. -/
theorem registersHoldTheirResetValues : Obligations.RegistersHoldTheirResetValues :=
  ⟨rfl, rfl, fun s cause lead _ hp x hx =>
    ⟨(dirWord_deviceReset s cause lead hp x hx).trans (dirWord_reset hp x hx), dirWord_reset hp x hx⟩⟩

end Sys2Proof.Machine
end

section
/-!
SUPPORT. Why a command on one lane can touch another lane's endpoint: the position being enumerated is a plain
number, and IDENT, unlike ENUM and CLOSE_PASS, does not compare it with the lane's highest position.
-/

namespace Sys2Proof.Machine

/-- Lane 0 in its enumeration, owing the IDENT of position 16, which no chain has (R5, R121): table index 16 is
position 0 of lane 1. Enumeration itself never comes to this state. -/
def strayIdent : State :=
  ({ State.reset with grid := { now := 100000 } } : State).setLane 0
    { mode := .aknun, lstate := .enumerating, enumPos := some 16, enumStep := 1 }

/-- That IDENT as the lane drives it, without an answer. -/
def strayWire : FrameWire :=
  { hi := 0, markLow := 0, mark := { fall := 0, rise := some 16000 }
    header := (headerSyms 4 16).map (fun x => { fall := 0, rise := some (8 * (200 + 120 * x)) }), body := []
    answer := { low := 0, pips := [], pace := none } }

/-- The IDENT enters its answer, which is not late, into the history of lane 1's first endpoint (R184). -/
theorem strayIdent_marks_lane1 :
    ∃ t, exec (.ident 0 0 strayWire) strayIdent = .next t ∧ (t.ep 16).lateHist = [false] ∧
      (strayIdent.ep 16).lateHist = [] :=
  ⟨_, rfl, by decide +kernel, by decide +kernel⟩

/-- Refutes O54: in a state whose enumeration stands beyond the chain's last place, the IDENT of lane 0 changes an
endpoint of lane 1. -/
theorem not_laneCommandsKeepTheRest : ¬ Obligations.LaneCommandsKeepTheRest := by
  intro h
  obtain ⟨t, ht, hafter, hbefore⟩ := strayIdent_marks_lane1
  obtain ⟨-, -, -, -, -, -, heps, -⟩ := h (.ident 0 0 strayWire) 0 strayIdent t rfl ht
  have hep : t.ep 16 = strayIdent.ep 16 := (heps 16 (by decide)).1
  rw [hep, hbefore] at hafter
  exact absurd hafter (by decide)

end Sys2Proof.Machine
end

section
/-!
SUPPORT. The count of device resets (log entry 51): what the words of a burst and the actions that they call
leave alone. A reset raises it, and that is how a frame knows that its later parts find no transaction.
-/

namespace Sys2Proof.Machine

@[simp] theorem setInForce_resets (s : State) (a : Nat) (w : Word) :
    (State.setInForce s a w).mode.resets = s.mode.resets := by simp [State.setInForce]
@[simp] theorem setStaged_resets (s : State) (p : Port) (a : Nat) (w : Word) :
    (State.setStaged s p a w).mode.resets = s.mode.resets := by unfold State.setStaged; split <;> simp
@[simp] theorem setSecStaged_resets (s : State) (p : Port) (l : List (Nat × Word)) :
    (State.setSecStaged s p l).mode.resets = s.mode.resets := by unfold State.setSecStaged; split <;> simp
@[simp] theorem ruleChange_resets (s : State) :
    (ruleChange s).mode.resets = s.mode.resets := by unfold ruleChange; split <;> simp
@[simp] theorem requestCapture_resets (s : State) (restart : Bool) :
    (requestCapture s restart).mode.resets = s.mode.resets := by simp [requestCapture]
@[simp] theorem runLanes_resets (s : State) :
    (runLanes s).mode.resets = s.mode.resets :=
  keep_foldl (fun s => s.mode.resets) fun s a => by (repeat' split) <;> simp
@[simp] theorem unstage_resets (p : Port) (s : State) (am : Nat × Word) :
    (unstage p s am).mode.resets = s.mode.resets := by simp [unstage]
@[simp] theorem discardSession_resets (s : State) (p : Port) :
    (discardSession s p).mode.resets = s.mode.resets := by
  simp only [discardSession, setSecStaged_resets]
  exact keep_foldl (fun s => s.mode.resets) (unstage_resets p)
@[simp] theorem supervise_resets (s : State) (p : Port) :
    (supervise s p).mode.resets = s.mode.resets := by
  unfold supervise
  dsimp only
  (repeat' split) <;> simp
@[simp] theorem closeSession_resets (s : State) (p : Port) :
    (closeSession s p).mode.resets = s.mode.resets := by unfold closeSession; split <;> simp
@[simp] theorem abandonVault_resets (s : State) (p : Port) :
    (abandonVault s p).mode.resets = s.mode.resets := by simp [abandonVault]
@[simp] theorem logAlarm_resets (s : State) (n : Nat) (resp : Nat) :
    (logAlarm s n resp).mode.resets = s.mode.resets := by
  unfold logAlarm
  dsimp only
  (repeat' split) <;> rfl
@[simp] theorem alarmNotice_resets (s : State) (n : Nat) (resp : Nat) :
    (alarmNotice s n resp).mode.resets = s.mode.resets := by unfold alarmNotice; split <;> simp
@[simp] theorem abandonProv_resets (s : State) :
    (abandonProv s).mode.resets = s.mode.resets := by
  unfold abandonProv
  dsimp only
  split <;> simp
@[simp] theorem closeBoth_resets (s : State) : (closeBoth s).mode.resets = s.mode.resets := by simp [closeBoth]
@[simp] theorem stopExport_resets (s : State) :
    (stopExport s).mode.resets = s.mode.resets := by unfold stopExport; split <;> simp
@[simp] theorem lockStreams_resets (s : State) :
    (lockStreams s).mode.resets = s.mode.resets := by
  unfold lockStreams
  refine keep_foldl (fun s => s.mode.resets) fun s k => ?_
  dsimp only
  split <;> simp
@[simp] theorem refuseMode_resets (s : State) :
    (refuseMode s).mode.resets = s.mode.resets := by unfold refuseMode; split <;> simp
@[simp] theorem abandonActivation_resets (s : State) :
    (abandonActivation s).mode.resets = s.mode.resets := by unfold abandonActivation; split <;> simp
@[simp] theorem leaveDev_resets (s : State) (d : DevState) :
    (leaveDev s d).mode.resets = s.mode.resets := by
  unfold leaveDev
  dsimp only
  simp only [setDev_mode]
  split
  · refine Eq.trans (keep_foldl (fun s => s.mode.resets) ?_) (Eq.trans (keep_foldl (fun s => s.mode.resets) ?_) ?_)
    · intro s g; simp
    · intro s n; split <;> simp
    · rfl
  · rfl
@[simp] theorem lockdownActions_resets (s : State) :
    (lockdownActions s).mode.resets = s.mode.resets := by
  unfold lockdownActions
  dsimp only
  (repeat' split) <;> simp
@[simp] theorem zeroSlot_resets (s : State) (i : Nat) :
    (zeroSlot s i).mode.resets = s.mode.resets := by simp [zeroSlot]
@[simp] theorem eraseStreamKeys_resets (s : State) :
    (eraseStreamKeys s).mode.resets = s.mode.resets := by
  unfold eraseStreamKeys
  refine keep_foldl (fun s => s.mode.resets) fun s k => ?_
  dsimp only
  (repeat' split) <;> simp
@[simp] theorem erase1Actions_resets (s : State) :
    (erase1Actions s).mode.resets = s.mode.resets := by simp [erase1Actions]
@[simp] theorem calSaveWrite_resets (s : State) :
    (calSaveWrite s).mode.resets = s.mode.resets := by
  unfold calSaveWrite
  dsimp only
  (repeat' split) <;> simp
@[simp] theorem hoardBlock_resets (s : State) (typ : Nat) (lane : Nat) (body : Bytes) :
    (hoardBlock s typ lane body).mode.resets = s.mode.resets := by
  unfold hoardBlock
  dsimp only
  (repeat' split) <;> simp
@[simp] theorem happen_resets (s : State) (n : Nat) (tick : BitVec 48) (kind : Nat) (pos : Nat) (arg : Bytes) :
    (happen s n tick kind pos arg).mode.resets = s.mode.resets := by unfold happen; split <;> simp
@[simp] theorem regionLost_resets (s : State) (g : Nat) (num : BitVec 48) :
    (regionLost s g num).mode.resets = s.mode.resets := keep_foldl (fun s => s.mode.resets) fun s a => by simp
@[simp] theorem flushRegion_resets (s : State) (g : Nat) :
    (flushRegion s g).mode.resets = s.mode.resets := by
  unfold flushRegion
  dsimp only
  (repeat' split) <;> simp
@[simp] theorem accComplete_resets (s : State) (n : Nat) (st : AccState) (d0 : Option Word) (d1 : Option Word) :
    (accComplete s n st d0 d1).mode.resets = s.mode.resets := by
  unfold accComplete
  dsimp only
  (repeat' split) <;> simp
@[simp] theorem startRephase_resets (s : State) (c : Int) (offset : Option Int) :
    (startRephase s c offset).mode.resets = s.mode.resets := by simp [startRephase]
@[simp] theorem hostRephase_resets (s : State) :
    (hostRephase s).mode.resets = s.mode.resets := by unfold hostRephase; split <;> simp
@[simp] theorem openSession_resets (s : State) (p : Port) :
    (openSession s p).mode.resets = s.mode.resets := by
  unfold openSession
  dsimp only
  (repeat' split) <;> simp [State.draw]
@[simp] theorem closeWrite_resets (s : State) (p : Port) :
    (closeWrite s p).mode.resets = s.mode.resets := by simp [closeWrite]
@[simp] theorem losePort_resets (s : State) (p : Port) :
    (losePort s p).mode.resets = s.mode.resets := by simp [losePort]
@[simp] theorem reclaimPort_resets (s : State) (p : Port) :
    (reclaimPort s p).mode.resets = s.mode.resets := by unfold reclaimPort; split <;> simp
@[simp] theorem portReset_resets (s : State) (p : Port) :
    (portReset s p).mode.resets = s.mode.resets := by
  unfold portReset
  dsimp only
  (repeat' split) <;> simp
@[simp] theorem commitWrite_resets (s : State) (p : Port) (groups : BitVec 16) :
    (commitWrite s p groups).mode.resets = s.mode.resets := by unfold commitWrite; split <;> simp
@[simp] theorem takeSec_resets (s : State) (p : Port) (g : BitVec 16) :
    (takeSec s p g).mode.resets = s.mode.resets := by simp [takeSec]
@[simp] theorem lockWrite_resets (s : State) (bits : BitVec 6) :
    (lockWrite s bits).mode.resets = s.mode.resets := by unfold lockWrite; split <;> simp
@[simp] theorem discardWrite_resets (s : State) (p : Port) (groups : BitVec 16) :
    (discardWrite s p groups).mode.resets = s.mode.resets := by
  simp only [discardWrite, takeSec_resets]
  exact keep_foldl (fun s => s.mode.resets) fun s a => by split <;> simp
@[simp] theorem hoardWrite_resets (s : State) (w : Word) :
    (hoardWrite s w).mode.resets = s.mode.resets := by simp [hoardWrite]
@[simp] theorem takeWrite_resets (s : State) (block : Byte) :
    (takeWrite s block).mode.resets = s.mode.resets := by simp [takeWrite]
@[simp] theorem abortWrite_resets (s : State) :
    (abortWrite s).mode.resets = s.mode.resets := by unfold abortWrite; split <;> simp
@[simp] theorem verifyWrite_resets (s : State) : (verifyWrite s).mode.resets = s.mode.resets := by simp [verifyWrite]
@[simp] theorem activateWrite_resets (s : State) (rolling : Bool) :
    (activateWrite s rolling).mode.resets = s.mode.resets := by simp [activateWrite]
@[simp] theorem confirmWrite_resets (s : State) :
    (confirmWrite s).mode.resets = s.mode.resets := by simp [confirmWrite]
@[simp] theorem modeRequest_resets (s : State) (d : DevState) :
    (modeRequest s d).mode.resets = s.mode.resets := by
  unfold modeRequest
  dsimp only
  (repeat' split) <;> simp
@[simp] theorem submit_resets (s : State) (p : Port) (n : Nat) (secure : Bool) :
    (submit s p n secure).mode.resets = s.mode.resets := by
  unfold submit
  dsimp only
  split <;> simp
@[simp] theorem accWrite_resets (s : State) (p : Port) (n : Nat) (off : Nat) (d : Word) (secure : Bool) :
    (accWrite s p n off d secure).mode.resets = s.mode.resets := by
  unfold accWrite
  dsimp only
  (repeat' split) <;> simp
@[simp] theorem linOutWrite_resets (s : State) (i : Nat) (d : Word) :
    (linOutWrite s i d).mode.resets = s.mode.resets := by unfold linOutWrite; split <;> simp
@[simp] theorem stage_resets (s : State) (p : Port) (a : Nat) (d : Word) (m : Word) (secure : Bool) :
    (stage s p a d m secure).mode.resets = s.mode.resets := by simp [stage]
@[simp] theorem injectWord_resets (s : State) (d : Word) :
    (injectWord s d).mode.resets = s.mode.resets := by simp [injectWord]
@[simp] theorem putInd_resets (s : State) (p : Port) (a : Nat) (d : Word) (m : Word) (secure : Bool) :
    (putInd s p a d m secure).mode.resets = s.mode.resets := by
  unfold putInd
  dsimp only
  (repeat' split) <;> simp
@[simp] theorem sessionWrite_resets (s : State) (p : Port) (d : Word) :
    (sessionWrite s p d).mode.resets = s.mode.resets := by
  unfold sessionWrite
  (repeat' split) <;> simp
@[simp] theorem flushQueue_resets (s : State) (p : Port) :
    (flushQueue s p).mode.resets = s.mode.resets := by simp [flushQueue]
@[simp] theorem evqWrite_resets (s : State) (p : Port) (d : Word) :
    (evqWrite s p d).mode.resets = s.mode.resets := by unfold evqWrite; split <;> simp
@[simp] theorem updateWriteU_resets (s : State) (d : Word) :
    (updateWriteU s d).mode.resets = s.mode.resets := by
  unfold updateWriteU
  dsimp only
  (repeat' split) <;> simp
@[simp] theorem updateWriteHM_resets (s : State) (d : Word) (m : Word) (secure : Bool) :
    (updateWriteHM s d m secure).mode.resets = s.mode.resets := by
  unfold updateWriteHM
  dsimp only
  (repeat' split) <;> simp
@[simp] theorem hoardCtlWrite_resets (s : State) (d : Word) (secure : Bool) :
    (hoardCtlWrite s d secure).mode.resets = s.mode.resets := by simp [hoardCtlWrite]
@[simp] theorem indCtlWrite_resets (s : State) (p : Port) (d : Word) :
    (indCtlWrite s p d).mode.resets = s.mode.resets := by unfold indCtlWrite; split <;> simp
@[simp] theorem noteAddr_resets (s : State) (p : Port) (a : Nat) :
    (noteAddr s p a).mode.resets = s.mode.resets := by simp [noteAddr]
@[simp] theorem noteDenied_resets (s : State) (p : Port) (a : Nat) :
    (noteDenied s p a).mode.resets = s.mode.resets := by simp [noteDenied]

end Sys2Proof.Machine
end

section
/-!
SUPPORT. What a command can do to the queue, LOCK and the rollback counter (R320, R511): it leaves the queue, takes no
bit from LOCK and does not lower the counter, or it resets the device, after which nothing but ports, lanes and the
like has moved. Where a frame goes on after each of its words, the count of resets tells which of the two it was.
-/

namespace Sys2Proof.Machine

/-! ### The two outcomes -/

/-- The queue is the same, LOCK has lost no bit, and the rollback counter has not fallen. -/
structure Grows (s t : State) : Prop where
  pending : t.pending = s.pending
  lock : s.lock &&& t.lock = s.lock
  rollback : s.nv.rollback.toNat ≤ t.nv.rollback.toNat

/-- The device has been reset since `s`, with the queue the same and the rollback counter no lower. -/
structure WasReset (s t : State) : Prop where
  pending : t.pending = s.pending
  rollback : s.nv.rollback.toNat ≤ t.nv.rollback.toNat
  fresh : FreshlyReset t

/-- What every command does to the lasting parts of the state. -/
def Lasts (s t : State) : Prop := Grows s t ∨ WasReset s t

/-- The same, told apart by the count of resets (log entry 51). -/
def Counted (s t : State) : Prop :=
  Grows s t ∧ t.mode.resets = s.mode.resets ∨ WasReset s t ∧ s.mode.resets < t.mode.resets

theorem Grows.of_lasting {s t : State} (h : t.lasting = s.lasting) : Grows s t := by
  simp only [State.lasting, Prod.mk.injEq] at h
  obtain ⟨hp, hl, hr⟩ := h
  exact ⟨hp, by simp [hl], by rw [hr]⟩

theorem Grows.trans {s u t : State} (h : Grows s u) (h' : Grows u t) : Grows s t where
  pending := h'.pending.trans h.pending
  lock := by rw [← h.lock, BitVec.and_assoc, h'.lock]
  rollback := h.rollback.trans h'.rollback

/-- What keeps the stores of a device that has just been reset leaves it such a device. -/
theorem FreshlyReset.of_stores {t u : State} (h : FreshlyReset t) (hs : u.stores = t.stores) : FreshlyReset u := by
  obtain ⟨s, cause, lead, hr⟩ := h
  exact ⟨s, cause, lead, hs.trans hr⟩

/-- LOCK is clear after a device reset (R320). -/
theorem FreshlyReset.lock {t : State} (h : FreshlyReset t) : t.lock = 0 := by
  obtain ⟨s, cause, lead, hr⟩ := h
  exact congrArg State.lock hr

/-- A device reset does not touch the rollback counter (R12). -/
theorem resetNv_rollback (s : State) : (resetNv s).rollback = s.nv.rollback := by
  unfold resetNv
  (repeat' split) <;> rfl

theorem wasReset_deviceReset (s : State) (cause : Nat) (lead : Bool) : WasReset s (deviceReset s cause lead) where
  pending := rfl
  rollback := le_of_eq (congrArg BitVec.toNat (resetNv_rollback s).symm)
  fresh := ⟨s, cause, lead, rfl⟩

theorem WasReset.after {s u t : State} (h : Grows s u) (h' : WasReset u t) : WasReset s t :=
  ⟨h'.pending.trans h.pending, h.rollback.trans h'.rollback, h'.fresh⟩

theorem WasReset.of_stores {s t u : State} (h : WasReset s t) (hs : u.stores = t.stores) : WasReset s u :=
  have hg := Grows.of_lasting (lasting_of_stores hs)
  ⟨hg.pending.trans h.pending, h.rollback.trans hg.rollback, h.fresh.of_stores hs⟩

/-- A reset, with what its row then adds to the mode. -/
theorem wasReset_onMode (s : State) (cause : Nat) (lead : Bool) (f : ModeState → ModeState) :
    WasReset s ((deviceReset s cause lead).onMode f) := (wasReset_deviceReset s cause lead).of_stores rfl

/-! ### Before and after -/

theorem Lasts.after {s u t : State} (hl : u.lasting = s.lasting) (h : Lasts u t) : Lasts s t :=
  h.imp (Grows.of_lasting hl).trans (WasReset.after (Grows.of_lasting hl))

theorem Lasts.of_stores {s t u : State} (h : Lasts s t) (hs : u.stores = t.stores) : Lasts s u :=
  h.imp (fun h => h.trans (Grows.of_lasting (lasting_of_stores hs))) (fun h => h.of_stores hs)

theorem Counted.lasts {s t : State} (h : Counted s t) : Lasts s t := h.imp And.left And.left

/-- What keeps the lasting parts and the count. -/
theorem Counted.of_lasting {s t : State} (hl : t.lasting = s.lasting) (hr : t.mode.resets = s.mode.resets) :
    Counted s t := .inl ⟨.of_lasting hl, hr⟩

theorem Counted.after_grows {s u t : State} (hg : Grows s u) (hr : u.mode.resets = s.mode.resets) (h : Counted u t) :
    Counted s t :=
  h.imp (fun ⟨h, h'⟩ => ⟨hg.trans h, h'.trans hr⟩) (fun ⟨h, h'⟩ => ⟨.after hg h, hr ▸ h'⟩)

theorem Counted.after {s u t : State} (hl : u.lasting = s.lasting) (hr : u.mode.resets = s.mode.resets)
    (h : Counted u t) : Counted s t := h.after_grows (.of_lasting hl) hr

theorem Counted.of_stores {s t u : State} (h : Counted s t) (hs : u.stores = t.stores)
    (hr : u.mode.resets = t.mode.resets) : Counted s u :=
  h.imp (fun ⟨h, h'⟩ => ⟨h.trans (.of_lasting (lasting_of_stores hs)), hr.trans h'⟩)
    (fun ⟨h, h'⟩ => ⟨h.of_stores hs, hr ▸ h'⟩)

/-- A device whose count has not moved has not been reset. -/
theorem Counted.grows {s t : State} (h : Counted s t) (hr : t.mode.resets = s.mode.resets) : Grows s t := by
  obtain ⟨h, -⟩ | ⟨-, h⟩ := h
  · exact h
  · exact absurd hr (Nat.ne_of_gt h)

/-! ### The alarm (R419 to R422) -/

/-- ERASE-2 resets the device at its end (R421). -/
theorem erase2Actions_counted (s : State) : Counted s (erase2Actions s) := by
  unfold erase2Actions
  refine .inr ⟨.after (.of_lasting ?_) (wasReset_onMode _ 2 _ _), ?_⟩ <;> simp

theorem alarmAction_lasting {resp : Nat} (h : resp ≠ 3) (s : State) : (alarmAction s resp).lasting = s.lasting := by
  unfold alarmAction
  split
  case h_3 => exact absurd rfl h
  all_goals simp

theorem alarmAction_counted (s : State) (resp : Nat) : Counted s (alarmAction s resp) := by
  unfold alarmAction
  split
  · exact .of_lasting (by simp) (by simp)
  · exact .of_lasting (by simp) (by simp)
  · exact erase2Actions_counted s
  · exact .of_lasting rfl rfl

theorem fireAlarm_counted (s : State) (n : Nat) : Counted s (fireAlarm s n) :=
  (alarmAction_counted _ _).after (by simp) (by simp)

/-- The NOTICE actions of several sources (R422). -/
theorem notices_lasting (s : State) (ns : List Nat) :
    (ns.foldl (fun u n => abandonProv (alarmNotice u n (alarmResponse s n))) s).lasting = s.lasting :=
  lasting_foldl fun u n => by simp

/-- Alarms of which none takes ERASE-2. -/
theorem fireAlarms_lasting {s : State} {ns : List Nat} (h : (ns.map (alarmResponse s)).contains 3 = false) :
    (fireAlarms s ns).lasting = s.lasting := by
  unfold fireAlarms
  simp only [List.foldl, h, Bool.false_eq_true, if_false]
  (repeat' split) <;> simp [alarmAction_lasting, notices_lasting]

/-- ERASE-2 comes after the other responses, so that nothing follows its reset. -/
theorem fireAlarms_lasts (s : State) (ns : List Nat) : Lasts s (fireAlarms s ns) := by
  cases h : (ns.map (alarmResponse s)).contains 3
  · exact .inl (.of_lasting (fireAlarms_lasting h))
  · unfold fireAlarms
    simp only [List.foldl, h, if_true]
    refine (alarmAction_counted _ 3).lasts.after ?_
    (repeat' split) <;> simp [alarmAction_lasting, notices_lasting]

/-! ### Sessions and vault requests -/

theorem sessionFailure_counted (s : State) (p : Port) : Counted s (sessionFailure s p) := by
  unfold sessionFailure
  dsimp only
  split
  · exact (fireAlarm_counted _ 8).after (by simp) (by simp)
  · exact .of_lasting (by simp) (by simp)

theorem takeRequest_counted (s : State) (p : Port) (ctr : Option Word) : Counted s (takeRequest s p ctr) := by
  unfold takeRequest
  dsimp only
  split
  · exact .of_lasting rfl rfl
  split
  · exact (fireAlarm_counted _ 9).after (by simp) (by simp)
  · exact .of_lasting (by simp) (by simp)

theorem checkResponse_counted (s : State) (p : Port) : Counted s (checkResponse s p) := by
  unfold checkResponse
  refine iteInduction (motive := Counted s) (fun _ => ?_) (fun _ => ?_)
  · exact .of_lasting (by simp) (by simp)
  · exact (sessionFailure_counted _ p).after (by simp) (by simp)

/-- Accepting a counter writes the port alone (R299). -/
theorem acceptCtr_eq {s u : State} {p : Port} {ctr : Word} (h : acceptCtr s p ctr = some u) :
    u = s.onPort p (fun x => { x with lastCtr := ctr }) := by
  unfold acceptCtr at h
  split at h
  · exact (Option.some.inj h).symm
  · cases h

theorem Lasts.refl (s : State) : Lasts s s := .inl (.of_lasting rfl)

/-- A frame's closing of its session (R299). -/
theorem Lasts.endSecure {s t : State} (h : Lasts s t) (p : Port) (ctr : Word) : Lasts s (endSecure t p ctr) :=
  h.of_stores (endSecure_stores t p ctr)

theorem vaultRequest_lasts (s : State) (p : Port) (ctr : Word) (op sel arg : Nat) (operand : Bytes) :
    Lasts s (vaultRequest s p ctr op sel arg operand) := by
  unfold vaultRequest
  split
  · exact .refl s
  · refine iteInduction (motive := Lasts s) (fun _ => .refl s) (fun _ => ?_)
    exact (takeRequest_counted _ _ _).lasts.after (by simp)
  · refine iteInduction (motive := Lasts s) (fun _ => .refl s) (fun _ => ?_)
    exact (checkResponse_counted _ _).lasts.after (by simp)
  · split
    · exact (sessionFailure_counted s _).lasts
    · next h =>
      rw [acceptCtr_eq h]
      refine (iteInduction (motive := Lasts s) (fun _ => ?_) (fun _ => ?_)).endSecure _ ctr
      · exact .inl (.of_lasting (by simp))
      · exact (takeRequest_counted _ _ _).lasts.after (by simp)

/-! ### One word of a port (R289 to R313) -/

/-- A LOCK write sets bits (R320). -/
theorem lockWrite_grows (s : State) (bits : BitVec 6) : Grows s (lockWrite s bits) := by
  unfold lockWrite
  split
  · exact .of_lasting rfl
  · refine Grows.trans (u := { s with lock := s.lock ||| bits }) ⟨rfl, ?_, le_rfl⟩ (.of_lasting (by simp))
    show s.lock &&& (s.lock ||| bits) = s.lock
    ext i
    simp only [BitVec.getElem_and, BitVec.getElem_or]
    cases s.lock[i] <;> rfl

/-- A big-endian number of `n` bytes is below 256 to the `n`. -/
theorem beNat_lt (bs : Bytes) : beNat bs < 256 ^ bs.length := by
  suffices h : ∀ a, bs.foldl (fun a b => a * 256 + b.toNat) a < (a + 1) * 256 ^ bs.length by simpa [beNat] using h 0
  induction bs with
  | nil => simp
  | cons b bs ih =>
    intro a
    calc (b :: bs).foldl (fun a b => a * 256 + b.toNat) a < (a * 256 + b.toNat + 1) * 256 ^ bs.length := ih _
      _ ≤ (a + 1) * 256 * 256 ^ bs.length := Nat.mul_le_mul_right _ (by have := b.isLt; omega)
      _ = (a + 1) * 256 ^ (b :: bs).length := by rw [List.length_cons, Nat.pow_succ']; ring

/-- A header field of four bytes fits a word (R500). -/
theorem imgNat_four_lt (b : ImgBank) (off : Nat) : imgNat b off 4 < 2 ^ 32 :=
  (beNat_lt _).trans_le (Nat.pow_le_pow_right (n := 256) (by omega) (List.length_take_le 4 _))

/-- CONFIRM raises the rollback counter to the running image's index, never lowers it (R511). -/
theorem confirmWrite_grows (s : State) : Grows s (confirmWrite s) := by
  have h := imgNat_four_lt (s.bank s.upd.bankB) 16
  unfold confirmWrite
  dsimp only
  have hset {u : State} (hu : Grows s u) : Grows s (setUState u .idle) := hu.trans (.of_lasting (by simp))
  refine hset ⟨rfl, BitVec.and_self, ?_⟩
  dsimp only
  split
  · next hlt => rw [BitVec.toNat_ofNat, Nat.mod_eq_of_lt h]; exact hlt.le
  · exact le_rfl

/-- UPDATE_CTL from Port H or M (R345): of its actions CONFIRM alone moves the rollback counter. -/
theorem updateWriteHM_grows (s : State) (d m : Word) (secure : Bool) : Grows s (updateWriteHM s d m secure) := by
  unfold updateWriteHM
  dsimp only
  have hend : ∀ {u : State} {c c' : Prop} [Decidable c] [Decidable c'],
      Grows u (if c then activateWrite u false else if c' then activateWrite u true else u) := by
    intro u c c' _ _
    (repeat' split) <;> exact .of_lasting (by simp)
  refine Grows.trans ?_ hend
  refine iteInduction (motive := Grows s) (fun _ => Grows.trans (.of_lasting ?_) (confirmWrite_grows _))
    (fun _ => .of_lasting ?_)
  all_goals (repeat' split) <;> simp

theorem wordWrite_counted (s : State) (p : Port) (off : Nat) (d : Word) (secure : Bool) :
    Counted s (wordWrite s p off d secure) := by
  unfold wordWrite
  dsimp only
  (repeat' split)
  · exact .of_lasting rfl rfl
  · exact (takeRequest_counted _ p none).after (by simp) (by simp)
  · exact (checkResponse_counted _ p).after (by simp) (by simp)
  · exact .of_lasting (by simp) (by simp)
  · exact .of_lasting (by simp) (by simp)

theorem wbWrite_counted (s : State) (off : Nat) (d : Word) : Counted s (wbWrite s off d) := by
  unfold wbWrite
  dsimp only
  (repeat' split)
  · exact .of_lasting rfl rfl
  · exact .of_lasting (by simp) (by simp)
  · exact (fireAlarm_counted _ 10).after (by simp) (by simp)

/-- A lock holds fields of three direct registers (R320). -/
theorem off_of_dirLocked {s : State} {p : Port} {off : Nat} {d : Word} {secure : Bool}
    (h : dirLocked s p off d secure ≠ 0) : off = 0x01C ∨ off = 0x024 ∨ off = 0x0F0 := by
  unfold dirLocked at h
  split at h
  · exact .inl ‹_›
  split at h
  · exact .inr (.inl ‹_›)
  split at h
  · exact .inr (.inr ‹_›)
  · exact absurd rfl h

/-- A refused direct write of which something is written all the same is one that a lock holds in part. -/
theorem off_of_judgeDir {s : State} {p : Port} {off : Nat} {d : Word} {secure : Bool}
    (hres : (judgeDir s p off d secure).res ≠ .ok) (hmask : (judgeDir s p off d secure).mask ≠ 0) :
    off = 0x01C ∨ off = 0x024 ∨ off = 0x0F0 := by
  by_contra hoff
  have hit : ¬ dirLocked s p off d secure ≠ 0 := fun h => hoff (off_of_dirLocked h)
  suffices h : (judgeDir s p off d secure).res = .ok ∨ (judgeDir s p off d secure).mask = 0 from h.elim hres hmask
  unfold judgeDir
  dsimp only
  rw [if_neg hit]
  (repeat' split) <;> simp [refused, accepted_]

/-- The registers with fields that a lock can hold are not among those whose write can reset the device. -/
theorem putDir_grows_of_lockable {s : State} {p : Port} {off : Nat} {d m : Word} {secure : Bool}
    (h : off = 0x01C ∨ off = 0x024 ∨ off = 0x0F0) :
    Grows s (putDir s p off d m secure) ∧ (putDir s p off d m secure).mode.resets = s.mode.resets := by
  obtain rfl | rfl | rfl := h
  · exact ⟨.of_lasting (stage_lasting s p kAlarmPolicy d _ secure), stage_resets s p kAlarmPolicy d _ secure⟩
  · exact ⟨.of_lasting (stage_lasting s p kSupplyThresh d _ secure), stage_resets s p kSupplyThresh d _ secure⟩
  · show Grows s (if p = .u then updateWriteU s d else updateWriteHM s d m secure) ∧
      (if p = .u then updateWriteU s d else updateWriteHM s d m secure).mode.resets = s.mode.resets
    split
    · exact ⟨.of_lasting (updateWriteU_lasting s d), updateWriteU_resets s d⟩
    · exact ⟨updateWriteHM_grows s d m secure, updateWriteHM_resets s d m secure⟩

theorem putDir_counted (s : State) (p : Port) (off : Nat) (d m : Word) (secure : Bool) :
    Counted s (putDir s p off d m secure) := by
  by_cases hlock : off = 0x01C ∨ off = 0x024 ∨ off = 0x0F0
  · exact .inl (putDir_grows_of_lockable hlock)
  have hplain {t : State} (hl : t.lasting = s.lasting) (hr : t.mode.resets = s.mode.resets) := Counted.of_lasting hl hr
  have hif (c : Prop) [Decidable c] {t u : State} (ht : c → Counted s t) (hu : ¬ c → Counted s u) :
      Counted s (if c then t else u) := iteInduction ht hu
  unfold putDir
  refine hif _ (fun _ => hplain (by simp) (by simp)) fun _ => ?_
  refine hif _ (fun _ => hplain (by simp) (by simp)) fun _ => ?_
  refine hif _ (fun h => absurd (.inl h) hlock) fun _ => ?_
  refine hif _ (fun h => absurd (.inr (.inl h)) hlock) fun _ => ?_
  refine hif _ (fun _ => .inl ⟨lockWrite_grows _ _, lockWrite_resets _ _⟩) fun _ => ?_
  refine hif _ (fun _ => hplain (by simp) (by simp)) fun _ => ?_
  refine hif _ (fun _ => hif _ (fun _ => hplain (by simp) (by simp)) fun _ => hplain rfl rfl) fun _ => ?_
  refine hif _ (fun _ => hplain (by simp) (by simp)) fun _ => ?_
  refine hif _ (fun _ => hplain (by simp) (by simp)) fun _ => ?_
  refine hif _ (fun _ => hif _ (fun _ => hplain (by simp) (by simp)) fun _ => hplain (by simp) (by simp)) fun _ => ?_
  refine hif _ (fun _ => hplain (by simp) (by simp)) fun _ => ?_
  refine hif _ (fun _ => wordWrite_counted _ _ _ _ _) fun _ => ?_
  refine hif _ (fun _ => hplain (by simp) (by simp)) fun _ => ?_
  refine hif _ (fun h => absurd (.inr (.inr h)) hlock) fun _ => ?_
  refine hif _ (fun _ => hplain (by simp) (by simp)) fun _ => ?_
  refine hif _ (fun _ => ?_) fun _ => ?_
  · split
    · exact hplain (by simp) (by simp)
    · exact hplain rfl rfl
  · exact hif _ (fun _ => wbWrite_counted _ _ _) fun _ => hplain rfl rfl

theorem refusal_counted (s : State) (off : Nat) (r : Result) : Counted s (refusal s off r) := by
  unfold refusal
  split
  · exact fireAlarm_counted s 9
  · split
    · exact .of_lasting (by simp) rfl
    · exact .of_lasting rfl rfl
  · exact .of_lasting rfl rfl

theorem writeDir_counted (s : State) (p : Port) (off : Nat) (d : Word) (secure : Bool) :
    Counted s (writeDir s p off d secure).2 := by
  unfold writeDir
  dsimp only
  split
  · exact putDir_counted s p off d _ secure
  · exact refusal_counted s off _

theorem writeInd_counted (s : State) (p : Port) (a : Nat) (d : Word) (secure : Bool) :
    Counted s (writeInd s p a d secure).2 := by
  unfold writeInd
  dsimp only
  generalize hu : (if mapped p a then s else noteAddr s p a) = u
  have hl : u.lasting = s.lasting := by subst hu; split <;> simp
  have hr : u.mode.resets = s.mode.resets := by subst hu; split <;> simp
  refine .after hl hr ?_
  split
  · exact .of_lasting (by simp) (by simp [setIndAddr])
  · exact fireAlarm_counted u 9
  · exact .of_lasting rfl rfl

theorem writeFrameOf_counted (s : State) (p : Port) (addr : BitVec 16) (d : Word) (secure : Bool) :
    Counted s (writeFrameOf s p addr d secure).2 := by
  unfold writeFrameOf
  dsimp only
  split
  · exact .of_lasting rfl rfl
  split
  · exact (writeInd_counted _ p _ d secure).after (by simp) (by simp [clearInd])
  · exact writeDir_counted s p _ d secure

/-! ### The words of a burst (R290 to R293, R297, R421) -/

theorem burstPut_counted (r : Rules) (p : Port) (ind secure : Bool) (a : Nat) (d : Word) (s : State) :
    Counted s (burstPut r p ind secure a d s) := by
  unfold burstPut
  split
  · split
    · exact .of_lasting (by simp) (by simp)
    · dsimp only
      split
      · exact .of_lasting (by simp) (by simp)
      · exact (fireAlarm_counted _ 9).after (by simp) (by simp)
      · exact .of_lasting (by simp) (by simp)
  split
  · exact .of_lasting rfl rfl
  dsimp only
  by_cases hres : (judgeDir (underRules r s) p a d secure).res = .ok
  · rw [if_pos hres]
    split
    · exact .of_lasting rfl rfl
    · exact putDir_counted s p a d _ secure
  · rw [if_neg hres]
    split
    · exact (refusal_counted _ _ _).after (by simp) (by simp)
    · next hmask =>
      obtain ⟨hg, hr⟩ := putDir_grows_of_lockable (s := s) (p := p) (d := d)
        (m := (judgeDir (underRules r s) p a d secure).mask) (secure := secure) (off_of_judgeDir hres hmask)
      exact ((refusal_counted _ _ _).after (by simp) (by simp)).after_grows hg hr

theorem wordDone_resets (s : State) (p : Port) (ind : Bool) (base w : Nat) :
    (wordDone s p ind base w).mode.resets = s.mode.resets := by
  unfold wordDone
  dsimp only
  split <;> simp [setIndAddr, noteCount]

theorem eq_of_not_resetHit {n : Nat} {s : State} (h : ¬ resetHit n s = true) : s.mode.resets = n := by
  simpa [resetHit] using h

/-- A reset under a word is the end of its burst (log entry 51). -/
theorem writeWords_counted (p : Port) (xs : List CrcWord) :
    ∀ (r : BurstRun) (s : State), Counted s (writeWords s.mode.resets p xs r s).2 := by
  induction xs with
  | nil => exact fun r s => .of_lasting rfl rfl
  | cons x xs ih =>
    intro r s
    unfold writeWords
    split
    · exact .of_lasting rfl rfl
    split
    · exact .of_lasting (by simp) (by simp [noteBurstCrc])
    dsimp only
    have hput := burstPut_counted r.rules p r.ind false r.addr x.data s
    split
    · exact hput
    · next h =>
      have hr := eq_of_not_resetHit h
      have hw := wordDone_resets (burstPut r.rules p r.ind false r.addr x.data s) p r.ind r.base r.words
      have := ih r.stepped (wordDone (burstPut r.rules p r.ind false r.addr x.data s) p r.ind r.base r.words)
      rw [hw, hr] at this
      exact (this.after (by simp) hw).after_grows (hput.grows hr) hr

theorem burstWriteOn_lasts (p : Port) (piece : Piece) (head : Bytes) (words : List CrcWord) (r : BurstRun)
    (s : State) : Lasts s (burstWriteOn p piece head words r s) := by
  have h := (writeWords_counted p words r s).lasts
  unfold burstWriteOn
  dsimp only
  split
  · exact h
  · exact h.of_stores (by simp)

theorem burstWriteOf_lasts (s : State) (p : Port) (piece : Piece) (fast : Bool) (cmd : Byte) (addr : BitVec 16)
    (crc : Byte) (words : List CrcWord) : Lasts s (burstWriteOf s p piece fast cmd addr crc words) := by
  unfold burstWriteOf
  split
  · split
    · exact burstWriteOn_lasts _ _ _ _ _ _
    · exact .refl s
  split
  · exact .refl s
  · have h := (burstHead_lasting (csnRise s p) p true fast cmd addr crc).trans (csnRise_lasting s p)
    exact (burstWriteOn_lasts _ _ _ _ _ _).after h

/-! ### Secure frames (R296 to R300) -/

theorem secureCheck_lasts (s : State) (p : Port) (cmd : Byte) (addr : BitVec 16) (len : Nat) (ctr : Word)
    (ds : List Word) (tag : Bytes) : Lasts s (secureCheck s p cmd addr len ctr ds tag).2 := by
  unfold secureCheck
  dsimp only
  split
  · exact .refl s
  split
  · exact (sessionFailure_counted s p).lasts
  · next h =>
    rw [acceptCtr_eq h]
    split
    · exact .inl (.of_lasting (setPort_lasting _ _ _))
    · exact (sessionFailure_counted s p).lasts

/-- An accepted secure frame has moved nothing but its port's counter (R299). -/
theorem secureCheck_eq_of_ok {s : State} {p : Port} {cmd : Byte} {addr : BitVec 16} {len : Nat} {ctr : Word}
    {ds : List Word} {tag : Bytes} (h : (secureCheck s p cmd addr len ctr ds tag).1 = .ok) :
    (secureCheck s p cmd addr len ctr ds tag).2 = s.onPort p (fun x => { x with lastCtr := ctr }) := by
  unfold secureCheck at h ⊢
  dsimp only at h ⊢
  split
  · next hc => simp [hc] at h
  next hc =>
  rw [if_neg hc] at h
  split at h
  · cases h
  next ha =>
  rw [acceptCtr_eq ha]
  split at h
  · next ht => rw [if_pos ht]
  · cases h

theorem secureTag_lasts (s : State) (p : Port) (cmd : Byte) (addr : BitVec 16) (ctr : Word) (base : Nat)
    (words : List CrcWord) (tag : Bytes) (tagCrc : Byte) :
    Lasts s (secureTag s p cmd addr ctr base words tag tagCrc).2 := by
  unfold secureTag
  split
  · exact .refl s
  · exact secureCheck_lasts _ _ _ _ _ _ _ _

theorem secureTag_eq_of_ok {s : State} {p : Port} {cmd : Byte} {addr : BitVec 16} {ctr : Word} {base : Nat}
    {words : List CrcWord} {tag : Bytes} {tagCrc : Byte}
    (h : (secureTag s p cmd addr ctr base words tag tagCrc).1 = .ok) :
    (secureTag s p cmd addr ctr base words tag tagCrc).2 = s.onPort p (fun x => { x with lastCtr := ctr }) := by
  unfold secureTag at h ⊢
  split at h
  · cases h
  · next hc => rw [if_neg hc]; exact secureCheck_eq_of_ok h

/-- The words of a secure burst, of which the one that resets the device is the last (log entry 51). -/
theorem securePuts_counted (r : Rules) (p : Port) (ind : Bool) (base : Nat) (xs : List CrcWord) :
    ∀ (w : Nat) (s : State), Counted s (securePuts s.mode.resets r p ind base w xs s) := by
  induction xs with
  | nil => exact fun w s => .of_lasting rfl rfl
  | cons x xs ih =>
    intro w s
    unfold securePuts
    dsimp only
    have hput := burstPut_counted r p ind true (burstAddr ind base w) x.data s
    split
    · exact hput
    · next h =>
      have hr := eq_of_not_resetHit h
      have hw := wordDone_resets (burstPut r p ind true (burstAddr ind base w) x.data s) p ind base w
      have := ih (w + 1) (wordDone (burstPut r p ind true (burstAddr ind base w) x.data s) p ind base w)
      rw [hw, hr] at this
      exact (this.after (by simp) hw).after_grows (hput.grows hr) hr

/-- The words of an accepted secure burst, written in a state with the header's count of resets. -/
theorem secureWrites_lasts {v s : State} (hv : v.mode.resets = s.mode.resets) (p : Port) (addr : BitVec 16)
    (ctr : Word) (base : Nat) (words : List CrcWord) : Lasts s (secureWrites v s p addr ctr base words).2 := by
  unfold secureWrites
  split
  · exact .refl s
  dsimp only
  rw [hv]
  have hput := securePuts_counted (rulesOf v) p (addr == 0x044) base words 0 s
  split
  · next h =>
    have hr : (securePuts s.mode.resets (rulesOf v) p (addr == 0x044) base 0 words s).mode.resets = s.mode.resets := by
      simpa [resetHit] using h.2.2.2
    exact ((takeRequest_counted _ p (some ctr)).after_grows (hput.grows hr) hr).lasts
  · exact hput.lasts

/-! ### Commits, messages and verification -/

/-- A lock violation is the last thing that a commit's checks do (R10, R318). -/
theorem takeCommit_lasts (s : State) (gh gm : BitVec 16) : Lasts s (takeCommit s gh gm) := by
  unfold takeCommit
  dsimp only
  split
  · exact .inl (.of_lasting (by simp))
  split
  · split
    · exact (fireAlarm_counted _ 9).lasts.after (by simp)
    · exact .inl (.of_lasting (by simp))
  · exact .inl (.of_lasting (by split <;> simp))

/-- A tamper alarm that a message carries, after the rest of its effects (R423). -/
theorem relayed_lasts {s u : State} (h : u.lasting = s.lasting) (b : Bool) :
    Lasts s (if b then fireAlarm u 11 else u) := by
  cases b
  · exact .inl (.of_lasting h)
  · exact (fireAlarm_counted u 11).lasts.after h

theorem downRx_lasts (s : State) (arrival : Int) (m : Bytes) : Lasts s (downRx s arrival m) := by
  unfold downRx
  dsimp only
  have hplain {u : State} (h : u.lasting = s.lasting) : Lasts s u := .inl (.of_lasting h)
  split
  · exact .refl s
  split
  · exact hplain (by simp)
  split
  · exact .refl s
  split
  · exact .refl s
  · exact relayed_lasts (by (repeat' split) <;> simp) _

theorem upRx_lasts (s : State) (m : Bytes) : Lasts s (upRx s m) := by
  unfold upRx
  dsimp only
  split
  · exact .refl s
  split
  · exact .inl (.of_lasting (by simp))
  refine relayed_lasts ?_ _
  split
  · exact (lasting_foldl fun u n => by simp).trans (by simp)
  · simp

/-- The boot ROM starts the image that it has verified by a device reset (R505). -/
theorem endVerify_lasts (s : State) : Lasts s (endVerify s) := by
  unfold endVerify
  dsimp only
  split
  · exact .inl (.of_lasting (by simp))
  split
  · refine .inr (.after (.of_lasting ?_) (wasReset_onMode _ _ _ _))
    exact setBank_lasting s _ _
  · exact .inl (.of_lasting (by simp))

end Sys2Proof.Machine
end

section
/-!
SUPPORT. What each command does to the queue, LOCK and the rollback counter (R320, R511): it leaves them, or it ends
in a device reset.
-/

namespace Sys2Proof.Machine

/-! ### Outcomes -/

/-- A command ends in a next state, of which `P` holds. -/
def Answers (o : Out) (P : State → Prop) : Prop := ∃ t, o = .next t ∧ P t

theorem next_lasts {s t : State} (h : Lasts s t) : Answers (.next t) (Lasts s) := ⟨t, rfl, h⟩

theorem next_plain {s t : State} (h : t.lasting = s.lasting) : Answers (.next t) (Lasts s) :=
  next_lasts (.inl (.of_lasting h))

theorem run_lasts {dt : Nat} {s : State} {f : State → State} (h : ∀ u, Lasts u (f u)) :
    Answers (run dt s f) (Lasts s) := by
  unfold run
  split
  · exact next_lasts (.refl s)
  · exact next_lasts ((h _).after (advance_lasting s dt))

theorem run_plain {dt : Nat} {s : State} {f : State → State} (h : ∀ u, (f u).lasting = u.lasting) :
    Answers (run dt s f) (Lasts s) := run_lasts fun u => .inl (.of_lasting (h u))

theorem hostFrame_lasts {dt : Nat} {p : Port} {s : State} {f : State → State} (h : ∀ u, Lasts u (f u)) :
    Answers (hostFrame dt p s f) (Lasts s) :=
  run_lasts fun u => by
    dsimp only
    split
    · exact .inl (.of_lasting (by simp))
    · exact (h _).after (by simp)

theorem hostFrame_plain {dt : Nat} {p : Port} {s : State} {f : State → State} (h : ∀ u, (f u).lasting = u.lasting) :
    Answers (hostFrame dt p s f) (Lasts s) := hostFrame_lasts fun u => .inl (.of_lasting (h u))

theorem hostWrite_lasts {dt : Nat} {p : Port} {s : State} {f : State → State} (h : ∀ u, Lasts u (f u)) :
    Answers (hostWrite dt p s f) (Lasts s) :=
  hostFrame_lasts fun u => iteInduction (motive := Lasts u) (fun _ => .refl u) (fun _ => h u)

theorem hostWrite_plain {dt : Nat} {p : Port} {s : State} {f : State → State} (h : ∀ u, (f u).lasting = u.lasting) :
    Answers (hostWrite dt p s f) (Lasts s) := hostWrite_lasts fun u => .inl (.of_lasting (h u))

/-! ### Commands that can reset the device -/

theorem sensor_lasts (dt n : Nat) (s : State) : Answers (sensor dt n s) (Lasts s) :=
  run_lasts fun u => (fireAlarm_counted u n).lasts

theorem vaultFrame_lasts (dt : Nat) (p : Port) (ctr : Word) (op sel arg : Nat) (operand : Bytes) (s : State) :
    Answers (hostFrame dt p s (fun s => vaultRequest s p ctr op sel arg operand)) (Lasts s) :=
  hostFrame_lasts fun u => vaultRequest_lasts u p ctr op sel arg operand

theorem execTestAccess_lasts (dt : Nat) (how : TestTry) (s : State) : Answers (execTestAccess dt how s) (Lasts s) :=
  run_lasts fun u => by
    have h := (fireAlarm_counted u 10).lasts
    cases how
    · exact h
    · exact h
    · exact iteInduction (motive := Lasts u) (fun _ => .refl u) (fun _ => h)

theorem execRailReset_lasts (r : ResetRail) (lead : Bool) (s : State) : Answers (execRailReset r lead s) (Lasts s) :=
  next_lasts (.inr (wasReset_onMode s _ lead _))

theorem execPowerOnReset_lasts (lead : Bool) (s : State) : Answers (execPowerOnReset lead s) (Lasts s) :=
  next_lasts (.inr (wasReset_deviceReset s 0 lead))

theorem execRstN_lasts (lowNs : Nat) (lead : Bool) (s : State) : Answers (execRstN lowNs lead s) (Lasts s) :=
  next_lasts <| by
    split
    · exact .inr (wasReset_onMode s 1 lead _)
    · exact .refl s

theorem execBoot_lasts (shellTest : ShellTest) (pufOk : SelfTest) (refPresent : BootPins)
    (bad : List (Fin 32 × Fin 6)) (corrected : List (Fin 32)) (s : State) :
    Answers (execBoot shellTest pufOk refPresent bad corrected s) (Lasts s) :=
  next_lasts <| by
    split
    · exact .refl s
    dsimp only
    split
    · exact (fireAlarms_lasts _ _).after (by simp)
    · next h => exact .inl (.of_lasting (by simp [fireAlarms_lasting (eq_false_of_ne_true h)]))

theorem execSessionResponse_lasts (dt : Nat) (p : Port) (r : BitVec 64) (s : State) :
    Answers (execSessionResponse dt p r s) (Lasts s) :=
  hostWrite_lasts fun u => iteInduction (motive := Lasts u)
    (fun _ => (checkResponse_counted _ p).lasts.after (by simp)) (fun _ => .refl u)

theorem execCommitTake_lasts (s : State) : Answers (execCommitTake s) (Lasts s) :=
  next_lasts <| by
    dsimp only
    split
    · refine Lasts.after ?_ (takeCommit_lasts _ _ _)
      simp
    · exact .refl s

theorem execLockSet_lasts (dt : Nat) (p : Port) (bits : BitVec 6) (s : State) :
    Answers (execLockSet dt p bits s) (Lasts s) :=
  hostWrite_lasts fun u => iteInduction (motive := Lasts u) (fun _ => .inl (lockWrite_grows u bits)) (fun _ => .refl u)

theorem execVerifyComplete_lasts (dt : Nat) (s : State) : Answers (execVerifyComplete dt s) (Lasts s) :=
  run_lasts fun u => iteInduction (motive := Lasts u) (fun _ => endVerify_lasts u) (fun _ => .refl u)

theorem execConfirm_lasts (dt : Nat) (p : Port) (s : State) : Answers (execConfirm dt p s) (Lasts s) :=
  hostWrite_lasts fun u => iteInduction (motive := Lasts u) (fun _ => .inl (confirmWrite_grows u)) (fun _ => .refl u)

theorem execDownstreamMessage_lasts (dt : Nat) (arrival : Int) (msg : List Byte) (s : State) :
    Answers (execDownstreamMessage dt arrival msg s) (Lasts s) := run_lasts fun u => downRx_lasts u arrival msg

theorem execUpstreamMessage_lasts (dt : Nat) (msg : List Byte) (s : State) :
    Answers (execUpstreamMessage dt msg s) (Lasts s) := run_lasts fun u => upRx_lasts u msg

theorem execSeqWriteBack_lasts (dt : Nat) (p : Port) (off : BitVec 9) (data : Word) (s : State) :
    Answers (execSeqWriteBack dt p off data s) (Lasts s) :=
  hostFrame_lasts fun u => iteInduction (motive := Lasts u) (fun _ => (writeDir_counted u p _ data false).lasts)
    (fun _ => .refl u)

/-- A frame after its header: refused there, or gone on with. -/
theorem headed_lasts {s u : State} (hu : u.lasting = s.lasting) {r : Result} {x : Result × State} (hx : Lasts u x.2) :
    Lasts s (if r = .ok then x else (r, u)).2 := by
  split
  · exact hx.after hu
  · exact .inl (.of_lasting hu)

theorem headed_lasting_of_ok {s u : State} (hu : u.lasting = s.lasting) {r : Result} {x : Result × State}
    (hx : x.1 = .ok → x.2.lasting = u.lasting) (h : (if r = .ok then x else (r, u)).1 = .ok) :
    (if r = .ok then x else (r, u)).2.lasting = s.lasting := by
  split at h
  · next hr => rw [if_pos hr, hx h, hu]
  · next hr => exact absurd h hr

theorem execPortWrite_lasts (dt : Nat) (p : Port) (fast : Bool) (cmd : Byte) (addr : BitVec 16) (data : Word)
    (crc : Byte) (s : State) : Answers (execPortWrite dt p fast cmd addr data crc s) (Lasts s) :=
  run_lasts fun u => by
    split
    · exact .refl u
    · exact (headed_lasts (by simp) (writeFrameOf_counted _ p addr data false).lasts).of_stores (drive_stores _ _ _)

theorem execBurstWrite_lasts (dt : Nat) (p : Port) (how : Clocking) (cmd : Byte) (addr : BitVec 16) (crc : Byte)
    (words : List CrcWord) (s : State) : Answers (execBurstWrite dt p how cmd addr crc words s) (Lasts s) :=
  run_lasts fun u => burstWriteOf_lasts u p how.piece how.fast cmd addr crc words

/-- A checked secure frame is written where it was accepted, and closes its session (R299). -/
theorem checked_lasts {s : State} {x : Result × State} {y : State → Result × State} (p : Port) (ctr : Word)
    (hx : Lasts s x.2) (hok : x.1 = .ok → x.2.lasting = s.lasting) (hy : x.1 = .ok → Lasts x.2 (y x.2).2) :
    Lasts s (if x.1 = .ok then ((y x.2).1, endSecure (y x.2).2 p ctr) else x).2 := by
  split
  · next h => exact ((hy h).after (hok h)).endSecure p ctr
  · exact hx

theorem secureCheck_lasting_of_ok {s : State} {p : Port} {cmd : Byte} {addr : BitVec 16} {len : Nat} {ctr : Word}
    {ds : List Word} {tag : Bytes} (h : (secureCheck s p cmd addr len ctr ds tag).1 = .ok) :
    (secureCheck s p cmd addr len ctr ds tag).2.lasting = s.lasting := by
  rw [secureCheck_eq_of_ok h]
  simp

theorem secureTag_lasting_of_ok {s : State} {p : Port} {cmd : Byte} {addr : BitVec 16} {ctr : Word} {base : Nat}
    {words : List CrcWord} {tag : Bytes} {tagCrc : Byte}
    (h : (secureTag s p cmd addr ctr base words tag tagCrc).1 = .ok) :
    (secureTag s p cmd addr ctr base words tag tagCrc).2.lasting = s.lasting := by
  rw [secureTag_eq_of_ok h]
  simp

theorem execSecureWrite_lasts (dt : Nat) (p : Port) (fast : Bool) (cmd : Byte) (addr : BitVec 16) (data ctr : Word)
    (tag : BitVec 64) (crc : Byte) (s : State) :
    Answers (execSecureWrite dt p fast cmd addr data ctr tag crc s) (Lasts s) :=
  run_lasts fun u => by
    split
    · exact .refl u
    · have hu : ∀ r, (takeHeader (csnRise u p) p r).lasting = u.lasting := fun r => by simp
      exact (checked_lasts p ctr (y := fun s => writeFrameOf s p addr data true)
        (headed_lasts (hu _) (secureCheck_lasts _ _ _ _ _ _ _ _))
        (headed_lasting_of_ok (hu _) secureCheck_lasting_of_ok)
        fun _ => (writeFrameOf_counted _ p addr data true).lasts).of_stores (drive_stores _ _ _)

theorem execSecureBurst_lasts (dt : Nat) (p : Port) (fast : Bool) (cmd : Byte) (addr : BitVec 16) (len : Byte)
    (ctr : Word) (crc : Byte) (words : List CrcWord) (tag : BitVec 64) (tagCrc : Byte) (s : State) :
    Answers (execSecureBurst dt p fast cmd addr len ctr crc words tag tagCrc s) (Lasts s) :=
  run_lasts fun u => by
    have hu : (secureHead (csnRise u p) p fast cmd addr len ctr crc).2.lasting = u.lasting := by simp
    split
    · exact .refl u
    dsimp only
    split
    · exact .inl (.of_lasting (by simp))
    split
    · exact .inl (.of_lasting hu)
    · exact (checked_lasts p ctr
        (y := fun s => secureWrites (secureHead (csnRise u p) p fast cmd addr len ctr crc).2 s p addr ctr
          (burstBase u p addr) words)
        ((secureTag_lasts _ _ _ _ _ _ _ _ _).after hu) (fun h => (secureTag_lasting_of_ok h).trans hu)
        fun h => secureWrites_lasts (by rw [secureTag_eq_of_ok h]; simp) _ _ _ _ _).of_stores (drive_stores _ _ _)

/-- Where CSN rises after the tag, the counter is consumed and nothing is written (R301). -/
theorem checkedOnly_lasts {s u : State} {x : Result × State} (p : Port) (ctr : Word) (hu : u.lasting = s.lasting)
    (hx : Lasts u x.2) : Lasts s (if x.1 = .ok then endSecure x.2 p ctr else x.2) := by
  split
  · exact (hx.after hu).endSecure p ctr
  · exact hx.after hu

theorem execTransactionAbort_lasts (dt : Nat) (p : Port) (at_ : CutShort) (s : State) :
    Answers (execTransactionAbort dt p at_ s) (Lasts s) :=
  run_lasts fun u => by
    have hplain {t : State} (h : t.lasting = u.lasting) : Lasts u t := .inl (.of_lasting h)
    dsimp only
    split
    · (repeat' split) <;> exact hplain (by simp)
    · exact hplain (by simp)
    · split <;> exact hplain (by simp)
    · exact hplain (by simp)
    · exact burstWriteOf_lasts _ _ _ _ _ _ _ _
    · split <;> exact hplain (by simp)
    · exact hplain (by simp)
    · split
      · exact .refl u
      split
      · exact checkedOnly_lasts p _ (by simp) (secureCheck_lasts _ _ _ _ _ _ _ _)
      · exact hplain (by simp)
    · split
      · exact .refl u
      split
      · exact hplain (by simp)
      split
      · exact hplain (by simp)
      · exact checkedOnly_lasts p _ (by simp) (secureTag_lasts _ _ _ _ _ _ _ _ _)

theorem execRegisterWrite_lasts (dt : Nat) (p : Port) (indirect : Bool) (addr : BitVec 24) (data : Word) (s : State) :
    Answers (execRegisterWrite dt p indirect addr data s) (Lasts s) :=
  hostFrame_lasts fun u => by
    dsimp only
    split
    · split
      · exact .inl (.of_lasting (by simp))
      · exact (fireAlarm_counted u 9).lasts
      · exact .refl u
    · exact (writeDir_counted u p _ data false).lasts

end Sys2Proof.Machine
end

section
/-!
SUPPORT. Commands that leave the queue, LOCK and the rollback counter (R320, R511): those that take a frame apart, see
a lane at an earlier time, or go through many lanes.
-/

namespace Sys2Proof.Machine

/-! ### Lanes and supplies -/

theorem execRailRecovery_lasts (dt : Nat) (r : Rail) (th : Threshold) (s : State) :
    Answers (execRailRecovery dt r th s) (Lasts s) := by
  unfold execRailRecovery
  cases th
  · exact run_plain fun u => by (repeat' split) <;> simp
  · exact run_plain fun _ => rfl
  · exact next_plain (by split <;> simp)

theorem execLinkRetry_lasts (dt : Nat) (g : Region) (lanes : List Lane) (twice : Bool) (s : State) :
    Answers (execLinkRetry dt g lanes twice s) (Lasts s) :=
  run_plain fun u => by
    dsimp only
    (repeat' split) <;> simp [lasting_foldl]

theorem execSeqParity_lasts (dt : Nat) (c : Cluster) (s : State) : Answers (execSeqParity dt c s) (Lasts s) :=
  run_plain fun u => by
    dsimp only
    split
    · rfl
    · exact (lasting_foldl fun u n => by simp).trans (by simp)

theorem execVbatSecond_lasts (dt : Nat) (s : State) : Answers (execVbatSecond dt s) (Lasts s) :=
  run_plain fun u => by
    split
    · rfl
    · simp [lasting_foldl]

theorem execVbatRecovery_lasts (dt : Nat) (s : State) : Answers (execVbatRecovery dt s) (Lasts s) :=
  run_plain fun u => by
    split
    · exact (lasting_foldl fun u n => by simp).trans (by simp)
    · rfl

theorem execEnumWaveAdmit_lasts (s : State) : Answers (execEnumWaveAdmit s) (Lasts s) :=
  next_plain <| by
    dsimp only
    split
    · exact (lasting_foldl fun u n => by simp).trans (by simp)
    · rfl

theorem execStuckLow_lasts (dt : Nat) (n : Lane) (s : State) : Answers (execStuckLow dt n s) (Lasts s) :=
  run_plain fun u => onAknun_lasting u n _ fun u => by
    dsimp only
    (repeat' split) <;> simp

/-! ### Harvests and received frames -/

theorem execHarvest_lasts (dt : Nat) (n : Lane) (w : HarvestWire) (s : State) :
    Answers (execHarvest dt n w s) (Lasts s) :=
  run_plain fun u => (under_lasting _ _ _ fun u => by split <;> simp).trans (passCutoff_lasting u)

theorem execHarvestPartial_lasts (dt : Nat) (n : Lane) (top : Pos) (w : HarvestWire) (s : State) :
    Answers (execHarvestPartial dt n top w s) (Lasts s) :=
  run_plain fun u => (under_lasting _ _ _ fun u => by split <;> simp).trans (passCutoff_lasting u)

theorem execSpcTrigger_lasts (dt : Nat) (n : Lane) (stamp : Int) (s : State) :
    Answers (execSpcTrigger dt n stamp s) (Lasts s) :=
  run_plain fun u => by
    split
    · simp
    · exact under_lasting _ _ _ fun u => by dsimp only; split <;> simp

theorem execSentFrame_lasts (dt : Nat) (n : Lane) (w : SentWire) (s : State) :
    Answers (execSentFrame dt n w s) (Lasts s) :=
  run_plain fun u => by
    dsimp only
    split
    · simp
    · exact (under_lasting _ _ _ fun u => by split <;> simp).trans (passCutoff_lasting u)

theorem execSyncPulse_lasts (dt : Nat) (n : Lane) (stamp : Int) (s : State) :
    Answers (execSyncPulse dt n stamp s) (Lasts s) :=
  run_plain fun u => under_lasting _ _ _ fun u => by dsimp only; split <;> simp

theorem execPsi5Frame_lasts (dt : Nat) (n : Lane) (slot : Fin 4) (w : Psi5Wire) (s : State) :
    Answers (execPsi5Frame dt n slot w s) (Lasts s) :=
  run_plain fun u => (under_lasting _ _ _ fun u => by dsimp only; (repeat' split) <;> simp).trans (passCutoff_lasting u)

theorem execLinFrameSlot_lasts (dt : Nat) (n : Lane) (fid : BitVec 6) (w : LinWire) (s : State) :
    Answers (execLinFrameSlot dt n fid w s) (Lasts s) :=
  run_plain fun u => by
    extract_lets v
    split
    · refine (under_lasting _ _ _ fun u => ?_).trans (passCutoff_lasting u)
      extract_lets
      split <;> simp
    · exact passCutoff_lasting u

theorem execLinDiagPair_lasts (dt : Nat) (n : Lane) (w : LinWire) (s : State) :
    Answers (execLinDiagPair dt n w s) (Lasts s) :=
  run_plain fun u => by
    have hv : (passCutoff u).lasting = u.lasting := passCutoff_lasting u
    show (match pairNow (passCutoff u) n with | some t => _ | none => _ : State).lasting = _
    split
    · refine iteInduction (motive := fun t : State => t.lasting = u.lasting) (fun _ => ?_) (fun _ => hv)
      refine (leaveFlight_lasting _ _).trans ((diagResult_lasting _ _ _ _).trans ?_)
      exact (under_lasting _ _ _ fun t => by simp).trans hv
    · exact hv

/-! ### Frames on an AKNUN lane -/

theorem lasting_of_tagRead {s t : State} {n p : Nat} {num : BitVec 48} {g : Int} {a : Nat} {w : FrameWire}
    {x : Option Word} (h : tagRead s n p num g a w = (t, x)) : t.lasting = s.lasting := by
  rw [pair_fst h, tagRead_lasting]

theorem execRead_lasts (dt : Nat) (n : Lane) (w : FrameWire) (s : State) : Answers (execRead dt n w s) (Lasts s) :=
  run_plain fun u => by
    dsimp only
    split
    · exact inSlot_lasting _ _ _ _ _ _ fun u _ _ => by simp
    · rfl

theorem execWrite_lasts (dt : Nat) (n : Lane) (w : FrameWire) (s : State) : Answers (execWrite dt n w s) (Lasts s) :=
  run_plain fun u => by
    dsimp only
    split
    · exact inSlot_lasting _ _ _ _ _ _ fun u _ _ => by simp
    split
    · exact inSlot_lasting _ _ _ _ _ _ fun u _ _ => by simp
    · rfl

theorem execIdent_lasts (dt : Nat) (n : Lane) (w : FrameWire) (s : State) : Answers (execIdent dt n w s) (Lasts s) :=
  run_plain fun u => by
    dsimp only
    split
    · exact inSlot_lasting _ _ _ _ _ _ fun u _ _ => by simp
    split
    · exact inSlot_lasting _ _ _ _ _ _ fun u _ _ => by split <;> simp
    split
    · exact inSlot_lasting _ _ _ _ _ _ fun u _ _ => by simp
    · rfl

theorem execEnum_lasts (dt : Nat) (n : Lane) (w : FrameWire) (s : State) : Answers (execEnum dt n w s) (Lasts s) :=
  run_plain fun u => by
    dsimp only
    split
    · split
      · exact (inSlot_lasting _ _ _ _ _ _ fun u _ _ => by simp).trans (startGrowth_lasting u n)
      · simp
    · simp

theorem execClosePass_lasts (dt : Nat) (n : Lane) (w : FrameWire) (s : State) :
    Answers (execClosePass dt n w s) (Lasts s) :=
  run_plain fun u => by
    dsimp only
    split
    · split
      · simp
      · exact (inSlot_lasting _ _ _ _ _ _ fun u _ _ => by
          simp only [closeAnswer_lasting]
          split <;> simp).trans (startGrowth_lasting u n)
    · simp

theorem execOpenPass_lasts (dt : Nat) (n : Lane) (p : Pos) (w : FrameWire) (s : State) :
    Answers (execOpenPass dt n p w s) (Lasts s) :=
  run_plain fun u => by
    dsimp only
    split
    · exact inSlot_lasting _ _ _ _ _ _ fun u _ _ => by (repeat' split) <;> simp
    · rfl

theorem foldl_onEp_lasting (ps : List Nat) (i : Nat → Nat) (f : EpState → EpState) (s : State) :
    (ps.foldl (fun s p => s.onEp (i p) f) s).lasting = s.lasting := lasting_foldl fun s p => by simp

theorem execSleep_lasts (dt : Nat) (n : Lane) (p : Pos) (all : Bool) (w : FrameWire) (s : State) :
    Answers (execSleep dt n p all w s) (Lasts s) :=
  run_plain fun u => by
    dsimp only
    refine inSlot_lasting _ _ _ _ _ _ fun u _ _ => ?_
    refine iteInduction (motive := fun t : State => t.lasting = u.lasting) (fun _ => ?_) (fun _ => by simp)
    exact (foldl_onEp_lasting _ _ _ _).trans (by simp)

theorem execWakePing_lasts (dt : Nat) (n : Lane) (p : Pos) (wake : Bool) (w : FrameWire) (s : State) :
    Answers (execWakePing dt n p wake w s) (Lasts s) :=
  run_plain fun u => by
    dsimp only
    split
    · exact inSlot_lasting _ _ _ _ _ _ fun u _ _ => by simp
    · rfl

theorem execAttest_lasts (dt : Nat) (n : Lane) (p : Pos) (w : FrameWire) (s : State) :
    Answers (execAttest dt n p w s) (Lasts s) :=
  run_plain fun u => by
    dsimp only
    split
    · split
      · simp
      split
      · exact (inSlot_lasting _ _ _ _ _ _ fun u _ _ => by split <;> simp).trans (draw_lasting u)
      · simp
    · rfl

theorem execAttestTagCheck_lasts (dt : Nat) (n : Lane) (p : Pos) (hi lo : FrameWire) (s : State) :
    Answers (execAttestTagCheck dt n p hi lo s) (Lasts s) :=
  run_plain fun u => by
    dsimp only
    split
    · rfl
    refine iteInduction (motive := fun t : State => t.lasting = u.lasting) (fun _ => ?_) (fun _ => rfl)
    split
    · exact inSlot_lasting _ _ _ _ _ _ fun u _ _ => by simp
    · refine inSlot_lasting _ _ _ _ _ _ fun u _ _ => ?_
      split
      · next h => exact lasting_of_tagRead h
      · next h => split <;> simp [lasting_of_tagRead h]

/-- An endpoint access request of a host (R363, R364). -/
theorem goWith_lasts (dt : Nat) (p : Port) (n : Lane) (op pos addr : Nat) (s : State) :
    Answers (goWith dt p n op pos addr s) (Lasts s) := hostWrite_plain fun u => by split <;> simp

end Sys2Proof.Machine
end

section
/-!
SUPPORT. The commands that leave the queue, LOCK and the rollback counter (R320, R511), one by one.
-/

namespace Sys2Proof.Machine

theorem execRememberedDelivery_lasts (dt : Nat) (c : Fin 32) (s : State) :
    Answers (execRememberedDelivery dt c s) (Lasts s) := run_plain fun u => by simp
theorem execSpuDeferEnd_lasts (dt : Nat) (g : Region) (s : State) : Answers (execSpuDeferEnd dt g s) (Lasts s) :=
  run_plain fun u => by split <;> simp
theorem execWakeOutRelease_lasts (dt : Nat) (s : State) : Answers (execWakeOutRelease dt s) (Lasts s) :=
  run_plain fun u => by split <;> simp
theorem execIdcode_lasts (s : State) : Answers (execIdcode s) (Lasts s) := next_plain (by simp)
theorem execBypass_lasts (tdi : Bool) (s : State) : Answers (execBypass tdi s) (Lasts s) := next_plain (by simp)
theorem execRegionCal_lasts (g : Region) (s : State) : Answers (execRegionCal g s) (Lasts s) :=
  next_plain (by dsimp only; (repeat' split) <;> simp)
theorem execHarvestCutoff_lasts (dt : Nat) (s : State) : Answers (execHarvestCutoff dt s) (Lasts s) :=
  run_plain fun u => by simp
theorem execQueueTimeout_lasts (dt : Nat) (g : Region) (s : State) : Answers (execQueueTimeout dt g s) (Lasts s) :=
  run_plain fun u => by dsimp only; (repeat' split) <;> simp
theorem execQueuePtr_lasts (dt : Nat) (g : Region) (k : Bank) (s : State) : Answers (execQueuePtr dt g k s) (Lasts s) :=
  run_plain fun u => by dsimp only; (repeat' split) <;> simp
theorem execBusClear_lasts (dt : Nat) (n : Lane) (s : State) : Answers (execBusClear dt n s) (Lasts s) :=
  run_plain fun u => by dsimp only; split <;> simp
theorem execBusClearLineHigh_lasts (dt : Nat) (n : Lane) (s : State) :
    Answers (execBusClearLineHigh dt n s) (Lasts s) := run_plain fun u => by dsimp only; (repeat' split) <;> simp
theorem execShortToGround_lasts (dt : Nat) (n : Lane) (s : State) : Answers (execShortToGround dt n s) (Lasts s) :=
  run_plain fun u => by dsimp only; (repeat' split) <;> simp
theorem execShortHigh_lasts (dt : Nat) (n : Lane) (s : State) : Answers (execShortHigh dt n s) (Lasts s) :=
  run_plain fun u => by dsimp only; split <;> simp
theorem execPsi5Overcurrent_lasts (dt : Nat) (n : Lane) (s : State) : Answers (execPsi5Overcurrent dt n s) (Lasts s) :=
  run_plain fun u => by split <;> simp
theorem execPsi5ShortHigh_lasts (dt : Nat) (n : Lane) (s : State) : Answers (execPsi5ShortHigh dt n s) (Lasts s) :=
  run_plain fun u => by split <;> simp
theorem execLineSwing_lasts (n : Lane) (s : State) : Answers (execLineSwing n s) (Lasts s) :=
  next_plain (by dsimp only; split <;> simp)
theorem execLineSlow_lasts (n : Lane) (s : State) : Answers (execLineSlow n s) (Lasts s) := next_plain (by simp)
theorem execIsolationRetry_lasts (n : Lane) (free : Bool) (s : State) :
    Answers (execIsolationRetry n free s) (Lasts s) := next_plain (by dsimp only; (repeat' split) <;> simp)
theorem execSentStuck_lasts (dt : Nat) (n : Lane) (s : State) : Answers (execSentStuck dt n s) (Lasts s) :=
  run_plain fun u => by dsimp only; split <;> simp
theorem execSentSilent_lasts (dt : Nat) (n : Lane) (s : State) : Answers (execSentSilent dt n s) (Lasts s) :=
  run_plain fun u => by dsimp only; split <;> simp
theorem execPsi5Silent_lasts (dt : Nat) (n : Lane) (s : State) : Answers (execPsi5Silent dt n s) (Lasts s) :=
  run_plain fun u => by dsimp only; split <;> simp
theorem execLinStuck_lasts (dt : Nat) (n : Lane) (toVbat : Bool) (s : State) :
    Answers (execLinStuck dt n toVbat s) (Lasts s) := run_plain fun u => by dsimp only; split <;> simp
theorem execLinStuckClear_lasts (dt : Nat) (n : Lane) (s : State) : Answers (execLinStuckClear dt n s) (Lasts s) :=
  run_plain fun u => by dsimp only; split <;> simp
theorem execSeqReload_lasts (c : Cluster) (s : State) : Answers (execSeqReload c s) (Lasts s) :=
  next_plain (by split <;> simp)
theorem execLanePll_lasts (dt : Nat) (s : State) : Answers (execLanePll dt s) (Lasts s) :=
  run_plain fun u => by split <;> simp
theorem execLanePllRelock_lasts (dt : Nat) (s : State) : Answers (execLanePllRelock dt s) (Lasts s) :=
  run_plain fun u => by split <;> simp
theorem execSpuAdmit_lasts (n : Lane) (s : State) : Answers (execSpuAdmit n s) (Lasts s) :=
  next_plain (by dsimp only; (repeat' split) <;> simp)
theorem execSpuWindowEnd_lasts (dt : Nat) (n : Lane) (s : State) : Answers (execSpuWindowEnd dt n s) (Lasts s) :=
  run_plain fun u => by dsimp only; (repeat' split) <;> simp
theorem execSpuOverload_lasts (dt : Nat) (n : Lane) (s : State) : Answers (execSpuOverload dt n s) (Lasts s) :=
  run_plain fun u => by (repeat' split) <;> simp
theorem execKeyLimit_lasts (k : Fin 32) (s : State) : Answers (execKeyLimit k s) (Lasts s) :=
  next_plain (by dsimp only; split <;> simp)
theorem execUplinkDown_lasts (dt : Nat) (port : Ul) (cause : DownCause) (s : State) :
    Answers (execUplinkDown dt port cause s) (Lasts s) := run_plain fun u => by (repeat' split) <;> simp
theorem execUplinkUp_lasts (dt : Nat) (port : Ul) (s : State) : Answers (execUplinkUp dt port s) (Lasts s) :=
  run_plain fun u => by simp
theorem execRevert_lasts (k : Fin 32) (s : State) : Answers (execRevert k s) (Lasts s) :=
  next_plain (by dsimp only; split <;> simp)
theorem execUplinkRx_lasts (dt : Nat) (port : Ul) (frame : List Byte) (s : State) :
    Answers (execUplinkRx dt port frame s) (Lasts s) := run_plain fun u => by dsimp only; (repeat' split) <;> simp
theorem execSyncRx_lasts (dt : Nat) (port : Ul) (msg : SyncMsg) (logInterval : Int) (s : State) :
    Answers (execSyncRx dt port msg logInterval s) (Lasts s) := run_plain fun u => by split <;> simp
theorem execAcquisitionComplete_lasts (dt : Nat) (offset : Int) (s : State) :
    Answers (execAcquisitionComplete dt offset s) (Lasts s) :=
  run_plain fun u => by dsimp only; (repeat' split) <;> simp
theorem execLockAcquired_lasts (dt : Nat) (s : State) : Answers (execLockAcquired dt s) (Lasts s) :=
  run_plain fun u => by dsimp only; split <;> simp
theorem execSyncTimeout_lasts (dt : Nat) (otherPortOk : Bool) (s : State) :
    Answers (execSyncTimeout dt otherPortOk s) (Lasts s) := run_plain fun u => by dsimp only; (repeat' split) <;> simp
theorem execHoldMax_lasts (dt : Nat) (s : State) : Answers (execHoldMax dt s) (Lasts s) :=
  run_plain fun u => by split <;> simp
theorem execRephaseStep_lasts (s : State) : Answers (execRephaseStep s) (Lasts s) := next_plain (by split <;> simp)
theorem execPeerDelay_lasts (dt : Nat) (port : Ul) (delayNs : Nat) (s : State) :
    Answers (execPeerDelay dt port delayNs s) (Lasts s) := run_plain fun u => by dsimp only; split <;> simp
theorem execFreeRunAdvance_lasts (s : State) : Answers (execFreeRunAdvance s) (Lasts s) :=
  next_plain (by dsimp only; split <;> simp)
theorem execReferenceLoss_lasts (dt : Nat) (s : State) : Answers (execReferenceLoss dt s) (Lasts s) :=
  run_plain fun u => by split <;> simp
theorem execReferenceReturn_lasts (s : State) : Answers (execReferenceReturn s) (Lasts s) :=
  next_plain (by split <;> simp)
theorem execCorePll_lasts (dt : Nat) (s : State) : Answers (execCorePll dt s) (Lasts s) :=
  run_plain fun u => by split <;> simp
theorem execCorePllRelock_lasts (dt : Nat) (s : State) : Answers (execCorePllRelock dt s) (Lasts s) :=
  run_plain fun u => by (repeat' split) <;> simp
theorem execCaptureReq_lasts (dt : Nat) (p : Port) (restart : Bool) (s : State) :
    Answers (execCaptureReq dt p restart s) (Lasts s) := hostWrite_plain fun u => by split <;> simp
theorem execCaptureSample_lasts (s : State) : Answers (execCaptureSample s) (Lasts s) := next_plain (by split <;> simp)
theorem execCaptureDone_lasts (dt : Nat) (s : State) : Answers (execCaptureDone dt s) (Lasts s) :=
  run_plain fun u => by split <;> simp
theorem execRailWarning_lasts (dt : Nat) (r : Rail) (s : State) : Answers (execRailWarning dt r s) (Lasts s) :=
  run_plain fun u => by (repeat' split) <;> simp
theorem execVlinkSecond_lasts (dt : Nat) (g : Region) (s : State) : Answers (execVlinkSecond dt g s) (Lasts s) :=
  run_plain fun u => by split <;> simp
theorem execVlinkRecovery_lasts (dt : Nat) (g : Region) (s : State) : Answers (execVlinkRecovery dt g s) (Lasts s) :=
  run_plain fun u => by dsimp only; (repeat' split) <;> simp
theorem execRegionIsolated_lasts (dt : Nat) (g : Region) (s : State) : Answers (execRegionIsolated dt g s) (Lasts s) :=
  run_plain fun u => by split <;> simp
theorem execRegionIsolationEnd_lasts (dt : Nat) (g : Region) (s : State) :
    Answers (execRegionIsolationEnd dt g s) (Lasts s) := run_plain fun u => by dsimp only; (repeat' split) <;> simp
theorem execStageAdmit_lasts (g : Region) (s : State) : Answers (execStageAdmit g s) (Lasts s) :=
  next_plain (by dsimp only; split <;> simp)
theorem execLaneStep_lasts (g : Region) (m : Fin 32) (s : State) : Answers (execLaneStep g m s) (Lasts s) :=
  next_plain (by dsimp only; (repeat' split) <;> simp)
theorem execStageChargeRelease_lasts (g : Region) (s : State) : Answers (execStageChargeRelease g s) (Lasts s) :=
  next_plain (by dsimp only; (repeat' split) <;> simp)
theorem execOpen_lasts (dt : Nat) (p : Port) (s : State) : Answers (execOpen dt p s) (Lasts s) :=
  hostWrite_plain fun u => by simp
theorem execClose_lasts (dt : Nat) (p : Port) (s : State) : Answers (execClose dt p s) (Lasts s) :=
  hostWrite_plain fun u => by simp
theorem execChallengeTimeout_lasts (dt : Nat) (p : Port) (s : State) :
    Answers (execChallengeTimeout dt p s) (Lasts s) := run_plain fun u => by simp
theorem execPreset_lasts (dt : Nat) (p : Port) (s : State) : Answers (execPreset dt p s) (Lasts s) :=
  hostWrite_plain fun u => by simp
theorem execHeartbeatMissed_lasts (dt : Nat) (p : Port) (s : State) : Answers (execHeartbeatMissed dt p s) (Lasts s) :=
  run_plain fun u => by simp
theorem execLeaseExpiry_lasts (dt : Nat) (p : Port) (s : State) : Answers (execLeaseExpiry dt p s) (Lasts s) :=
  run_plain fun u => by simp
theorem execVaultResult_lasts (dt : Nat) (p : VaultEnd) (s : State) : Answers (execVaultResult dt p s) (Lasts s) :=
  run_plain fun u => by simp
theorem execSnapshotDone_lasts (dt : Nat) (single : EccFound) (badEcc decayed : List Idx) (s : State) :
    Answers (execSnapshotDone dt single badEcc decayed s) (Lasts s) := run_plain fun u => by split <;> simp
theorem execCommit_lasts (dt : Nat) (p : Port) (groups : BitVec 16) (s : State) :
    Answers (execCommit dt p groups s) (Lasts s) := hostWrite_plain fun u => by split <;> simp
theorem execSowingComplete_lasts (s : State) : Answers (execSowingComplete s) (Lasts s) :=
  next_plain (by (repeat' split) <;> simp)
theorem execCommitEffective_lasts (s : State) : Answers (execCommitEffective s) (Lasts s) :=
  next_plain (by split <;> simp)
theorem execDiscard_lasts (dt : Nat) (p : Port) (groups : BitVec 16) (s : State) :
    Answers (execDiscard dt p groups s) (Lasts s) := hostWrite_plain fun u => by split <;> simp
theorem execHoardArm_lasts (s : State) : Answers (execHoardArm s) (Lasts s) := next_plain (by (repeat' split) <;> simp)
theorem execHoardFreeze_lasts (dt : Nat) (p : Port) (s : State) : Answers (execHoardFreeze dt p s) (Lasts s) :=
  hostWrite_plain fun u => by split <;> simp
theorem execHoardExport_lasts (s : State) : Answers (execHoardExport s) (Lasts s) :=
  next_plain (by (repeat' split) <;> simp)
theorem execHoardFrozen_lasts (dt : Nat) (s : State) : Answers (execHoardFrozen dt s) (Lasts s) :=
  run_plain fun u => by split <;> simp
theorem execSproutOnSilence_lasts (i : Idx) (s : State) : Answers (execSproutOnSilence i s) (Lasts s) :=
  next_plain (by simp)
theorem execEnumerationStart_lasts (dt : Nat) (n : Lane) (s : State) :
    Answers (execEnumerationStart dt n s) (Lasts s) := run_plain fun u => by dsimp only; (repeat' split) <;> simp
theorem execEnumRetry_lasts (dt : Nat) (n : Lane) (s : State) : Answers (execEnumRetry dt n s) (Lasts s) :=
  run_plain fun u => by dsimp only; split <;> simp
theorem execEnumRepoll_lasts (n : Lane) (s : State) : Answers (execEnumRepoll n s) (Lasts s) :=
  next_plain (by dsimp only; split <;> simp)
theorem execLaneModeStart_lasts (n : Lane) (s : State) : Answers (execLaneModeStart n s) (Lasts s) :=
  next_plain (by dsimp only; (repeat' split) <;> simp)
theorem execConvert_lasts (dt : Nat) (n : Lane) (p : Pos) (all : Bool) (code : BitVec 6) (w : FrameWire) (s : State) :
    Answers (execConvert dt n p all code w s) (Lasts s) := run_plain fun u => by simp
theorem execCommitNv_lasts (dt : Nat) (n : Lane) (p : Pos) (all : Bool) (code : BitVec 6) (w : FrameWire) (s : State) :
    Answers (execCommitNv dt n p all code w s) (Lasts s) := run_plain fun u => by simp
theorem execLinWakeUp_lasts (dt : Nat) (n : Lane) (s : State) : Answers (execLinWakeUp dt n s) (Lasts s) :=
  run_plain fun u => by dsimp only; split <;> simp
theorem execLinScheduleStart_lasts (n : Lane) (s : State) : Answers (execLinScheduleStart n s) (Lasts s) :=
  next_plain (by dsimp only; (repeat' split) <;> simp)
theorem execLinWake_lasts (dt : Nat) (n : Lane) (lowUs : Nat) (s : State) :
    Answers (execLinWake dt n lowUs s) (Lasts s) := run_plain fun u => by dsimp only; (repeat' split) <;> simp
theorem execTakeBlock_lasts (dt : Nat) (block : Byte) (s : State) : Answers (execTakeBlock dt block s) (Lasts s) :=
  hostFrame_plain fun u => by split <;> simp
theorem execTakeComplete_lasts (dt : Nat) (readBackOk : Bool) (s : State) :
    Answers (execTakeComplete dt readBackOk s) (Lasts s) := run_plain fun u => by split <;> simp
theorem execVerify_lasts (dt : Nat) (s : State) : Answers (execVerify dt s) (Lasts s) :=
  hostFrame_plain fun u => by split <;> simp
theorem execAbort_lasts (dt : Nat) (p : Port) (s : State) : Answers (execAbort dt p s) (Lasts s) :=
  hostWrite_plain fun u => by simp
theorem execActivate_lasts (dt : Nat) (p : Port) (s : State) : Answers (execActivate dt p s) (Lasts s) :=
  hostWrite_plain fun u => by split <;> simp
theorem execActivationPause_lasts (dt : Nat) (s : State) : Answers (execActivationPause dt s) (Lasts s) :=
  run_plain fun u => by dsimp only; (repeat' split) <;> simp
theorem execActivationPauseEnd_lasts (dt : Nat) (s : State) : Answers (execActivationPauseEnd dt s) (Lasts s) :=
  run_plain fun u => by (repeat' split) <;> simp
theorem execMigrationComplete_lasts (dt : Nat) (w : MigWrite) (s : State) :
    Answers (execMigrationComplete dt w s) (Lasts s) := run_plain fun u => by split <;> simp
theorem execRollback_lasts (dt : Nat) (p : Port) (s : State) : Answers (execRollback dt p s) (Lasts s) :=
  hostWrite_plain fun u => by split <;> simp
theorem execModeReqOff_lasts (dt : Nat) (p : Port) (s : State) : Answers (execModeReqOff dt p s) (Lasts s) :=
  hostFrame_plain fun u => by simp
theorem execModeReqSentinel_lasts (dt : Nat) (p : Port) (s : State) : Answers (execModeReqSentinel dt p s) (Lasts s) :=
  hostFrame_plain fun u => by simp
theorem execModeReqRun_lasts (dt : Nat) (p : Port) (s : State) : Answers (execModeReqRun dt p s) (Lasts s) :=
  hostFrame_plain fun u => by simp
theorem execModeReqRecover_lasts (dt : Nat) (p : Port) (s : State) : Answers (execModeReqRecover dt p s) (Lasts s) :=
  hostFrame_plain fun u => by simp
theorem execModeReqTest_lasts (dt : Nat) (p : Port) (secure : Bool) (s : State) :
    Answers (execModeReqTest dt p secure s) (Lasts s) := hostFrame_plain fun u => by simp
theorem execModeReqReplay_lasts (dt : Nat) (p : Port) (secure : Bool) (s : State) :
    Answers (execModeReqReplay dt p secure s) (Lasts s) := hostFrame_plain fun u => by simp
theorem execModeChange_lasts (s : State) : Answers (execModeChange s) (Lasts s) := next_plain (by simp)
theorem execOffEntry_lasts (dt : Nat) (s : State) : Answers (execOffEntry dt s) (Lasts s) :=
  run_plain fun u => by split <;> simp
theorem execSentinelEntry_lasts (dt : Nat) (s : State) : Answers (execSentinelEntry dt s) (Lasts s) :=
  run_plain fun u => by split <;> simp
theorem execSentinelPoll_lasts (dt : Nat) (n : Lane) (w : HarvestWire) (pings : List (Pos × FrameWire))
    (sent : Option SentWire) (lin : List (BitVec 6 × LinWire)) (s : State) :
    Answers (execSentinelPoll dt n w pings sent lin s) (Lasts s) := run_plain fun u => by split <;> simp
theorem execSentinelExit_lasts (dt : Nat) (s : State) : Answers (execSentinelExit dt s) (Lasts s) :=
  run_plain fun u => by simp
theorem execLockstepMismatch_lasts (dt : Nat) (s : State) : Answers (execLockstepMismatch dt s) (Lasts s) :=
  run_plain fun u => by simp
theorem execWardenRestart_lasts (dt : Nat) (s : State) : Answers (execWardenRestart dt s) (Lasts s) :=
  run_plain fun u => by simp
theorem execDiscoveryEnd_lasts (s : State) : Answers (execDiscoveryEnd s) (Lasts s) := next_plain (by split <;> simp)
theorem execFollowerStartTimeout_lasts (s : State) : Answers (execFollowerStartTimeout s) (Lasts s) :=
  next_plain (by dsimp only; split <;> simp)
theorem execEchoMark_lasts (dt arrival : Nat) (s : State) : Answers (execEchoMark dt arrival s) (Lasts s) :=
  run_plain fun u => by split <;> simp
theorem execFollowLost_lasts (s : State) : Answers (execFollowLost s) (Lasts s) := next_plain (by split <;> simp)
theorem execFollowerLost_lasts (hop : Fin 4) (s : State) : Answers (execFollowerLost hop s) (Lasts s) :=
  next_plain (by split <;> simp)
theorem execRephase_lasts (dt : Nat) (p : Port) (s : State) : Answers (execRephase dt p s) (Lasts s) :=
  hostWrite_plain fun u => by split <;> simp
theorem execFlush_lasts (dt : Nat) (p : Port) (g : Region) (s : State) : Answers (execFlush dt p g s) (Lasts s) :=
  hostWrite_plain fun u => by split <;> simp
theorem execEvqFlush_lasts (dt : Nat) (p : Port) (s : State) : Answers (execEvqFlush dt p s) (Lasts s) :=
  hostWrite_plain fun u => by split <;> simp
theorem execCalSave_lasts (dt : Nat) (p : Port) (s : State) : Answers (execCalSave dt p s) (Lasts s) :=
  hostWrite_plain fun u => by split <;> simp
theorem execReclaim_lasts (dt : Nat) (p : Port) (s : State) : Answers (execReclaim dt p s) (Lasts s) :=
  hostWrite_plain fun u => by split <;> simp
theorem execExpired_lasts (n : Lane) (s : State) : Answers (execExpired n s) (Lasts s) := next_plain (by simp)
theorem execPortRead_lasts (dt : Nat) (p : Port) (fast : Bool) (cmd : Byte) (addr : BitVec 16) (crc : Byte)
    (s : State) :
    Answers (execPortRead dt p fast cmd addr crc s) (Lasts s) :=
  run_plain fun u => by dsimp only; (repeat' split) <;> simp
theorem execBurstRead_lasts (dt : Nat) (p : Port) (how : Clocking) (cmd : Byte) (addr : BitVec 16) (crc : Byte)
    (words : Nat) (s : State) :
    Answers (execBurstRead dt p how cmd addr crc words s) (Lasts s) := run_plain fun u => by simp
theorem execStallRead_lasts (dt : Nat) (p : Port) (how : StallPart) (cmd : Byte) (addr : BitVec 16) (crc : Byte)
    (s : State) :
    Answers (execStallRead dt p how cmd addr crc s) (Lasts s) :=
  run_plain fun u => by dsimp only; (repeat' split) <;> simp
theorem execGridTick_lasts (errs : List RegionErr) (s : State) : Answers (execGridTick errs s) (Lasts s) :=
  next_plain (by split <;> simp)
theorem execReplayInject_lasts (dt offset : Nat) (data : Word) (s : State) :
    Answers (execReplayInject dt offset data s) (Lasts s) := hostFrame_plain fun u => by dsimp only; split <;> simp
theorem execTraceStart_lasts (s : State) : Answers (execTraceStart s) (Lasts s) := next_plain (by split <;> simp)
theorem execReplayTick_lasts (s : State) : Answers (execReplayTick s) (Lasts s) :=
  next_plain (by (repeat' split) <;> simp)
theorem execReplayEnd_lasts (dt : Nat) (s : State) : Answers (execReplayEnd dt s) (Lasts s) :=
  run_plain fun u => by dsimp only; (repeat' split) <;> simp

end Sys2Proof.Machine
end

section
/-!
SUPPORT. Every command leaves the queue, takes no bit from LOCK and does not lower the rollback counter, or it ends in
a device reset (R320, R511); and with it what a step does to LOCK.
-/

namespace Sys2Proof.Machine

theorem exec_lasts (c : Instr) (s : State) : Answers (exec c s) (Lasts s) :=
  match c with
  | .powerOnReset lead => execPowerOnReset_lasts lead s
  | .rstN lowNs lead => execRstN_lasts lowNs lead s
  | .boot shellTest pufOk refPresent bad corrected => execBoot_lasts shellTest pufOk refPresent bad corrected s
  | .discoveryEnd => execDiscoveryEnd_lasts s
  | .followerStartTimeout => execFollowerStartTimeout_lasts s
  | .stageAdmit g => execStageAdmit_lasts g s
  | .laneStep g m => execLaneStep_lasts g m s
  | .stageChargeRelease g => execStageChargeRelease_lasts g s
  | .enumWaveAdmit => execEnumWaveAdmit_lasts s
  | .gridTick errs => execGridTick_lasts errs s
  | .freeRunAdvance => execFreeRunAdvance_lasts s
  | .syncRx dt port msg logInterval => execSyncRx_lasts dt port msg logInterval s
  | .acquisitionComplete dt offset => execAcquisitionComplete_lasts dt offset s
  | .lockAcquired dt => execLockAcquired_lasts dt s
  | .syncTimeout dt otherPortOk => execSyncTimeout_lasts dt otherPortOk s
  | .holdMax dt => execHoldMax_lasts dt s
  | .rephase dt p => execRephase_lasts dt p s
  | .rephaseStep => execRephaseStep_lasts s
  | .peerDelay dt port delayNs => execPeerDelay_lasts dt port delayNs s
  | .downstreamMessage dt arrival msg => execDownstreamMessage_lasts dt arrival msg s
  | .upstreamMessage dt msg => execUpstreamMessage_lasts dt msg s
  | .echoMark dt arrival => execEchoMark_lasts dt arrival s
  | .followLost => execFollowLost_lasts s
  | .followerLost hop => execFollowerLost_lasts hop s
  | .referenceLoss dt => execReferenceLoss_lasts dt s
  | .referenceReturn => execReferenceReturn_lasts s
  | .corePll dt => execCorePll_lasts dt s
  | .lanePll dt => execLanePll_lasts dt s
  | .lanePllRelock dt => execLanePllRelock_lasts dt s
  | .harvest dt n w => execHarvest_lasts dt n w s
  | .harvestPartial dt n top w => execHarvestPartial_lasts dt n top w s
  | .sproutOnSilence idx => execSproutOnSilence_lasts idx s
  | .lineSlow n => execLineSlow_lasts n s
  | .read dt n w => execRead_lasts dt n w s
  | .write dt n w => execWrite_lasts dt n w s
  | .enum dt n w => execEnum_lasts dt n w s
  | .ident dt n w => execIdent_lasts dt n w s
  | .convert dt n p all code w => execConvert_lasts dt n p all code w s
  | .commitNv dt n p all code w => execCommitNv_lasts dt n p all code w s
  | .sleep dt n p all w => execSleep_lasts dt n p all w s
  | .wakePing dt n p wake w => execWakePing_lasts dt n p wake w s
  | .closePass dt n w => execClosePass_lasts dt n w s
  | .openPass dt n p w => execOpenPass_lasts dt n p w s
  | .attest dt n p w => execAttest_lasts dt n p w s
  | .attestTagCheck dt n p hi lo => execAttestTagCheck_lasts dt n p hi lo s
  | .enumerationStart dt n => execEnumerationStart_lasts dt n s
  | .enumRetry dt n => execEnumRetry_lasts dt n s
  | .enumRepoll n => execEnumRepoll_lasts n s
  | .spuAdmit n => execSpuAdmit_lasts n s
  | .spuWindowEnd dt n => execSpuWindowEnd_lasts dt n s
  | .spuOverload dt n => execSpuOverload_lasts dt n s
  | .stuckLow dt n => execStuckLow_lasts dt n s
  | .busClear dt n => execBusClear_lasts dt n s
  | .busClearLineHigh dt n => execBusClearLineHigh_lasts dt n s
  | .shortToGround dt n => execShortToGround_lasts dt n s
  | .shortHigh dt n => execShortHigh_lasts dt n s
  | .lineSwing n => execLineSwing_lasts n s
  | .isolationRetry n free => execIsolationRetry_lasts n free s
  | .seqParity dt c => execSeqParity_lasts dt c s
  | .seqReload c => execSeqReload_lasts c s
  | .laneModeStart n => execLaneModeStart_lasts n s
  | .spcTrigger dt n stamp => execSpcTrigger_lasts dt n stamp s
  | .sentFrame dt n w => execSentFrame_lasts dt n w s
  | .sentStuck dt n => execSentStuck_lasts dt n s
  | .sentSilent dt n => execSentSilent_lasts dt n s
  | .syncPulse dt n stamp => execSyncPulse_lasts dt n stamp s
  | .psi5Frame dt n slot w => execPsi5Frame_lasts dt n slot w s
  | .psi5Silent dt n => execPsi5Silent_lasts dt n s
  | .psi5Overcurrent dt n => execPsi5Overcurrent_lasts dt n s
  | .linFrameSlot dt n fid w => execLinFrameSlot_lasts dt n fid w s
  | .linDiagPair dt n w => execLinDiagPair_lasts dt n w s
  | .linWakeUp dt n => execLinWakeUp_lasts dt n s
  | .linScheduleStart n => execLinScheduleStart_lasts n s
  | .linWake dt n lowUs => execLinWake_lasts dt n lowUs s
  | .linStuck dt n toVbat => execLinStuck_lasts dt n toVbat s
  | .linStuckClear dt n => execLinStuckClear_lasts dt n s
  | .harvestCutoff dt => execHarvestCutoff_lasts dt s
  | .queueTimeout dt g => execQueueTimeout_lasts dt g s
  | .queuePtr dt g k => execQueuePtr_lasts dt g k s
  | .linkRetry dt g lanes twice => execLinkRetry_lasts dt g lanes twice s
  | .snapshotDone dt single badEcc decayed => execSnapshotDone_lasts dt single badEcc decayed s
  | .keyLimit k => execKeyLimit_lasts k s
  | .uplinkDown dt port cause => execUplinkDown_lasts dt port cause s
  | .uplinkUp dt port => execUplinkUp_lasts dt port s
  | .revert k => execRevert_lasts k s
  | .uplinkRx dt port frame => execUplinkRx_lasts dt port frame s
  | .wakeOutRelease dt => execWakeOutRelease_lasts dt s
  | .rememberedDelivery dt c => execRememberedDelivery_lasts dt c s
  | .spuDeferEnd dt g => execSpuDeferEnd_lasts dt g s
  | .portRead dt p fast cmd addr crc => execPortRead_lasts dt p fast cmd addr crc s
  | .portWrite dt p fast cmd addr data crc => execPortWrite_lasts dt p fast cmd addr data crc s
  | .burstRead dt p how cmd addr crc words => execBurstRead_lasts dt p how cmd addr crc words s
  | .burstWrite dt p how cmd addr crc words => execBurstWrite_lasts dt p how cmd addr crc words s
  | .stallRead dt p how cmd addr crc => execStallRead_lasts dt p how cmd addr crc s
  | .secureWrite dt p fast cmd addr data ctr tag crc => execSecureWrite_lasts dt p fast cmd addr data ctr tag crc s
  | .secureBurst dt p fast cmd addr len ctr crc words tag tagCrc =>
    execSecureBurst_lasts dt p fast cmd addr len ctr crc words tag tagCrc s
  | .transactionAbort dt p at_ => execTransactionAbort_lasts dt p at_ s
  | .seqWriteBack dt p off data => execSeqWriteBack_lasts dt p off data s
  | .registerWrite dt p indirect addr data => execRegisterWrite_lasts dt p indirect addr data s
  | .commit dt p groups => execCommit_lasts dt p groups s
  | .commitTake => execCommitTake_lasts s
  | .sowingComplete => execSowingComplete_lasts s
  | .commitEffective => execCommitEffective_lasts s
  | .lockSet dt p bits => execLockSet_lasts dt p bits s
  | .captureReq dt p restart => execCaptureReq_lasts dt p restart s
  | .captureSample => execCaptureSample_lasts s
  | .captureDone dt => execCaptureDone_lasts dt s
  | .discard dt p groups => execDiscard_lasts dt p groups s
  | .flush dt p g => execFlush_lasts dt p g s
  | .evqFlush dt p => execEvqFlush_lasts dt p s
  | .calSave dt p => execCalSave_lasts dt p s
  | .goRead _ _ _ _ _ => goWith_lasts _ _ _ _ _ _ s
  | .goWrite _ _ _ _ _ => goWith_lasts _ _ _ _ _ _ s
  | .goIdent _ _ _ _ => goWith_lasts _ _ _ _ _ _ s
  | .goLinDiag _ _ _ => goWith_lasts _ _ _ _ _ _ s
  | .expired n => execExpired_lasts n s
  | .preset dt p => execPreset_lasts dt p s
  | .reclaim dt p => execReclaim_lasts dt p s
  | .open_ dt p => execOpen_lasts dt p s
  | .close dt p => execClose_lasts dt p s
  | .sessionResponse dt p r => execSessionResponse_lasts dt p r s
  | .challengeTimeout dt p => execChallengeTimeout_lasts dt p s
  | .heartbeatMissed dt p => execHeartbeatMissed_lasts dt p s
  | .leaseExpiry dt p => execLeaseExpiry_lasts dt p s
  | .loadPart _ _ _ _ _ => vaultFrame_lasts _ _ _ _ _ _ _ s
  | .installMaster _ _ _ _ => vaultFrame_lasts _ _ _ _ _ _ _ s
  | .installStreamKey _ _ _ _ _ _ _ _ => vaultFrame_lasts _ _ _ _ _ _ _ s
  | .installPairingRoot _ _ _ _ _ => vaultFrame_lasts _ _ _ _ _ _ _ s
  | .installHoardKey _ _ _ => vaultFrame_lasts _ _ _ _ _ _ _ s
  | .rotatePortKey _ _ _ _ => vaultFrame_lasts _ _ _ _ _ _ _ s
  | .clearSlot _ _ _ _ => vaultFrame_lasts _ _ _ _ _ _ _ s
  | .setPolicy _ _ _ _ => vaultFrame_lasts _ _ _ _ _ _ _ s
  | .readSlotAttr _ _ _ _ => vaultFrame_lasts _ _ _ _ _ _ _ s
  | .readLog _ _ _ _ => vaultFrame_lasts _ _ _ _ _ _ _ s
  | .sign _ _ _ _ => vaultFrame_lasts _ _ _ _ _ _ _ s
  | .readOut _ _ _ _ _ => vaultFrame_lasts _ _ _ _ _ _ _ s
  | .saveConfig _ _ _ => vaultFrame_lasts _ _ _ _ _ _ _ s
  | .provPart _ _ _ _ _ => vaultFrame_lasts _ _ _ _ _ _ _ s
  | .provCommit _ _ _ => vaultFrame_lasts _ _ _ _ _ _ _ s
  | .vaultResult dt p => execVaultResult_lasts dt p s
  | .shellOpen _ => sensor_lasts _ _ s
  | .shellShort _ => sensor_lasts _ _ s
  | .light _ => sensor_lasts _ _ s
  | .voltGlitch _ => sensor_lasts _ _ s
  | .clockGlitch _ => sensor_lasts _ _ s
  | .tempHigh _ => sensor_lasts _ _ s
  | .tempLow _ => sensor_lasts _ _ s
  | .testAccess dt how => execTestAccess_lasts dt how s
  | .idcode => execIdcode_lasts s
  | .bypass tdi => execBypass_lasts tdi s
  | .railWarning dt r => execRailWarning_lasts dt r s
  | .railReset r lead => execRailReset_lasts r lead s
  | .railRecovery dt r th => execRailRecovery_lasts dt r th s
  | .vlinkSecond dt g => execVlinkSecond_lasts dt g s
  | .vlinkRecovery dt g => execVlinkRecovery_lasts dt g s
  | .regionIsolated dt g => execRegionIsolated_lasts dt g s
  | .regionIsolationEnd dt g => execRegionIsolationEnd_lasts dt g s
  | .vbatSecond dt => execVbatSecond_lasts dt s
  | .vbatRecovery dt => execVbatRecovery_lasts dt s
  | .regionCal g => execRegionCal_lasts g s
  | .modeReqOff dt p => execModeReqOff_lasts dt p s
  | .modeReqSentinel dt p => execModeReqSentinel_lasts dt p s
  | .modeReqRun dt p => execModeReqRun_lasts dt p s
  | .modeReqRecover dt p => execModeReqRecover_lasts dt p s
  | .modeReqTest dt p secure => execModeReqTest_lasts dt p secure s
  | .modeReqReplay dt p secure => execModeReqReplay_lasts dt p secure s
  | .modeChange => execModeChange_lasts s
  | .offEntry dt => execOffEntry_lasts dt s
  | .sentinelEntry dt => execSentinelEntry_lasts dt s
  | .sentinelPoll dt n w pings sent lin => execSentinelPoll_lasts dt n w pings sent lin s
  | .sentinelExit dt => execSentinelExit_lasts dt s
  | .lockstepMismatch dt => execLockstepMismatch_lasts dt s
  | .wardenRestart dt => execWardenRestart_lasts dt s
  | .hoardArm => execHoardArm_lasts s
  | .hoardFreeze dt p => execHoardFreeze_lasts dt p s
  | .hoardExport => execHoardExport_lasts s
  | .hoardFrozen dt => execHoardFrozen_lasts dt s
  | .replayInject dt offset data => execReplayInject_lasts dt offset data s
  | .traceStart => execTraceStart_lasts s
  | .replayTick => execReplayTick_lasts s
  | .replayEnd dt => execReplayEnd_lasts dt s
  | .takeBlock dt block => execTakeBlock_lasts dt block s
  | .verify dt => execVerify_lasts dt s
  | .abort dt p => execAbort_lasts dt p s
  | .activate dt p => execActivate_lasts dt p s
  | .activationPause dt => execActivationPause_lasts dt s
  | .activationPauseEnd dt => execActivationPauseEnd_lasts dt s
  | .migrationComplete dt w => execMigrationComplete_lasts dt w s
  | .confirm dt p => execConfirm_lasts dt p s
  | .rollback dt p => execRollback_lasts dt p s
  | .corePllRelock dt => execCorePllRelock_lasts dt s
  | .psi5ShortHigh dt n => execPsi5ShortHigh_lasts dt n s
  | .verifyComplete dt => execVerifyComplete_lasts dt s
  | .takeComplete dt readBackOk => execTakeComplete_lasts dt readBackOk s

/-! ### A step -/

/-- A step takes its command from the queue, and what then lasts, lasts from the state before it. -/
theorem step_lock {s t : State} (h : step s = .next t) : s.lock &&& t.lock = s.lock ∨ FreshlyReset t := by
  unfold step at h
  split at h
  · cases h
    exact .inl BitVec.and_self
  · next c rest _ =>
    obtain ⟨u, hu, hl⟩ := exec_lasts c { s with pending := rest }
    cases hu.symm.trans h
    obtain hg | hr := hl
    · exact .inl hg.lock
    · exact .inr hr.fresh

/-- Settles O58: each command keeps LOCK's bits, or it ends in a device reset, after which LOCK is clear. -/
theorem lockBitsHold : Obligations.LockBitsHold := by
  unfold Obligations.LockBitsHold
  intro s t h
  exact (step_lock h).imp_right fun hr => ⟨hr, hr.lock⟩

end Sys2Proof.Machine
end

section
/-!
SUPPORT. What a command on one region leaves alone (R1, R2): the clusters, the configuration, each port's own settings,
and the lanes of the other regions with their endpoints. An operation on a lane of the region writes that lane and the
sixteen endpoints of its chain.
-/

namespace Sys2Proof.Machine

/-- The part of the state that lies beyond region `g`: a lane or an endpoint of the region reads as none. -/
def State.beyond (g : Nat) (s : State) :=
  (s.clusters, s.cfg, s.epoch, s.epochAt, s.h.own, s.m.own, s.u.own,
    fun k => if k / 64 = g then none else some (s.lane k),
    fun i => if i / 1024 = g then none else some (s.ep i, s.endpoint i))

/-- The parts of equal views. -/
theorem of_beyond {g : Nat} {s t : State} (h : t.beyond g = s.beyond g) :
    t.clusters = s.clusters ∧ t.cfg = s.cfg ∧ t.epoch = s.epoch ∧ t.epochAt = s.epochAt ∧
      (∀ k, k / 64 ≠ g → t.lane k = s.lane k) ∧
      (∀ i, i / 1024 ≠ g → t.ep i = s.ep i ∧ t.endpoint i = s.endpoint i) ∧
      ∀ p, (t.port p).own = (s.port p).own := by
  simp only [State.beyond, Prod.mk.injEq] at h
  obtain ⟨hclusters, hcfg, hepoch, hepochAt, hh, hm, hu, hlanes, heps⟩ := h
  refine ⟨hclusters, hcfg, hepoch, hepochAt, fun k hk => ?_, fun i hi => ?_, fun p => ?_⟩
  · simpa [hk] using congrFun hlanes k
  · simpa [hi] using congrFun heps i
  · cases p
    · exact hh
    · exact hm
    · exact hu

/-! ### Writes -/

section

variable (g : Nat)

@[simp] theorem beyond_mk (s : State) (fresh : Nat) (cap : CaptureState) (cycle : List Event) (chans : Tbl ChanState)
    (regions : Tbl RegionState) (asm_ : AsmState) (streams : Tbl StreamState) (routes : Tbl RouteState)
    (hoard : HoardState) (grid : GridState) (mode : ModeState) :
    State.beyond g { s with
      fresh := fresh, cap := cap, cycle := cycle, chans := chans, regions := regions, asm_ := asm_
      streams := streams, routes := routes, hoard := hoard, grid := grid, mode := mode } = s.beyond g := rfl

theorem onHM_beyond (s : State) (f : PortState → PortState) (hf : ∀ x, (f x).own = x.own) :
    (s.onHM f).beyond g = s.beyond g := by
  simp only [State.beyond, State.onHM, hf]
  rfl

theorem setPort_beyond (s : State) (p : Port) (x : PortState) (hx : x.own = (s.port p).own) :
    (s.setPort p x).beyond g = s.beyond g := by
  cases p <;>
  · simp only [State.port] at hx
    simp only [State.beyond, State.setPort, hx]
    rfl

@[simp] theorem setRegion_beyond (s : State) (k : Nat) (x : RegionState) :
    (s.setRegion k x).beyond g = s.beyond g := rfl
@[simp] theorem setChan_beyond (s : State) (k : Nat) (x : ChanState) : (s.setChan k x).beyond g = s.beyond g := rfl
@[simp] theorem setStream_beyond (s : State) (k : Nat) (x : StreamState) :
    (s.setStream k x).beyond g = s.beyond g := rfl
@[simp] theorem setRoute_beyond (s : State) (k : Nat) (x : RouteState) : (s.setRoute k x).beyond g = s.beyond g := rfl
@[simp] theorem onGrid_beyond (s : State) (f : GridState → GridState) : (s.onGrid f).beyond g = s.beyond g := rfl
@[simp] theorem onMode_beyond (s : State) (f : ModeState → ModeState) : (s.onMode f).beyond g = s.beyond g := rfl
@[simp] theorem onHoard_beyond (s : State) (f : HoardState → HoardState) : (s.onHoard f).beyond g = s.beyond g := rfl
@[simp] theorem onAsm_beyond (s : State) (f : AsmState → AsmState) : (s.onAsm f).beyond g = s.beyond g := rfl
@[simp] theorem draw_beyond (s : State) : s.draw.2.beyond g = s.beyond g := rfl

theorem setLane_beyond (s : State) {n : Nat} (x : LaneState) (hn : n / 64 = g) :
    (s.setLane n x).beyond g = s.beyond g := by
  have h : (fun k => if k / 64 = g then none else some ((s.setLane n x).lane k)) =
      fun k => if k / 64 = g then none else some (s.lane k) := by
    funext k
    split
    · rfl
    · next hk => rw [State.setLane_lane_other s x (by rintro rfl; exact hk hn)]
  simp only [State.beyond, h]
  rfl

theorem setEp_beyond (s : State) {i : Nat} (x : EpState) (hi : i / 1024 = g) :
    (s.setEp i x).beyond g = s.beyond g := by
  have h : (fun k => if k / 1024 = g then none else some ((s.setEp i x).ep k, (s.setEp i x).endpoint k)) =
      fun k => if k / 1024 = g then none else some (s.ep k, s.endpoint k) := by
    funext k
    split
    · rfl
    · next hk =>
      rw [State.setEp_ep_other s x (by rintro rfl; exact hk hi)]
      rfl
  simp only [State.beyond, h]
  rfl

theorem setEndpoint_beyond (s : State) {i : Nat} (x : Endpoint) (hi : i / 1024 = g) :
    (s.setEndpoint i x).beyond g = s.beyond g := by
  have h : (fun k => if k / 1024 = g then none else some ((s.setEndpoint i x).ep k, (s.setEndpoint i x).endpoint k)) =
      fun k => if k / 1024 = g then none else some (s.ep k, s.endpoint k) := by
    funext k
    split
    · rfl
    · next hk =>
      rw [State.setEndpoint_endpoint_other s x (by rintro rfl; exact hk hi)]
      rfl
  simp only [State.beyond, h]
  rfl

/-- An endpoint of a lane lies in the lane's region (R5). -/
theorem epIdx_region {n p : Nat} (hn : n / 64 = g) (hp : p < 16) : epIdx n p / 1024 = g := by
  unfold epIdx
  omega

variable {g}

/-- A fold that carries the state beside other values, and keeps what lies beyond for each entry of its list. -/
theorem beyond_foldl_at {α β : Type} (v : β → State) {f : β → α → β} {l : List α} {b : β}
    (h : ∀ b, ∀ a ∈ l, (v (f b a)).beyond g = (v b).beyond g) : (v (l.foldl f b)).beyond g = (v b).beyond g := by
  induction l generalizing b with
  | nil => rfl
  | cons a l ih =>
    rw [List.foldl_cons, ih fun b c hc => h b c (List.mem_cons_of_mem a hc), h b a List.mem_cons_self]

theorem beyond_foldl {α : Type} {f : State → α → State} {l : List α} {s : State}
    (h : ∀ s, ∀ a ∈ l, (f s a).beyond g = s.beyond g) : (l.foldl f s).beyond g = s.beyond g :=
  beyond_foldl_at id h

variable (g)

/-! ### Events and the passing of time -/

@[simp] theorem glb_beyond (s : State) (n : Nat) : (glb s n).beyond g = s.beyond g :=
  onHM_beyond g s _ fun _ => rfl
@[simp] theorem glbPort_beyond (s : State) (p : Port) (n : Nat) : (glbPort s p n).beyond g = s.beyond g :=
  setPort_beyond g s p _ rfl
@[simp] theorem raise_beyond (s : State) (src origin : Nat) (data : Word) :
    (raise s src origin data).beyond g = s.beyond g := by unfold raise; split <;> simp
@[simp] theorem setQueue_beyond (s : State) (n : Nat) : (setQueue s n).beyond g = s.beyond g :=
  (glb_beyond g _ _).trans (onHM_beyond g s _ fun _ => rfl)
@[simp] theorem setSupply_beyond (s : State) (n : Nat) : (setSupply s n).beyond g = s.beyond g :=
  (glb_beyond g _ _).trans (onHM_beyond g s _ fun _ => rfl)
@[simp] theorem setRegionBit_beyond (s : State) (k n : Nat) : (setRegionBit s k n).beyond g = s.beyond g :=
  (glb_beyond g _ _).trans (onHM_beyond g s _ fun _ => rfl)
@[simp] theorem queueItem_beyond (s : State) (p : Port) (it : Item) : (queueItem s p it).beyond g = s.beyond g := by
  simp only [queueItem, glbPort_beyond]
  exact setPort_beyond g s p _ rfl
@[simp] theorem requestCapture_beyond (s : State) (restart : Bool) :
    (requestCapture s restart).beyond g = s.beyond g := by simp [requestCapture]
@[simp] theorem freezeEvent_beyond (s : State) (it : Item) : (freezeEvent s it).beyond g = s.beyond g := by
  unfold freezeEvent
  dsimp only
  (repeat' split) <;> simp
@[simp] theorem wakeCond_beyond (s : State) : (wakeCond s).beyond g = s.beyond g := by
  unfold wakeCond
  (repeat' split) <;> simp
@[simp] theorem spuDefer_beyond (s : State) (c : Nat) : (spuDefer s c).beyond g = s.beyond g :=
  beyond_foldl fun s k _ => by split <;> simp
@[simp] theorem consume_beyond (s : State) (c : Nat) (it : Item) : (consume s c it).beyond g = s.beyond g := by
  unfold consume
  (repeat' split) <;> simp
@[simp] theorem deliverItem_beyond (s : State) (c : Nat) (it : Item) : (deliverItem s c it).beyond g = s.beyond g := by
  unfold deliverItem
  split <;> simp
@[simp] theorem dropEvent_beyond (s : State) (c : Nat) : (dropEvent s c).beyond g = s.beyond g := by
  have hdrop (t : State) (p : Port) : (if (t.port p).dropped = 0xFF then t
      else glbPort (t.onPort p (fun x => { x with dropped := x.dropped + 1 })) p 14).beyond g = t.beyond g := by
    split
    · rfl
    · exact (glbPort_beyond g _ _ _).trans (setPort_beyond g t p _ rfl)
  unfold dropEvent
  dsimp only
  split
  · exact (hdrop _ _).trans (by simp)
  · exact (hdrop _ _).trans (by simp)
  · simp
@[simp] theorem deliverHeld_beyond (s : State) (c : Nat) : (deliverHeld s c).beyond g = s.beyond g := by
  unfold deliverHeld
  (repeat' split) <;> simp
@[simp] theorem deliverEarlier_beyond (s : State) (c : Nat) : (deliverEarlier s c).beyond g = s.beyond g :=
  beyond_foldl fun s k _ => by split <;> simp
@[simp] theorem deliverTo_beyond (s : State) (ev : Event) (c : Nat) : (deliverTo s ev c).beyond g = s.beyond g := by
  unfold deliverTo
  dsimp only
  (repeat' split) <;> simp
@[simp] theorem deliverEvent_beyond (s : State) (ev : Event) : (deliverEvent s ev).beyond g = s.beyond g :=
  beyond_foldl fun s c _ => deliverTo_beyond g s ev c
@[simp] theorem flushCycle_beyond (s : State) : (flushCycle s).beyond g = s.beyond g :=
  beyond_foldl fun s ev _ => deliverEvent_beyond g s ev
@[simp] theorem advance_beyond (s : State) (dt : Nat) : (advance s dt).beyond g = s.beyond g := by
  unfold advance
  dsimp only
  (repeat' split) <;> simp

/-! ### The hoard and the regions -/

@[simp] theorem hoardBlock_beyond (s : State) (typ lane : Nat) (body : Bytes) :
    (hoardBlock s typ lane body).beyond g = s.beyond g := by
  unfold hoardBlock
  dsimp only
  (repeat' split) <;> simp
@[simp] theorem happen_beyond (s : State) (n : Nat) (tick : BitVec 48) (kind pos : Nat) (arg : Bytes) :
    (happen s n tick kind pos arg).beyond g = s.beyond g := by unfold happen; split <;> simp
@[simp] theorem happenRegion_beyond (s : State) (ns : List Nat) (code begins : Nat) :
    (happenRegion s ns code begins).beyond g = s.beyond g := beyond_foldl fun s n _ => by simp [happenNow]
@[simp] theorem regionLost_beyond (s : State) (k : Nat) (num : BitVec 48) :
    (regionLost s k num).beyond g = s.beyond g := beyond_foldl fun s n _ => by simp
@[simp] theorem dropStage_beyond (s : State) (k : Nat) : (dropStage s k).beyond g = s.beyond g := by simp [dropStage]
@[simp] theorem requestStage_beyond (s : State) (k : Nat) : (requestStage s k).beyond g = s.beyond g := by
  unfold requestStage
  split <;> simp
@[simp] theorem regionCalEvent_beyond (s : State) (k why : Nat) : (regionCalEvent s k why).beyond g = s.beyond g := by
  simp [regionCalEvent]

/-! ### One lane of the region -/

theorem onLane_beyond (s : State) {n : Nat} (hn : n / 64 = g) (f : LaneState → LaneState) :
    (s.onLane n f).beyond g = s.beyond g := setLane_beyond g s _ hn

variable {g} {n : Nat} (hn : n / 64 = g)
include hn

theorem chainSettle_beyond (s : State) (t : Nat) : (chainSettle s n t).beyond g = s.beyond g := by
  unfold chainSettle
  simp only [draw_beyond]
  refine beyond_foldl_at Prod.fst fun a p hp => ?_
  have hi := epIdx_region g hn (List.mem_range.1 hp)
  split
  · exact setEndpoint_beyond g _ _ hi
  · exact setEndpoint_beyond g _ _ hi

theorem chainOff_beyond (s : State) (t : Int) : (chainOff s n t).beyond g = s.beyond g :=
  beyond_foldl fun s _ hp => setEndpoint_beyond g s _ (epIdx_region g hn (List.mem_range.1 hp))

theorem sourceOn_beyond (s : State) : (sourceOn s n).beyond g = s.beyond g := by
  unfold sourceOn
  dsimp only
  split
  · rw [chainSettle_beyond hn, onLane_beyond g _ hn]
  · exact onLane_beyond g _ hn _

theorem sourceOff_beyond (s : State) (t : Int) : (sourceOff s n t).beyond g = s.beyond g := by
  rw [sourceOff, chainOff_beyond hn, onLane_beyond g _ hn]

theorem becomeSprout_beyond (s : State) {p : Nat} (hp : p < 16) :
    (becomeSprout s (epIdx n p)).beyond g = s.beyond g := by
  have hl : epIdx n p / 16 = n := by unfold epIdx; omega
  unfold becomeSprout
  dsimp only
  rw [hl]
  split
  · rw [onLane_beyond g _ hn, State.onEp_eq, setEp_beyond g _ _ (epIdx_region g hn hp)]
  · rw [onLane_beyond g _ hn, State.onEp_eq, setEp_beyond g _ _ (epIdx_region g hn hp)]
  · exact setEp_beyond g _ _ (epIdx_region g hn hp)

theorem laneSprouts_beyond (s : State) : (laneSprouts s n).beyond g = s.beyond g :=
  beyond_foldl fun s _ hp => becomeSprout_beyond hn s (List.mem_range.1 (List.mem_of_mem_filter hp))

theorem powerLane_beyond (s : State) : (powerLane s n).beyond g = s.beyond g := by
  unfold powerLane
  dsimp only
  split <;> split
  all_goals simp only [startClear, laneSprouts_beyond hn, onLane_beyond g _ hn, sourceOn_beyond hn]

theorem tryPower_beyond (s : State) : (tryPower s n).beyond g = s.beyond g := by
  unfold tryPower
  split
  · exact powerLane_beyond hn s
  · rfl

theorem startProbe_beyond (s : State) : (startProbe s n).beyond g = s.beyond g := by
  unfold startProbe
  dsimp only
  split
  · exact setLane_beyond g s _ hn
  · rfl

theorem endSpu_beyond (s : State) : (endSpu s n).beyond g = s.beyond g := by
  unfold endSpu
  dsimp only
  split
  · rfl
  · exact setLane_beyond g s _ hn

theorem refuseAccess_beyond (s : State) : (refuseAccess s n).beyond g = s.beyond g := by
  unfold refuseAccess accComplete
  dsimp only
  (repeat' split) <;> simp only [raise_beyond, onLane_beyond g _ hn]

theorem dropRouteWrites_beyond (s : State) : (dropRouteWrites s n).beyond g = s.beyond g :=
  beyond_foldl fun s p hp => by
    unfold dropRouteWrite
    split
    · exact setEp_beyond g s _ (epIdx_region g hn (List.mem_range.1 hp))
    · rfl

theorem leaveWave_beyond (s : State) : (leaveWave s n).beyond g = s.beyond g := by
  unfold leaveWave
  dsimp only
  (repeat' split) <;> simp only [onLane_beyond g _ hn, onMode_beyond]

theorem unpower_beyond (s : State) : (unpower s n).beyond g = s.beyond g := by
  unfold unpower
  rw [sourceOff_beyond hn, onLane_beyond g _ hn, leaveWave_beyond hn, dropRouteWrites_beyond hn, endSpu_beyond hn,
    refuseAccess_beyond hn]

theorem suspendLane_beyond (s : State) : (suspendLane s n).beyond g = s.beyond g := by
  rw [suspendLane, onLane_beyond g _ hn, unpower_beyond hn]

omit hn

/-! ### The lanes of the region -/

theorem regionLanes_region {k : Nat} (h : n ∈ regionLanes k) : n / 64 = k := by
  simp only [regionLanes, List.mem_map, List.mem_range] at h
  omega

theorem withFaults_beyond {ns : List Nat} (h : ∀ n ∈ ns, n / 64 = g) (s t : State) :
    (withFaults ns s t).beyond g = t.beyond g := by
  unfold withFaults
  split
  · rw [glb_beyond]
    refine beyond_foldl fun u n hn => ?_
    split
    · exact onLane_beyond g u (h n hn) _
    · rfl
  · rfl

theorem suspendRegion_beyond (s : State) : (suspendRegion s g).beyond g = s.beyond g := by
  unfold suspendRegion
  simp only [State.onRegion_eq, setRegionBit_beyond, raise_beyond, setRegion_beyond, happenRegion_beyond]
  refine (beyond_foldl fun u n hn => ?_).trans (dropStage_beyond g s g)
  exact suspendLane_beyond (regionLanes_region (List.mem_of_mem_filter hn)) u

theorem resumeRegion_beyond (s : State) : (resumeRegion s g).beyond g = s.beyond g := by
  unfold resumeRegion
  simp only [requestStage_beyond, raise_beyond]
  refine (beyond_foldl fun u n hn => ?_).trans (happenRegion_beyond g s _ 1 0)
  split
  · exact onLane_beyond g u (regionLanes_region (List.mem_of_mem_filter hn)) _
  · rfl

theorem isolateRegion_beyond (s : State) : (isolateRegion s g).beyond g = s.beyond g := by
  unfold isolateRegion
  dsimp only
  rw [withFaults_beyond fun n hn => regionLanes_region hn]
  simp only [State.onRegion_eq, setRegionBit_beyond, raise_beyond, happenRegion_beyond, setRegion_beyond]
  rw [beyond_foldl fun s n hn => unpower_beyond (regionLanes_region (List.mem_of_mem_filter hn)) s, dropStage_beyond]

/-! ### The commands -/

/-- What a command on region `g` keeps. -/
def StaysIn (g : Nat) (s t : State) : Prop := t.stores = s.stores ∧ t.beyond g = s.beyond g

theorem next_staysIn {s t : State} (hs : t.stores = s.stores) (hb : t.beyond g = s.beyond g) :
    Answers (.next t) (StaysIn g s) := ⟨t, rfl, hs, hb⟩

theorem run_staysIn {dt : Nat} {s : State} {f : State → State} (hs : ∀ u, (f u).stores = u.stores)
    (hb : ∀ u, (f u).beyond g = u.beyond g) : Answers (run dt s f) (StaysIn g s) := by
  unfold run
  split
  · exact next_staysIn rfl rfl
  · exact next_staysIn ((hs _).trans (advance_stores s dt)) ((hb _).trans (advance_beyond g s dt))

theorem execStageAdmit_staysIn (r : Region) (s : State) : Answers (execStageAdmit r s) (StaysIn r s) := by
  refine next_staysIn ?_ ?_
  all_goals dsimp only; split <;> simp

theorem execLaneStep_staysIn (r : Region) (m : Fin 32) (s : State) : Answers (execLaneStep r m s) (StaysIn r s) := by
  have hm := m.isLt
  have h0 : (64 * r.val + 2 * m.val) / 64 = r.val := by omega
  have h1 : (64 * r.val + 2 * m.val + 1) / 64 = r.val := by omega
  refine next_staysIn ?_ ?_
  · dsimp only
    (repeat' split) <;> simp
  · split
    · rfl
    dsimp only
    split
    · rw [State.onRegion_eq, setRegion_beyond, startProbe_beyond h1, startProbe_beyond h0, tryPower_beyond h1,
        tryPower_beyond h0, advance_beyond]
    · rfl

theorem execStageChargeRelease_staysIn (r : Region) (s : State) :
    Answers (execStageChargeRelease r s) (StaysIn r s) := by
  refine next_staysIn ?_ ?_
  all_goals dsimp only; (repeat' split) <;> simp

theorem execQueueTimeout_staysIn (dt : Nat) (r : Region) (s : State) :
    Answers (execQueueTimeout dt r s) (StaysIn r s) := by
  refine run_staysIn (fun u => ?_) (fun u => ?_)
  all_goals dsimp only; (repeat' split) <;> simp

theorem execQueuePtr_staysIn (dt : Nat) (r : Region) (k : Bank) (s : State) :
    Answers (execQueuePtr dt r k s) (StaysIn r s) := by
  refine run_staysIn (fun u => ?_) (fun u => ?_)
  all_goals dsimp only; (repeat' split) <;> simp

theorem execSpuDeferEnd_staysIn (dt : Nat) (r : Region) (s : State) :
    Answers (execSpuDeferEnd dt r s) (StaysIn r s) := by
  refine run_staysIn (fun u => ?_) (fun u => ?_)
  all_goals split <;> simp

theorem execVlinkSecond_staysIn (dt : Nat) (r : Region) (s : State) :
    Answers (execVlinkSecond dt r s) (StaysIn r s) := by
  refine run_staysIn (fun u => ?_) (fun u => ?_)
  all_goals split <;> simp [suspendRegion_beyond]

theorem execVlinkRecovery_staysIn (dt : Nat) (r : Region) (s : State) :
    Answers (execVlinkRecovery dt r s) (StaysIn r s) := by
  refine run_staysIn (fun u => ?_) (fun u => ?_)
  all_goals dsimp only; (repeat' split) <;> simp [resumeRegion_beyond]

theorem execRegionIsolated_staysIn (dt : Nat) (r : Region) (s : State) :
    Answers (execRegionIsolated dt r s) (StaysIn r s) := by
  refine run_staysIn (fun u => ?_) (fun u => ?_)
  all_goals split <;> simp [isolateRegion_beyond]

theorem execRegionIsolationEnd_staysIn (dt : Nat) (r : Region) (s : State) :
    Answers (execRegionIsolationEnd dt r s) (StaysIn r s) := by
  refine run_staysIn (fun u => ?_) (fun u => ?_)
  all_goals dsimp only; (repeat' split) <;> simp [resumeRegion_beyond]

theorem execRegionCal_staysIn (r : Region) (s : State) : Answers (execRegionCal r s) (StaysIn r s) := by
  refine next_staysIn ?_ ?_
  all_goals dsimp only; (repeat' split) <;> simp

end

/-- A command on a region keeps what lies beyond the region. -/
theorem exec_staysIn {c : Instr} {r : Region} (h : regionOf c = some r) (s : State) :
    Answers (exec c s) (StaysIn r s) := by
  unfold regionOf at h
  split at h <;> cases h
  · exact execStageAdmit_staysIn r s
  · exact execLaneStep_staysIn r _ s
  · exact execStageChargeRelease_staysIn r s
  · exact execQueueTimeout_staysIn _ r s
  · exact execQueuePtr_staysIn _ r _ s
  · exact execSpuDeferEnd_staysIn _ r s
  · exact execVlinkSecond_staysIn _ r s
  · exact execVlinkRecovery_staysIn _ r s
  · exact execRegionIsolated_staysIn _ r s
  · exact execRegionIsolationEnd_staysIn _ r s
  · exact execRegionCal_staysIn r s

/-- Settles O55: the stores and what lies beyond the region are the same after each command on a region. -/
theorem regionCommandsKeepTheRest : Obligations.RegionCommandsKeepTheRest := by
  unfold Obligations.RegionCommandsKeepTheRest
  intro c g s t hc h
  obtain ⟨u, hu, hs, hb⟩ := exec_staysIn hc s
  cases hu.symm.trans h
  exact ⟨hs, of_beyond hb⟩

end Sys2Proof.Machine
end

section
/-!
SUPPORT. What a command shows (R327, R374), where the event is raised after other changes, and what a happening of the
hoard leaves alone: everything but the hoard (R485).
-/

namespace Sys2Proof.Machine

/-! ### Events and status bits -/

/-- An event raised after changes that keep the configuration and the time carries the time that `u` shows (R381). -/
theorem raise_raised_of {u s : State} (hcfg : s.cfg = u.cfg) (htick : s.grid.tick = u.grid.tick)
    (hsub : s.subtick = u.subtick) (src origin : Nat) (data : Word) :
    Raised u (raise s src origin data) src origin data := by
  intro h
  have hs : eventFormed s src origin = true := by
    rw [← h]
    simp only [eventFormed, State.inForce, hcfg]
  have := raise_raised s src origin data hs
  rwa [htick, hsub] at this

/-- What keeps the router cycle keeps an event raised. -/
theorem Raised.of_mem {u s t : State} {src origin : Nat} {data : Word} (h : Raised u s src origin data)
    (hc : ∀ e ∈ s.cycle, e ∈ t.cycle) : Raised u t src origin data := fun hf => hc _ (h hf)

/-- An event shown by a state whose router cycle is the one that it was raised in. -/
theorem raised_of_cycle {u s t : State} {src origin : Nat} {data : Word}
    (hc : t.cycle = (raise s src origin data).cycle) (hcfg : s.cfg = u.cfg) (hgrid : s.grid = u.grid) :
    Raised u t src origin data :=
  (raise_raised_of hcfg (by rw [hgrid]) (by simp only [State.subtick, hgrid]) src origin data).of_mem
    fun _ he => hc ▸ he

/-- A bit of GLB_STATUS keeps an event raised. -/
theorem Raised.glb {u s : State} {src origin : Nat} {data : Word} (h : Raised u s src origin data) (n : Nat) :
    Raised u (glb s n) src origin data := h

/-- A bit of QUEUE_STATUS that is set shows on Port H, with QUEUE in GLB_STATUS (R327, R343). -/
theorem setQueue_shows {n : Nat} (s : State) (h : n < 24) :
    (setQueue s n).h.queue.bits.getLsbD n = true ∧ (setQueue s n).glbHas 19 = true :=
  ⟨by simp [setQueue, bit24_getLsbD h], glb_glbHas (by decide)⟩

/-- A GLB_STATUS bit stays set when a bit of QUEUE_STATUS is set. -/
theorem glbHas_setQueue {s : State} {n k : Nat} (h : s.glbHas k = true) : (setQueue s n).glbHas k = true :=
  glbHas_glb h

/-! ### Happenings (R485) -/

/-- The state without its hoard. -/
def State.offHoard (s : State) : State := { s with hoard := {} }

/-- Equal views differ in the hoard alone. -/
theorem eq_of_offHoard {s t : State} (h : t.offHoard = s.offHoard) : t = { s with hoard := t.hoard } := by
  have ht : t = { t.offHoard with hoard := t.hoard } := rfl
  rw [ht, h]
  rfl

/-- The parts of equal views. -/
theorem of_offHoard {s t : State} (h : t.offHoard = s.offHoard) :
    t.cfg = s.cfg ∧ t.grid = s.grid ∧ t.cycle = s.cycle ∧ t.asm_ = s.asm_ ∧ (∀ n, t.lane n = s.lane n) ∧
      (∀ g, t.region g = s.region g) ∧ ∀ c, t.cluster c = s.cluster c := by
  rw [eq_of_offHoard h]
  simp [State.lane, State.region, State.cluster]

@[simp] theorem hoardBlock_offHoard (s : State) (typ lane : Nat) (body : Bytes) :
    (hoardBlock s typ lane body).offHoard = s.offHoard := by
  unfold hoardBlock
  dsimp only
  (repeat' split) <;> rfl

@[simp] theorem happen_offHoard (s : State) (n : Nat) (tick : BitVec 48) (kind pos : Nat) (arg : Bytes) :
    (happen s n tick kind pos arg).offHoard = s.offHoard := by unfold happen; split <;> simp

@[simp] theorem happenNow_offHoard (s : State) (n kind pos : Nat) (arg : Bytes) :
    (happenNow s n kind pos arg).offHoard = s.offHoard := happen_offHoard _ _ _ _ _ _

@[simp] theorem regionLost_offHoard (s : State) (g : Nat) (num : BitVec 48) :
    (regionLost s g num).offHoard = s.offHoard := keep_foldl State.offHoard fun _ _ => happen_offHoard _ _ _ _ _ _

end Sys2Proof.Machine
end

section
/-!
SUPPORT. Lanes and clusters that stop (R19, R21), and the losses and returns of the clocks (R21, R58, R59).
-/

namespace Sys2Proof.Machine

/-- Stopping lanes writes lanes alone. -/
theorem stopLanes_rest (s : State) (ns : List Nat) : stopLanes s ns = { s with lanes := (stopLanes s ns).lanes } := by
  have h : { stopLanes s ns with lanes := [] } = { s with lanes := [] } :=
    keep_foldl (fun s : State => { s with lanes := [] }) fun s n => by split <;> rfl
  have hs : stopLanes s ns = { { stopLanes s ns with lanes := [] } with lanes := (stopLanes s ns).lanes } := rfl
  rw [hs, h]

/-- A stopped lane has no frame in flight. -/
theorem stopLanes_trig {n : Nat} (ns : List Nat) (s : State) (h : n ∈ ns ∨ (s.lane n).trig = none) :
    ((stopLanes s ns).lane n).trig = none := by
  induction ns generalizing s with
  | nil => simpa [stopLanes] using h
  | cons m ns ih =>
    refine ih _ ?_
    by_cases hm : n = m
    · subst hm
      refine .inr ?_
      dsimp only
      split
      · assumption
      · simp
    · refine (h.imp_left fun h => (List.mem_cons.1 h).resolve_left hm).imp_right fun h => ?_
      dsimp only
      split
      · exact h
      · rwa [State.onLane_eq, State.setLane_lane_other _ _ hm]

/-- The marks of lost lanes on the snapshots under way reach the hoard and the snapshots alone (R21, R234). -/
theorem loseTail_rest (s : State) (ns : List Nat) :
    loseTail s ns = { s with
      hoard := (loseTail s ns).hoard, asm_ := { s.asm_ with build := (loseTail s ns).asm_.build } } := by
  unfold loseTail
  dsimp only
  rw [eq_of_offHoard
    (keep_foldl State.offHoard fun _ _ => keep_foldl State.offHoard fun _ _ => happen_offHoard _ _ _ _ _ _)]
  rfl

/-- What stopping lanes leaves alone. -/
@[simp] theorem stopLanes_kept (s : State) (ns : List Nat) :
    (stopLanes s ns).cfg = s.cfg ∧ (stopLanes s ns).grid = s.grid ∧ (stopLanes s ns).asm_ = s.asm_ ∧
    ∀ c, (stopLanes s ns).cluster c = s.cluster c := by
  rw [stopLanes_rest]
  simp [State.cluster]

@[simp] theorem stopLanes_cycle (s : State) (ns : List Nat) : (stopLanes s ns).cycle = s.cycle := by
  rw [stopLanes_rest]

/-- What the marks of lost lanes leave alone. -/
@[simp] theorem loseTail_kept (s : State) (ns : List Nat) :
    (loseTail s ns).cfg = s.cfg ∧ (loseTail s ns).grid = s.grid ∧ (loseTail s ns).asm_.pllLost = s.asm_.pllLost ∧
    ∀ c, (loseTail s ns).cluster c = s.cluster c := by
  rw [loseTail_rest]
  simp [State.cluster]

@[simp] theorem loseTail_cycle (s : State) (ns : List Nat) : (loseTail s ns).cycle = s.cycle := by
  rw [loseTail_rest]

/-! ### The clocks -/

theorem exec_referenceLoss (dt : Nat) (s : State) : exec (.referenceLoss dt) s = execReferenceLoss dt s := rfl
theorem exec_referenceReturn (s : State) : exec .referenceReturn s = execReferenceReturn s := rfl
theorem exec_corePll (dt : Nat) (s : State) : exec (.corePll dt) s = execCorePll dt s := rfl
theorem exec_corePllRelock (dt : Nat) (s : State) : exec (.corePllRelock dt) s = execCorePllRelock dt s := rfl
theorem exec_lanePll (dt : Nat) (s : State) : exec (.lanePll dt) s = execLanePll dt s := rfl
theorem exec_lanePllRelock (dt : Nat) (s : State) : exec (.lanePllRelock dt) s = execLanePllRelock dt s := rfl

/-- Settles O10, clock by clock. -/
theorem clocksFailAndReturn : Obligations.ClocksFailAndReturn := by
  unfold Obligations.ClocksFailAndReturn
  refine ⟨fun s u dt h hd => ?_, fun s hr hd hon => ?_, fun s u dt h hp => ?_, fun s u dt h hm hc hb => ?_,
    fun s u dt h hm hc hb => ?_, fun s u dt h hl => ?_, fun s u dt h hl => ?_⟩
  · refine ⟨_, (exec_referenceLoss dt s).trans (run_arrives h _), ?_⟩
    simp only [hd, Bool.false_eq_true, if_false]
    exact ⟨by simp, glb_glbHas (by decide), raise_raised_of rfl rfl rfl 49 0 1⟩
  · refine ⟨_, exec_referenceReturn s, ?_⟩
    rw [if_pos (by simpa [hd, hr] using hon)]
    exact ⟨by simp, glb_glbHas (by decide), raise_raised_of rfl rfl rfl 49 0 0⟩
  · refine ⟨_, (exec_corePll dt s).trans (run_arrives h _), ?_⟩
    simp only [hp, if_true]
    refine ⟨glb_glbHas (by decide), raise_raised u 6 0 0, ?_⟩
    cases hb : u.grid.standbyOk <;> simp [hb]
  · refine ⟨_, (exec_corePllRelock dt s).trans (run_arrives h _), ?_⟩
    simp [hc, hm]
  · refine ⟨_, (exec_corePllRelock dt s).trans (run_arrives h _), ?_⟩
    simp [hc, hb]
  · refine ⟨_, (exec_lanePll dt s).trans (run_arrives h _), ?_⟩
    simp only [hl, if_true]
    refine ⟨by simp, fun ht => by simp [ht], fun n => ?_, glb_glbHas (by decide), ?_⟩
    · simp only [glb_kept, raise_kept]
      exact stopLanes_trig _ _ (.inl (List.mem_range.2 n.isLt))
    · exact (raise_raised_of (by simp) (by simp) (by simp [State.subtick]) 5 0 0).glb 4
  · refine ⟨_, (exec_lanePllRelock dt s).trans (run_arrives h _), ?_⟩
    simp [hl]

end Sys2Proof.Machine
end

section
/-!
SUPPORT. Cluster sequencers (R19), the start of a lane in its new mode (R135), and the loops of a region (R198, R199).
-/

namespace Sys2Proof.Machine

theorem exec_seqParity (dt : Nat) (c : Cluster) (s : State) : exec (.seqParity dt c) s = execSeqParity dt c s := rfl
theorem exec_seqReload (c : Cluster) (s : State) : exec (.seqReload c) s = execSeqReload c s := rfl
theorem exec_laneModeStart (n : Lane) (s : State) : exec (.laneModeStart n) s = execLaneModeStart n s := rfl
theorem exec_regionCal (g : Region) (s : State) : exec (.regionCal g) s = execRegionCal g s := rfl

/-! ### Parity -/

/-- Bad parity stops a running or reloading sequencer, with its lanes' frames in flight (R19). -/
theorem seqParity_stops {s u : State} {dt : Nat} (c : Cluster) (h : Arrives s dt u)
    (hc : (u.cluster c).seq ≠ .stopped) :
    ∃ t, exec (.seqParity dt c) s = .next t ∧ (t.cluster c).seq = .stopped ∧ (t.cluster c).lost = !tailNow u ∧
      (t.cluster c).parity = satInc (u.cluster c).parity ∧ Raised u t 4 c.val 0 ∧
      ∀ j, j < 8 → (t.lane (8 * c.val + j)).trig = none := by
  refine ⟨_, (exec_seqParity dt c s).trans (run_arrives h _), ?_⟩
  simp only [hc, if_false]
  obtain ⟨-, -, hcycle, -, hlane, -, hcluster⟩ :=
    of_offHoard (keep_foldl State.offHoard fun _ _ => happenNow_offHoard _ _ _ _ _)
  refine ⟨?_, ?_, ?_, ?_, fun j hj => ?_⟩
  · rw [hcluster]
    simp
  · rw [hcluster]
    simp
  · rw [hcluster]
    simp
  · exact raised_of_cycle (hcycle.trans ((stopLanes_cycle _ _).trans (loseTail_cycle _ _))) rfl rfl
  · rw [hlane]
    exact stopLanes_trig _ _ (.inl (List.mem_map.2 ⟨j, List.mem_range.2 hj, rfl⟩))

/-! ### Lane modes -/

/-- What the start of a lane in its mode sets (R131): mode, the wait for it, the lane's state, and since when it has
power. -/
def LaneState.start (l : LaneState) : LaneMode × Option Nat × LState × Option Nat :=
  (l.mode, l.modeAt, l.lstate, l.poweredAt)

@[simp] theorem becomeSprout_start (s : State) (i n : Nat) :
    ((becomeSprout s i).lane n).start = (s.lane n).start := by
  unfold becomeSprout
  dsimp only
  by_cases hn : n = i / 16
  · subst hn
    split <;> simp [LaneState.start]
  · split <;> simp [State.setLane_lane_other _ _ hn]

@[simp] theorem laneSprouts_start (s : State) (n k : Nat) :
    ((laneSprouts s n).lane k).start = (s.lane k).start :=
  keep_foldl (fun s : State => (s.lane k).start) fun _ _ => becomeSprout_start _ _ _

/-- The source of a bus lane goes on, and there is no chain to settle (R135). -/
theorem sourceOn_start {s : State} {n : Nat} (h : (s.lane n).mode ≠ .aknun) :
    ((sourceOn s n).lane n).start = (s.lane n).start := by
  cases ho : (s.lane n).offAt <;> simp [sourceOn, ho, h, LaneState.start]

/-- A lane's power-up step in its mode: bus clear on an AKNUN lane, traffic on the others (R131, R135). -/
theorem powerLane_start {s : State} {n : Nat} (h : cfgMode s n ≠ .off) :
    ((powerLane s n).lane n).start =
      (cfgMode s n, none, if cfgMode s n = .aknun then .clearing else .run, some s.grid.now) := by
  have hsource (u : State) (hu : (u.lane n).mode ≠ .aknun) :
      ((sourceOn u n).lane n).mode = (u.lane n).mode ∧ ((sourceOn u n).lane n).modeAt = (u.lane n).modeAt ∧
        ((sourceOn u n).lane n).poweredAt = (u.lane n).poweredAt := by
    have hstart := sourceOn_start hu
    simp only [LaneState.start, Prod.mk.injEq] at hstart
    obtain ⟨hmode, hmodeAt, -, hpower⟩ := hstart
    exact ⟨hmode, hmodeAt, hpower⟩
  cases hm : cfgMode s n with
  | off => exact absurd hm h
  | aknun => simp [powerLane, hm, startClear, LaneState.forget, LaneState.start]
  | psi5 =>
    simp only [powerLane, hm, laneSprouts_start]
    simp [LaneState.start, hsource]
  | sent => simp [powerLane, hm, LaneState.start, hsource]
  | lin => simp [powerLane, hm, LaneState.start, hsource]

/-- What may be powered has a MODE that is not OFF. -/
theorem cfgMode_of_mayPower {s : State} {n : Nat} (h : mayPower s n = true) : cfgMode s n ≠ .off := by
  intro hm
  simp [mayPower, hm] at h

/-- Whether a lane may be powered does not depend on its wait for its new mode. -/
theorem mayPower_modeAt (s : State) (n : Nat) (x : Option Nat) :
    mayPower (s.setLane n { s.lane n with modeAt := x }) n = mayPower s n := by
  simp [mayPower, cfgMode, State.inForce]

/-- A lane starts in its new mode where no stage of its region is to power it (R135). -/
theorem laneModeStart_starts {s : State} {n : Lane} {at_ : Nat} (hat : (s.lane n).modeAt = some at_)
    (hnow : s.grid.now = s.grid.tickAt) (hdue : at_ ≤ s.grid.now) (hl : (s.lane n).lstate = .unpowered)
    (hstage : (s.region (laneRegion n)).stageReq = false) (hp : mayPower s n = true) :
    ∃ t, exec (.laneModeStart n) s = .next t ∧ (t.lane n).modeAt = none ∧ (t.lane n).mode = cfgMode s n ∧
      (t.lane n).lstate = (if cfgMode s n = .aknun then .clearing else .run) ∧
      (t.lane n).poweredAt = some s.grid.now := by
  refine ⟨_, exec_laneModeStart n s, ?_⟩
  simp only [hat, hnow, hnow ▸ hdue, hstage, Bool.false_and, Bool.false_eq_true, and_self, if_true, if_false]
  have hcfg : cfgMode (s.setLane n { s.lane n with modeAt := none }) n = cfgMode s n := rfl
  rw [tryPower, if_pos ⟨by simpa using hl, by simp, by rwa [mayPower_modeAt]⟩]
  have hstart := powerLane_start (hcfg.trans_ne (cfgMode_of_mayPower hp))
  simp only [LaneState.start, Prod.mk.injEq, hcfg, State.setLane_kept] at hstart
  obtain ⟨hmode, hmodeAt, hstate, hpower⟩ := hstart
  exact ⟨hmodeAt, hmode, hstate, hpower.trans (by rw [hnow])⟩

/-! ### Region loops -/

/-- REGION_CAL is raised for its region (R198, R199). -/
theorem regionCalEvent_raised {u s : State} (hcfg : s.cfg = u.cfg) (hgrid : s.grid = u.grid) (g why : Nat) :
    Raised u (regionCalEvent s g why) 26 g (BitVec.ofNat 32 why) :=
  raised_of_cycle rfl hcfg hgrid

@[simp] theorem regionCalEvent_region (s : State) (g why k : Nat) :
    (regionCalEvent s g why).region k = s.region k := by simp [regionCalEvent]

/-- A report of a region's loop writes that region alone, and the event shows it. -/
theorem regionCal_reports {s : State} {g : Region} {x : RegionState} {why : Nat}
    (h : execRegionCal g s = .next (regionCalEvent (s.setRegion g x) g why)) :
    ∃ t, exec (.regionCal g) s = .next t ∧ t.region g = x ∧ Raised s t 26 g.val (BitVec.ofNat 32 why) ∧
      ∀ k, k ≠ g.val → t.region k = s.region k := by
  refine ⟨_, (exec_regionCal g s).trans h, by simp, regionCalEvent_raised (by simp) (by simp) g why, fun k hk => ?_⟩
  rw [regionCalEvent_region, State.setRegion_region_other _ _ hk]

/-- Settles O17, happening by happening. -/
theorem clustersModesAndRegionLoops : Obligations.ClustersModesAndRegionLoops := by
  unfold Obligations.ClustersModesAndRegionLoops
  refine ⟨fun s u dt c h hc => seqParity_stops c h hc, fun s c hc => ?_,
    fun s n at_ hat hnow hdue hl hstage hp => laneModeStart_starts hat hnow hdue hl hstage hp,
    fun s g hg => ?_, fun s g hg hl => ?_⟩
  · refine ⟨_, exec_seqReload c s, ?_⟩
    simp [hc]
  · obtain ⟨t, ht, hregion, hraised, hother⟩ := regionCal_reports (s := s) (g := g) (why := 1)
      (x := { s.region g with dllStuck := 65 }) (by simp [execRegionCal, hg])
    exact ⟨t, ht, by rw [hregion], hraised, hother⟩
  · obtain ⟨t, ht, hregion, hraised, hother⟩ := regionCal_reports (s := s) (g := g) (why := 2)
      (x := { s.region g with ogLimit := 2 }) (by simp [execRegionCal, hg, hl])
    exact ⟨t, ht, by rw [hregion], hraised, hother⟩

end Sys2Proof.Machine
end

section
/-!
SUPPORT. What the harvest cutoff depends on and what it writes (R225, R232): the grid, the words in force, the numbers of
the snapshots under way, and of each region which bank is open and what it serves. Packets, events and counts on the
way to the cutoff leave these alone.
-/

namespace Sys2Proof.Machine

/-! ### Banks of a region -/

@[simp] theorem setOpen_openB (r : RegionState) (b : BankState) : (r.setOpen b).openB = r.openB := by
  unfold RegionState.setOpen
  split <;> rfl
@[simp] theorem setClosed_openB (r : RegionState) (b : BankState) : (r.setClosed b).openB = r.openB := by
  unfold RegionState.setClosed
  split <;> rfl
@[simp] theorem setOpen_open (r : RegionState) (b : BankState) : (r.setOpen b).open_ = b := by
  cases h : r.openB <;> simp [RegionState.setOpen, RegionState.open_, h]
@[simp] theorem setClosed_closed (r : RegionState) (b : BankState) : (r.setClosed b).closed = b := by
  cases h : r.openB <;> simp [RegionState.setClosed, RegionState.closed, h]
@[simp] theorem setClosed_open (r : RegionState) (b : BankState) : (r.setClosed b).open_ = r.open_ := by
  cases h : r.openB <;> simp [RegionState.setClosed, RegionState.open_, h]

/-! ### The view -/

/-- Which bank of a region is open, and the snapshot that it serves. -/
def RegionState.serves (r : RegionState) : Bool × BitVec 48 := (r.openB, r.open_.snap)

/-- A bank that serves the same snapshot in place of the open one. -/
theorem setOpen_serves {r : RegionState} {b : BankState} (h : b.snap = r.open_.snap) :
    (r.setOpen b).serves = r.serves := by simp [RegionState.serves, h]
/-- What becomes of the closed bank does not concern what the open one serves. -/
theorem setClosed_serves (r : RegionState) (b : BankState) : (r.setClosed b).serves = r.serves := by
  simp [RegionState.serves]

/-- Number and time of each snapshot under way. -/
def State.underWay (s : State) : List (BitVec 48 × Nat) := s.asm_.build.map fun b => (b.num, b.at_)

/-- What the cutoff depends on: the grid, the words in force, the non-volatile areas, and from when on snapshots
are built. -/
def State.cutFrom (s : State) := (s.grid, s.cfg, s.nv, s.mode.resume, s.asm_.stopped)

/-- What the cutoff writes: the snapshots under way, and what each region's open bank serves. -/
def State.cutTo (s : State) := (s.underWay, fun g => (s.region g).serves)

/-- What the cutoff depends on and what it writes. -/
def State.cutView (s : State) := (s.cutFrom, s.cutTo)

@[simp] theorem cutView_mk (s : State) (h m u : PortState) (cap : CaptureState) (cycle : List Event)
    (chans : Tbl ChanState) (lanes : Tbl LaneState) (eps : Tbl EpState) (clusters : Tbl ClusterState)
    (streams : Tbl StreamState) (hoard : HoardState) :
    State.cutView { s with
      h := h, m := m, u := u, cap := cap, cycle := cycle, chans := chans, lanes := lanes, eps := eps
      clusters := clusters, streams := streams, hoard := hoard } = s.cutView := rfl

@[simp] theorem setLane_cutView (s : State) (n : Nat) (x : LaneState) : (s.setLane n x).cutView = s.cutView := rfl
@[simp] theorem setEp_cutView (s : State) (i : Nat) (x : EpState) : (s.setEp i x).cutView = s.cutView := rfl
@[simp] theorem setCluster_cutView (s : State) (c : Nat) (x : ClusterState) :
    (s.setCluster c x).cutView = s.cutView := rfl
@[simp] theorem setChan_cutView (s : State) (c : Nat) (x : ChanState) : (s.setChan c x).cutView = s.cutView := rfl
@[simp] theorem setStream_cutView (s : State) (k : Nat) (x : StreamState) :
    (s.setStream k x).cutView = s.cutView := rfl
@[simp] theorem setPort_cutView (s : State) (p : Port) (x : PortState) : (s.setPort p x).cutView = s.cutView := by
  cases p <;> rfl
@[simp] theorem onHM_cutView (s : State) (f : PortState → PortState) : (s.onHM f).cutView = s.cutView := rfl
@[simp] theorem onHoard_cutView (s : State) (f : HoardState → HoardState) : (s.onHoard f).cutView = s.cutView := rfl

/-- What a write of a region does to what the open banks serve. -/
theorem setRegion_serves (s : State) (g : Nat) (x : RegionState) :
    (fun k => ((s.setRegion g x).region k).serves) = Function.update (fun k => (s.region k).serves) g x.serves := by
  funext k
  by_cases hk : k = g
  · subst hk
    simp
  · rw [State.setRegion_region_other _ _ hk, Function.update_of_ne hk]

/-- A write of a region that changes neither its open bank nor what that serves. -/
theorem setRegion_cutView (s : State) (g : Nat) {x : RegionState} (h : x.serves = (s.region g).serves) :
    (s.setRegion g x).cutView = s.cutView := by
  have hs := setRegion_serves s g x
  rw [h, Function.update_eq_self] at hs
  simp only [State.cutView, State.cutTo, hs]
  rfl

/-! ### Events -/

@[simp] theorem raise_cutView (s : State) (src origin : Nat) (data : Word) :
    (raise s src origin data).cutView = s.cutView := by unfold raise; split <;> rfl
@[simp] theorem glb_cutView (s : State) (n : Nat) : (glb s n).cutView = s.cutView := rfl
@[simp] theorem glbPort_cutView (s : State) (p : Port) (n : Nat) : (glbPort s p n).cutView = s.cutView :=
  setPort_cutView _ _ _
@[simp] theorem setQueue_cutView (s : State) (n : Nat) : (setQueue s n).cutView = s.cutView := rfl
@[simp] theorem setRegionBit_cutView (s : State) (g n : Nat) : (setRegionBit s g n).cutView = s.cutView := rfl
@[simp] theorem queueItem_cutView (s : State) (p : Port) (it : Item) : (queueItem s p it).cutView = s.cutView := by
  simp [queueItem]
@[simp] theorem requestCapture_cutView (s : State) (restart : Bool) :
    (requestCapture s restart).cutView = s.cutView := rfl
@[simp] theorem freezeEvent_cutView (s : State) (it : Item) : (freezeEvent s it).cutView = s.cutView := by
  unfold freezeEvent
  dsimp only
  (repeat' split) <;> simp
@[simp] theorem wakeCond_cutView (s : State) : (wakeCond s).cutView = s.cutView := by
  unfold wakeCond
  (repeat' split) <;> rfl
@[simp] theorem spuDefer_cutView (s : State) (c : Nat) : (spuDefer s c).cutView = s.cutView :=
  keep_foldl State.cutView fun s g => by
    split
    · exact setRegion_cutView s g rfl
    · rfl
@[simp] theorem consume_cutView (s : State) (c : Nat) (it : Item) : (consume s c it).cutView = s.cutView := by
  unfold consume
  split <;> (try split) <;> simp
@[simp] theorem deliverItem_cutView (s : State) (c : Nat) (it : Item) :
    (deliverItem s c it).cutView = s.cutView := by
  unfold deliverItem
  split <;> simp
@[simp] theorem dropEvent_cutView (s : State) (c : Nat) : (dropEvent s c).cutView = s.cutView := by
  unfold dropEvent
  dsimp only
  (repeat' split) <;> simp
@[simp] theorem deliverHeld_cutView (s : State) (c : Nat) : (deliverHeld s c).cutView = s.cutView := by
  unfold deliverHeld
  (repeat' split) <;> simp
@[simp] theorem deliverEarlier_cutView (s : State) (c : Nat) : (deliverEarlier s c).cutView = s.cutView :=
  keep_foldl State.cutView fun s _ => by split <;> simp
@[simp] theorem deliverTo_cutView (s : State) (ev : Event) (c : Nat) : (deliverTo s ev c).cutView = s.cutView := by
  unfold deliverTo
  dsimp only
  (repeat' split) <;> simp
@[simp] theorem deliverEvent_cutView (s : State) (ev : Event) : (deliverEvent s ev).cutView = s.cutView :=
  keep_foldl State.cutView fun s c => deliverTo_cutView s ev c
@[simp] theorem flushCycle_cutView (s : State) : (flushCycle s).cutView = s.cutView :=
  keep_foldl State.cutView deliverEvent_cutView

/-! ### Packets -/

@[simp] theorem hoardBlock_cutView (s : State) (typ lane : Nat) (body : Bytes) :
    (hoardBlock s typ lane body).cutView = s.cutView := by
  unfold hoardBlock
  dsimp only
  (repeat' split) <;> simp
@[simp] theorem happen_cutView (s : State) (n : Nat) (tick : BitVec 48) (kind pos : Nat) (arg : Bytes) :
    (happen s n tick kind pos arg).cutView = s.cutView := by unfold happen; split <;> simp
@[simp] theorem regionLost_cutView (s : State) (g : Nat) (num : BitVec 48) :
    (regionLost s g num).cutView = s.cutView := keep_foldl State.cutView fun _ _ => happen_cutView _ _ _ _ _ _
@[simp] theorem overflow_cutView (s : State) (g data : Nat) : (overflow s g data).cutView = s.cutView := by
  have h : (s.onRegion g (fun r => { r with overflows := satInc r.overflows })).cutView = s.cutView :=
    setRegion_cutView s g rfl
  unfold overflow
  dsimp only
  split <;> simpa using h
@[simp] theorem writeOnTime_cutView (s : State) (g : Nat) (p : Packet) : (writeOnTime s g p).cutView = s.cutView :=
  setRegion_cutView s g (setOpen_serves (b := (s.region g).open_.write (replaces (s.seenAt p.inst) p.lane) p) rfl)
@[simp] theorem writeLate_cutView (s : State) (g : Nat) (p : Packet) : (writeLate s g p).cutView = s.cutView := by
  unfold writeLate
  dsimp only
  split
  · exact overflow_cutView _ _ _
  · exact setRegion_cutView s g (setOpen_serves rfl)
@[simp] theorem stagePacket_cutView (s : State) (p : Packet) : (stagePacket s p).cutView = s.cutView := by
  unfold stagePacket
  dsimp only
  split <;> simp
@[simp] theorem collect_cutView (s : State) (p : Packet) : (collect s p).cutView = s.cutView := by
  have hclosed (b : BankState) : (s.onRegion (laneRegion p.lane) (fun r => r.setClosed b)).cutView = s.cutView :=
    setRegion_cutView s _ (setClosed_serves _ b)
  unfold collect
  dsimp only
  (repeat' split) <;> first | exact hclosed _ | simp
@[simp] theorem handOver_cutView (s : State) (n : Nat) (num : BitVec 48) (at_ : Int) (ran : Bool) (base : Int)
    (es : List Entry) (slot : Option Nat) : (handOver s n num at_ ran base es slot).cutView = s.cutView := by
  simp [handOver]

/-- What an operation under the words of another instant keeps (R28). -/
theorem under_cutView (s : State) (G : Int) {f : State → State} (h : ∀ u, (f u).cutView = u.cutView) :
    (s.under G f).cutView = s.cutView := by
  have hu := h (s.seenAt G)
  simp only [State.cutView, State.cutFrom, State.cutTo, Prod.mk.injEq] at hu
  obtain ⟨⟨hgrid, hcfg, hnv, hresume, hstop⟩, hbuild, hregion⟩ := hu
  simp only [State.under, State.cutView, State.cutFrom, State.cutTo, Prod.mk.injEq]
  exact ⟨⟨hgrid, by rw [hcfg]; rfl, hnv, hresume, hstop⟩, hbuild, hregion⟩

@[simp] theorem closeCycle_cutView (s : State) (n : Nat) : (closeCycle s n).cutView = s.cutView := by
  unfold closeCycle
  split
  · split
    · rfl
    · dsimp only
      split
      · exact under_cutView _ _ fun u => handOver_cutView _ _ _ _ _ _ _ _
      · simp
  · rfl
@[simp] theorem cutCycle_cutView (s : State) (n : Nat) : (cutCycle s n).cutView = s.cutView := by
  unfold cutCycle
  (repeat' split) <;> simp
@[simp] theorem conditionPacket_cutView (s : State) (n : Nat) : (conditionPacket s n).cutView = s.cutView := by
  unfold conditionPacket
  dsimp only
  (repeat' split) <;> simp
@[simp] theorem countQuiet_cutView (s : State) (n : Nat) : (countQuiet s n).cutView = s.cutView := by
  unfold countQuiet
  dsimp only
  split
  · exact keep_foldl State.cutView fun s p => by split <;> simp
  · rfl
@[simp] theorem renewFault_cutView (s : State) (n : Nat) : (renewFault s n).cutView = s.cutView := by
  unfold renewFault
  split <;> simp
@[simp] theorem closeMonitors_cutView (s : State) (g : Nat) : (closeMonitors s g).cutView = s.cutView :=
  setRegion_cutView s g (by dsimp only; split <;> rfl)
@[simp] theorem writeStaged_cutView (s : State) (g : Nat) : (writeStaged s g).cutView = s.cutView :=
  keep_foldl State.cutView fun s n => by
    dsimp only
    split
    · rfl
    · exact (keep_foldl State.cutView fun _ _ => collect_cutView _ _).trans (setLane_cutView _ _ _)

end Sys2Proof.Machine
end

section
/-!
SUPPORT. The harvest cutoff (R225, R232): the banks of the eight regions swap one after the other, each opening for the
same next instant.
-/

namespace Sys2Proof.Machine

/-! ### What the cutoff reads -/

theorem cutView_cutFrom {s t : State} (h : t.cutView = s.cutView) : t.cutFrom = s.cutFrom := congrArg Prod.fst h
theorem cutView_cutTo {s t : State} (h : t.cutView = s.cutView) : t.cutTo = s.cutTo := congrArg Prod.snd h
theorem cutView_underWay {s t : State} (h : t.cutView = s.cutView) : t.underWay = s.underWay :=
  congrArg (fun x => x.2.1) h
theorem cutView_serves {s t : State} (h : t.cutView = s.cutView) :
    (fun g => (t.region g).serves) = fun g => (s.region g).serves := congrArg (fun x => x.2.2) h

theorem openB_of_serves {r x : RegionState} (h : r.serves = x.serves) : r.openB = x.openB := (Prod.ext_iff.1 h).1
theorem grid_of_cutFrom {s t : State} (h : t.cutFrom = s.cutFrom) : t.grid = s.grid := (Prod.ext_iff.1 h).1

/-- The next grid instant comes from the grid, the words in force and the free-run counter (R31, R32). -/
theorem nextInstant_of_cutFrom {s t : State} (h : t.cutFrom = s.cutFrom) : nextInstant t = nextInstant s := by
  simp only [State.cutFrom, Prod.mk.injEq] at h
  obtain ⟨hgrid, hcfg, hnv, -, -⟩ := h
  have hparts (u : State) :
      nextInstant u = nextInstant { State.reset with grid := u.grid, cfg := u.cfg, nv := u.nv } := rfl
  rw [hparts t, hparts s, hgrid, hcfg, hnv]

/-- Whether a snapshot is built comes from where snapshots stop and resume (R439, R444, R445). -/
theorem built_of_cutFrom {s t : State} (h : t.cutFrom = s.cutFrom) (num : BitVec 48) : built t num = built s num := by
  simp only [State.cutFrom, Prod.mk.injEq] at h
  obtain ⟨-, -, -, hresume, hstop⟩ := h
  simp only [built, hresume, hstop]

/-! ### One region -/

/-- Snapshots under way that change neither number nor time. -/
theorem onAsm_build_cutView (s : State) {f : Build → Build} (h : ∀ b, (f b).num = b.num ∧ (f b).at_ = b.at_) :
    (s.onAsm (fun a => { a with build := a.build.map f })).cutView = s.cutView := by
  simp [State.cutView, State.cutFrom, State.cutTo, State.underWay, h, State.region]

/-- The swap of a region's banks: the other bank is open and serves its snapshot. -/
theorem swapped_serves (r : RegionState) (closing opening : BankState) :
    RegionState.serves { (r.setOpen closing).setClosed opening with openB := !r.openB } = (!r.openB, opening.snap) := by
  cases h : r.openB <;> simp [RegionState.setOpen, RegionState.setClosed, RegionState.serves, RegionState.open_, h]

/-- A region's banks swap, and its opening bank serves the next instant's snapshot (R225). -/
theorem swapBanks_view (s : State) (g : Nat) :
    (swapBanks s g).cutFrom = s.cutFrom ∧ (swapBanks s g).underWay = s.underWay ∧
      ∀ k, ((swapBanks s g).region k).serves =
        if k = g then (!(s.region g).openB, (nextInstant s).1) else (s.region k).serves := by
  unfold swapBanks
  extract_lets v0 r old v1 vl v2 src closing nx opening v3 v4
  have h1 : v1.cutView = s.cutView := by
    refine Eq.trans ?_ (closeMonitors_cutView s g)
    simp only [v1]
    split
    · rfl
    · exact onAsm_build_cutView v0 fun b => by split <;> simp
  have h2 : v2.cutView = s.cutView := by
    refine Eq.trans ?_ h1
    simp only [v2, vl]
    (repeat' split) <;> simp
  have h4 : (writeStaged v4 g).cutView = v3.cutView := by
    simp only [writeStaged_cutView, v4]
    split <;> simp
  have h3 : (fun k => (v3.region k).serves) =
      Function.update (fun k => (s.region k).serves) g (!(s.region g).openB, (nextInstant s).1) := by
    have hopen : (v2.region g).openB = (s.region g).openB := openB_of_serves (congrFun (cutView_serves h2) g)
    rw [← cutView_serves h2, ← hopen, ← nextInstant_of_cutFrom (cutView_cutFrom h2)]
    exact (setRegion_serves v2 g _).trans (congrArg _ (swapped_serves _ closing opening))
  have hfrom : v3.cutFrom = v2.cutFrom := rfl
  have hunder : v3.underWay = v2.underWay := rfl
  refine ⟨(cutView_cutFrom h4).trans (hfrom.trans (cutView_cutFrom h2)),
    (cutView_underWay h4).trans (hunder.trans (cutView_underWay h2)), fun k => ?_⟩
  rw [congrFun (cutView_serves h4) k, congrFun h3 k, Function.update_apply]

/-! ### All regions -/

/-- The banks of several regions swap, each opening for the same instant. -/
theorem foldl_swapBanks_view {l : List Nat} (hl : l.Nodup) (s : State) :
    (l.foldl swapBanks s).cutFrom = s.cutFrom ∧ (l.foldl swapBanks s).underWay = s.underWay ∧
      ∀ k, ((l.foldl swapBanks s).region k).serves =
        if k ∈ l then (!(s.region k).openB, (nextInstant s).1) else (s.region k).serves := by
  induction l generalizing s with
  | nil => simp
  | cons g l ih =>
    obtain ⟨hg, hl⟩ := List.nodup_cons.1 hl
    obtain ⟨hfrom, hunder, hserves⟩ := swapBanks_view s g
    obtain ⟨ihfrom, ihunder, ihserves⟩ := ih hl (swapBanks s g)
    rw [List.foldl_cons]
    refine ⟨ihfrom.trans hfrom, ihunder.trans hunder, fun k => (ihserves k).trans ?_⟩
    rw [nextInstant_of_cutFrom hfrom, hserves k]
    by_cases hk : k = g
    · subst hk
      simp [hg]
    · have hopen : ((swapBanks s g).region k).openB = (s.region k).openB :=
        openB_of_serves ((hserves k).trans (if_neg hk))
      simp [hk, hopen]

/-- `t` has taken the snapshot of the grid instant of `s`: it is under way, where it is to be built, and every region
has opened its other bank for the next instant's (R225, R232). -/
def TakenAt (s t : State) : Prop :=
  t.underWay = (if built s s.grid.gridNum then s.underWay ++ [(s.grid.gridNum, s.grid.gridAt)] else s.underWay) ∧
    ∀ g < 8, (t.region g).serves = (!(s.region g).openB, (nextInstant s).1)

/-- A snapshot joins those under way, where it is to be built, and the banks of every region swap. -/
theorem takenAt_of_swaps {s v t : State} {p : BitVec 3} {f : BitVec 8} {rs ls : List Nat} {keep : Bool}
    (hv : v.cutView = s.cutView) (hkeep : keep = built s s.grid.gridNum)
    (ht : t.cutView = ((List.range 8).foldl swapBanks (v.onAsm (fun a => { a with
      build := if keep then a.build ++ [⟨s.grid.gridNum, v.grid.gridAt, p, f, rs, ls⟩] else a.build
      pllLost := false }))).cutView) :
    TakenAt s t := by
  obtain ⟨-, hunder, hserves⟩ := foldl_swapBanks_view (List.nodup_range (n := 8)) (v.onAsm (fun a => { a with
    build := if keep then a.build ++ [⟨s.grid.gridNum, v.grid.gridAt, p, f, rs, ls⟩] else a.build, pllLost := false }))
  refine ⟨?_, fun g hg => ?_⟩
  · rw [cutView_underWay ht, hunder, ← hkeep, ← cutView_underWay hv, ← grid_of_cutFrom (cutView_cutFrom hv)]
    cases keep <;> simp [State.underWay]
  · have hopen := openB_of_serves (congrFun (cutView_serves hv) g)
    rw [congrFun (cutView_serves ht) g, hserves g, if_pos (List.mem_range.2 hg), ← hopen,
      ← nextInstant_of_cutFrom (cutView_cutFrom hv)]
    rfl

/-- The cutoff takes the snapshot of its grid instant (R225, R232). -/
theorem cutoff_takenAt (s : State) : TakenAt s (cutoff s) := by
  unfold cutoff
  extract_lets num v1 v2 lost v3 flags b keep v4 v5 v6 v7
  have hfold (l : List Nat) (f : State → Nat → State) (v : State) (hf : ∀ v n, (f v n).cutView = v.cutView) :
      (l.foldl f v).cutView = v.cutView := keep_foldl State.cutView hf
  have h3 : v3.cutView = s.cutView := by
    simp only [v3, v2, v1]
    rw [hfold _ _ _ fun _ _ => happen_cutView _ _ _ _ _ _, hfold _ _ _ countQuiet_cutView,
      hfold _ _ _ conditionPacket_cutView, hfold _ _ _ cutCycle_cutView]
  have hkeep : keep = built s s.grid.gridNum := built_of_cutFrom (cutView_cutFrom h3) num
  have h6 : v6.cutView = v5.cutView := by
    simp only [v6]
    split
    · rfl
    · exact hfold _ _ _ fun v g => setRegion_cutView v g (setClosed_serves _ _)
  have h7 : ((List.range 512).foldl renewFault v7).cutView = v5.cutView := by
    rw [hfold _ _ _ renewFault_cutView, ← h6]
    exact hfold _ _ _ fun v c => by split <;> simp
  exact takenAt_of_swaps h3 hkeep h7

/-- What keeps what the cutoff writes keeps the snapshot taken. -/
theorem TakenAt.of_cutTo {s v t : State} (h : TakenAt s v) (ht : t.cutTo = v.cutTo) : TakenAt s t := by
  obtain ⟨hunder, hserves⟩ := Prod.ext_iff.1 ht
  exact ⟨hunder.trans h.1, fun g hg => (congrFun hserves g).trans (h.2 g hg)⟩

theorem setGrid_cutTo (s : State) (g : GridState) : State.cutTo { s with grid := g } = s.cutTo := rfl
theorem onGrid_cutTo (s : State) (f : GridState → GridState) : (s.onGrid f).cutTo = s.cutTo := rfl
theorem setCycle_cutView (s : State) (c : List Event) : State.cutView { s with cycle := c } = s.cutView := rfl

/-- The router cycles that follow a cutoff, and the return to the time at which it is taken, leave what it wrote. -/
theorem afterCutoff_cutTo (s : State) (late : List Event) (sub now : Nat) :
    State.cutTo (
      let s := if late.isEmpty then s else { flushCycle s with cycle := late }
      let s' := s.onGrid (fun g => { g with now := now })
      if late.isEmpty && s'.subtick != sub then { flushCycle s with grid := s'.grid } else s') = s.cutTo := by
  extract_lets src v v'
  have hv : v.cutTo = s.cutTo := by
    simp only [v]
    split
    · rfl
    · exact cutView_cutTo ((setCycle_cutView src late).trans (flushCycle_cutView s))
  split
  · exact (setGrid_cutTo (flushCycle v) v'.grid).trans ((cutView_cutTo (flushCycle_cutView v)).trans hv)
  · exact (onGrid_cutTo v _).trans hv

/-- The cutoff in a state that differs from `s` in the time, and in what the cutoff does not read. -/
theorem cutoff_takenAt_of_view {s v : State} (now : Nat)
    (hv : v.cutView = (s.onGrid (fun g => { g with now := now })).cutView) : TakenAt s (cutoff v) := by
  obtain ⟨hunder, hserves⟩ := cutoff_takenAt v
  have hfrom := cutView_cutFrom hv
  refine ⟨?_, fun g hg => ?_⟩
  · rw [hunder, built_of_cutFrom hfrom, cutView_underWay hv, grid_of_cutFrom hfrom]
    rfl
  · rw [hserves g hg, openB_of_serves (congrFun (cutView_serves hv) g), nextInstant_of_cutFrom hfrom]
    rfl

/-- The cutoff as of its own instant, with the router cycles before and after it (R225, R380). -/
theorem cutoffNow_takenAt {s : State} (h : cutoffDue s = true) : TakenAt s (cutoffNow s) := by
  unfold cutoffNow
  rw [if_pos h]
  refine (cutoff_takenAt_of_view (cutoffAt s) ?_).of_cutTo (afterCutoff_cutTo _ _ _ _)
  exact (setCycle_cutView _ _).trans ((flushCycle_cutView _).trans (setCycle_cutView _ _))

end Sys2Proof.Machine
end

section
/-!
SUPPORT. The harvest cutoff as a command, the time limit of a closed bank, a bank's pointers, and die-to-die transfers
(R17, R225, R227, R229, R232).
-/

namespace Sys2Proof.Machine

theorem exec_harvestCutoff (dt : Nat) (s : State) : exec (.harvestCutoff dt) s = execHarvestCutoff dt s := rfl
theorem exec_queueTimeout (dt : Nat) (g : Region) (s : State) :
    exec (.queueTimeout dt g) s = execQueueTimeout dt g s := rfl
theorem exec_queuePtr (dt : Nat) (g : Region) (k : Bank) (s : State) :
    exec (.queuePtr dt g k) s = execQueuePtr dt g k s := rfl
theorem exec_linkRetry (dt : Nat) (g : Region) (lanes : List Lane) (twice : Bool) (s : State) :
    exec (.linkRetry dt g lanes twice) s = execLinkRetry dt g lanes twice s := rfl

/-! ### The cutoff -/

/-- Every region's other bank is open after the cutoff, for the next snapshot. -/
theorem TakenAt.opens {s t : State} (h : TakenAt s t) {g : Nat} (hg : g < 8) :
    (t.region g).openB = !(s.region g).openB ∧ (t.region g).open_.snap = (nextInstant s).1 :=
  Prod.ext_iff.1 (h.2 g hg)

/-- The snapshot of the grid instant is under way after the cutoff, where it is to be built. -/
theorem TakenAt.underWay {s t : State} (h : TakenAt s t) (hb : built s s.grid.gridNum = true) :
    ∃ b ∈ t.asm_.build, b.num = s.grid.gridNum ∧ b.at_ = s.grid.gridAt := by
  have hmem : (s.grid.gridNum, s.grid.gridAt) ∈ t.underWay := by simp [h.1, hb]
  simpa [State.underWay] using hmem

/-! ### The time limit of a closed bank -/

/-- A closed bank that still holds packets at its region's time limit is shown, and keeps them (R227). -/
theorem queueTimeout_shows {s u : State} {dt : Nat} {g : Region} {at_ : Nat} (h : Arrives s dt u)
    (hat : (u.region g).closed.closedAt = some at_) (hp : (u.region g).closed.pkts ≠ [])
    (hcheck : 2 ≤ fld (u.inForce (aRegion g 0x3C0)) 17 16)
    (hdue : at_ + 400 * ranged 1 4095 (fld (u.inForce (aRegion g 0x3C0)) 11 0) ≤ u.grid.now) :
    ∃ t, exec (.queueTimeout dt g) s = .next t ∧ (t.region g).closed.closedAt = none ∧
      (t.region g).closed.pkts = (u.region g).closed.pkts ∧ t.h.queue.bits.getLsbD (16 + g) = true ∧
      t.glbHas 19 = true ∧ Raised u t 29 g.val 2 := by
  refine ⟨_, (exec_queueTimeout dt g s).trans (run_arrives h _), ?_⟩
  simp only [hat]
  rw [if_pos ⟨hcheck, by simpa using hp, hdue⟩]
  obtain ⟨hbit, hglb⟩ := setQueue_shows (n := 16 + g.val) (raise (u.onRegion g (fun r =>
    r.setClosed { (u.region g).closed with closedAt := none })) 29 g 2) (by omega)
  exact ⟨by simp, by simp, hbit, hglb, raised_of_cycle rfl rfl rfl⟩

/-! ### Pointers of a bank -/

/-- A bank with bad pointers is emptied, is lost where it is the open one, and is shown (R229). -/
theorem queuePtr_empties {s u : State} {dt : Nat} (g : Region) (k : Bank) (h : Arrives s dt u) :
    ∃ t, exec (.queuePtr dt g k) s = .next t ∧
      (if k = .b then (t.region g).bankB else (t.region g).bankA).pkts = [] ∧
      ((u.region g).openB = decide (k = .b) → (t.region g).open_.lost = true) ∧
      (t.region g).ptrResets = satInc (u.region g).ptrResets ∧ t.glbHas 19 = true ∧ t.glbHas 20 = true ∧
      Raised u t 31 g.val (BitVec.ofNat 32 (b2n (decide (k = .b)))) := by
  refine ⟨_, (exec_queuePtr dt g k s).trans (run_arrives h _), ?_⟩
  extract_lets isB r b v1 live v2 b' v3
  have hoff : v2.offHoard = v1.offHoard := by
    simp only [v2]
    split
    · exact regionLost_offHoard _ _ _
    · rfl
  obtain ⟨hcfg, hgrid, hcycle, -, -, hregion, -⟩ := of_offHoard hoff
  have hr : v2.region g = u.region g := (hregion g).trans (by simp [v1])
  simp only [setQueue_kept, setRegionBit_kept, raise_kept, v3, State.onRegion_eq, State.setRegion_region, hr]
  refine ⟨?_, fun ho => ?_, ?_, glb_glbHas (by decide), glbHas_setQueue (glb_glbHas (by decide)),
    raised_of_cycle rfl hcfg hgrid⟩
  · cases k <;> simp [isB, b']
  · have hlive : live = true := by simp [live, r, isB, ho]
    have hlost : b'.lost = true := by simp [b', hlive]
    cases k <;> simpa [isB, ho, RegionState.open_] using hlost
  · cases k <;> simp

/-! ### Transfers between the dies -/

/-- What the loss of a transfer's packets leaves alone. -/
theorem dropCarried_kept (s : State) (g : Nat) (num : BitVec 48) (ns : List Nat) :
    (dropCarried s g num ns).asm_ = s.asm_ ∧ (dropCarried s g num ns).cfg = s.cfg ∧
      (dropCarried s g num ns).grid = s.grid := by
  unfold dropCarried
  dsimp only
  split <;> simp

/-- A repeated transfer is counted; one that failed twice counts as lost and is shown (R17). -/
theorem linkRetry_counts {s u : State} {dt : Nat} (g : Region) (lanes : List Lane) (twice : Bool)
    (h : Arrives s dt u) :
    ∃ t, exec (.linkRetry dt g lanes twice) s = .next t ∧
      t.asm_.cnt.linkRetries = satAdd 4294967295 u.asm_.cnt.linkRetries ∧
      (twice = true → t.asm_.cnt.linkLost = satAdd 4294967295 u.asm_.cnt.linkLost ∧ Raised u t 3 g.val 0) := by
  refine ⟨_, (exec_linkRetry dt g lanes twice s).trans (run_arrives h _), ?_⟩
  extract_lets top ns v num w
  cases twice with
  | false => exact ⟨rfl, fun ht => absurd ht (by decide)⟩
  | true =>
    have hw : w.asm_ = v.asm_ ∧ w.cfg = v.cfg ∧ w.grid = v.grid := by
      simp only [w]
      generalize num = lostNum
      cases lostNum with
      | none => exact ⟨rfl, rfl, rfl⟩
      | some m =>
        obtain ⟨hcfg, hgrid, -, hasm, -⟩ := of_offHoard (s := v) (t := ns.foldl (fun s n => happen s n m 0x08 0 []) v)
          (keep_foldl State.offHoard fun _ _ => happen_offHoard _ _ _ _ _ _)
        obtain ⟨hasm', hcfg', hgrid'⟩ := dropCarried_kept (ns.foldl (fun s n => happen s n m 0x08 0 []) v) g m ns
        exact ⟨hasm'.trans hasm, hcfg'.trans hcfg, hgrid'.trans hgrid⟩
    obtain ⟨hasm, hcfg, hgrid⟩ := hw
    simp only [if_true, raise_kept, hasm]
    exact ⟨rfl, fun _ => ⟨rfl, raised_of_cycle rfl hcfg hgrid⟩⟩

/-- Settles O20, happening by happening. -/
theorem banksSwapAndDrain : Obligations.BanksSwapAndDrain := by
  unfold Obligations.BanksSwapAndDrain
  refine ⟨fun s u dt h hc => ?_, fun s u dt g at_ h hat hp hcheck hdue => queueTimeout_shows h hat hp hcheck hdue,
    fun s u dt g k h => queuePtr_empties g k h, fun s u dt g lanes twice h => linkRetry_counts g lanes twice h⟩
  have htaken := cutoffNow_takenAt hc
  exact ⟨_, (exec_harvestCutoff dt s).trans (run_arrives h _), fun g hg => htaken.opens hg, htaken.underWay⟩

end Sys2Proof.Machine
end

section
/-!
SUPPORT. The warden stops and resumes (R22, R425, R466, R467): what it ends on each commit and on each port, and the
entry to RECOVER at its third restart within 60 s (R437).
-/

namespace Sys2Proof.Machine

theorem exec_lockstepMismatch (dt : Nat) (s : State) : exec (.lockstepMismatch dt) s = execLockstepMismatch dt s := rfl
theorem exec_wardenRestart (dt : Nat) (s : State) : exec (.wardenRestart dt) s = execWardenRestart dt s := rfl

/-! ### Commits -/

@[simp] theorem setSowing_commits (s : State) (c : CommitRun) (b : Bool) : (setSowing s c b).commits = s.commits :=
  keep_foldl State.commits fun _ _ => by simp

@[simp] theorem commitEnd_commits (s : State) (c : CommitRun) (st : CommitState) (r : Reason) :
    (commitEnd s c st r).commits = s.commits := by simp [commitEnd, commitStatus]

/-- A commit that a host asked for ends; one of boot stays, at most without its effective tick (R29, R466). -/
theorem mem_wardenCommit {s : State} {c o : CommitRun} (h : o ∈ (wardenCommit s c).commits) :
    o.ports = 0 ∨ o ∈ s.commits ∧ o ≠ c := by
  unfold wardenCommit at h
  split at h
  · next hc =>
    split at h
    · by_cases ho : o = c
      · exact .inl (ho ▸ hc)
      · exact .inr ⟨h, ho⟩
    · simp only [putCommit, setSowing_commits, List.mem_map] at h
      obtain ⟨x, hx, rfl⟩ := h
      split
      · exact .inl hc
      · next hne => exact .inr ⟨hx, hne⟩
  · simp only [commitEnd_commits, dropCommit, setSowing_commits, List.mem_filter, decide_eq_true_eq] at h
    exact .inr h

/-- Of the commits that the warden goes through, those that serve a port end. -/
theorem foldl_wardenCommit_ports {l : List CommitRun} {s : State} (h : ∀ o ∈ s.commits, o.ports = 0 ∨ o ∈ l) :
    ∀ o ∈ (l.foldl wardenCommit s).commits, o.ports = 0 := by
  induction l generalizing s with
  | nil => simpa using h
  | cons c l ih =>
    refine ih fun o ho => ?_
    obtain h0 | ⟨hs, hne⟩ := mem_wardenCommit ho
    · exact .inl h0
    · exact (h o hs).imp_right fun h => (List.mem_cons.1 h).resolve_left hne

@[simp] theorem wardenCommit_mode (s : State) (c : CommitRun) : (wardenCommit s c).mode = s.mode := by
  unfold wardenCommit
  (repeat' split) <;> simp [putCommit, commitEnd, dropCommit]

/-! ### Ports -/

/-- A consumed load buffer is the port's own. -/
theorem zeroLoad_port_other (r : VaultReq) (s : State) {p q : Port} (h : q ≠ p) :
    (zeroLoad p r s).port q = s.port q := by
  unfold zeroLoad
  split
  · exact State.setPort_other s _ h
  · rfl

/-- The end of a port's vault operation leaves the other ports alone. -/
theorem vaultBusy_port_other (s : State) {p q : Port} (h : q ≠ p) : (vaultBusy s p).port q = s.port q := by
  unfold vaultBusy
  split
  · rfl
  · exact (State.setPort_other _ _ h).trans (zeroLoad_port_other _ s h)

/-- A pending vault operation ends (R425). -/
theorem vaultBusy_pend (s : State) (p : Port) : ((vaultBusy s p).port p).pend = none := by
  unfold vaultBusy
  split
  · assumption
  · simp [writeResult]

/-- A warden that stops leaves a port no request and no challenge (R425, R466). -/
theorem wardenPort_port (s : State) (p : Port) :
    ((wardenPort s p).port p).pend = none ∧ ((wardenPort s p).port p).sess ≠ .challenged := by
  unfold wardenPort
  dsimp only
  split
  · simp [clearSession]
  · next h => exact ⟨vaultBusy_pend s p, h⟩

/-- What the warden ends on one port leaves the others alone. -/
theorem wardenPort_port_other (s : State) {p q : Port} (h : q ≠ p) : (wardenPort s p).port q = s.port q := by
  unfold wardenPort
  dsimp only
  split
  · exact (State.setPort_other _ _ h).trans (vaultBusy_port_other s h)
  · exact vaultBusy_port_other s h

/-- What the warden ends on a port leaves mode, capture and commits alone. -/
theorem wardenPort_kept (s : State) (p : Port) :
    (wardenPort s p).mode = s.mode ∧ (wardenPort s p).cap = s.cap ∧ (wardenPort s p).commits = s.commits := by
  unfold wardenPort vaultBusy writeResult zeroLoad
  dsimp only
  (repeat' split) <;> simp

/-- What an abandoned activation leaves alone. -/
theorem abandonActivation_kept (s : State) :
    (abandonActivation s).mode = s.mode ∧ (abandonActivation s).cap = s.cap ∧
      (abandonActivation s).commits = s.commits ∧
      (abandonActivation s).h.pend = s.h.pend ∧ (abandonActivation s).h.sess = s.h.sess ∧
      (abandonActivation s).m.pend = s.m.pend ∧ (abandonActivation s).m.sess = s.m.sess := by
  unfold abandonActivation setUState
  dsimp only
  (repeat' split) <;> simp

/-- A lockstep mismatch stops the warden (R22, R425, R466). -/
theorem wardenStop_stops {s : State} (h : s.mode.restarting = false) :
    (wardenStop s).mode.restarting = true ∧ (wardenStop s).cap.copying = none ∧
      (∀ c ∈ (wardenStop s).commits, c.ports = 0) ∧ (wardenStop s).h.pend = none ∧ (wardenStop s).m.pend = none ∧
      (wardenStop s).h.sess ≠ .challenged ∧ (wardenStop s).m.sess ≠ .challenged := by
  unfold wardenStop
  rw [h, if_neg Bool.false_ne_true]
  extract_lets v1 v2 src v3
  have hcap : v3.cap.copying = none := by
    simp only [v3]
    split
    · rfl
    · next hc => simpa using hc
  have hcommits : ∀ c ∈ v2.commits, c.ports = 0 := foldl_wardenCommit_ports fun o ho => .inr ho
  have hrestarting : v2.mode.restarting = true :=
    congrArg ModeState.restarting (keep_foldl State.mode wardenCommit_mode : v2.mode = v1.mode)
  obtain ⟨hmode, hrest⟩ : v3.mode = v2.mode ∧ v3.commits = v2.commits := by
    simp only [v3]
    split <;> exact ⟨rfl, rfl⟩
  obtain ⟨hmH, hcH, hsH⟩ := wardenPort_kept v3 .h
  obtain ⟨hmM, hcM, hsM⟩ := wardenPort_kept (wardenPort v3 .h) .m
  obtain ⟨hpendH, hsessH⟩ := wardenPort_port v3 .h
  obtain ⟨hpendM, hsessM⟩ := wardenPort_port (wardenPort v3 .h) .m
  have hother : (wardenPort (wardenPort v3 .h) .m).h = (wardenPort v3 .h).h :=
    wardenPort_port_other (p := .m) (q := .h) _ (by decide)
  obtain ⟨hm, hc, hs, hpH, hsessH', hpM, hsessM'⟩ := abandonActivation_kept (wardenPort (wardenPort v3 .h) .m)
  refine ⟨by rw [hm, hmM, hmH, hmode, hrestarting], by rw [hc, hcM, hcH, hcap], ?_, ?_, ?_, ?_, ?_⟩
  · rw [hs, hsM, hsH, hrest]
    exact hcommits
  · rw [hpH, hother]
    exact hpendH
  · rw [hpM]
    exact hpendM
  · rw [hsessH', hother]
    exact hsessH
  · rw [hsessM']
    exact hsessM

/-! ### The restart -/

/-- What a dropped request leaves alone. -/
theorem dropRequest_kept (s : State) :
    (dropRequest s).h = s.h ∧ (dropRequest s).m = s.m ∧ (dropRequest s).cycle = s.cycle ∧
      (dropRequest s).mode.dev = s.mode.dev ∧ (dropRequest s).mode.restarting = s.mode.restarting ∧
      (dropRequest s).mode.restarts = s.mode.restarts := by
  unfold dropRequest
  (repeat' split) <;> simp

/-- A request that the present state does not permit ends refused, with its entry steps (R437). -/
theorem dropRequest_refuses {s : State} {x : DevState × Nat} (hx : s.mode.req = some x)
    (hp : permitted s.mode.dev x.1 = false) :
    (dropRequest s).mode.req = none ∧ (dropRequest s).mode.entering = false ∧
      (dropRequest s).mode.result = .refused := by
  unfold dropRequest
  simp [hx, hp]

/-- Entering RUN leaves the ports and the router cycle alone (R131). -/
theorem runLanes_shown (s : State) :
    (runLanes s).h = s.h ∧ (runLanes s).m = s.m ∧ (runLanes s).cycle = s.cycle := by
  rw [runLanes_rest]
  exact ⟨rfl, rfl, rfl⟩

/-- Bits of GLB_STATUS come from Ports H and M. -/
theorem glbHas_of_ports {s t : State} {k : Nat} (hh : t.h = s.h) (hm : t.m = s.m) (h : s.glbHas k = true) :
    t.glbHas k = true := by rwa [State.glbHas, hh, hm]

/-- A change of DEV_STATE keeps the bits of GLB_STATUS that are set and the events of the router cycle (R327,
R374). -/
theorem setDev_shows (s : State) (d : DevState) :
    (∀ k, s.glbHas k = true → (setDev s d).glbHas k = true) ∧ ∀ e ∈ s.cycle, e ∈ (setDev s d).cycle := by
  unfold setDev
  split
  · exact ⟨fun _ h => h, fun _ h => h⟩
  dsimp only
  split
  · obtain ⟨hh, hm, hcycle⟩ := runLanes_shown (s.onMode (fun m => { m with dev := d }))
    refine ⟨fun k h => glbHas_glb (glbHas_of_ports ?_ ?_ h), fun e he => raise_mem _ _ _ (hcycle ▸ he)⟩
    · simp [hh]
    · simp [hm]
  · exact ⟨fun k h => glbHas_glb (glbHas_of_ports (by simp) (by simp) h), fun e he => raise_mem _ _ _ he⟩

/-- The warden's restart is counted and shown (R466), and the third within 60 s in RUN enters RECOVER (R437, R467). -/
theorem wardenRestart_resumes {s u : State} {dt : Nat} (h : Arrives s dt u) (hr : u.mode.restarting = true) :
    ∃ t, exec (.wardenRestart dt) s = .next t ∧ t.mode.restarting = false ∧
      t.mode.restarts = recent u.grid.now (60 * second) u.mode.restarts ++ [u.grid.now] ∧ t.glbHas 6 = true ∧
      Raised u t 43 0 0 ∧
      t.mode.dev = (if 3 ≤ t.mode.restarts.length ∧ u.mode.dev = .run then .recover else u.mode.dev) ∧
      (t.mode.dev ≠ u.mode.dev → u.mode.entering = true → (∃ x, u.mode.req = some x ∧ permitted .recover x.1 = false) →
        t.mode.req = none ∧ t.mode.entering = false ∧ t.mode.result = .refused) := by
  refine ⟨_, (exec_wardenRestart dt s).trans (run_arrives h _), ?_⟩
  unfold wardenResume
  rw [if_pos hr]
  extract_lets now ts v1 v2
  have hmode : v2.mode = { u.mode with restarting := false, restarts := ts } := by simp [v2, v1]
  have hglb : v2.glbHas 6 = true := glb_glbHas (by decide)
  have hraised : Raised u v2 43 0 0 := raised_of_cycle rfl rfl rfl
  split
  · next hthird =>
    obtain ⟨hkeepGlb, hkeepEvent⟩ := setDev_shows v2 .recover
    obtain ⟨hh, hm, hcycle, hdev, hrestarting, hrestarts⟩ := dropRequest_kept (setDev v2 .recover)
    rw [hdev, hrestarting, hrestarts]
    simp only [setDev_mode, hmode] at hthird ⊢
    refine ⟨trivial, rfl, glbHas_of_ports hh hm (hkeepGlb 6 hglb),
      (hraised.of_mem hkeepEvent).of_mem fun e he => hcycle ▸ he, (if_pos hthird).symm, fun _ _ ⟨x, hx, hp⟩ => ?_⟩
    exact dropRequest_refuses (by simpa [hmode] using hx) (by simpa using hp)
  · next hfew =>
    simp only [hmode] at hfew ⊢
    exact ⟨trivial, rfl, hglb, hraised, (if_neg hfew).symm, fun hne => absurd rfl hne⟩

/-- Settles O43, by what the warden ends when it stops and by its restart. -/
theorem wardenRestarts : Obligations.WardenRestarts := by
  unfold Obligations.WardenRestarts
  refine ⟨fun s u dt h hr => ?_, fun s u dt h hr => wardenRestart_resumes h hr⟩
  exact ⟨_, (exec_lockstepMismatch dt s).trans (run_arrives h _), wardenStop_stops hr⟩

end Sys2Proof.Machine
end

section
/-!
SUPPORT. The grid's own state (R31, R32) through the work of a tick: streams, the hoard, lanes, regions and the
harvest cutoff leave it alone.
-/

namespace Sys2Proof.Machine

/-- What keeps what the cutoff depends on keeps the grid. -/
theorem grid_of_cutView {s t : State} (h : t.cutView = s.cutView) : t.grid = s.grid :=
  grid_of_cutFrom (cutView_cutFrom h)

/-- What keeps the stores keeps the non-volatile areas. -/
theorem nv_of_stores {s t : State} (h : t.stores = s.stores) : t.nv = s.nv :=
  (congrArg State.nv h : t.stores.nv = s.stores.nv)

/-- What an operation under the words of another instant keeps of the grid (R28). -/
theorem under_grid (s : State) (G : Int) {f : State → State} (h : ∀ u, (f u).grid = u.grid) :
    (s.under G f).grid = s.grid := h (s.seenAt G)

@[simp] theorem flushCycle_grid (s : State) : (flushCycle s).grid = s.grid := grid_of_cutView (flushCycle_cutView s)
@[simp] theorem hoardBlock_grid (s : State) (typ lane : Nat) (body : Bytes) :
    (hoardBlock s typ lane body).grid = s.grid := (of_offHoard (hoardBlock_offHoard s typ lane body)).2.1
@[simp] theorem happen_grid (s : State) (n : Nat) (tick : BitVec 48) (kind pos : Nat) (arg : Bytes) :
    (happen s n tick kind pos arg).grid = s.grid := (of_offHoard (happen_offHoard s n tick kind pos arg)).2.1
@[simp] theorem happenNow_grid (s : State) (n kind pos : Nat) (arg : Bytes) :
    (happenNow s n kind pos arg).grid = s.grid := happen_grid _ _ _ _ _ _
@[simp] theorem tickEvent_grid (s : State) : (tickEvent s).grid = s.grid := by unfold tickEvent; split <;> simp

/-! ### The harvest cutoff -/

@[simp] theorem swapBanks_grid (s : State) (g : Nat) : (swapBanks s g).grid = s.grid :=
  grid_of_cutFrom (swapBanks_view s g).1

/-- A write of the snapshots that leaves from when on they are built. -/
theorem onAsm_cutFrom (s : State) {f : AsmState → AsmState} (h : ∀ a, (f a).stopped = a.stopped) :
    (s.onAsm f).cutFrom = s.cutFrom := by simp [State.cutFrom, h]

/-- The cutoff writes nothing of what it depends on (R225). -/
theorem cutoff_cutFrom (s : State) : (cutoff s).cutFrom = s.cutFrom := by
  unfold cutoff
  extract_lets num v1 v2 lost v3 flags b keep v4 v5 v6 v7
  have hfold (l : List Nat) (f : State → Nat → State) (v : State) (hf : ∀ v n, (f v n).cutView = v.cutView) :
      (l.foldl f v).cutFrom = v.cutFrom := keep_foldl State.cutFrom fun v n => cutView_cutFrom (hf v n)
  have h3 : v3.cutFrom = s.cutFrom := by
    simp only [v3, v2, v1]
    rw [hfold _ _ _ fun _ _ => happen_cutView _ _ _ _ _ _, hfold _ _ _ countQuiet_cutView,
      hfold _ _ _ conditionPacket_cutView, hfold _ _ _ cutCycle_cutView]
  have h4 : v4.cutFrom = v3.cutFrom := onAsm_cutFrom v3 fun _ => rfl
  have h5 : v5.cutFrom = v4.cutFrom := (foldl_swapBanks_view List.nodup_range v4).1
  have h6 : v6.cutFrom = v5.cutFrom := by
    simp only [v6]
    split
    · rfl
    · exact hfold _ _ _ fun v g => setRegion_cutView v g (setClosed_serves _ _)
  have h7 : v7.cutFrom = v6.cutFrom := hfold _ _ _ fun v c => by split <;> simp
  rw [hfold _ _ _ renewFault_cutView, h7, h6, h5, h4, h3]

@[simp] theorem cutoff_grid (s : State) : (cutoff s).grid = s.grid := grid_of_cutFrom (cutoff_cutFrom s)

/-- The router cycle is no part of the grid. -/
theorem setCycle_grid (s : State) (c : List Event) : State.grid { s with cycle := c } = s.grid := rfl

theorem setGrid_grid (s : State) (g : GridState) : State.grid { s with grid := g } = g := rfl

/-- The router cycles that follow a cutoff leave the grid alone, and it returns to the time at which it is taken. -/
theorem afterCutoff_grid (s : State) (late : List Event) (sub now : Nat) :
    State.grid (
      let s := if late.isEmpty then s else { flushCycle s with cycle := late }
      let s' := s.onGrid (fun g => { g with now := now })
      if late.isEmpty && s'.subtick != sub then { flushCycle s with grid := s'.grid } else s') =
        { s.grid with now := now } := by
  extract_lets src v v'
  have hv : v.grid = s.grid := by
    simp only [v]
    split
    · rfl
    · exact (setCycle_grid src late).trans (flushCycle_grid s)
  have hv' : v'.grid = { s.grid with now := now } := by rw [← hv]; rfl
  split
  · exact (setGrid_grid _ v'.grid).trans hv'
  · exact hv'

/-- A cutoff that has had no row of its own leaves the grid alone (R225). -/
@[simp] theorem cutoffNow_grid (s : State) : (cutoffNow s).grid = s.grid := by
  unfold cutoffNow
  split
  · refine (afterCutoff_grid _ _ _ _).trans ?_
    rw [cutoff_grid, setCycle_grid, flushCycle_grid, setCycle_grid, State.onGrid_grid]
  · rfl

/-! ### Streams -/

@[simp] theorem seqCheck_grid (s : State) (k : Nat) (num : BitVec 48) : (seqCheck s k num).grid = s.grid := by
  unfold seqCheck
  (repeat' split) <;> simp
@[simp] theorem keyCurrent_grid (s : State) (k : Nat) (num : BitVec 48) : (keyCurrent s k num).grid = s.grid := by
  unfold keyCurrent
  (repeat' split) <;> simp
@[simp] theorem keyExpiredEvent_grid (s : State) (k : Nat) : (keyExpiredEvent s k).grid = s.grid := by
  simp [keyExpiredEvent]
@[simp] theorem emit_grid (s : State) (k : Nat) (num : BitVec 48) (idx : Nat) (g : Option Nat) (via : List Ul)
    (hdr body : Bytes) : (emit s k num idx g via hdr body).grid = s.grid :=
  (keep_foldl State.grid fun s u => handMac_grid s _ u).trans (by simp)
@[simp] theorem eventSeal_grid (s : State) (k : Nat) : (eventSeal s k).grid = s.grid := by
  unfold eventSeal
  dsimp only
  split <;> simp
@[simp] theorem eventTick_grid (s : State) (k : Nat) : (eventTick s k).grid = s.grid := by
  unfold eventTick
  dsimp only
  (repeat' split) <;> simp
@[simp] theorem eccRead_grid (num : BitVec 48) (s : State) (j : Nat) : (eccRead num s j).grid = s.grid := by
  unfold eccRead
  dsimp only
  (repeat' split) <;> simp [onSnap]
@[simp] theorem markSent_grid (k : Nat) (s : State) (r : Rec × Bool) : (markSent k s r).grid = s.grid := by
  simp [markSent]
@[simp] theorem dropJob_grid (k : Nat) (s : State) (j : SegJob) : (dropJob k s j).grid = s.grid := by simp [dropJob]
@[simp] theorem sealJob_grid (s : State) (k : Nat) (j : SegJob) (x : Snap) : (sealJob s k j x).1.grid = s.grid := by
  unfold sealJob
  dsimp only
  split
  · rfl
  · simp only [State.onStream_eq, State.setStream_kept]
    refine (keep_foldl State.grid (markSent_grid k)).trans ((emit_grid _ _ _ _ _ _ _ _).trans ?_)
    exact keep_foldl State.grid fun s r => eccRead_grid _ _ _
@[simp] theorem streamTurn_grid (s : State) (k : Nat) : (streamTurn s k).grid = s.grid := by
  unfold streamTurn
  split
  · rfl
  · split
    · exact (keep_foldl State.grid (dropJob_grid k)).trans (by simp)
    · refine under_grid s _ fun u => ?_
      split
      · dsimp only
        split <;> simp
      · rfl
      · simp
theorem sealTurns_grid (n : Nat) (s : State) : (sealTurns n s).grid = s.grid := by
  induction n generalizing s with
  | zero => rfl
  | succ n ih => exact (ih _).trans (keep_foldl State.grid streamTurn_grid)
@[simp] theorem sealAll_grid (s : State) : (sealAll s).grid = s.grid := by
  unfold sealAll
  split
  · rfl
  · exact (macs_grid _).trans ((sealTurns_grid _ _).trans (keep_foldl State.grid streamTurn_grid))
@[simp] theorem streamsTick_grid (s : State) : (streamsTick s).grid = s.grid := by
  simp only [streamsTick, refreshStreams_grid, macs_grid, sealAll_grid]
  exact (keep_foldl State.grid eventTick_grid).trans (keep_foldl State.grid fun s k => by simp)

/-! ### The hoard -/

@[simp] theorem stopExport_grid (s : State) : (stopExport s).grid = s.grid := by unfold stopExport; split <;> simp
@[simp] theorem checkExport_grid (s : State) : (checkExport s).grid = s.grid := by unfold checkExport; split <;> simp
@[simp] theorem checkpointAll_grid (s : State) : (checkpointAll s).grid = s.grid :=
  keep_foldl State.grid fun s n => by simp [checkpoint]
@[simp] theorem beginBlocks_grid (s : State) : (beginBlocks s).grid = s.grid := by
  unfold beginBlocks
  dsimp only
  (repeat' split) <;> simp
@[simp] theorem startExport_grid (s : State) : (startExport s).grid = s.grid := by
  unfold startExport beginTrace
  dsimp only
  split <;> simp
@[simp] theorem exportResume_grid (s : State) : (exportResume s).grid = s.grid := by
  unfold exportResume
  split <;> simp
@[simp] theorem exportKeyTick_grid (s : State) : (exportKeyTick s).grid = s.grid := by
  unfold exportKeyTick
  split <;> simp
@[simp] theorem freeze_grid (s : State) (it : Option Item) : (freeze s it).grid = s.grid := by
  unfold freeze
  split <;> simp
@[simp] theorem freezeTick_grid (s : State) (w : Word) : (freezeTick s w).grid = s.grid := by
  unfold freezeTick
  (repeat' split) <;> simp
@[simp] theorem disarm_grid (s : State) : (disarm s).grid = s.grid := by simp [disarm]
@[simp] theorem hoardCtlTick_grid (s : State) : (hoardCtlTick s).grid = s.grid := by
  unfold hoardCtlTick
  dsimp only
  (repeat' split) <;> simp
@[simp] theorem hoardTick_grid (s : State) (inst : Bool) : (hoardTick s inst).grid = s.grid := by
  unfold hoardTick
  dsimp only
  rw [exportResume_grid, exportKeyTick_grid, hoardCtlTick_grid]
  split <;> simp
/-- What the sealing of an export segment leaves alone (R476, R477). -/
@[simp] theorem sealTrace_kept (s : State) (body : Bytes) :
    (sealTrace s body).grid = s.grid ∧ (sealTrace s body).nv = s.nv := by
  have hnv (u : State) : (checkExport u).nv = u.nv := nv_of_stores (checkExport_stores u)
  unfold sealTrace
  dsimp only
  split <;> simp [hnv, handMac]
theorem sealStream_kept (n : Nat) (s : State) : (sealStream n s).grid = s.grid ∧ (sealStream n s).nv = s.nv := by
  have hnv (u : State) : (stopExport u).nv = u.nv := nv_of_stores (stopExport_stores u)
  induction n generalizing s with
  | zero => exact ⟨rfl, rfl⟩
  | succ n ih =>
    unfold sealStream
    dsimp only
    (repeat' split) <;> simp [ih, hnv]
/-- What the export of a tick leaves alone (R476, R477). -/
@[simp] theorem exportTick_kept (s : State) : (exportTick s).grid = s.grid ∧ (exportTick s).nv = s.nv := by
  unfold exportTick
  dsimp only
  split <;> simp [sealStream_kept]
@[simp] theorem rawPeriods_grid (s : State) (num : BitVec 48) (at_ stop : Nat) :
    (rawPeriods s num at_ stop).grid = s.grid := by
  unfold rawPeriods putDigests
  split
  · refine (keep_foldl State.grid fun _ _ => hoardBlock_grid _ _ _ _).trans ?_
    exact keep_foldl State.grid fun s n => by simp [rawPeriod]
  · rfl

/-! ### Lanes -/

@[simp] theorem linSleep_grid (s : State) (n : Nat) : (linSleep s n).grid = s.grid := by
  unfold linSleep linStop
  dsimp only
  split <;> simp
@[simp] theorem becomeSprout_grid (s : State) (i : Nat) : (becomeSprout s i).grid = s.grid := by
  unfold becomeSprout
  dsimp only
  split <;> simp
@[simp] theorem refuseAccess_grid (s : State) (n : Nat) : (refuseAccess s n).grid = s.grid := by
  unfold refuseAccess accComplete
  dsimp only
  (repeat' split) <;> simp
@[simp] theorem endSpu_grid (s : State) (n : Nat) : (endSpu s n).grid = s.grid := by
  unfold endSpu
  dsimp only
  split <;> simp
@[simp] theorem dropRouteWrites_grid (s : State) (n : Nat) : (dropRouteWrites s n).grid = s.grid :=
  keep_foldl State.grid fun s p => by
    unfold dropRouteWrite routeDrop
    split <;> simp
@[simp] theorem leaveWave_grid (s : State) (n : Nat) : (leaveWave s n).grid = s.grid := by
  unfold leaveWave
  dsimp only
  (repeat' split) <;> simp
@[simp] theorem chainOff_grid (s : State) (n : Nat) (t : Int) : (chainOff s n t).grid = s.grid :=
  keep_foldl State.grid fun _ _ => rfl
@[simp] theorem unpower_grid (s : State) (n : Nat) : (unpower s n).grid = s.grid := by simp [unpower, sourceOff]
@[simp] theorem leaveMode_grid (s : State) (n t : Nat) : (leaveMode s n t).grid = s.grid :=
  (keep_foldl State.grid fun _ _ => by simp).trans (by simp)
@[simp] theorem leaveLanes_grid (s : State) : (leaveLanes s).grid = s.grid :=
  keep_foldl State.grid fun _ _ => by (repeat' split) <;> simp
@[simp] theorem reclear_grid (s : State) (n : Nat) (t : Option Nat) : (reclear s n t).grid = s.grid := by
  unfold reclear startClear
  dsimp only
  split <;> simp
@[simp] theorem resumeLane_grid (s : State) (n : Nat) : (resumeLane s n).grid = s.grid := by
  unfold resumeLane
  dsimp only
  (repeat' split) <;> simp
@[simp] theorem seqRestart_grid (s : State) (c : Nat) : (seqRestart s c).grid = s.grid := by
  unfold seqRestart
  split
  · exact (keep_foldl State.grid fun _ _ => by simp).trans (by simp)
  · rfl
@[simp] theorem reconnect_grid (s : State) : (reconnect s).grid = s.grid :=
  (keep_foldl State.grid fun _ _ => by split <;> simp).trans (keep_foldl State.grid fun _ _ => by simp)
@[simp] theorem keepFlights_grid (s : State) (T : Nat) : (keepFlights s T).grid = s.grid :=
  keep_foldl State.grid fun _ _ => by
    unfold keepFlight
    dsimp only
    split <;> simp
@[simp] theorem chainForget_grid (s : State) : (chainForget s).grid = s.grid :=
  keep_foldl State.grid fun _ _ => by (repeat' split) <;> rfl
@[simp] theorem replayDisconnect_grid (s : State) : (replayDisconnect s).grid = s.grid := by
  unfold replayDisconnect
  split
  · exact keep_foldl State.grid fun _ _ => by simp
  · rfl

/-! ### Regions, loops and saves -/

@[simp] theorem regionLoops_grid (s : State) (g : Nat) (e : RegionErr) : (regionLoops s g e).grid = s.grid := by
  unfold regionLoops tdcTick dllTick
  dsimp only
  (repeat' split) <;> simp
@[simp] theorem tickLoops_grid (s : State) (errs : List RegionErr) : (tickLoops s errs).grid = s.grid := by
  unfold tickLoops
  split
  · rfl
  · exact keep_foldl State.grid fun _ _ => by (repeat' split) <;> simp
@[simp] theorem noteAdmits_grid (s : State) (g : Nat) : (noteAdmits s g).grid = s.grid := by simp [noteAdmits]
@[simp] theorem noteEntryCal_grid (s : State) : (noteEntryCal s).grid = s.grid := by
  unfold noteEntryCal
  split <;> simp
@[simp] theorem dueSave_grid (s : State) : (dueSave s).grid = s.grid := by
  unfold dueSave calSaveNow calStore
  dsimp only
  (repeat' split) <;> simp

/-! ### A grid instant -/

@[simp] theorem alignBank_grid (s : State) (g : Nat) : (alignBank s g).grid = s.grid := by
  unfold alignBank
  dsimp only
  split
  · rfl
  · exact (keep_foldl State.grid fun _ _ => by split <;> simp).trans (by simp)
@[simp] theorem setInForce_grid (s : State) (a : Nat) (w : Word) : (s.setInForce a w).grid = s.grid := rfl
@[simp] theorem setStaged_grid (s : State) (p : Port) (a : Nat) (w : Word) : (s.setStaged p a w).grid = s.grid := by
  cases p <;> rfl
@[simp] theorem stopReverted_grid (s : State) (p : Port) : (stopReverted s p).grid = s.grid := by
  unfold stopReverted
  dsimp only
  split
  · rfl
  · exact (refreshStreams_grid _).trans (keep_foldl State.grid fun _ _ => by simp)
@[simp] theorem firstInstant_grid (s : State) : (firstInstant s).grid = s.grid := by
  unfold firstInstant
  split <;> simp
@[simp] theorem forgetOld_grid (s : State) : (forgetOld s).grid = s.grid := by simp [forgetOld]
@[simp] theorem beginEntry_grid (s : State) : (beginEntry s).grid = s.grid := by
  unfold beginEntry
  dsimp only
  (repeat' split) <;> simp
@[simp] theorem resumeAt_grid (s : State) : (resumeAt s).grid = s.grid := by
  unfold resumeAt
  dsimp only
  split
  · split
    · exact (keep_foldl State.grid fun _ _ => by split <;> simp).trans (by simp)
    · rfl
  · rfl

end Sys2Proof.Machine
end

section
/-!
SUPPORT. A grid tick (R30 to R32, R45, R52): its number and time, and the gap to the tick after it.
-/

namespace Sys2Proof.Machine

theorem exec_gridTick (errs : List RegionErr) (s : State) : exec (.gridTick errs) s = execGridTick errs s := rfl
theorem exec_freeRunAdvance (s : State) : exec .freeRunAdvance s = execFreeRunAdvance s := rfl
theorem exec_rephaseStep (s : State) : exec .rephaseStep s = execRephaseStep s := rfl

/-! ### The end of the tick before -/

/-- The tick that has run ends with the last step before the next one, where no re-phase makes its step in it. -/
theorem endTick_grid {s : State} (h : stepDue s = false) : (endTick s).grid = { s.grid with now := s.lastStep } := by
  simp [endTick, h]

/-- The end of a tick leaves the non-volatile areas alone. -/
theorem endTick_nv {s : State} (h : stepDue s = false) : (endTick s).nv = s.nv := by
  simp only [endTick, h, Bool.false_eq_true, if_false]
  rw [(exportTick_kept _).2, nv_of_stores (flushCycle_stores _), nv_of_stores (cutoffNow_stores _)]
  rfl

/-- The next number comes from the grid, but for the present time, and from the free-run counter (R30, R31, R45). -/
theorem nextNumber_congr {s t : State} {now : Nat} (hg : t.grid = { s.grid with now := now }) (hn : t.nv = s.nv) :
    nextNumber t = nextNumber s := by
  have hparts (u : State) : nextNumber u = nextNumber { State.reset with grid := u.grid, nv := u.nv } := rfl
  rw [hparts t, hparts s, hg, hn]
  rfl

/-! ### The tick -/

/-- A change of numbering moves the step tick of a re-phase, and nothing else of the grid. -/
theorem moveNumbers_grid (s : State) (d : BitVec 48) :
    ∃ r, (moveNumbers s d).grid = { s.grid with rephase := r } := by
  unfold moveNumbers
  split
  · exact ⟨s.grid.rephase, rfl⟩
  · extract_lets v1 v2 resume rephase v3 busy
    exact ⟨rephase, (keep_foldl State.grid fun s n => by simp).trans rfl⟩

/-- The latest tick with its number and time, the present time, and the gap to the next tick (R31). -/
def GridState.clock (g : GridState) : BitVec 48 × Nat × Nat × Nat := (g.tick, g.tickAt, g.now, g.gap)

/-- The next tick comes one gap after the latest one and takes the next number (R30 to R32, R45, R52). -/
theorem nextTick_clock (s : State) :
    (nextTick s).grid.clock = (nextNumber s, s.grid.tickAt + s.grid.gap, s.grid.tickAt + s.grid.gap,
      if s.grid.lead || s.grid.joined then 50000 else s.grid.rate) := by
  unfold nextTick
  extract_lets n d own over_ nv v1 v2
  have h1 : v1.grid = s.grid := by
    simp only [v1]
    split <;> rfl
  obtain ⟨r, h2⟩ : ∃ r, v2.grid = { s.grid with rephase := r } := by
    obtain ⟨r, hr⟩ := moveNumbers_grid
      (if d = 0 ∧ v1.grid.gap = 50000 then v1 else keepFlights v1 (v1.grid.tickAt + v1.grid.gap)) d
    refine ⟨r, hr.trans ?_⟩
    split <;> simp [h1]
  rw [State.onGrid_grid, h2]
  rfl

/-! ### The work of the tick -/

theorem leaveLead_clock (s : State) : (leaveLead s).grid.clock = s.grid.clock := by
  unfold leaveLead
  split <;> rfl

theorem instant_clock (s : State) : (instant s).grid.clock = s.grid.clock := by
  unfold instant
  extract_lets v1 v2 v3 u v4 v5 v6 v7 v8
  have h2 : v2.grid = s.grid := by
    simp only [v2, v1]
    split <;> simp
  have h4 : v4.grid.clock = v2.grid.clock := rfl
  have h5 : v5.grid = v4.grid := by
    simp only [v5]
    split <;> simp
  have h6 : v6.grid = v5.grid := by
    simp only [v6]
    (repeat' split) <;> simp
  have h7 : v7.grid = v6.grid := keep_foldl State.grid alignBank_grid
  have h8 : v8.grid.clock = v7.grid.clock := by
    simp only [v8, leaveLead_clock, stopReverted_grid]
  rw [forgetOld_grid, resumeAt_grid, beginEntry_grid, firstInstant_grid, h8, h7, h6, h5, h4, h2]

theorem tickRestarts_clock (s : State) : (tickRestarts s).grid.clock = s.grid.clock := by
  unfold tickRestarts
  dsimp only
  rw [keep_foldl State.grid seqRestart_grid]
  split
  · rw [keep_foldl State.grid resumeLane_grid]
    rfl
  · rfl

theorem sendMessages_clock (s : State) : (sendMessages s).grid.clock = s.grid.clock := rfl

/-- The work of a tick takes no time and moves no tick. -/
theorem tickWork_clock (s : State) (errs : List RegionErr) : (tickWork s errs).grid.clock = s.grid.clock := by
  unfold tickWork
  extract_lets inst v1 v2 v3 v4 v5 v6
  have h2 : v2.grid.clock = s.grid.clock := by
    simp only [v2, v1]
    split
    · rw [instant_clock, leaveLanes_grid]
    · rw [leaveLanes_grid]
  have h3 : v3.grid = v2.grid := by simp [v3]
  have h4 : v4.grid.clock = v3.grid.clock := by rw [show v4 = _ from rfl, streamsTick_grid, tickRestarts_clock]
  have h5 : v5.grid = v4.grid := keep_foldl State.grid noteAdmits_grid
  have h6 : v6.grid = v5.grid := by
    simp only [v6]
    split <;> simp
  rw [sendMessages_clock, noteEntryCal_grid, dueSave_grid, replayDisconnect_grid, h6, h5, h4, h3, h2]

/-- A grid tick, from the state before it. -/
theorem gridTick_clock {s : State} (errs : List RegionErr) (h : stepDue s = false) :
    (tickWork (nextTick (endTick s)) errs).grid.clock =
      (nextNumber s, s.grid.tickAt + s.grid.gap, s.grid.tickAt + s.grid.gap,
        if s.grid.lead || s.grid.joined then 50000 else s.grid.rate) := by
  have hg := endTick_grid h
  rw [tickWork_clock, nextTick_clock, nextNumber_congr hg (endTick_nv h), hg]

/-! ### The step of a re-phase -/

/-- A change of TSTATE keeps the events of the router cycle. -/
theorem setTState_mem {s : State} {e : Event} (d : TState) (h : e ∈ s.cycle) : e ∈ (setTState s d).cycle := by
  unfold setTState
  split
  · exact h
  · exact raise_mem _ _ _ h

/-- A re-phase step moves the next tick by c and the next grid instant with it, and raises its event (R45). -/
theorem rephaseStep_steps {s : State} {r : Rephase} (hr : s.grid.rephase = some r) :
    (rephaseStep s).grid.rephase = none ∧ (rephaseStep s).grid.gap = (s.grid.gap + r.c).toNat ∧
      (rephaseStep s).grid.instFrom = s.grid.tickAt + period s ∧
      Raised s (rephaseStep s) 9 0 (BitVec.ofInt 32 r.c) := by
  unfold rephaseStep
  split
  case h_1 h => cases hr.symm.trans h
  case h_2 r' h =>
  cases hr.symm.trans h
  extract_lets v1 v2 rejoin locked v3
  have hcycle : v3.cycle = v1.cycle := by simp [v3, v2]
  have hraised : Raised s v3 9 0 (BitVec.ofInt 32 r.c) :=
    (raise_raised s 9 0 _).of_mem fun _ he => hcycle ▸ he
  have hperiod : period v2 = period s := by simp [period, pexp, State.inForce, v2, v1]
  obtain ⟨hrephase, hgap, hinst⟩ : v3.grid.rephase = none ∧ v3.grid.gap = (s.grid.gap + r.c).toNat ∧
      v3.grid.instFrom = s.grid.tickAt + period s := by simp [v3, v2, v1, ← hperiod]
  split
  · exact ⟨by simpa, by simpa, by simpa, hraised.of_mem fun _ he => setTState_mem _ he⟩
  · exact ⟨hrephase, hgap, hinst, hraised⟩

/-- Settles O6: the tick by what its work leaves of the clock, the counter and the step by their own rows. -/
theorem ticksAdvance : Obligations.TicksAdvance := by
  unfold Obligations.TicksAdvance
  refine ⟨fun s errs hr hon hd => ?_, fun s hr hd hdue => ?_, fun s r hon hr hstep hat => ?_⟩
  · have hclock := gridTick_clock errs hd
    simp only [GridState.clock, Prod.mk.injEq] at hclock
    obtain ⟨htick, hat, hnow, hgap⟩ := hclock
    refine ⟨_, exec_gridTick errs s, ?_⟩
    rw [if_neg (by simp [hr, hon])]
    exact ⟨hat, hnow.trans hat.symm, htick, hgap⟩
  · refine ⟨_, exec_freeRunAdvance s, ?_⟩
    rw [if_pos (by simpa [hr, hd] using hdue)]
    exact ⟨rfl, rfl⟩
  · refine ⟨_, exec_rephaseStep s, ?_⟩
    rw [if_pos ⟨by simp [stepDue, hon, hr, hstep], hat⟩]
    exact rephaseStep_steps hr

end Sys2Proof.Machine
end

section
/-!
SUPPORT. The time states of the lead, re-phases and the peer delay (R39, R40, R42 to R45).
-/

namespace Sys2Proof.Machine

theorem exec_syncRx (dt : Nat) (port : Ul) (msg : SyncMsg) (log : Int) (s : State) :
    exec (.syncRx dt port msg log) s = execSyncRx dt port msg log s := rfl
theorem exec_acquisitionComplete (dt : Nat) (offset : Int) (s : State) :
    exec (.acquisitionComplete dt offset) s = execAcquisitionComplete dt offset s := rfl
theorem exec_lockAcquired (dt : Nat) (s : State) : exec (.lockAcquired dt) s = execLockAcquired dt s := rfl
theorem exec_syncTimeout (dt : Nat) (other : Bool) (s : State) :
    exec (.syncTimeout dt other) s = execSyncTimeout dt other s := rfl
theorem exec_holdMax (dt : Nat) (s : State) : exec (.holdMax dt) s = execHoldMax dt s := rfl
theorem exec_rephase (dt : Nat) (p : Port) (s : State) : exec (.rephase dt p) s = execRephase dt p s := rfl
theorem exec_peerDelay (dt : Nat) (port : Ul) (d : Nat) (s : State) :
    exec (.peerDelay dt port d) s = execPeerDelay dt port d s := rfl

/-! ### Changes of the time state -/

/-- A change of TSTATE shows in GLB_STATUS (R327). -/
theorem setTState_glbHas {s : State} {d : TState} (h : s.grid.tstate ≠ d) : (setTState s d).glbHas 9 = true := by
  rw [setTState, if_neg h]
  exact glb_glbHas (by decide)

/-- The present re-phase after a package has decided one (R45, steps 1 and 2). -/
theorem startRephase_rephase (s : State) (c : Int) (offset : Option Int) :
    ∃ r, (startRephase s c offset).grid.rephase = some r ∧ r.offset = offset ∧ r.relayed = false ∧
      r.c = clampI (-25000) 25000 c ∧ r.stepTick.toNat % 128 = 0 := by
  refine ⟨_, rfl, rfl, rfl, rfl, ?_⟩
  rw [BitVec.toNat_ofNat]
  omega

/-- A valid Sync at the lead in FREE begins the acquisition (R39). -/
theorem syncRx_free {s : State} (tai : Nat) (log : Int) (hl : s.grid.lead = true) (hf : s.grid.tstate = .free) :
    (syncRx s tai log).grid.tstate = .acquiring ∧ (syncRx s tai log).grid.acqCnt = 0 ∧
      (syncRx s tai log).grid.syncAt = some s.grid.now ∧ (syncRx s tai log).grid.logSync = log ∧
      (syncRx s tai log).grid.syncLost = false ∧ (syncRx s tai log).glbHas 9 = true := by
  unfold syncRx
  simp only [State.onGrid_grid, hl, steers, hf, Bool.not_true, Bool.false_eq_true, if_false, syncState]
  exact ⟨by simp, by simp, by simp, by simp, by simp, setTState_glbHas (by simp [hf])⟩

/-- Three Sync intervals without a Sync take LOCKED to HOLDOVER (R39, R43). -/
theorem syncTimeout_holds {s u : State} {dt : Nat} (other : Bool) {a : Nat} (h : Arrives s dt u)
    (hl : u.grid.lead = true) (ha : u.grid.syncAt = some a) (hdue : a + 3 * syncSteps u.grid ≤ u.grid.now)
    (hlost : u.grid.syncLost = false) (hs : u.grid.tstate = .locked) :
    ∃ t, exec (.syncTimeout dt other) s = .next t ∧ t.grid.tstate = .holdover ∧ t.grid.holdAt = u.grid.now ∧
      t.grid.timePort = (if timeFailover u && other then u.grid.timePort.other else u.grid.timePort) := by
  refine ⟨_, (exec_syncTimeout dt other s).trans (run_arrives h _), ?_⟩
  simp only [ha, hl, hdue, hlost, hs, decide_true, Bool.not_false, and_self, if_true]
  exact ⟨by simp, by simp, by simp [timeFailover, State.inForce]⟩

/-- Settles O7, state by state. -/
theorem timeStatesAtTheLead : Obligations.TimeStatesAtTheLead := by
  unfold Obligations.TimeStatesAtTheLead
  refine ⟨fun s u dt port msg log h hon hl hv hf => ?_, fun s u dt offset h hl hs hd hc hr ho => ?_,
    fun s u dt h hl hc hr hs => ?_, fun s u dt other a h hl ha hdue hlost hs => ?_, fun s u dt h hs hm => ?_⟩
  · refine ⟨_, (exec_syncRx dt port msg log s).trans (run_arrives h _), ?_⟩
    rw [if_pos ⟨hon, hv⟩]
    exact syncRx_free msg.tai log hl hf
  · obtain ⟨r, hr', hoff, -, -, hstep⟩ :=
      startRephase_rephase (u.onGrid (fun g => { g with acqCnt := 0 })) u.grid.shift (some offset)
    refine ⟨_, r, (exec_acquisitionComplete dt offset s).trans (run_arrives h _), ?_⟩
    rw [if_pos ⟨hl, hs, by simp [hd], hc, by simp [hr]⟩, if_neg (by omega)]
    exact ⟨hr', hoff, hstep, rfl⟩
  · refine ⟨_, (exec_lockAcquired dt s).trans (run_arrives h _), ?_⟩
    rw [if_pos ⟨hl, hc, by simp [hr], hs⟩]
    refine ⟨by simp, by simp, setTState_glbHas ?_⟩
    obtain h | h | h := hs <;> simp [h]
  · exact syncTimeout_holds other h hl ha hdue hlost hs
  · refine ⟨_, (exec_holdMax dt s).trans (run_arrives h _), ?_⟩
    rw [if_pos ⟨hs, hm⟩]
    exact ⟨rfl, by simp [unlockedNow, hs]⟩

/-- A write of REPHASE at a lead with a grid time begins a re-phase by its present shift (R42). -/
theorem hostRephase_begins {s : State} (hl : s.grid.lead = true) (hf : s.grid.tstate ≠ .free)
    (hr : s.grid.rephase = none) : hostRephase s = startRephase s s.grid.shift none :=
  if_pos (by simp [hl, hf, hr])

/-- The ports serve the frame that arrives. -/
theorem frameArrives_serves {s u : State} {dt : Nat} {p : Port} (h : FrameArrives s dt p u) : portBusy u = false := by
  obtain ⟨-, hbusy, rfl⟩ := h
  simpa [portBusy] using hbusy

/-- Settles O8, by what begins a re-phase and by what a port's exchange keeps. -/
theorem rephaseAndPeerDelay : Obligations.RephaseAndPeerDelay := by
  unfold Obligations.RephaseAndPeerDelay
  refine ⟨fun s u dt p h ho hp hl hf hr => ?_, fun s u dt port d h hup hdue => ?_⟩
  · obtain ⟨r, hr', hoff, hrel, hc, hstep⟩ := startRephase_rephase u u.grid.shift none
    have hserves := frameArrives_serves h
    simp only [portBusy, Bool.or_eq_false_iff] at hserves
    refine ⟨_, r, (exec_rephase dt p s).trans (hostWrite_arrives h ho _), ?_⟩
    rw [if_neg (by simp [hp, ho, hserves]), hostRephase_begins hl hf hr]
    exact ⟨hr', hrel, hoff, hc, hstep⟩
  · refine ⟨_, (exec_peerDelay dt port d s).trans (run_arrives h _), ?_⟩
    rw [if_pos ⟨hup, hdue.imp_left Option.isNone_iff_eq_none.2⟩]
    exact ⟨by simp, State.setUplink_other u port _⟩

end Sys2Proof.Machine
end

section
/-!
SUPPORT. The grid link (R48, R49, R51, R52): what a message, an echo mark and a silence do at the lead and at a follower.
-/

namespace Sys2Proof.Machine

theorem exec_downstreamMessage (dt : Nat) (arrival : Int) (msg : List Byte) (s : State) :
    exec (.downstreamMessage dt arrival msg) s = execDownstreamMessage dt arrival msg s := rfl
theorem exec_upstreamMessage (dt : Nat) (msg : List Byte) (s : State) :
    exec (.upstreamMessage dt msg) s = execUpstreamMessage dt msg s := rfl
theorem exec_echoMark (dt a : Nat) (s : State) : exec (.echoMark dt a) s = execEchoMark dt a s := rfl
theorem exec_followLost (s : State) : exec .followLost s = execFollowLost s := rfl
theorem exec_followerLost (hop : Fin 4) (s : State) : exec (.followerLost hop) s = execFollowerLost hop s := rfl

/-! ### Downstream -/

/-- A message with a bad CRC is counted and not used (R49). -/
theorem downRx_bad {s : State} {m : Bytes} (arrival : Int) (hl : s.grid.lead = false) (hb : s.mode.booted = true)
    (hm : msgOk m = false) : downRx s arrival m = badMessage s := by
  simp [downRx, hl, hb, hm]

/-- A mark at a joined follower under a lead whose time is not degraded, without a re-phase to relay: the follower's
tick follows it (R52). -/
theorem joinedMark_follows {s : State} (e : Int) {m : Bytes} (hd : s.grid.leadDegraded = false)
    (hr : msgNat m 1 1 / 8 % 2 = 0) :
    joinedMark s e m = s.onGrid (fun g => { g with
      markAt := g.now, gap := if g.markAt < g.tickAt then (g.gap + e).toNat else g.gap
      rate := (50000 + e).toNat }) := by
  simp [joinedMark, hd, hr]

/-- A good message within 1 us of its time at a joined follower gives it the lead's tick (R48, R51, R52). -/
theorem downRx_joined {s : State} {arrival : Int} {m : Bytes} (hl : s.grid.lead = false) (hb : s.mode.booted = true)
    (hm : msgOk m = true) (hhop : msgNat m 0 1 ≠ 3) (halarm : msgNat m 1 1 / 16 % 2 = 0)
    (hdeg : msgNat m 1 1 / 2 % 2 = 0) (hre : msgNat m 1 1 / 8 % 2 = 0) (hj : s.grid.joined = true)
    (hnear : (tickError s.grid arrival).natAbs ≤ 400) :
    (downRx s arrival m).grid.leadTick = BitVec.ofNat 48 (msgNat m 2 6) ∧
      (downRx s arrival m).grid.leadUnlocked = decide (msgNat m 1 1 % 2 = 1) ∧
      (downRx s arrival m).grid.markAt = s.grid.now ∧
      (downRx s arrival m).grid.gap =
        (if s.grid.markAt < s.grid.tickAt then (s.grid.gap + tickError s.grid arrival).toNat else s.grid.gap) ∧
      (downRx s arrival m).grid.rate = (50000 + tickError s.grid arrival).toNat := by
  have hfar : ¬ 400 < (tickError s.grid arrival).natAbs := by omega
  simp [downRx, hl, hb, hm, hhop, halarm, hj, hfar, joinedMark_follows, hdeg, hre, Bool.beq_eq_decide_eq]

/-! ### Upstream -/

/-- An upstream message of a joined sender with none below it speaks of its sender alone (R49). -/
theorem joinedHops_alone {m : Bytes} (hhop : msgNat m 0 1 = 1) (hj : msgNat m 1 1 % 2 = 1)
    (hbelow : msgNat m 4 1 = 0) : joinedHops m = [1] := by
  simp [joinedHops, hhop, hj, hbelow]

/-- The lead hears of a follower that it did not count as joined (R49, R52). -/
theorem heard_new {s : State} {m : Bytes} {h : Nat} (hn : h ∉ s.grid.members) :
    (heard m s h).grid.members = s.grid.members ++ [h] ∧
      (heard m s h).grid.joinedCnt = BitVec.ofNat 2 (s.grid.members.length + 1) ∧
      (heard m s h).grid.upIn = s.grid.upIn ∧ (heard m s h).glbHas 8 = true ∧
      Raised s (heard m s h) 11 h (BitVec.ofNat 32 (msgNat m (6 + 2 * (h - msgNat m 0 1)) 2)) := by
  have hc : s.grid.members.contains h = false := by simpa using hn
  simp only [heard, hc, Bool.not_false, if_true]
  exact ⟨by simp, by simp, by simp, glb_glbHas (by decide), (raise_raised_of rfl rfl rfl 11 h _).glb 8⟩

/-- What an upstream message says of the segment below leaves the tick, the members and the message (R51, R52). -/
theorem belowState_kept (g : GridState) (h : Nat) (joined : Bool) :
    (belowState g h joined).lead = g.lead ∧ (belowState g h joined).now = g.now ∧
      (belowState g h joined).tickAt = g.tickAt ∧ (belowState g h joined).tick = g.tick ∧
      (belowState g h joined).members = g.members ∧ (belowState g h joined).upIn = g.upIn := by
  unfold belowState
  dsimp only
  (repeat' split) <;> simp

/-- The state in which the lead looks at whom an upstream message speaks of. -/
def upTaken (s : State) (m : Bytes) : State :=
  (s.onGrid (fun g => { g with upIn := m })).onGrid (fun g => belowState g (msgNat m 0 1) (decide (msgNat m 1 1 % 2 = 1)))

/-- A good upstream message without an alarm at the lead tells it of the joined packages (R49). -/
theorem upRx_lead {s : State} {m : Bytes} (hl : s.grid.lead = true) (hb : s.mode.booted = true)
    (hm : msgOk m = true) (halarm : msgNat m 1 1 / 4 % 2 = 0) :
    upRx s m = (joinedHops m).foldl (heard m) (upTaken s m) := by
  simp [upRx, upTaken, hl, hb, hm, halarm, belowState_kept]

/-- What an upstream message says of the segment below leaves the members and the message (R49). -/
theorem upTaken_kept (s : State) (m : Bytes) :
    (upTaken s m).grid.members = s.grid.members ∧ (upTaken s m).grid.upIn = m ∧
      (upTaken s m).grid.tick = s.grid.tick ∧ (upTaken s m).subtick = s.subtick := by
  simp [upTaken, State.subtick, belowState_kept]

/-- The lead without members takes the follower at hop 1 that has joined (R49, R52). -/
theorem upRx_firstMember {s : State} {m : Bytes} (hl : s.grid.lead = true) (hb : s.mode.booted = true)
    (hm : msgOk m = true) (hhop : msgNat m 0 1 = 1) (hj : msgNat m 1 1 % 2 = 1) (halarm : msgNat m 1 1 / 4 % 2 = 0)
    (hbelow : msgNat m 4 1 = 0) (hnone : s.grid.members = []) :
    (upRx s m).grid.members = [1] ∧ (upRx s m).grid.joinedCnt = 1 ∧ (upRx s m).grid.upIn = m ∧
      (upRx s m).glbHas 8 = true ∧ Raised s (upRx s m) 11 1 (BitVec.ofNat 32 (msgNat m 6 2)) := by
  obtain ⟨hmembers, hup, htick, hsub⟩ := upTaken_kept s m
  rw [upRx_lead hl hb hm halarm, joinedHops_alone hhop hj hbelow, List.foldl_cons, List.foldl_nil]
  obtain ⟨hmem, hcnt, hin, hglb, hraised⟩ := heard_new (m := m) (h := 1) (s := upTaken s m) (by simp [hmembers, hnone])
  rw [hmembers, hnone] at hmem hcnt
  rw [hhop] at hraised
  refine ⟨hmem, hcnt, hin.trans hup, hglb, fun hf => ?_⟩
  have := hraised hf
  rwa [htick, hsub] at this

/-! ### Echo marks -/

/-- Up to seven echo marks are collected (R51). -/
theorem echoRx_collects {s : State} (a : Nat) (h : s.grid.echoes.length < 7) :
    echoRx s a = s.onGrid (fun g => { g with echoes := s.grid.echoes ++ [a] }) := by
  simp only [echoRx, List.length_append, List.length_singleton]
  exact if_pos (by omega)

/-- The eighth echo mark ends a measurement (R51). -/
theorem echoRx_measures {s : State} {a hi lo : Nat} {d : Int} (h : s.grid.echoes.length = 7)
    (hhi : hi = (s.grid.echoes ++ [a]).foldl max 0) (hlo : lo = (s.grid.echoes ++ [a]).foldl min hi)
    (hd : d = rnd (((s.grid.echoes ++ [a]).sum : Int) - 1600000) 16) :
    echoRx s a = s.onGrid (fun g => { g with
      echoes := []
      segOut := if 20 < hi - lo then g.segOut else BitVec.ofNat 16 (clampI 0 65534 d).toNat }) := by
  subst hhi hlo hd
  simp only [echoRx, List.length_append, List.length_singleton, h]
  rfl

/-! ### Losses -/

/-- A follower that loses the tick runs on at the rate that it last tracked (R52). -/
theorem loseTick_runs {s : State} (h : s.grid.tstate ≠ .followLost) :
    (loseTick s).grid.tstate = .followLost ∧ (loseTick s).grid.joined = false ∧
      (loseTick s).grid.gap = s.grid.rate ∧ (loseTick s).glbHas 9 = true := by
  unfold loseTick
  exact ⟨by simp, by simp, by simp, setTState_glbHas h⟩

/-- A silent follower counts as absent (R52). -/
theorem markAbsent_shows (s : State) {h : Nat} (h4 : h < 4) :
    h ∉ (markAbsent s h).grid.members ∧ (markAbsent s h).grid.absent.getLsbD (h - 1) = true ∧
      (markAbsent s h).glbHas 8 = true ∧ Raised s (markAbsent s h) 10 h 0 := by
  unfold markAbsent
  refine ⟨by simp, ?_, glb_glbHas (by decide), (raise_raised_of rfl rfl rfl 10 h 0).glb 8⟩
  simp only [glb_kept, raise_kept, State.onGrid_grid, BitVec.getLsbD_or, BitVec.getLsbD_ofNat,
    Nat.testBit_two_pow_self, decide_eq_true (show h - 1 < 3 by omega), Bool.and_self, Bool.or_true]

/-- Settles O9, message by message. -/
theorem gridLinkMessages : Obligations.GridLinkMessages := by
  unfold Obligations.GridLinkMessages
  refine ⟨fun s u dt arrival msg h hl hb hm hhop halarm hdeg hre hj hnear => ?_,
    fun s u dt arrival msg h hl hb hm => ?_, fun s u dt msg h hl hb hm hhop hj halarm hbelow hnone => ?_,
    fun s u dt a h hb hn => ?_, fun s u dt a hi lo d h hb hn hhi hlo hd => ?_, fun s hon hj hs hmark => ?_,
    fun s h hl hmem hat hsilent _ => ?_⟩
  · exact ⟨_, (exec_downstreamMessage dt arrival msg s).trans (run_arrives h _),
      downRx_joined hl hb hm hhop halarm hdeg hre hj hnear⟩
  · refine ⟨_, (exec_downstreamMessage dt arrival msg s).trans (run_arrives h _), ?_⟩
    rw [downRx_bad arrival hl hb hm]
    exact ⟨rfl, rfl, rfl⟩
  · exact ⟨_, (exec_upstreamMessage dt msg s).trans (run_arrives h _),
      upRx_firstMember hl hb hm hhop hj halarm hbelow hnone⟩
  · refine ⟨_, (exec_echoMark dt a s).trans (run_arrives h _), ?_⟩
    rw [if_pos hb, echoRx_collects a hn]
    exact ⟨rfl, rfl⟩
  · refine ⟨_, (exec_echoMark dt a s).trans (run_arrives h _), ?_⟩
    rw [if_pos hb, echoRx_measures hn hhi hlo hd]
    exact ⟨rfl, rfl⟩
  · refine ⟨_, exec_followLost s, ?_⟩
    rw [if_pos ⟨hon, hj, hs, hmark⟩]
    exact loseTick_runs (by simp [hs])
  · refine ⟨_, exec_followerLost h s, ?_⟩
    rw [if_pos ⟨hl, by simpa using hmem, hat, hsilent⟩]
    exact markAbsent_shows s h.isLt

end Sys2Proof.Machine
end

section
/-!
SUPPORT. What the operations on a lane's line leave of it (R89, R120, R364, R457, R485): happenings of the hoard, faults
as they show, the end of requests, strong windows and route writes, and the lane's source.
-/

namespace Sys2Proof.Machine

/-! ### Happenings and faults shown -/

/-- What a happening of a lane leaves alone. -/
@[simp] theorem happenNow_kept (s : State) (n kind pos : Nat) (arg : Bytes) :
    (happenNow s n kind pos arg).cfg = s.cfg ∧ (happenNow s n kind pos arg).cycle = s.cycle ∧
    (happenNow s n kind pos arg).h = s.h ∧ (happenNow s n kind pos arg).m = s.m ∧
    (∀ k, (happenNow s n kind pos arg).lane k = s.lane k) ∧
    ∀ k, (happenNow s n kind pos arg).region k = s.region k := by
  rw [eq_of_offHoard (happenNow_offHoard s n kind pos arg)]
  simp [State.lane, State.region]

/-- A new fault of a lane stands in its packets of the period and shows in LANE_FAULT (R222, R327). -/
theorem withFaults_shows {s t : State} {n : Nat} (h : laneFault t n = true) :
    (withFaults [n] s t).lane n =
      { t.lane n with faultSeen := decide (laneFault s n = false) || (t.lane n).faultSeen } ∧
    (laneFault s n = false → (withFaults [n] s t).glbHas 21 = true) ∧ (withFaults [n] s t).cycle = t.cycle := by
  cases hs : laneFault s n with
  | true => simp [withFaults, h, hs]
  | false => exact ⟨by simp [withFaults, h, hs], fun _ => by simpa [withFaults, h, hs] using glb_glbHas (by decide),
      by simp [withFaults, h, hs]⟩

/-! ### What ends with a lane's traffic -/

/-- A completed request writes the lane's access group alone (R364). -/
theorem accComplete_lane (s : State) (n : Nat) (st : AccState) (d0 d1 : Option Word) :
    (accComplete s n st d0 d1).lane n = { s.lane n with acc := ((accComplete s n st d0 d1).lane n).acc } := by
  unfold accComplete
  dsimp only
  (repeat' split) <;> simp

/-- A refused request leaves faults and strong windows of its lane alone. -/
@[simp] theorem refuseAccess_lane_kept (s : State) (n : Nat) :
    ((refuseAccess s n).lane n).faultSeen = (s.lane n).faultSeen ∧
    ((refuseAccess s n).lane n).spu = (s.lane n).spu := by
  rw [refuseAccess, accComplete_lane]
  exact ⟨rfl, rfl⟩

/-- Nothing of a strong window that ends at once is left on its lane (R84, R88). -/
@[simp] theorem endSpu_spu (s : State) (n : Nat) : ((endSpu s n).lane n).spu = none := by
  unfold endSpu
  dsimp only
  split
  · assumption
  · simp

@[simp] theorem endSpu_faultSeen (s : State) (n : Nat) : ((endSpu s n).lane n).faultSeen = (s.lane n).faultSeen := by
  unfold endSpu
  dsimp only
  split <;> simp

@[simp] theorem dropRouteWrites_lane (s : State) (n k : Nat) : (dropRouteWrites s n).lane k = s.lane k :=
  keep_foldl (fun s => s.lane k) fun s p => by
    unfold dropRouteWrite routeDrop
    split <;> simp

@[simp] theorem leaveWave_faultSeen (s : State) (n : Nat) :
    ((leaveWave s n).lane n).faultSeen = (s.lane n).faultSeen := by
  unfold leaveWave
  dsimp only
  (repeat' split) <;> simp

/-! ### Sources -/

@[simp] theorem chainOff_lane (s : State) (n : Nat) (t : Int) (k : Nat) : (chainOff s n t).lane k = s.lane k :=
  keep_foldl (fun s => s.lane k) fun _ _ => by simp [State.onEndpoint]

@[simp] theorem chainSettle_lane (s : State) (n t k : Nat) : (chainSettle s n t).lane k = s.lane k :=
  keep_foldl_at (fun s => s.lane k) Prod.fst fun a p => by split <;> simp [State.onEndpoint]

/-- A lane whose source goes off (R119, R120). -/
@[simp] theorem sourceOff_lane (s : State) (n : Nat) (t : Int) :
    (sourceOff s n t).lane n = { s.lane n with offAt := some ((s.lane n).offAt.getD s.grid.now), rested := false } := by
  simp [sourceOff]

/-- A lane's source goes on (R90, R91). -/
@[simp] theorem sourceOn_lane_kept (s : State) (n : Nat) :
    ((sourceOn s n).lane n).offAt = none ∧ ((sourceOn s n).lane n).clearAt = (s.lane n).clearAt ∧
    ((sourceOn s n).lane n).short = (s.lane n).short := by
  unfold sourceOn
  dsimp only
  cases h : (s.lane n).offAt <;> split <;> simp [h]

end Sys2Proof.Machine
end

section
/-!
SUPPORT. Faults of a line (R89 to R92, R156, R517): shorts, bus clear and its end, and the retries of an isolated lane.
-/

namespace Sys2Proof.Machine

theorem exec_stuckLow (dt : Nat) (n : Lane) (s : State) : exec (.stuckLow dt n) s = execStuckLow dt n s := rfl
theorem exec_busClear (dt : Nat) (n : Lane) (s : State) : exec (.busClear dt n) s = execBusClear dt n s := rfl
theorem exec_busClearLineHigh (dt : Nat) (n : Lane) (s : State) :
    exec (.busClearLineHigh dt n) s = execBusClearLineHigh dt n s := rfl
theorem exec_shortToGround (dt : Nat) (n : Lane) (s : State) :
    exec (.shortToGround dt n) s = execShortToGround dt n s := rfl
theorem exec_shortHigh (dt : Nat) (n : Lane) (s : State) : exec (.shortHigh dt n) s = execShortHigh dt n s := rfl
theorem exec_psi5Overcurrent (dt : Nat) (n : Lane) (s : State) :
    exec (.psi5Overcurrent dt n) s = execPsi5Overcurrent dt n s := rfl
theorem exec_psi5ShortHigh (dt : Nat) (n : Lane) (s : State) :
    exec (.psi5ShortHigh dt n) s = execPsi5ShortHigh dt n s := rfl
theorem exec_lineSwing (n : Lane) (s : State) : exec (.lineSwing n) s = execLineSwing n s := rfl
theorem exec_isolationRetry (n : Lane) (free : Bool) (s : State) :
    exec (.isolationRetry n free) s = execIsolationRetry n free s := rfl

/-! ### Shorts -/

/-- A short isolates its lane, and shows (R89, R156, R222, R327). -/
theorem declareShort_isolates (s : State) (n data : Nat) :
    ((declareShort s n data).lane n).lstate = .isolated ∧ ((declareShort s n data).lane n).short = true ∧
      ((declareShort s n data).lane n).faultSeen = (decide (laneFault s n = false) || (s.lane n).faultSeen) ∧
      (laneFault s n = false → (declareShort s n data).glbHas 21 = true) ∧
      Raised s (declareShort s n data) 12 n (BitVec.ofNat 32 data) := by
  unfold declareShort
  extract_lets u v t
  have hfault : laneFault (happenLine (raise (sourceOff v n t) 12 n (BitVec.ofNat 32 data)) n data 1) n = true := by
    simp [laneFault, happenLine, v]
  have hbeyond : (sourceOff v n t).beyond (n / 64) = s.beyond (n / 64) := by
    rw [sourceOff_beyond rfl, onLane_beyond _ _ rfl, leaveWave_beyond rfl, dropRouteWrites_beyond rfl,
      endSpu_beyond rfl, refuseAccess_beyond rfl]
  obtain ⟨-, hcfg, -⟩ := of_beyond hbeyond
  have hgrid : (sourceOff v n t).grid = s.grid := by simp [sourceOff, v, u]
  obtain ⟨hlane, hglb, hcycle⟩ := withFaults_shows (s := s) hfault
  rw [hlane]
  refine ⟨?_, ?_, ?_, hglb, raised_of_cycle ?_ hcfg hgrid⟩
  · simp [happenLine, v]
  · simp [happenLine, v]
  · simp [happenLine, v, u, LaneState.forget]
  · rw [hcycle]
    simp [happenLine]

/-! ### Bus clear -/

/-- A lane that begins a bus clear keeps its request for a strong window (R92). -/
@[simp] theorem reclear_spu (s : State) (n : Nat) (t0 : Option Nat) :
    ((reclear s n t0).lane n).spu = (s.lane n).spu := by
  unfold reclear startClear
  dsimp only
  cases keepsPos (s.lane n) <;> split <;> simp [LaneState.forget]

/-- A low of 20 us begins a bus clear, which counts from the beginning of that low, and ends an open strong window
(R88 to R90). -/
theorem stuckLow_clears {s u : State} {dt : Nat} {n : Lane} (h : Arrives s dt u) (hm : (u.lane n).mode = .aknun)
    (hp : powered u n = true) :
    ∃ t, exec (.stuckLow dt n) s = .next t ∧ (t.lane n).lstate = .clearing ∧ (t.lane n).stuck = true ∧
      (t.lane n).clearAt = some (u.grid.now - graded u n 8000) ∧
      ∀ (q : SpuState) (a b : Nat), (u.lane n).spu = some q → q.window = some (a, b) → u.grid.now < b →
        (t.lane n).spu = none := by
  refine ⟨_, (exec_stuckLow dt n s).trans (run_arrives h _), ?_⟩
  rw [onAknun, if_pos ⟨hm, hp⟩]
  extract_lets t0 open_ v w x
  have hlane : (x.lane n).lstate = .clearing ∧ (x.lane n).clearAt = some t0 := by
    simp [x, reclear, startClear]
  have hspu (ho : open_ = true) : (x.lane n).spu = none := by simp [x, ho]
  obtain ⟨hshown, -, -⟩ := withFaults_shows (s := v) (t := x.onLane n fun l => { l with stuck := true }) (n := n)
    (by simp [laneFault])
  rw [hshown]
  refine ⟨by simp [hlane], by simp, by simp [hlane, t0], fun q a b hq hw hb => ?_⟩
  simpa using hspu (by simp [open_, hq, hw, hb])

/-- A lane that owes a bus clear powers its source and waits for the line to go high (R90). -/
theorem busClear_powers {s u : State} {dt : Nat} {n : Lane} (h : Arrives s dt u) (hl : (u.lane n).lstate = .clearing)
    (hc : (u.lane n).clearAt = none) (hclk : laneClocked u n = true) :
    ∃ t, exec (.busClear dt n) s = .next t ∧ (t.lane n).clearAt = some u.grid.now ∧ (t.lane n).offAt = none := by
  refine ⟨_, (exec_busClear dt n s).trans (run_arrives h _), ?_⟩
  simp [hl, hc, hclk]

/-- When a frame mark may follow a line reset comes from the words in force (R70, R100). -/
theorem afterReset_congr {s t : State} (h : t.cfg = s.cfg) (n at_ : Nat) : afterReset t n at_ = afterReset s n at_ := by
  have hg : cfgGrade t n = cfgGrade s n := by
    unfold cfgGrade State.inForce
    rw [h]
  simp only [afterReset, graded, hg]

/-- A lane whose line has been high for 40 us drives a line reset and is free (R90, R93, R131). -/
theorem busClearLineHigh_frees {s u : State} {dt : Nat} {n : Lane} {t0 : Nat} (h : Arrives s dt u)
    (hc : (u.lane n).clearAt = some t0) (ht : t0 + graded u n 16000 ≤ u.grid.now) (hclk : laneClocked u n = true) :
    ∃ t, exec (.busClearLineHigh dt n) s = .next t ∧ (t.lane n).readyAt = afterReset u n u.grid.now ∧
      (t.lane n).clearAt = none ∧ (t.lane n).stuck = false ∧
      (t.lane n).lstate = (if (u.lane n).keepPos then .run else .enumerating) := by
  refine ⟨_, (exec_busClearLineHigh dt n s).trans (run_arrives h _), ?_⟩
  extract_lets l v c w x
  simp only [l, hc, hclk, Nat.not_lt.2 ht, Bool.not_true, Bool.false_eq_true, or_self, if_false]
  have hv : v.cfg = u.cfg ∧ v.grid = u.grid := by
    simp only [v]
    split <;> simp [happenLine]
  obtain ⟨hcfg, hgrid⟩ := hv
  have hx : x.lane n = w.lane n := by
    simp only [x]
    split
    · obtain ⟨-, -, -, -, hlane, -⟩ := of_offHoard (hoardBlock_offHoard w 0x30 n _)
      exact hlane n
    · rfl
  rw [hx]
  simp [w, l, hgrid, afterReset_congr hcfg]

/-! ### Retries -/

/-- A becoming sprout writes the loops of its lane alone (R203). -/
@[simp] theorem becomeSprout_short (s : State) (i n : Nat) : ((becomeSprout s i).lane n).short = (s.lane n).short := by
  unfold becomeSprout
  dsimp only
  by_cases hn : n = i / 16
  · subst hn
    split <;> simp
  · split <;> simp [State.setLane_lane_other _ _ hn]

@[simp] theorem laneSprouts_short (s : State) (n k : Nat) : ((laneSprouts s n).lane k).short = (s.lane k).short :=
  keep_foldl (fun s : State => (s.lane k).short) fun _ _ => becomeSprout_short _ _ _

@[simp] theorem laneSprouts_lstate (s : State) (n k : Nat) : ((laneSprouts s n).lane k).lstate = (s.lane k).lstate :=
  congrArg (fun x => x.2.2.1) (laneSprouts_start s n k)

/-- An isolated lane is free at its retry, or stays isolated and waits longer (R91). -/
theorem isolationRetry_frees {s : State} {n : Lane} (free : Bool) (hl : (s.lane n).lstate = .isolated)
    (hiso : (s.region (laneRegion n)).iso = false) (hnow : s.grid.now = s.grid.tickAt)
    (hwait : (s.lane n).isoAt + retryWait (s.lane n).isoTry ≤ s.grid.now) :
    ∃ t, exec (.isolationRetry n free) s = .next t ∧
      (free = true → (t.lane n).short = false ∧
        (t.lane n).lstate = (if (s.lane n).mode = .aknun then .enumerating else .run)) ∧
      (free = false → (t.lane n).lstate = .isolated ∧ (t.lane n).isoTry = (s.lane n).isoTry + 1 ∧
        (t.lane n).isoAt = s.grid.now) := by
  refine ⟨_, exec_isolationRetry n free s, ?_⟩
  rw [if_pos ⟨hl, by simp [hiso], hnow, hwait⟩]
  cases free with
  | false => simp [happenLine, hl]
  | true =>
    refine ⟨fun _ => ?_, fun h => absurd h (by decide)⟩
    cases (s.lane n).mode <;> simp

/-- Settles O16, happening by happening. -/
theorem lineFaultsIsolate : Obligations.LineFaultsIsolate := by
  unfold Obligations.LineFaultsIsolate
  refine ⟨fun s u dt n h hm hp => stuckLow_clears h hm hp, fun s u dt n h hl hc hclk => busClear_powers h hl hc hclk,
    fun s u dt n t0 h hc ht hclk => busClearLineHigh_frees h hc ht hclk, fun s u dt n t0 h hm hc ht hl => ?_,
    fun s u dt n h hp hm => ?_, fun s u dt n h hp hm => ⟨?_, ?_⟩, fun s n h8 hs => ?_,
    fun s n free hl hiso hnow hwait => isolationRetry_frees free hl hiso hnow hwait⟩
  · obtain ⟨hiso, hshort, -, -, hraised⟩ := declareShort_isolates u n 1
    refine ⟨_, (exec_shortToGround dt n s).trans ((run_arrives h _).trans (congrArg _ ?_)), hiso, hshort, hraised⟩
    simp only [hm, hc]
    exact if_pos ⟨ht, hl⟩
  · exact ⟨_, (exec_shortHigh dt n s).trans ((run_arrives h _).trans (congrArg _ (if_pos ⟨hp, .inl hm⟩))),
      declareShort_isolates u n 2⟩
  · obtain ⟨hiso, hshort, -, -, hraised⟩ := declareShort_isolates u n 3
    exact ⟨_, (exec_psi5Overcurrent dt n s).trans ((run_arrives h _).trans (congrArg _ (if_pos ⟨hm, hp⟩))),
      hiso, hshort, hraised⟩
  · obtain ⟨hiso, hshort, -, -, hraised⟩ := declareShort_isolates u n 2
    exact ⟨_, (exec_psi5ShortHigh dt n s).trans ((run_arrives h _).trans (congrArg _ (if_pos ⟨hm, hp⟩))),
      hiso, hshort, hraised⟩
  · refine ⟨_, exec_lineSwing n s, ?_⟩
    rw [if_pos ⟨h8, by simp [hs]⟩]
    extract_lets v
    obtain ⟨hlane, -, hcycle⟩ := withFaults_shows (s := s)
      (t := happenLine (raise v 14 n (BitVec.ofInt 32 (((s.lane n).cal.h16 - (s.lane n).cal.l16) / 16))) n 0x10 1)
      (n := n) (by simp [laneFault, happenLine, v])
    exact ⟨by rw [hlane]; simp [happenLine, v], raised_of_cycle (s := v) (by rw [hcycle]; simp [happenLine]) rfl rfl⟩

end Sys2Proof.Machine
end

section
/-!
SUPPORT. The register-access slot of a lane that runs a command in it (R176, R177), and strong pull-up windows from
their request to their end (R82 to R88, R112).
-/

namespace Sys2Proof.Machine

theorem exec_spuAdmit (n : Lane) (s : State) : exec (.spuAdmit n) s = execSpuAdmit n s := rfl
theorem exec_spuWindowEnd (dt : Nat) (n : Lane) (s : State) : exec (.spuWindowEnd dt n) s = execSpuWindowEnd dt n s :=
  rfl
theorem exec_spuOverload (dt : Nat) (n : Lane) (s : State) : exec (.spuOverload dt n) s = execSpuOverload dt n s := rfl

/-- CONVERT and COMMIT_NV are one command with a bit (R112). -/
theorem exec_spuCommand (dt : Nat) (n : Lane) (p : Pos) (all nv : Bool) (code : BitVec 6) (w : FrameWire) (s : State) :
    exec (if nv then .commitNv dt n p all code w else .convert dt n p all code w) s =
      run dt s (fun s => spuCommand s n nv p all code w) := by
  cases nv <;> rfl

/-! ### The register-access slot -/

@[simp] theorem under_lane (s : State) (G : Int) (f : State → State) (k : Nat) :
    (s.under G f).lane k = (f (s.seenAt G)).lane k := rfl

theorem under_grid_eq (s : State) (G : Int) (f : State → State) : (s.under G f).grid = (f (s.seenAt G)).grid := rfl

/-- What is done under the words of a grid instant is judged in the state as seen there (R28). -/
theorem under_congr {s : State} {G : Int} {f g : State → State} (h : f (s.seenAt G) = g (s.seenAt G)) :
    s.under G f = s.under G g := by
  unfold State.under
  rw [h]

/-- A command that runs in its slot has its effect in the state that it is sent in (R176, R177). -/
theorem inSlot_runs {u : State} {n k : Nat} {c : CmdFrame} {w : FrameWire} (h : SlotRuns u n k c w)
    (f : State → BitVec 48 → Int → State) :
    inSlot u n k c w f =
      u.under (slotSnap u n).2 fun _ => f (slotTaken u n c w) (slotSnap u n).1 (slotSnap u n).2 := by
  obtain ⟨hmode, hcfg, hrun, hclk, hplace, hwin, hready, hused, hopen, hstart, hclass, hlow, hpause, hspan⟩ := h
  have hback : backToBack (slotMeets u n) n = false := by simp [backToBack, hrun]
  unfold inSlot
  refine under_congr ?_
  refine (if_neg fun ⟨_, hb, _⟩ => absurd (hb.symm.trans hback) (by decide)).trans
    ((if_pos ⟨hmode, hcfg, hrun, hclk, hplace, ?_, hready, hused, hopen, hstart, hclass⟩).trans
      (if_pos ⟨hlow, ?_⟩))
  · exact (Bool.not_eq_true' _).mpr hwin
  · exact Bool.and_eq_true_iff.2 ⟨Option.isNone_iff_eq_none.2 hpause, (Bool.not_eq_true' _).mpr hspan⟩

/-! ### Requests and windows -/

/-- A lane without a request that may have one makes it (R85, R86, R88). -/
theorem spuCommand_requests {u : State} {n : Nat} (nv : Bool) (p : Pos) (all : Bool) (code : BitVec 6) (w : FrameWire)
    (hb : u.mode.dev ≠ .boot) (hs : u.mode.dev ≠ .sow) (hq : (u.lane n).spu = none) (hm : (u.lane n).mode = .aknun)
    (hl : (u.lane n).lstate = .run) (hok : spuOk u n = true) :
    ((spuCommand u n nv p all code w).lane n).spu = some {
      reqTick := u.grid.tick, nv := nv, pos := p, all := all, code := code, admitted := none, window := none } := by
  simp [spuCommand, requestSpu, hb, hs, hq, hm, hl, hok]

@[simp] theorem draw_kept (s : State) : (∀ k, s.draw.2.lane k = s.lane k) ∧ s.draw.2.grid = s.grid :=
  ⟨fun _ => rfl, rfl⟩

/-- What an endpoint of the chain does leaves lanes and time alone (R130). -/
theorem onEndpoint_kept (s : State) (i : Nat) (f : Endpoint → Endpoint) :
    (∀ k, (s.onEndpoint i f).lane k = s.lane k) ∧ (s.onEndpoint i f).grid = s.grid := by simp [State.onEndpoint]

/-- What the endpoints do in a strong window leaves lanes and time alone (R82, R112). -/
@[simp] theorem spuBusy_kept (s : State) (n : Nat) (q : SpuState) (missed : List (Fin 16 × Bool)) :
    (∀ k, (spuBusy s n q missed).lane k = s.lane k) ∧ (spuBusy s n q missed).grid = s.grid := by
  unfold spuBusy
  simp only [draw_kept]
  refine ⟨fun k => ?_, ?_⟩
  · rw [keep_foldl (fun s : State => s.lane k)]
    exact fun _ _ => (onEndpoint_kept _ _ _).1 k
  · rw [keep_foldl State.grid]
    exact fun _ _ => (onEndpoint_kept _ _ _).2

/-- The effect of the command of a strong window that is sent (R82, R112). -/
def spuSent (n : Nat) (q : SpuState) (w : FrameWire) (r : State × Option Decoded × Bool) : State :=
  if r.2.2 then spuBusy (openWindow r.1 n q) n q w.missed else r.1

theorem spuSent_window {n : Nat} {q : SpuState} {w : FrameWire} {r : State × Option Decoded × Bool}
    (h : r.2.2 = true) :
    ((spuSent n q w r).lane n).spu = some { q with window := some ((spuSent n q w r).grid.now,
      (spuSent n q w r).grid.now + 400000 * (q.code.toNat + 1)) } := by
  rw [spuSent, if_pos h]
  simp [openWindow]

/-- An admitted request's command is sent in the slot of class 1 (R82, R176). -/
theorem spuCommand_slot {u : State} {n : Nat} {q : SpuState} (w : FrameWire) (hb : u.mode.dev ≠ .boot)
    (hs : u.mode.dev ≠ .sow) (hq : (u.lane n).spu = some q) (ha : q.admitted ≠ none) (hw : q.window = none)
    {c : CmdFrame}
    (hc : c = controlFrame (if q.nv then 6 else 5) (if q.all then 15 else q.pos) (b2n q.all * 128 + q.code.toNat) 0) :
    spuCommand u n q.nv q.pos q.all q.code w =
      inSlot u n 1 c w fun s num at_ => spuSent n q w (accessFrame s n num at_ c 0 w) := by
  rw [spuCommand, if_neg (by simp [hb, hs])]
  simp only [hq, hw, Option.isSome_iff_ne_none.2 ha, and_self, if_true, ← hc]
  rfl

/-- The command of an admitted request, once it is sent, opens the window at its end (R82, R112). -/
theorem spuCommand_opens {u : State} {n : Nat} {q : SpuState} {c : CmdFrame} {w : FrameWire}
    (hb : u.mode.dev ≠ .boot) (hs : u.mode.dev ≠ .sow) (hq : (u.lane n).spu = some q) (ha : q.admitted ≠ none)
    (hw : q.window = none)
    (hc : c = controlFrame (if q.nv then 6 else 5) (if q.all then 15 else q.pos) (b2n q.all * 128 + q.code.toNat) 0)
    (hruns : SlotRuns u n 1 c w)
    (hsent : (accessFrame (slotTaken u n c w) n (slotSnap u n).1 (slotSnap u n).2 c 0 w).2.2 = true) :
    ((spuCommand u n q.nv q.pos q.all q.code w).lane n).spu =
      some { q with window := some ((spuCommand u n q.nv q.pos q.all q.code w).grid.now,
        (spuCommand u n q.nv q.pos q.all q.code w).grid.now + 400000 * (q.code.toNat + 1)) } := by
  rw [spuCommand_slot w hb hs hq ha hw hc, inSlot_runs hruns, under_lane, under_grid_eq]
  exact spuSent_window hsent

/-- Settles O14, from the request to the window's end. -/
theorem strongWindows : Obligations.StrongWindows := by
  unfold Obligations.StrongWindows
  refine ⟨fun s u dt n p all nv code w h hb hs hq hm hl hok => ?_,
    fun s u dt n nv w q c h hb hs hq ha hw hnv hc hruns hsent => ?_,
    fun s n q hq ha hnow hregion hdie hstage holder => ?_, fun s u dt n q a b h hq hw hb => ?_,
    fun s u dt n q a b h hq hw hb => ?_⟩
  · exact ⟨_, (exec_spuCommand dt n p all nv code w s).trans (run_arrives h _),
      spuCommand_requests nv p all code w hb hs hq hm hl hok⟩
  · subst hnv
    exact ⟨_, (exec_spuCommand dt n q.pos q.all q.nv q.code w s).trans (run_arrives h _),
      spuCommand_opens hb hs hq ha hw hc hruns hsent⟩
  · refine ⟨_, exec_spuAdmit n s, ?_⟩
    simp [hq, ha, hnow, hregion, hdie, hstage, holder, noteAdmits]
  · refine ⟨_, (exec_spuWindowEnd dt n s).trans (run_arrives h _), ?_⟩
    simp [hq, hw, hb]
  · refine ⟨_, (exec_spuOverload dt n s).trans (run_arrives h _), ?_⟩
    simp only [hq, hw, hb, if_true]
    obtain ⟨-, hcfg, -⟩ := of_beyond (endSpu_beyond (s := u) (n := n) (g := n / 64) rfl)
    exact ⟨by simp, raised_of_cycle (by simp) hcfg (endSpu_grid u n)⟩

end Sys2Proof.Machine
end

section
/-!
SUPPORT. What an operation on lanes and endpoints leaves alone: the words, the grid, the mode and the regions. A frame
reads all four, and hands over its packet only when it is done (R105, R220); a lane is powered by them (R446).
-/

namespace Sys2Proof.Machine

/-- What surrounds the lanes: words, grid, mode and regions. -/
def State.setting (s : State) := (s.cfg, s.grid, s.mode, s.regions)

/-- The parts of equal views. -/
theorem of_setting {s t : State} (h : t.setting = s.setting) :
    t.cfg = s.cfg ∧ t.grid = s.grid ∧ t.mode = s.mode ∧ t.regions = s.regions := by
  simpa only [State.setting, Prod.mk.injEq] using h

@[simp] theorem setting_mk (s : State) (fresh : Nat) (cycle : List Event) (lanes : Tbl LaneState) (eps : Tbl EpState)
    (hoard : HoardState) (chain : Tbl Endpoint) :
    State.setting { s with
      fresh := fresh, cycle := cycle, lanes := lanes, eps := eps, hoard := hoard, chain := chain } = s.setting := rfl

@[simp] theorem setLane_setting (s : State) (n : Nat) (x : LaneState) : (s.setLane n x).setting = s.setting := rfl
theorem onLane_setting (s : State) (n : Nat) (f : LaneState → LaneState) : (s.onLane n f).setting = s.setting := rfl
@[simp] theorem setEp_setting (s : State) (i : Nat) (x : EpState) : (s.setEp i x).setting = s.setting := rfl
@[simp] theorem onHoard_setting (s : State) (f : HoardState → HoardState) : (s.onHoard f).setting = s.setting := rfl
@[simp] theorem onEndpoint_setting (s : State) (i : Nat) (f : Endpoint → Endpoint) :
    (s.onEndpoint i f).setting = s.setting := rfl
@[simp] theorem raise_setting (s : State) (src origin : Nat) (data : Word) :
    (raise s src origin data).setting = s.setting := by
  unfold raise
  split <;> simp

/-! ### Sprouts, holds and sources -/

@[simp] theorem becomeSprout_setting (s : State) (i : Nat) : (becomeSprout s i).setting = s.setting := by
  unfold becomeSprout
  dsimp only
  split <;> simp
@[simp] theorem enterSprouts_setting (s : State) (n : Nat) (start : Option Int) :
    (enterSprouts s n start).setting = s.setting :=
  keep_foldl State.setting fun s p => by
    dsimp only
    (repeat' split) <;> simp
@[simp] theorem laneSprouts_setting (s : State) (n : Nat) : (laneSprouts s n).setting = s.setting :=
  keep_foldl State.setting fun _ _ => becomeSprout_setting _ _
@[simp] theorem swapSuspect_setting (s : State) (i : Nat) (why : Hold) :
    (swapSuspect s i why).setting = s.setting := by simp [swapSuspect]
@[simp] theorem idRead_setting (s : State) (i : Nat) (v : BitVec 64) : (idRead s i v).setting = s.setting := by
  unfold idRead releaseHold
  dsimp only
  (repeat' split) <;> simp
@[simp] theorem sproutExit_setting (s : State) (i : Nat) : (sproutExit s i).setting = s.setting := by
  unfold sproutExit
  split <;> simp
@[simp] theorem chainSettle_setting (s : State) (n t : Nat) : (chainSettle s n t).setting = s.setting :=
  (keep_foldl_at State.setting Prod.fst fun a p => by split <;> simp [State.setEndpoint] : _ = s.setting)
@[simp] theorem sourceOn_setting (s : State) (n : Nat) : (sourceOn s n).setting = s.setting := by
  unfold sourceOn
  dsimp only
  split <;> simp
@[simp] theorem powerLane_setting (s : State) (n : Nat) : (powerLane s n).setting = s.setting := by
  unfold powerLane startClear
  dsimp only
  (repeat' split) <;> simp

/-! ### The hoard's trace -/

@[simp] theorem hoardBlock_setting (s : State) (typ lane : Nat) (body : Bytes) :
    (hoardBlock s typ lane body).setting = s.setting := by
  rw [eq_of_offHoard (hoardBlock_offHoard s typ lane body)]
  rfl
@[simp] theorem happenLine_setting (s : State) (n code on : Nat) : (happenLine s n code on).setting = s.setting := by
  rw [happenLine, happenNow, eq_of_offHoard (happen_offHoard _ _ _ _ _ _)]
  rfl
@[simp] theorem frameBoundary_setting (s : State) (n : Nat) (num : BitVec 48) :
    (frameBoundary s n num).setting = s.setting := by
  unfold frameBoundary checkpoint
  dsimp only
  (repeat' split) <;> simp
@[simp] theorem keepRaw_setting (s : State) (n : Nat) (at_ : Int) (fines : List Int) (lev : Int × Int) :
    (keepRaw s n at_ fines lev).setting = s.setting := by
  unfold keepRaw amendRaw
  dsimp only
  (repeat' split) <;> simp
@[simp] theorem traceFrame_setting (s : State) (n : Nat) (num : BitVec 48) (at_ : Int) (kind cmd pos : Nat)
    (mark strike : Int) (hi lo : Nat) (hasLow : Bool) (a : FrameRun) :
    (traceFrame s n num at_ kind cmd pos mark strike hi lo hasLow a).setting = s.setting := by
  unfold traceFrame traceReset
  dsimp only
  (repeat' split) <;> simp

/-! ### Answers of a harvest -/

@[simp] theorem groupRead_setting (s : State) (i : Nat) (v : BitVec 64) :
    (groupRead s i v).setting = s.setting := by
  unfold groupRead
  split <;> simp
@[simp] theorem huskMessage_setting (s : State) (n i : Nat) (m : Word) :
    (huskMessage s n i m).1.setting = s.setting := by
  unfold huskMessage
  dsimp only
  split <;> simp [apply_ite State.setting, storeMessage]
@[simp] theorem huskBit_setting (s : State) (n i : Nat) (word : Word) :
    (huskBit s n i word).1.setting = s.setting := by
  unfold huskBit
  dsimp only
  (repeat' split) <;> simp
@[simp] theorem huskDrop_setting (s : State) (i : Nat) : (huskDrop s i).setting = s.setting := rfl
@[simp] theorem answerMonitors_setting (s : State) (n : Nat) (q : DecodeWith) (d : Decoded) :
    (answerMonitors s n q d).setting = s.setting := by
  unfold answerMonitors
  dsimp only
  split
  · simp
  · exact keep_foldl State.setting fun s r => by split <;> simp [devSample]
@[simp] theorem takeAnswer_setting (s : State) (n p : Nat) (num : BitVec 48) (base : Int) (q : DecodeWith)
    (d : Decoded) : (takeAnswer s n p num base q d).1.setting = s.setting := by
  unfold takeAnswer jumpSuspect
  dsimp only
  simp [apply_ite State.setting, apply_ite Prod.fst]
@[simp] theorem missFrame_setting (s : State) (n : Nat) (missed : List (Fin 16 × Bool)) :
    (missFrame s n missed).setting = s.setting := keep_foldl State.setting fun _ _ => onEndpoint_setting _ _ _
@[simp] theorem sampleStrike_setting (s : State) (n top : Nat) (whole : Bool) (missed : List (Fin 16 × Bool)) :
    (sampleStrike s n top whole missed).setting = s.setting := by
  unfold sampleStrike
  dsimp only
  rw [keep_foldl State.setting fun _ _ => onEndpoint_setting _ _ _]
  exact keep_foldl State.setting fun s p => by split <;> simp
@[simp] theorem harvestPos_setting (n : Nat) (num : BitVec 48) (base dE : Int) (shed : List Nat)
    (ws : List AnswerWire) (h : HarvestRun) (p : Nat) :
    (harvestPos n num base dE shed ws h p).st.setting = h.st.setting := by
  unfold harvestPos
  dsimp only
  (repeat' split) <;> simp

/-! ### The frame boundary -/

@[simp] theorem stepLane_setting (s : State) (n : Nat) : (stepLane s n).setting = s.setting :=
  keep_foldl State.setting fun _ _ => rfl
@[simp] theorem slowMarks_setting (s : State) (n : Nat) : (slowMarks s n).setting = s.setting :=
  keep_foldl State.setting fun s p => by
    dsimp only
    (repeat' split) <;> simp
@[simp] theorem lineCounts_setting (s : State) (n : Nat) : (lineCounts s n).setting = s.setting := by
  unfold lineCounts
  dsimp only
  split <;> simp
@[simp] theorem applyLoad_setting (s : State) (n : Nat) (before : LaneCal) :
    (applyLoad s n before).setting = s.setting := by
  unfold applyLoad loadEps
  dsimp only
  split
  · rfl
  · split
    · exact keep_foldl State.setting fun s p => by split <;> simp
    · simp
@[simp] theorem aknunBoundary_setting (s : State) (n : Nat) (before : LaneCal) (hi markLow : Nat) (lo : Option Nat)
    (diffs : List Int) (seeds : List Nat) :
    (aknunBoundary s n before hi markLow lo diffs seeds).setting = s.setting := by
  unfold aknunBoundary levelSample
  dsimp only
  rw [enterSprouts_setting, apply_ite State.setting, stepLane_setting, ite_self, onLane_setting, onLane_setting,
    applyLoad_setting, lineCounts_setting, slowMarks_setting]
  exact keep_foldl State.setting fun s p => by simp

/-- A harvest leaves words, grid, mode and regions alone until its packet is handed over (R105, R220). -/
@[simp] theorem harvestFrame_setting (s : State) (n top cmd kind : Nat) (num : BitVec 48) (at_ : Int)
    (w : HarvestWire) : (harvestFrame s n top cmd kind num at_ w).st.setting = s.setting := by
  unfold harvestFrame lineAfter
  dsimp only
  rw [onLane_setting, aknunBoundary_setting, traceFrame_setting, onLane_setting]
  refine (keep_foldl_at State.setting HarvestRun.st fun h p => harvestPos_setting _ _ _ _ _ _ h p).trans ?_
  dsimp only
  (repeat' split) <;> simp

end Sys2Proof.Machine
end

section
/-!
SUPPORT. Harvests and what their frame boundaries find (R74, R105, R203, R220, R223): the packet in the open bank,
silent endpoints and slow lines.
-/

namespace Sys2Proof.Machine

theorem exec_harvest (dt : Nat) (n : Lane) (w : HarvestWire) (s : State) :
    exec (.harvest dt n w) s = execHarvest dt n w s := rfl
theorem exec_harvestPartial (dt : Nat) (n : Lane) (top : Pos) (w : HarvestWire) (s : State) :
    exec (.harvestPartial dt n top w) s = execHarvestPartial dt n top w s := rfl
theorem exec_sproutOnSilence (i : Idx) (s : State) : exec (.sproutOnSilence i) s = execSproutOnSilence i s := rfl
theorem exec_lineSlow (n : Lane) (s : State) : exec (.lineSlow n) s = execLineSlow n s := rfl

/-! ### The packet -/

/-- A packet that is put in place of an earlier one, or at the end, is there (R223). -/
theorem putPacket_holds (rep : Bool) (p : Packet) (qs : List Packet) :
    ∃ x ∈ putPacket rep p qs, x.lane = p.lane ∧ x.tag = p.tag := by
  induction qs with
  | nil => exact ⟨p, by simp [putPacket], rfl, rfl⟩
  | cons q qs ih =>
    rw [putPacket]
    split
    · exact ⟨p.over q, by simp, rfl, rfl⟩
    · obtain ⟨x, hx, hxp⟩ := ih
      exact ⟨x, List.mem_cons_of_mem q hx, hxp⟩

/-- A packet written on time stands in the open bank with the number that the bank serves (R223). -/
theorem writeOnTime_holds (s : State) (g : Nat) (p : Packet) :
    ∃ x ∈ ((writeOnTime s g p).region g).open_.pkts, x.lane = p.lane ∧ x.tag = (s.region g).open_.snap := by
  have hopen : ((writeOnTime s g p).region g).open_ =
      (s.region g).open_.write (replaces (s.seenAt p.inst) p.lane) p := by
    simp only [writeOnTime, State.onRegion_eq, State.setRegion_region]
    exact setOpen_open _ _
  rw [hopen]
  exact putPacket_holds _ _ _

/-- A packet of the snapshot that its region's open bank serves is written on time (R223). -/
theorem collect_onTime {s : State} {p : Packet} (hat : (s.region (laneRegion p.lane)).open_.at_ = p.inst)
    (hlost : (s.region (laneRegion p.lane)).open_.lost = false) :
    collect s p = writeOnTime s (laneRegion p.lane) p := by
  have hsame : earlier p.inst p.inst = false := by simp [earlier]
  simp [collect, hat, hlost, hsame]

/-- A harvest that runs leaves its packet in the open bank of its region, where that bank serves the snapshot
(R105, R220, R223). -/
theorem runHarvest_handsOver {s : State} {n : Nat} {num : BitVec 48} {at_ : Int} (top cmd : Nat) (w : HarvestWire)
    (hnum : (s.region (laneRegion n)).open_.snap = num) (hat : (s.region (laneRegion n)).open_.at_ = at_)
    (hlost : (s.region (laneRegion n)).open_.lost = false) :
    ((runHarvest s n top cmd num at_ w).lane n).lastTag = some num ∧
      ∃ x ∈ ((runHarvest s n top cmd num at_ w).region (laneRegion n)).open_.pkts, x.lane = n ∧ x.tag = num := by
  unfold runHarvest
  dsimp only
  generalize hd : harvestFrame (enterSprouts s n (some (at_ + frameStart s n))) n top cmd (if cmd = 0 then 0 else 1) num
    at_ w = d
  have hset : d.st.setting = s.setting := by rw [← hd, harvestFrame_setting, enterSprouts_setting]
  obtain ⟨-, -, -, hregions⟩ := of_setting hset
  have hregion : d.st.region (laneRegion n) = s.region (laneRegion n) := by simp only [State.region, hregions]
  let v := d.st.onLane n fun l => { l with lastTag := some num }
  have hv : v.region (laneRegion n) = s.region (laneRegion n) := by simp [v, hregion]
  obtain ⟨p, hp, hover⟩ : ∃ p : Packet, p.lane = n ∧
      handOver d.st n num at_ true (d.base - at_) d.entries = writeOnTime v (laneRegion n) p :=
    ⟨_, rfl, collect_onTime (hv ▸ hat) (hv ▸ hlost)⟩
  obtain ⟨x, hx, hxn, hxt⟩ := writeOnTime_holds v (laneRegion n) p
  rw [hover]
  exact ⟨by simp [writeOnTime, v], x, hx, hxn.trans hp, hxt.trans (by rw [hv, hnum])⟩

/-- A lane that is ready for its whole harvest runs it (R105, R175). -/
theorem execHarvest_runs {s u : State} {dt : Nat} {n : Lane} {num : BitVec 48} {g : Int} (w : HarvestWire)
    (h : LineArrives s dt u) (hsnap : laneSnap u n = (num, g)) (hready : harvestReady (u.seenAt g) n num g = true)
    (hwhole : harvestWhole (u.seenAt g) n num = true) :
    execHarvest dt n w s =
      .next (u.under g fun v => runHarvest v n ((v.lane n).enumN - 1) 0 num g w) := by
  obtain ⟨hreset, hu⟩ := h
  rw [execHarvest, run_arrives ⟨hreset, rfl⟩]
  dsimp only
  rw [← hu, hsnap]
  exact congrArg _ (under_congr (if_pos (by simp [hready, hwhole])))

/-- A lane that is ready for a harvest up to its highest due position runs it (R105, R124, R175). -/
theorem execHarvestPartial_runs {s u : State} {dt : Nat} {n : Lane} {top : Pos} {num : BitVec 48} {g : Int}
    (w : HarvestWire) (h : LineArrives s dt u) (hsnap : laneSnap u n = (num, g))
    (hready : harvestReady (u.seenAt g) n num g = true) (hwhole : harvestWhole (u.seenAt g) n num = false)
    (htop : harvestTop (u.seenAt g) n num = some top.val) :
    execHarvestPartial dt n top w s = .next (u.under g fun v => runHarvest v n top 0xB num g w) := by
  obtain ⟨hreset, hu⟩ := h
  rw [execHarvestPartial, run_arrives ⟨hreset, rfl⟩]
  dsimp only
  rw [← hu, hsnap]
  exact congrArg _ (under_congr (if_pos (by simp [hready, hwhole, htop])))

/-! ### Sprouts at a frame boundary -/

/-- An endpoint that has become a sprout (R203). -/
def EpState.sprouted (e : EpState) : EpState :=
  { e with
    sprout := true, clean := 0, seeded := false, attested := false, ctrKnown := false, quiet := 0
    attDone := false, chal := none, sproutAt := none }

/-- An endpoint after a boundary at which the sprout entries up to `b` take effect (R203). -/
def EpState.entered (b : Int) (e : EpState) : EpState :=
  match e.sproutAt with
  | some t => if (t : Int) ≤ b then e.sprouted else e
  | none => e

theorem EpState.entered_entered (b : Int) (e : EpState) : (e.entered b).entered b = e.entered b := by
  cases h : e.sproutAt with
  | none => simp [EpState.entered, h]
  | some t => by_cases ht : (t : Int) ≤ b <;> simp [EpState.entered, EpState.sprouted, h, ht]

theorem setEp_ep_update (s : State) (i k : Nat) (x : EpState) :
    (s.setEp i x).ep k = if k = i then x else s.ep k := by
  by_cases hk : k = i
  · subst hk
    simp
  · rw [State.setEp_ep_other _ _ hk, if_neg hk]

theorem becomeSprout_ep (s : State) (i k : Nat) :
    (becomeSprout s i).ep k = if k = i then (s.ep i).sprouted else s.ep k := by
  rw [← setEp_ep_update]
  unfold becomeSprout
  dsimp only
  split <;> rfl

/-- The sprout entry of one position at a boundary (R203). -/
def enterSprout (n : Nat) (b : Int) (s : State) (p : Nat) : State :=
  match (s.ep (epIdx n p)).sproutAt with
  | some t => if (t : Int) ≤ b then becomeSprout s (epIdx n p) else s
  | none => s

theorem enterSprouts_foldl (s : State) (n : Nat) (b : Int) :
    enterSprouts s n (some b) = (List.range 16).foldl (enterSprout n b) s := by
  refine congrArg (fun f => List.foldl f s (List.range 16)) ?_
  funext s p
  unfold enterSprout
  cases (s.ep (epIdx n p)).sproutAt with
  | none => rfl
  | some t => by_cases ht : (t : Int) ≤ b <;> simp [ht]

theorem enterSprout_ep (s : State) (n k p : Nat) (b : Int) :
    (enterSprout n b s p).ep k = if k = epIdx n p then (s.ep k).entered b else s.ep k := by
  by_cases hk : k = epIdx n p
  · subst hk
    rw [if_pos rfl]
    unfold enterSprout EpState.entered
    cases (s.ep (epIdx n p)).sproutAt with
    | none => rfl
    | some t => by_cases ht : (t : Int) ≤ b <;> simp [ht, becomeSprout_ep]
  · rw [if_neg hk]
    unfold enterSprout
    cases (s.ep (epIdx n p)).sproutAt with
    | none => rfl
    | some t => by_cases ht : (t : Int) ≤ b <;> simp [ht, becomeSprout_ep, hk]

/-- At a boundary each endpoint of the lane whose entry waits becomes a sprout, and no other (R203). -/
theorem enterSprouts_ep (s : State) (n k : Nat) (b : Int) :
    (enterSprouts s n (some b)).ep k =
      if k ∈ (List.range 16).map (epIdx n) then (s.ep k).entered b else s.ep k := by
  rw [enterSprouts_foldl]
  induction List.range 16 generalizing s with
  | nil => rfl
  | cons p ps ih =>
    rw [List.foldl_cons, ih, enterSprout_ep]
    by_cases hk : k = epIdx n p <;> simp [hk, EpState.entered_entered]

/-- Eight silent due periods are kept as an entry, which the lane's next frame boundary makes (R203). -/
theorem silentSprout_enters {s : State} {i : Nat} (hq : 8 ≤ (s.ep i).quiet) :
    ((silentSprout s i).ep i).sproutAt = some ((s.ep i).sproutAt.getD s.grid.now) ∧
      (∀ k, k ≠ i → (silentSprout s i).ep k = s.ep k) ∧
      ∀ b : Int, (((s.ep i).sproutAt.getD s.grid.now : Nat) : Int) ≤ b →
        ∃ e : EpState, (enterSprouts (silentSprout s i) (i / 16) (some b)).ep i = e.sprouted := by
  rw [silentSprout, if_pos hq, State.onEp_eq]
  refine ⟨by simp, fun k hk => State.setEp_ep_other _ _ hk, fun b hb => ?_⟩
  have hi : i ∈ (List.range 16).map (epIdx (i / 16)) :=
    List.mem_map.2 ⟨i % 16, by simp; omega, by simp [epIdx]; omega⟩
  rw [enterSprouts_ep, if_pos hi, State.setEp_ep, EpState.entered]
  simp only [hb, if_true]
  exact ⟨_, rfl⟩

/-- Settles O11, from the harvest to what its boundaries find. -/
theorem harvestsHandOverPackets : Obligations.HarvestsHandOverPackets := by
  unfold Obligations.HarvestsHandOverPackets
  refine ⟨fun s u v dt n w num g h hsnap hv hready hwhole hnum hat hlost => ?_,
    fun s u v dt n top w num g h hsnap hv hready hwhole htop hnum hat hlost => ?_, fun s i hq => ?_,
    fun s n h8 hs => ?_⟩
  · subst hv
    exact ⟨_, (exec_harvest dt n w s).trans (execHarvest_runs w h hsnap hready hwhole),
      runHarvest_handsOver (s := u.seenAt g) _ 0 w hnum hat hlost⟩
  · subst hv
    exact ⟨_, (exec_harvestPartial dt n top w s).trans (execHarvestPartial_runs w h hsnap hready hwhole htop),
      runHarvest_handsOver (s := u.seenAt g) top 0xB w hnum hat hlost⟩
  · obtain ⟨hat, hother, henter⟩ := silentSprout_enters hq
    refine ⟨_, exec_sproutOnSilence i s, hat, hother, fun b x hb hx => ?_⟩
    obtain ⟨e, he⟩ := henter b hb
    rw [hx, he]
    exact ⟨rfl, rfl, rfl, rfl, rfl⟩
  · refine ⟨_, exec_lineSlow n s, ?_⟩
    rw [lineSlow, if_pos ⟨h8, by simp [hs]⟩]
    exact ⟨by simp, raised_of_cycle rfl rfl rfl⟩

end Sys2Proof.Machine
end

section
/-!
SUPPORT. Staging (R446, R447, R448, R457): what time and its deliveries leave of the regions, lanes that a step powers,
and waves of cold lanes.
-/

namespace Sys2Proof.Machine

theorem exec_stageAdmit (g : Region) (s : State) : exec (.stageAdmit g) s = execStageAdmit g s := rfl
theorem exec_laneStep (g : Region) (m : Fin 32) (s : State) : exec (.laneStep g m) s = execLaneStep g m s := rfl
theorem exec_stageChargeRelease (g : Region) (s : State) :
    exec (.stageChargeRelease g) s = execStageChargeRelease g s := rfl
theorem exec_enumWaveAdmit (s : State) : exec .enumWaveAdmit s = execEnumWaveAdmit s := rfl

/-! ### Regions while time runs -/

/-- The regions apart from the end of their deferral, which an event may set (R376). -/
def State.undeferred (s : State) : Nat → RegionState := fun g => { s.region g with deferTo := 0 }

theorem setRegion_undeferred (s : State) (g : Nat) (x : Nat) :
    (s.setRegion g { s.region g with deferTo := x }).undeferred = s.undeferred := by
  funext k
  unfold State.undeferred
  by_cases hk : k = g
  · subst hk
    simp
  · rw [State.setRegion_region_other _ _ hk]

theorem undeferred_congr {s t : State} (h : t.regions = s.regions) : t.undeferred = s.undeferred := by
  unfold State.undeferred State.region
  rw [h]

@[simp] theorem setChan_undeferred (s : State) (c : Nat) (x : ChanState) :
    (s.setChan c x).undeferred = s.undeferred := rfl
@[simp] theorem setStream_undeferred (s : State) (k : Nat) (x : StreamState) :
    (s.setStream k x).undeferred = s.undeferred := rfl
@[simp] theorem onGrid_undeferred (s : State) (f : GridState → GridState) :
    (s.onGrid f).undeferred = s.undeferred := rfl
@[simp] theorem queueItem_undeferred (s : State) (p : Port) (it : Item) :
    (queueItem s p it).undeferred = s.undeferred := undeferred_congr (by simp [queueItem])
@[simp] theorem requestCapture_undeferred (s : State) (restart : Bool) :
    (requestCapture s restart).undeferred = s.undeferred := rfl
@[simp] theorem freezeEvent_undeferred (s : State) (it : Item) : (freezeEvent s it).undeferred = s.undeferred :=
  undeferred_congr (by
    unfold freezeEvent
    dsimp only
    (repeat' split) <;> simp)
@[simp] theorem wakeCond_undeferred (s : State) : (wakeCond s).undeferred = s.undeferred := undeferred_congr (by
  unfold wakeCond
  (repeat' split) <;> rfl)
@[simp] theorem spuDefer_undeferred (s : State) (c : Nat) : (spuDefer s c).undeferred = s.undeferred :=
  keep_foldl State.undeferred fun s g => by
    split
    · exact setRegion_undeferred s g _
    · rfl
@[simp] theorem consume_undeferred (s : State) (c : Nat) (it : Item) : (consume s c it).undeferred = s.undeferred := by
  unfold consume
  split <;> (try split) <;> simp
@[simp] theorem deliverItem_undeferred (s : State) (c : Nat) (it : Item) :
    (deliverItem s c it).undeferred = s.undeferred := by
  unfold deliverItem
  split <;> simp
@[simp] theorem dropEvent_undeferred (s : State) (c : Nat) : (dropEvent s c).undeferred = s.undeferred :=
  undeferred_congr (by
    unfold dropEvent
    dsimp only
    (repeat' split) <;> simp)
@[simp] theorem deliverHeld_undeferred (s : State) (c : Nat) : (deliverHeld s c).undeferred = s.undeferred := by
  unfold deliverHeld
  (repeat' split) <;> simp
@[simp] theorem deliverEarlier_undeferred (s : State) (c : Nat) : (deliverEarlier s c).undeferred = s.undeferred :=
  keep_foldl State.undeferred fun s _ => by split <;> simp
@[simp] theorem deliverTo_undeferred (s : State) (ev : Event) (c : Nat) :
    (deliverTo s ev c).undeferred = s.undeferred := by
  unfold deliverTo
  dsimp only
  (repeat' split) <;> simp
@[simp] theorem flushCycle_undeferred (s : State) : (flushCycle s).undeferred = s.undeferred :=
  keep_foldl State.undeferred fun _ ev => keep_foldl State.undeferred fun s c => deliverTo_undeferred s ev c

/-- Time that runs leaves the stage of a region alone (R376, R446). -/
theorem advance_stageReq (s : State) (dt g : Nat) :
    ((advance s dt).region g).stageReq = (s.region g).stageReq := by
  have h : (advance s dt).undeferred = s.undeferred := by
    unfold advance
    extract_lets t0 t v
    rw [onGrid_undeferred]
    simp only [v]
    split
    · rfl
    · exact flushCycle_undeferred s
  exact congrArg (fun f => (f g).stageReq) h

/-- Time runs as far as it is asked to, within the tick (log entry 3). -/
theorem advance_now {s : State} {dt : Nat} (h : s.grid.now + dt ≤ s.lastStep) :
    (advance s dt).grid.now = s.grid.now + dt := by
  have hnow : (if s.grid.on then max s.grid.now (min (s.grid.now + dt) s.lastStep) else s.grid.now + dt) =
      s.grid.now + dt := by split <;> omega
  unfold advance
  exact hnow

/-! ### Lanes that a step powers -/

@[simp] theorem tryPower_setting (s : State) (n : Nat) : (tryPower s n).setting = s.setting := by
  unfold tryPower
  split <;> simp
@[simp] theorem startProbe_setting (s : State) (n : Nat) : (startProbe s n).setting = s.setting := by
  unfold startProbe
  dsimp only
  split <;> simp

/-- The probe of a lane changes nothing of any lane's start (R456). -/
@[simp] theorem startProbe_start (s : State) (n k : Nat) : ((startProbe s n).lane k).start = (s.lane k).start := by
  unfold startProbe
  dsimp only
  split
  · by_cases hk : k = n
    · subst hk
      simp [LaneState.start]
    · rw [State.setLane_lane_other _ _ hk]
  · rfl

theorem laneSprouts_lane_other (s : State) {n k : Nat} (hk : k ≠ n) : (laneSprouts s n).lane k = s.lane k := by
  unfold laneSprouts
  refine List.foldlRecOn (motive := fun t : State => t.lane k = s.lane k) _ _ rfl fun t ht p hp => ?_
  have hp16 : p < 16 := List.mem_range.1 (List.mem_filter.1 hp).1
  have hlane : k ≠ epIdx n p / 16 := by
    unfold epIdx
    omega
  rw [← ht]
  unfold becomeSprout
  dsimp only
  split <;> simp [State.setLane_lane_other _ _ hlane]

/-- Powering a lane leaves every other lane alone (R446). -/
theorem powerLane_lane_other (s : State) {n k : Nat} (hk : k ≠ n) : (powerLane s n).lane k = s.lane k := by
  unfold powerLane startClear sourceOn
  dsimp only
  (repeat' split) <;> simp [laneSprouts_lane_other _ hk, State.setLane_lane_other _ _ hk]

theorem tryPower_lane_other (s : State) {n k : Nat} (hk : k ≠ n) : (tryPower s n).lane k = s.lane k := by
  unfold tryPower
  split
  · exact powerLane_lane_other s hk
  · rfl

/-- Whether and how a lane may be powered comes from what surrounds it. -/
theorem cfgMode_setting {s t : State} (h : t.setting = s.setting) (n : Nat) : cfgMode t n = cfgMode s n := by
  obtain ⟨hcfg, -, -, -⟩ := of_setting h
  simp only [cfgMode, State.inForce, hcfg]

theorem mayPower_setting {s t : State} (h : t.setting = s.setting) {n : Nat} (hl : t.lane n = s.lane n) :
    mayPower t n = mayPower s n := by
  obtain ⟨-, hgrid, hmode, hregions⟩ := of_setting h
  simp only [mayPower, cfgMode_setting h, hl, hgrid, hmode, State.region, hregions]

/-- A lane without power that may have it starts in its mode (R131, R135, R446). -/
theorem tryPower_start {s : State} {n : Nat} (hl : (s.lane n).lstate = .unpowered) (ha : (s.lane n).modeAt = none)
    (hp : mayPower s n = true) :
    ((tryPower s n).lane n).start =
      (cfgMode s n, none, if cfgMode s n = .aknun then .clearing else .run, some s.grid.now) := by
  rw [tryPower, if_pos ⟨hl, ha, hp⟩]
  exact powerLane_start (cfgMode_of_mayPower hp)

/-! ### Stages -/

/-- No stage goes before one that was requested first, or together with regions of a higher number (R86, R447). -/
theorem stageBefore_first {s : State} {g : Region}
    (h : ∀ f : Region, (s.region f).stageReq = true → (s.region f).stageAt = none → (s.region f).warn = false →
      (s.region g).stageAsked < (s.region f).stageAsked ∨
        (s.region f).stageAsked = (s.region g).stageAsked ∧ g ≤ f) : stageBefore s g = false := by
  unfold stageBefore
  refine List.any_eq_false.2 fun f hf hbefore => ?_
  simp only [Bool.and_eq_true, Option.isNone_iff_eq_none, Bool.not_eq_true', decide_eq_true_eq] at hbefore
  obtain ⟨⟨⟨hreq, hat⟩, hwarn⟩, hasked⟩ := hbefore
  have hfirst := h ⟨f, List.mem_range.1 hf⟩ hreq hat hwarn
  simp only [Fin.le_def] at hfirst
  omega

/-- An admitted stage takes its charge, and later stages wait for it (R446, R447, R448). -/
theorem stageAdmit_admits {s : State} {g : Region} (hon : s.grid.on = true) (hreq : (s.region g).stageReq = true)
    (hat : (s.region g).stageAt = none) (hwarn : (s.region g).warn = false) (hnow : s.grid.now = s.grid.tickAt)
    (hspaced : stageSpaced s = true) (htimely : stageTimely s g = true) (hdie : dieCharge s + 4224 ≤ 20000)
    (hbefore : stageBefore s g = false) :
    ∃ t, exec (.stageAdmit g) s = .next t ∧ (t.region g).stageAt = some s.grid.now ∧ (t.region g).stageStep = 0 ∧
      (t.region g).charged = true ∧ (t.region g).power = .staging ∧ t.mode.stageLast = some s.grid.now ∧
      ∀ k, k ≠ g.val → t.region k = s.region k := by
  refine ⟨_, exec_stageAdmit g s, ?_⟩
  rw [if_pos ⟨hon, hreq, hat, by simp [hwarn], hnow, hspaced, htimely, hdie, by simp [hbefore]⟩]
  refine ⟨by simp, by simp, by simp, by simp, by simp, fun k hk => ?_⟩
  rw [State.onRegion_eq, State.setRegion_region_other _ _ hk]
  simp

/-- The two lanes of a step, powered where they may be (R446). -/
def stepPowered (s : State) (n : Nat) : State :=
  startProbe (startProbe (tryPower (tryPower s n) (n + 1)) n) (n + 1)

@[simp] theorem stepPowered_setting (s : State) (n : Nat) : (stepPowered s n).setting = s.setting := by
  simp [stepPowered]

/-- Each lane of a step that is off and may have power starts in its mode (R446). -/
theorem stepPowered_start {s : State} {n k : Nat} (hk : k = n ∨ k = n + 1) (hl : (s.lane k).lstate = .unpowered)
    (ha : (s.lane k).modeAt = none) (hp : mayPower s k = true) :
    ((stepPowered s n).lane k).start =
      (cfgMode s k, none, if cfgMode s k = .aknun then .clearing else .run, some s.grid.now) := by
  rw [stepPowered, startProbe_start, startProbe_start]
  rcases hk with rfl | rfl
  · rw [tryPower_lane_other _ (by omega)]
    exact tryPower_start hl ha hp
  · have hset : (tryPower s n).setting = s.setting := tryPower_setting s n
    have hlane : (tryPower s n).lane (n + 1) = s.lane (n + 1) := tryPower_lane_other s (by omega)
    obtain ⟨-, hgrid, -⟩ := of_setting hset
    rw [tryPower_start (hlane ▸ hl) (hlane ▸ ha) ((mayPower_setting hset hlane).trans hp),
      cfgMode_setting hset, hgrid]

/-- Step `m` of a stage comes in its time, powers its two lanes, and ends the stage where it is the last (R446). -/
theorem laneStep_powers {s u : State} {g : Region} {m : Fin 32} {a : Nat} (hat : (s.region g).stageAt = some a)
    (hreq : (s.region g).stageReq = true) (hstep : (s.region g).stageStep = m.val)
    (hfrom : s.grid.now ≤ a + 25600 * m.val) (hto : a + 25600 * m.val ≤ s.lastStep)
    (hu : u = advance s (a + 25600 * m.val - s.grid.now)) :
    ∃ t, exec (.laneStep g m) s = .next t ∧ t.grid.now = a + 25600 * m.val ∧
      (∀ n, n = 64 * g.val + 2 * m.val ∨ n = 64 * g.val + 2 * m.val + 1 → (u.lane n).lstate = .unpowered →
        (u.lane n).modeAt = none → mayPower u n = true →
        (t.lane n).mode = cfgMode u n ∧ (t.lane n).poweredAt = some (a + 25600 * m.val) ∧
          (t.lane n).lstate = (if cfgMode u n = .aknun then .clearing else .run)) ∧
      (t.region g).stageStep = m.val + 1 ∧ (t.region g).stageReq = decide (m.val ≠ 31) ∧
      (m.val = 31 → (t.region g).power = .powered) := by
  have hnow : u.grid.now = a + 25600 * m.val := by
    rw [hu, advance_now (by omega)]
    omega
  have hureq : (u.region g).stageReq = true := by rw [hu, advance_stageReq, hreq]
  obtain ⟨-, hgrid, -, hregions⟩ := of_setting (stepPowered_setting u (64 * g.val + 2 * m.val))
  have hexec : exec (.laneStep g m) s =
      .next ((stepPowered u (64 * g.val + 2 * m.val)).onRegion g fun r =>
        if m.val = 31 then { r with stageStep := 32, stageReq := false, power := .powered }
        else { r with stageStep := m.val + 1 }) := by
    rw [exec_laneStep, execLaneStep, hat]
    dsimp only
    rw [if_pos ⟨hreq, hstep, hto⟩, ← hu]
    rfl
  refine ⟨_, hexec, by simp [hgrid, hnow], fun n hn hl ha hp => ?_, ?_⟩
  · have hstart := stepPowered_start hn hl ha hp
    simp only [LaneState.start, Prod.mk.injEq, hnow] at hstart
    obtain ⟨hmode, -, hstate, hpower⟩ := hstart
    simp [hmode, hstate, hpower]
  · have hregion : (stepPowered u (64 * g.val + 2 * m.val)).region g = u.region g := by
      unfold State.region
      rw [hregions]
    rw [State.onRegion_eq, State.setRegion_region, hregion]
    by_cases hm : m.val = 31 <;> simp [hm, hureq]

/-! ### Waves -/

/-- A wave's lanes wait no longer once it is admitted (R457). -/
def endColdWait (s : State) (n : Nat) : State := s.onLane n fun l => { l with coldWait := false }

theorem endColdWait_foldl (s : State) (ns : List Nat) (n : Nat) :
    ((ns.foldl endColdWait s).lane n).coldWait = (!decide (n ∈ ns) && (s.lane n).coldWait) := by
  induction ns generalizing s with
  | nil => simp
  | cons k ks ih =>
    rw [List.foldl_cons, ih]
    by_cases hk : n = k
    · subst hk
      simp [endColdWait]
    · simp [endColdWait, State.setLane_lane_other _ _ hk, hk]

/-- A wave that waits for nothing else and fits the die budget is admitted (R457). -/
theorem enumWaveAdmit_admits {s : State} (hready : waveReady s = true) (hnow : s.grid.now = s.grid.tickAt)
    (hdie : dieCharge s + 132 * (nextWave s).length ≤ 20000) :
    ∃ t, exec .enumWaveAdmit s = .next t ∧
      t.mode.wave = some ((nextWave s).filter (fun n => (s.lane n).lstate == .enumerating)) ∧
      ∀ n ∈ nextWave s, (t.lane n).coldWait = false := by
  let v := s.onMode fun m => { m with
    wave := some ((nextWave s).filter (fun n => (s.lane n).lstate == .enumerating)) }
  have hexec : exec .enumWaveAdmit s = .next ((nextWave s).foldl endColdWait v) := by
    rw [exec_enumWaveAdmit, execEnumWaveAdmit, if_pos ⟨hready, hnow, hdie⟩]
    rfl
  have hmode : ((nextWave s).foldl endColdWait v).mode = v.mode := keep_foldl State.mode fun _ _ => rfl
  exact ⟨_, hexec, congrArg ModeState.wave hmode, fun n hn => by simp [endColdWait_foldl, hn]⟩

/-- Settles O5, from the admission of a stage to that of a wave. -/
theorem stagesPowerRegions : Obligations.StagesPowerRegions := by
  unfold Obligations.StagesPowerRegions
  refine ⟨fun s g hon hreq hat hwarn hnow hlast hwarm hdie hfirst => ?_,
    fun s u g m a hat hreq hstep hfrom hto hu => laneStep_powers hat hreq hstep hfrom hto hu,
    fun s g a hc hat hdue hnow => ?_, fun s hw hprev hnow hprobed hwarm hdie => ?_⟩
  · refine stageAdmit_admits hon hreq hat hwarn hnow ?_ ?_ hdie (stageBefore_first hfirst)
    · unfold stageSpaced
      cases hl : s.mode.stageLast with
      | none => rfl
      | some b => exact decide_eq_true (hlast b hl)
    · cases hs : s.mode.warm with
      | false => simp [stageTimely, hs]
      | true => simpa [stageTimely, hs] using hwarm hs
  · refine ⟨_, exec_stageChargeRelease g s, ?_⟩
    simp [hc, hat, hdue, ← hnow]
  · refine enumWaveAdmit_admits ?_ hnow hdie
    have hprobes : (nextWave s).all (probed s) = true := List.all_eq_true.2 fun n hn => (hprobed n hn).1
    have hwarn : (nextWave s).all (fun n => !(s.region (laneRegion n)).warn) = true :=
      List.all_eq_true.2 fun n hn => by simp [(hprobed n hn).2]
    have hended : (s.mode.wave.getD []).all (fun n => (s.lane n).lstate != .enumerating) = true :=
      List.all_eq_true.2 fun n hn => by simp [hprev n hn]
    simp only [waveReady, hprobes, hwarn, hended, hwarm, Bool.not_false, Bool.and_true, Bool.not_eq_true',
      List.isEmpty_eq_false_iff]
    exact hw

end Sys2Proof.Machine
end

section
/-!
SUPPORT. Why a challenge does not outlive every READ of its tag: the READ's own tempo pip is a sample (R195), and one
that jumps makes the endpoint a swap suspect, a sprout whose attestation begins again (R203, R207, R208).
-/

namespace Sys2Proof.Machine

/-- Lane 0 in RUN with one endpoint: a sprout that the device has challenged, whose calibrated scale stands 3.7 %
above the nominal one (R117, R195, R405). -/
def challenged : State :=
  let s : State := { State.reset with
    mode := { dev := .run, booted := true }
    grid := { on := true, tickAt := 1700000, now := 1749000, gridAt := 1700000, tick := 8, gridNum := 8 }
    cfg := { live := [(0, 0x20FA0400), (16, 0x00010000), (20, 0x00000001), (0x040000, 0x2F000000)] } }
  (s.setLane 0 { mode := .aknun, lstate := .run, enumN := 1, lastTag := some 8 }).setEp 0
    { lastId := 0x0001000000000001, chal := some (7, 0), seeded := true, ts := 68000 }

/-- A pip of symbol `x` at the nominal scale, in standard grade (R70). -/
def nominalPip (x : Nat) : Pulse := { fall := 0, rise := some (8 * (200 + 120 * x)) }

/-- The answer to the READ of ATT_TAG_HI: the word 0 with its CRC-8 (R98, R109). -/
def tagHiAnswer : List Nat := symsOf 40 (crc8 (msb 4 0 ++ msb 8 8 ++ msb 32 0))

/-- That READ at the nominal scale: against the endpoint's calibrated one its tempo pip is a jump (R207). -/
def tagHiWire : FrameWire :=
  { hi := 200, markLow := 50, mark := { fall := 0, rise := some 16000 }
    header := (headerSyms 1 0).map nominalPip, body := (readFrame 0 8).body.map nominalPip
    answer := { low := 50, pips := (3 :: tagHiAnswer).map nominalPip, pace := none } }

/-- The challenge is 4 ms old, and the READ of the tag's first half is the lane's next command (R117, R176). -/
theorem challenged_readsTag :
    attestOwed (advance challenged 0) (epIdx 0 0) = true ∧
    attestPos (advance challenged 0) 0
      ((advance challenged 0).grid.now - cmdSteps (advance challenged 0) 0 (readFrame 0 8) tagHiWire) = some 0 ∧
    0 + 1600000 ≤ (advance challenged 0).grid.now - cmdSteps (advance challenged 0) 0 (readFrame 0 8) tagHiWire ∧
    SlotRuns (advance challenged 0) 0 3 (readFrame 0 8) tagHiWire := by
  unfold SlotRuns
  decide +kernel

/-- The lane accepts the answer. -/
theorem challenged_tagAccepted :
    accepted (slotAnswer (advance challenged 0)
      (slotTaken (advance challenged 0) 0 (readFrame 0 8) tagHiWire) 0 (readFrame 0 8) 8 tagHiWire) =
      some tagHiAnswer := by
  decide +kernel

/-- The jump suspects a swap, and the challenge is gone (R203, R208). -/
theorem challenged_losesChallenge :
    ∃ t, exec (.attestTagCheck 0 0 0 tagHiWire tagHiWire) challenged = .next t ∧
      (t.ep (epIdx 0 0)).hold = .jump ∧ (t.ep (epIdx 0 0)).chal = none :=
  ⟨_, rfl, by decide +kernel, by decide +kernel⟩

/-- Refutes O15: the READ of the tag's first half is accepted, but its tempo pip is a jump, and the challenge is not
kept. -/
theorem not_sleepAndAttest : ¬ Obligations.SleepAndAttest := by
  unfold Obligations.SleepAndAttest
  rintro ⟨-, -, -, hreads, -⟩
  obtain ⟨howed, hpos, hlate, hruns⟩ := challenged_readsTag
  obtain ⟨t, ht, -, hkept⟩ := hreads challenged _ 0 0 0 tagHiWire tagHiWire 7 0 _ tagHiAnswer _ ⟨rfl, rfl⟩
    (by decide +kernel) rfl rfl hlate howed hpos (by decide +kernel) hruns challenged_tagAccepted
  obtain ⟨t', ht', -, hlost⟩ := challenged_losesChallenge
  cases ht'.symm.trans ht
  exact absurd (hlost.symm.trans hkept) (by decide)

end Sys2Proof.Machine
end

section
/-!
SUPPORT. What a frame in the register-access slot leaves of its lane (R79, R176, R177, R189): it writes the lane's
loops, monitors, trace and line, and neither its enumeration nor its access group.
-/

namespace Sys2Proof.Machine

/-- A lane without what a frame on it writes: loops, monitors and their reports, low time and use of the slot, the time
of the next frame mark, and the trace. -/
def LaneState.unframed (l : LaneState) : LaneState :=
  { l with
    cal := {}, mon := {}, swing := false, slowLine := false, slotUsed := none, lowTime := 0, readyAt := 0
    raw := [], rawLev := [], rawFlip := false, rawPrev := ([], [], false), cpAt := none }

/-- The lanes without what frames write. -/
def State.unframed (s : State) : Nat → LaneState := fun k => (s.lane k).unframed

/-- A frame leaves a lane's access group alone. -/
theorem acc_of_unframed {s t : State} (h : t.unframed = s.unframed) (k : Nat) : (t.lane k).acc = (s.lane k).acc := by
  have hk : (t.lane k).unframed = (s.lane k).unframed := congrFun h k
  exact (congrArg LaneState.acc hk :)

theorem unframed_congr {s t : State} (h : t.lanes = s.lanes) : t.unframed = s.unframed := by
  unfold State.unframed State.lane
  rw [h]

theorem unframed_of_offHoard {s t : State} (h : t.offHoard = s.offHoard) : t.unframed = s.unframed :=
  unframed_congr (by rw [eq_of_offHoard h])

theorem setLane_unframed {s : State} {n : Nat} {x : LaneState} (h : x.unframed = (s.lane n).unframed) :
    (s.setLane n x).unframed = s.unframed := by
  funext k
  unfold State.unframed
  by_cases hk : k = n
  · subst hk
    simpa using h
  · rw [State.setLane_lane_other _ _ hk]

theorem onLane_unframed {s : State} {n : Nat} {f : LaneState → LaneState} (h : ∀ l, (f l).unframed = l.unframed) :
    (s.onLane n f).unframed = s.unframed := setLane_unframed (h _)

@[simp] theorem setEp_unframed (s : State) (i : Nat) (x : EpState) : (s.setEp i x).unframed = s.unframed := rfl
@[simp] theorem onEp_unframed (s : State) (i : Nat) (f : EpState → EpState) :
    (s.onEp i f).unframed = s.unframed := rfl
@[simp] theorem onEndpoint_unframed (s : State) (i : Nat) (f : Endpoint → Endpoint) :
    (s.onEndpoint i f).unframed = s.unframed := rfl
@[simp] theorem onHoard_unframed (s : State) (f : HoardState → HoardState) :
    (s.onHoard f).unframed = s.unframed := rfl
@[simp] theorem raise_unframed (s : State) (src origin : Nat) (data : Word) :
    (raise s src origin data).unframed = s.unframed := unframed_congr (by simp)

/-! ### Sprouts -/

@[simp] theorem becomeSprout_unframed (s : State) (i : Nat) : (becomeSprout s i).unframed = s.unframed := by
  unfold becomeSprout
  dsimp only
  split
  · exact Eq.trans (onLane_unframed fun _ => rfl) rfl
  · exact Eq.trans (onLane_unframed fun _ => rfl) rfl
  · rfl

@[simp] theorem enterSprouts_unframed (s : State) (n : Nat) (start : Option Int) :
    (enterSprouts s n start).unframed = s.unframed :=
  keep_foldl State.unframed fun s p => by
    dsimp only
    (repeat' split) <;> simp only [becomeSprout_unframed]

@[simp] theorem sproutExit_unframed (s : State) (i : Nat) : (sproutExit s i).unframed = s.unframed := by
  unfold sproutExit
  split <;> rfl

@[simp] theorem jumpSuspect_unframed (s : State) (i : Nat) (x : Int) : (jumpSuspect s i x).unframed = s.unframed := by
  rw [jumpSuspect, onEp_unframed, swapSuspect, raise_unframed, onEp_unframed, becomeSprout_unframed]

/-! ### The trace -/

@[simp] theorem hoardBlock_unframed (s : State) (typ lane : Nat) (body : Bytes) :
    (hoardBlock s typ lane body).unframed = s.unframed := unframed_of_offHoard (hoardBlock_offHoard s typ lane body)

@[simp] theorem happen_unframed (s : State) (n : Nat) (tick : BitVec 48) (kind pos : Nat) (arg : Bytes) :
    (happen s n tick kind pos arg).unframed = s.unframed := unframed_of_offHoard (happen_offHoard s n tick kind pos arg)

@[simp] theorem frameBoundary_unframed (s : State) (n : Nat) (num : BitVec 48) :
    (frameBoundary s n num).unframed = s.unframed := by
  unfold frameBoundary
  dsimp only
  split
  · rfl
  · split
    · rw [checkpoint, hoardBlock_unframed, onHoard_unframed]
      exact onLane_unframed fun _ => rfl
    · exact onLane_unframed fun _ => rfl

@[simp] theorem amendRaw_unframed (s : State) (n : Nat) (early : List Int) :
    (amendRaw s n early).unframed = s.unframed := by
  unfold amendRaw
  dsimp only
  rw [onHoard_unframed]
  exact onLane_unframed fun _ => rfl

@[simp] theorem keepRaw_unframed (s : State) (n : Nat) (at_ : Int) (fines : List Int) (lev : Int × Int) :
    (keepRaw s n at_ fines lev).unframed = s.unframed := by
  unfold keepRaw
  dsimp only
  split
  · refine Eq.trans (onLane_unframed fun _ => rfl) ?_
    (repeat' split) <;> simp only [amendRaw_unframed]
  · rfl

@[simp] theorem traceReset_unframed (s : State) (n : Nat) (num : BitVec 48) (kind : Nat) :
    (traceReset s n num kind).unframed = s.unframed := by
  unfold traceReset
  split
  · rw [hoardBlock_unframed]
  · rfl

@[simp] theorem traceFrame_unframed (s : State) (n : Nat) (num : BitVec 48) (at_ : Int) (kind cmd pos : Nat)
    (mark strike : Int) (hi lo : Nat) (hasLow : Bool) (a : FrameRun) :
    (traceFrame s n num at_ kind cmd pos mark strike hi lo hasLow a).unframed = s.unframed := by
  unfold traceFrame
  dsimp only
  (repeat' split) <;> simp only [traceReset_unframed, hoardBlock_unframed, keepRaw_unframed]

/-! ### Answers -/

@[simp] theorem answerMonitors_unframed (s : State) (n : Nat) (q : DecodeWith) (d : Decoded) :
    (answerMonitors s n q d).unframed = s.unframed := by
  unfold answerMonitors
  dsimp only
  split
  · exact onLane_unframed fun _ => rfl
  · refine Eq.trans (keep_foldl State.unframed fun s r => ?_) (onLane_unframed fun _ => rfl)
    split
    · exact onLane_unframed fun _ => rfl
    · rfl

@[simp] theorem tempoSample_unframed (s : State) (n p : Nat) (q : DecodeWith) (d : Decoded) :
    (tempoSample s n p q d).1.unframed = s.unframed := by
  unfold tempoSample
  split
  · rfl
  · dsimp only
    split
    · rw [jumpSuspect_unframed, setEp_unframed]
    · rw [setEp_unframed]

@[simp] theorem missFrame_unframed (s : State) (n : Nat) (missed : List (Fin 16 × Bool)) :
    (missFrame s n missed).unframed = s.unframed := keep_foldl State.unframed fun _ _ => rfl

/-! ### The frame boundary -/

@[simp] theorem stepLane_unframed (s : State) (n : Nat) : (stepLane s n).unframed = s.unframed :=
  keep_foldl State.unframed fun _ _ => rfl

@[simp] theorem slowMarks_unframed (s : State) (n : Nat) : (slowMarks s n).unframed = s.unframed :=
  keep_foldl State.unframed fun s p => by
    dsimp only
    (repeat' split) <;> simp only [raise_unframed, setEp_unframed]

@[simp] theorem lineCounts_unframed (s : State) (n : Nat) : (lineCounts s n).unframed = s.unframed := by
  unfold lineCounts
  dsimp only
  split
  · rw [happenLine, happenNow, happen_unframed]
    exact setLane_unframed rfl
  · exact setLane_unframed rfl

@[simp] theorem loadEps_unframed (s : State) (n : Nat) (loops : Word) (l : List (Nat × Word)) :
    (loadEps s n loops l).unframed = s.unframed := by
  unfold loadEps
  split
  · refine keep_foldl State.unframed fun s p => ?_
    dsimp only
    split <;> rfl
  · rfl

@[simp] theorem applyLoad_unframed (s : State) (n : Nat) (before : LaneCal) :
    (applyLoad s n before).unframed = s.unframed := by
  unfold applyLoad
  dsimp only
  split
  · rfl
  · rw [loadEps_unframed]
    exact onLane_unframed fun _ => rfl

@[simp] theorem aknunBoundary_unframed (s : State) (n : Nat) (before : LaneCal) (hi markLow : Nat) (lo : Option Nat)
    (diffs : List Int) (seeds : List Nat) :
    (aknunBoundary s n before hi markLow lo diffs seeds).unframed = s.unframed := by
  unfold aknunBoundary levelSample
  dsimp only
  rw [enterSprouts_unframed, apply_ite State.unframed, stepLane_unframed, ite_self]
  refine Eq.trans (onLane_unframed fun _ => rfl) (Eq.trans (onLane_unframed fun _ => rfl) ?_)
  rw [applyLoad_unframed, lineCounts_unframed, slowMarks_unframed]
  refine Eq.trans (keep_foldl State.unframed fun s p => ?_) (setLane_unframed rfl)
  rw [onEp_unframed, sproutExit_unframed, onEp_unframed]

/-! ### The frame -/

@[simp] theorem lineAfter_unframed (s : State) (n : Nat) (cut : Bool) : (lineAfter s n cut).unframed = s.unframed :=
  onLane_unframed fun _ => rfl

@[simp] theorem accessFrame_unframed (s : State) (n : Nat) (num : BitVec 48) (at_ : Int) (c : CmdFrame) (addr : Nat)
    (w : FrameWire) : (accessFrame s n num at_ c addr w).1.unframed = s.unframed := by
  unfold accessFrame
  extract_lets s1 before q0 q1
  split
  extract_lets seeded s2 s3 a1 sent s4 q2 d
  have h2 : s2.unframed = s.unframed := Eq.trans (onLane_unframed fun _ => rfl) (frameBoundary_unframed s n num)
  have h4 : s4.unframed = s.unframed := by
    simp only [s4, s3, missFrame_unframed]
    split
    · rw [stepLane_unframed, h2]
    · exact h2
  split
  next s5 recs low seeds h =>
  have h5 : s5.unframed = s4.unframed := by
    clear_value s4 d
    cases d with
    | none =>
      cases h
      rfl
    | some d =>
      dsimp only at h
      cases h
      split
      · rw [answerMonitors_unframed]
      · rw [tempoSample_unframed, onEp_unframed, answerMonitors_unframed]
  extract_lets a2 a3 s6 s7
  have h7 : s7.unframed = s.unframed := by
    rw [traceFrame_unframed]
    exact Eq.trans (onLane_unframed fun _ => rfl) (h5.trans h4)
  rw [lineAfter_unframed, aknunBoundary_unframed, h7]

/-- The state that a command is sent in its slot in has the lanes of the state that it was judged in (R176, R203). -/
@[simp] theorem slotTaken_unframed (u : State) (n : Nat) (c : CmdFrame) (w : FrameWire) :
    (slotTaken u n c w).unframed = u.unframed := by
  unfold slotTaken
  refine Eq.trans (onLane_unframed fun _ => rfl) ?_
  rw [enterSprouts_unframed]
  rfl

end Sys2Proof.Machine
end

section
/-!
SUPPORT. A host's READ, WRITE and IDENT of an endpoint (R109, R116, R364): the request begins in its slot, the frame
leaves it pending, and the answer, or the want of one, completes it.
-/

namespace Sys2Proof.Machine

theorem exec_read (dt : Nat) (n : Lane) (w : FrameWire) (s : State) : exec (.read dt n w) s = execRead dt n w s := rfl
theorem exec_write (dt : Nat) (n : Lane) (w : FrameWire) (s : State) :
    exec (.write dt n w) s = execWrite dt n w s := rfl
theorem exec_ident (dt : Nat) (n : Lane) (w : FrameWire) (s : State) :
    exec (.ident dt n w) s = execIdent dt n w s := rfl

@[simp] theorem under_ep (s : State) (G : Int) (f : State → State) (i : Nat) :
    (s.under G f).ep i = (f (s.seenAt G)).ep i := rfl

/-! ### Requests -/

/-- The frame of a host's request, sent once the request has begun (R364). -/
def requestFrame (u : State) (n : Nat) (c : CmdFrame) (addr : Nat) (w : FrameWire) : State × Option Decoded × Bool :=
  accessFrame (hostBegun u n c w) n (slotSnap u n).1 (slotSnap u n).2 c addr w

theorem slotAnswer_hostBegun (u : State) (n : Nat) (c : CmdFrame) (addr : Nat) (w : FrameWire) :
    slotAnswer u (hostBegun u n c w) n c addr w = (requestFrame u n c addr w).2.1 := by
  unfold slotAnswer requestFrame
  rfl

/-- The frame leaves the request as it has begun (R364). -/
theorem requestFrame_acc (u : State) (n : Nat) (c : CmdFrame) (addr : Nat) (w : FrameWire) :
    ((requestFrame u n c addr w).1.lane n).acc = { (u.lane n).acc with begun := true } := by
  rw [requestFrame, acc_of_unframed (accessFrame_unframed _ n _ _ c addr w), hostBegun]
  simp only [State.onLane_eq, State.setLane_lane, acc_of_unframed (slotTaken_unframed u n c w)]

theorem requestFrame_pending {u : State} {n : Nat} (hpend : (u.lane n).acc.rstate = .pending) (c : CmdFrame)
    (addr : Nat) (w : FrameWire) : ((requestFrame u n c addr w).1.lane n).acc.rstate = .pending := by
  rw [requestFrame_acc, hpend]

/-- A pending request completes with its state and its words (R364). -/
theorem accComplete_acc {s : State} {n : Nat} (h : (s.lane n).acc.rstate = .pending) (st : AccState)
    (d0 d1 : Option Word) :
    ((accComplete s n st d0 d1).lane n).acc = { (s.lane n).acc with
      rstate := st, begun := false, data0 := d0.getD (s.lane n).acc.data0, data1 := d1.getD (s.lane n).acc.data1 } := by
  unfold accComplete
  dsimp only
  rw [if_pos h]
  split <;> simp

theorem accComplete_ep (s : State) (n : Nat) (st : AccState) (d0 d1 : Option Word) (i : Nat) :
    (accComplete s n st d0 d1).ep i = s.ep i := by
  unfold accComplete
  dsimp only
  (repeat' split) <;> simp

theorem accAnswer_accepted {d : Option Decoded} {xs : List Nat} (h : accepted d = some xs) (s : State) (n : Nat)
    (f : List Nat → State → State) : accAnswer s n d f = f xs s := by
  rw [accAnswer, h]

theorem accAnswer_silent {d : Option Decoded} (h : accepted d = none) (s : State) (n : Nat)
    (f : List Nat → State → State) : accAnswer s n d f = accComplete s n .noResponse none none := by
  rw [accAnswer, h]

/-- The status of an answer is the first symbol of its accepted ones (R104). -/
theorem status_eq_some {d : Option Decoded} {x : Nat} (h : status d = some x) :
    ∃ xs, accepted d = some xs ∧ xs.getD 0 0 = x := by
  unfold status at h
  cases hd : accepted d with
  | none => simp [hd] at h
  | some xs => exact ⟨xs, rfl, by simpa [hd] using h⟩

theorem status_eq_none {d : Option Decoded} (h : status d = none) : accepted d = none := by
  unfold status at h
  cases hd : accepted d with
  | none => rfl
  | some xs => simp [hd] at h

/-- What a WRITE does at its endpoint leaves the lanes alone (R109). -/
@[simp] theorem endpointWrite_lane (s : State) (n pos addr : Nat) (v : Word) (missed : List (Fin 16 × Bool))
    (d : Option Decoded) (k : Nat) : (endpointWrite s n pos addr v missed d).lane k = s.lane k := by
  unfold endpointWrite atAwake atPos
  (repeat' split) <;> simp [State.onEndpoint]

/-- The ID that a host reads is kept as the endpoint's last one (R205, R209). -/
theorem hostIdent_lastId (s : State) (i : Nat) (v : BitVec 64) : ((hostIdent s i v).ep i).lastId = v := by
  unfold hostIdent releaseHold
  dsimp only
  split <;> simp

@[simp] theorem hostIdent_lane (s : State) (i : Nat) (v : BitVec 64) (k : Nat) :
    (hostIdent s i v).lane k = s.lane k := by
  unfold hostIdent releaseHold
  dsimp only
  split <;> simp

/-! ### Answers -/

/-- What the answer to a READ does with its request (R109). -/
def readAnswer (n : Nat) (r : State × Option Decoded × Bool) : State :=
  accAnswer r.1 n r.2.1 fun xs s => accComplete s n .done (some (BitVec.ofNat 32 (symsNat xs / 256))) none

/-- What the answer to a WRITE does with its request, and at the endpoint (R109). -/
def writeAnswer (n : Nat) (a : AccGroup) (w : FrameWire) (r : State × Option Decoded × Bool) : State :=
  accAnswer (endpointWrite r.1 n a.pos.toNat a.addr.toNat a.data0 w.missed r.2.1) n r.2.1 fun xs s =>
    accComplete s n (accOf (xs.getD 0 0)) none none

/-- What the answer to a host's IDENT does with its request, and with the endpoint's ID (R116, R205). -/
def hostIdentAnswer (n p : Nat) (r : State × Option Decoded × Bool) : State :=
  accAnswer r.1 n r.2.1 fun xs s =>
    accComplete (hostIdent s (epIdx n p) (BitVec.ofNat 64 (symsNat xs / 256))) n .done
      (some (BitVec.ofNat 32 (symsNat xs / 256 / 2 ^ 32))) (some (BitVec.ofNat 32 (symsNat xs / 256)))

section

variable {n : Nat} {r : State × Option Decoded × Bool} (hpend : (r.1.lane n).acc.rstate = .pending)
include hpend

theorem readAnswer_done {xs : List Nat} (hx : accepted r.2.1 = some xs) :
    ((readAnswer n r).lane n).acc.rstate = .done ∧
      ((readAnswer n r).lane n).acc.data0 = BitVec.ofNat 32 (symsNat xs / 256) := by
  simp [readAnswer, accAnswer_accepted hx, accComplete_acc hpend]

theorem readAnswer_silent (hx : accepted r.2.1 = none) :
    ((readAnswer n r).lane n).acc.rstate = .noResponse ∧
      ((readAnswer n r).lane n).acc.data0 = (r.1.lane n).acc.data0 := by
  simp [readAnswer, accAnswer_silent hx, accComplete_acc hpend]

theorem writeAnswer_done (a : AccGroup) (w : FrameWire) {x : Nat} (hx : status r.2.1 = some x) :
    ((writeAnswer n a w r).lane n).acc.rstate = accOf x := by
  obtain ⟨xs, hxs, rfl⟩ := status_eq_some hx
  simp [writeAnswer, accAnswer_accepted hxs, accComplete_acc, hpend]

theorem writeAnswer_silent (a : AccGroup) (w : FrameWire) (hx : status r.2.1 = none) :
    ((writeAnswer n a w r).lane n).acc.rstate = .noResponse := by
  simp [writeAnswer, accAnswer_silent (status_eq_none hx), accComplete_acc, hpend]

theorem hostIdentAnswer_done (p : Nat) {xs : List Nat} (hx : accepted r.2.1 = some xs) :
    ((hostIdentAnswer n p r).lane n).acc.rstate = .done ∧
      ((hostIdentAnswer n p r).lane n).acc.data0 = BitVec.ofNat 32 (symsNat xs / 256 / 2 ^ 32) ∧
      ((hostIdentAnswer n p r).lane n).acc.data1 = BitVec.ofNat 32 (symsNat xs / 256) ∧
      ((hostIdentAnswer n p r).ep (epIdx n p)).lastId = BitVec.ofNat 64 (symsNat xs / 256) := by
  rw [hostIdentAnswer, accAnswer_accepted hx, accComplete_ep, hostIdent_lastId]
  simp [accComplete_acc, hpend]

theorem hostIdentAnswer_silent (p : Nat) (hx : accepted r.2.1 = none) :
    ((hostIdentAnswer n p r).lane n).acc.rstate = .noResponse := by
  simp [hostIdentAnswer, accAnswer_silent hx, accComplete_acc hpend]

end

/-! ### Commands -/

/-- A request that has not waited for 256 periods is served (R364). -/
theorem accLive_of_pending {u : State} {n start : Nat} (hpend : (u.lane n).acc.rstate = .pending)
    (hlive : start < (u.lane n).acc.at_ + 256 * period u) : accLive u n start = true := by
  simp [accLive, hpend, hlive]

section

variable {s u : State} {dt : Nat} {n : Lane} {w : FrameWire} {c : CmdFrame} (h : Arrives s dt u)
  (hpend : (u.lane n).acc.rstate = .pending) (hroute : routeWrite u n = none)
  (hlive : u.grid.now - cmdSteps u n c w < (u.lane n).acc.at_ + 256 * period u) (hruns : SlotRuns u n 4 c w)
include h hpend hroute hlive hruns

theorem read_serves (hop : (u.lane n).acc.op = 0)
    (hc : c = readFrame (u.lane n).acc.pos.toNat (u.lane n).acc.addr.toNat) :
    exec (.read dt n w) s = .next (u.under (slotSnap u n).2 fun _ => readAnswer n
      (requestFrame u n c (u.lane n).acc.addr.toNat w)) := by
  subst hc
  rw [exec_read, execRead, run_arrives h]
  dsimp only
  rw [if_pos ⟨hop, hroute, accLive_of_pending hpend hlive⟩, inSlot_runs hruns]
  simp only [readAnswer, requestFrame, hostBegun]

theorem write_serves (hop : (u.lane n).acc.op = 1)
    (hc : c = writeFrame (u.lane n).acc.pos.toNat (u.lane n).acc.addr.toNat (u.lane n).acc.data0) :
    exec (.write dt n w) s = .next (u.under (slotSnap u n).2 fun _ => writeAnswer n (u.lane n).acc w
      (requestFrame u n c (u.lane n).acc.addr.toNat w)) := by
  subst hc
  rw [exec_write, execWrite, run_arrives h]
  simp only [hroute]
  rw [if_pos ⟨hop, accLive_of_pending hpend hlive⟩, inSlot_runs hruns]
  simp only [writeAnswer, requestFrame, hostBegun]

theorem ident_serves (hop : (u.lane n).acc.op = 2) (hpos : (u.lane n).enumPos = none)
    (howed : identOwedPos u n = none) (hc : c = identFrame (u.lane n).acc.pos.toNat) :
    exec (.ident dt n w) s = .next (u.under (slotSnap u n).2 fun _ => hostIdentAnswer n (u.lane n).acc.pos.toNat
      (requestFrame u n c 0 w)) := by
  subst hc
  rw [exec_ident, execIdent, run_arrives h]
  simp only [LaneState.enumerating, hpos, howed]
  rw [if_pos ⟨hop, hroute, accLive_of_pending hpend hlive⟩, inSlot_runs hruns]
  simp only [hostIdentAnswer, requestFrame, hostBegun]

end

/-- Settles O12, command by command. -/
theorem hostAccessIsServed : Obligations.HostAccessIsServed := by
  unfold Obligations.HostAccessIsServed
  refine ⟨fun s u dt n w a c h ha hpend hop hroute hc hlive hruns => ?_,
    fun s u dt n w a c h ha hpend hop hroute hc hlive hruns => ?_,
    fun s u dt n w a c h ha hpend hop hroute hpos howed hc hlive hruns => ?_⟩
  · subst ha
    refine ⟨_, read_serves h hpend hroute hlive hruns hop hc, ?_⟩
    have hsent := requestFrame_pending hpend c (u.lane n).acc.addr.toNat w
    rw [under_lane, slotAnswer_hostBegun]
    split
    next xs hx => exact readAnswer_done hsent hx
    next hx =>
      obtain ⟨hstate, hdata⟩ := readAnswer_silent hsent hx
      exact ⟨hstate, hdata.trans (by rw [requestFrame_acc])⟩
  · subst ha
    refine ⟨_, write_serves h hpend hroute hlive hruns hop hc, ?_⟩
    have hsent := requestFrame_pending hpend c (u.lane n).acc.addr.toNat w
    rw [under_lane, slotAnswer_hostBegun]
    split
    next x hx => exact writeAnswer_done hsent _ w hx
    next hx => exact writeAnswer_silent hsent _ w hx
  · subst ha
    refine ⟨_, ident_serves h hpend hroute hlive hruns hop hpos howed hc, ?_⟩
    have hsent := requestFrame_pending hpend c 0 w
    rw [under_lane, under_ep, slotAnswer_hostBegun]
    split
    next xs hx => exact hostIdentAnswer_done hsent _ hx
    next hx => exact hostIdentAnswer_silent hsent _ hx

end Sys2Proof.Machine
end

section
/-!
SUPPORT. The steps of an enumeration (R120 to R124, R131, R458): its start, ENUM and CLOSE_PASS back to back, an
OPEN_PASS in its slot, and the second attempts.
-/

namespace Sys2Proof.Machine

theorem exec_enumerationStart (dt : Nat) (n : Lane) (s : State) :
    exec (.enumerationStart dt n) s = execEnumerationStart dt n s := rfl
theorem exec_enum (dt : Nat) (n : Lane) (w : FrameWire) (s : State) : exec (.enum dt n w) s = execEnum dt n w s := rfl
theorem exec_closePass (dt : Nat) (n : Lane) (w : FrameWire) (s : State) :
    exec (.closePass dt n w) s = execClosePass dt n w s := rfl
theorem exec_openPass (dt : Nat) (n : Lane) (p : Pos) (w : FrameWire) (s : State) :
    exec (.openPass dt n p w) s = execOpenPass dt n p w s := rfl
theorem exec_enumRetry (dt : Nat) (n : Lane) (s : State) : exec (.enumRetry dt n) s = execEnumRetry dt n s := rfl
theorem exec_enumRepoll (n : Lane) (s : State) : exec (.enumRepoll n) s = execEnumRepoll n s := rfl

/-! ### The start -/

@[simp] theorem traceReset_lane (s : State) (n : Nat) (num : BitVec 48) (kind k : Nat) :
    (traceReset s n num kind).lane k = s.lane k := by
  unfold traceReset
  split
  · obtain ⟨-, -, -, -, hlane, -⟩ := of_offHoard (hoardBlock_offHoard s 0x30 n _)
    exact hlane k
  · rfl

/-- A chain reset acts on the endpoints, not on their lane (R119, R120). -/
@[simp] theorem chainReset_lane (s : State) (n t k : Nat) : (chainReset s n t).1.lane k = s.lane k := by
  simp [chainReset]

@[simp] theorem chainReset_setting (s : State) (n t : Nat) : (chainReset s n t).1.setting = s.setting := by
  unfold chainReset chainOff
  dsimp only
  rw [chainSettle_setting, keep_foldl State.setting fun _ _ => onEndpoint_setting _ _ _]
  unfold traceReset
  split <;> simp

/-- The highest position with a descriptor is read from the words in force (R118). -/
theorem topPos_congr {s t : State} (h : t.cfg = s.cfg) (n : Nat) : topPos t n = topPos s n := by
  unfold topPos lanePositions descProto State.inForce
  rw [h]

/-- A chain that has a descriptor is enumerated (R118, R121). -/
theorem ite_enumDone_of_topPos {s : State} {n : Nat} (h : topPos s n ≠ none) :
    (if (topPos s n).isNone then enumDone s n else s) = s := if_neg (by simpa [Option.ne_none_iff_isSome] using h)

/-- The state of a lane that begins to enumerate at position 0, whose line is high at `t` (R121). -/
def LaneState.enumBegun (l : LaneState) (t : Nat) : LaneState :=
  { l with
    enumPos := some 0, enumStep := 0, enumTry := 0, enumN := 0, enumFail := false, chainEnd := false
    rested := false, enumOwed := false, enumAt := t, readyAt := max l.readyAt t }

/-- Enumeration starts at once on a chain that was off for 1 ms, and 1.20 ms later, after a chain reset, on another
(R120, R121). -/
theorem enumerationStart_begins {s u : State} {dt : Nat} {n : Lane} (h : Arrives s dt u)
    (hstarts : enumStarts u n = true) (hpos : (u.lane n).enumPos = none) (hclear : (u.lane n).clearAt = none)
    (hhigh : (u.lane n).readyAt - graded u n 16000 ≤ u.grid.now) (htop : topPos u n ≠ none) :
    ∃ t, exec (.enumerationStart dt n) s = .next t ∧ t.lane n = (u.lane n).enumBegun
      (if (u.lane n).rested then (u.lane n).readyAt - graded u n 16000 else u.grid.now + 480000) := by
  refine ⟨_, (exec_enumerationStart dt n s).trans (run_arrives h _), ?_⟩
  dsimp only
  rw [if_pos ⟨hstarts, hpos, hclear, hhigh⟩]
  cases hr : (u.lane n).rested with
  | true =>
    simp only [if_true]
    rw [ite_enumDone_of_topPos, State.setLane_lane]
    · rfl
    · exact (topPos_congr rfl n).trans_ne htop
  | false =>
    obtain ⟨hcfg, -⟩ := of_setting (chainReset_setting u n u.grid.now)
    simp only [Bool.false_eq_true, if_false]
    rw [ite_enumDone_of_topPos, State.setLane_lane, chainReset_lane]
    · rfl
    · refine (topPos_congr ?_ n).trans_ne htop
      simpa only [State.setLane_kept] using hcfg

/-! ### What is sent back to back -/

/-- A lane that enumerates a position has its growth under way (R124). -/
theorem startGrowth_enumerating {s : State} {n p : Nat} (h : (s.lane n).enumPos = some p) : startGrowth s n = s := by
  simp [startGrowth, h]

/-- A command of an enumeration back to back has its effect in the state that it is sent in (R131). -/
theorem inSlot_enumerates {u : State} {n : Nat} {c : CmdFrame} {w : FrameWire} (h : EnumRuns u n c w)
    (f : State → BitVec 48 → Int → State) :
    inSlot u n 2 c w f =
      u.under (slotSnap u n).2 fun _ => f (enumTaken u n c w) (slotSnap u n).1 (slotSnap u n).2 := by
  obtain ⟨hback, hready, hpause, hspan⟩ := h
  unfold inSlot
  refine under_congr (if_pos ⟨rfl, hback, hready, ?_⟩)
  exact Bool.and_eq_true_iff.2 ⟨Option.isNone_iff_eq_none.2 hpause, (Bool.not_eq_true' _).mpr hspan⟩

/-! ### What each frame does -/

/-- A lane that leaves its wave keeps what its enumeration found (R457). -/
@[simp] theorem leaveWave_found (s : State) (n : Nat) :
    ((leaveWave s n).lane n).enumN = (s.lane n).enumN ∧ ((leaveWave s n).lane n).chainEnd = (s.lane n).chainEnd := by
  unfold leaveWave
  dsimp only
  (repeat' split) <;> simp

/-- What the frame of an ENUM does (R121, R122). -/
def enumSent (n p : Nat) (w : FrameWire) (r : State × Option Decoded × Bool) : State :=
  enumAnswer (takePos r.1 n p w.missed r.2.1) n p r.2.1

/-- What the frame of a CLOSE_PASS does: an endpoint that answers DONE closes its pass switch (R115, R121). -/
def closeSent (n p : Nat) (w : FrameWire) (r : State × Option Decoded × Bool) : State :=
  closeAnswer (if p = gradeTop r.1 n ∨ status r.2.1 ≠ some 0 then r.1
    else chainSettle (atAwake r.1 n p w.missed (fun e => { e with pass := true })) n r.1.grid.now) n p r.2.1

/-- What the frame of an OPEN_PASS does (R115, R124). -/
def openSent (n p : Nat) (w : FrameWire) (r : State × Option Decoded × Bool) : State :=
  let s := if status r.2.1 = some 0 then openPass r.1 n p w.missed else r.1
  if r.2.2 then openedAt s n p else s

section

variable {n p : Nat} (w : FrameWire) {r : State × Option Decoded × Bool}

/-- An ENUM whose echo matches goes on to IDENT, and its endpoint is a sprout (R121, R122, R203). -/
theorem enumSent_matched {x : Decoded} (hx : r.2.1 = some x) (hfin : x.fin = .accepted) (hp : symsNat x.syms = p) :
    ((enumSent n p w r).lane n).enumStep = 1 ∧ ((enumSent n p w r).lane n).enumTry = 0 ∧
      ((enumSent n p w r).ep (epIdx n p)).sprout = true ∧ ((enumSent n p w r).ep (epIdx n p)).asleep = false := by
  simp [enumSent, hx, enumAnswer, hfin, hp, becomeSprout_ep, EpState.sprouted]

/-- An empty tempo pip ends the chain (R121, R458). -/
theorem enumSent_empty {x : Decoded} (hx : r.2.1 = some x) (hfin : x.fin = .empty) :
    ((enumSent n p w r).lane n).enumN = p ∧ ((enumSent n p w r).lane n).chainEnd = true ∧
      ((enumSent n p w r).lane n).enumPos = none := by
  simp [enumSent, hx, enumAnswer, hfin, enumDone]

/-- A CLOSE_PASS answered DONE goes on to the next position (R121). -/
theorem closeSent_advances (h : status r.2.1 = some 0) :
    ((closeSent n p w r).lane n).enumPos = some (p + 1) ∧ ((closeSent n p w r).lane n).enumStep = 0 ∧
      p + 1 ≤ ((closeSent n p w r).lane n).enumN := by
  simp [closeSent, closeAnswer, h]

end

/-- An OPEN_PASS that was sent forgets the positions above its own (R124, R187). -/
theorem openSent_forgets {n p : Nat} (w : FrameWire) {r : State × Option Decoded × Bool} (h : r.2.2 = true) :
    ((openSent n p w r).lane n).openOwed = none ∧ ((openSent n p w r).lane n).enumN ≤ p + 1 ∧
      ((openSent n p w r).lane n).opened = some (p, (openSent n p w r).grid.now) ∧
      ((openSent n p w r).lane n).enumPos = none ∧ ((openSent n p w r).lane n).failPos.toNat ≤ p := by
  unfold openSent
  dsimp only
  rw [if_pos h]
  generalize (if status r.2.1 = some 0 then openPass r.1 n p w.missed else r.1) = s
  simp only [openedAt, State.onLane_eq, State.setLane_lane, State.setLane_kept]
  refine ⟨trivial, Nat.min_le_right _ _, trivial, trivial, ?_⟩
  split
  · assumption
  · exact Nat.zero_le p

/-! ### Commands -/

section

variable {s u : State} {dt : Nat} {n : Lane} {w : FrameWire} (h : Arrives s dt u)
include h

theorem enum_sends {p : Nat} {c : CmdFrame} (hc : c = enumFrame p) (hruns : EnumRuns u n c w)
    (hpos : (u.lane n).enumPos = some p) (hstep : (u.lane n).enumStep = 0)
    (hwait : enumWaited (u.lane n) (u.grid.now - cmdSteps u n c w) = true) (htop : withinTop u n p = true) :
    exec (.enum dt n w) s = .next (u.under (slotSnap u n).2 fun _ => enumSent n p w
      (accessFrame (enumTaken u n c w) n (slotSnap u n).1 (slotSnap u n).2 c 0 w)) := by
  subst hc
  rw [exec_enum, execEnum, run_arrives h]
  simp only [startGrowth_enumerating hpos, LaneState.enumerating, hpos, hstep]
  rw [if_pos ⟨hwait, htop⟩, inSlot_enumerates hruns]
  simp only [enumSent]

theorem closePass_sends {p : Nat} {c : CmdFrame} (hc : c = closeFrame p) (hruns : EnumRuns u n c w)
    (hpos : (u.lane n).enumPos = some p) (hstep : (u.lane n).enumStep = 2) (hcold : (u.lane n).coldWait = false)
    (htop : withinTop u n (p + 1) = true) :
    exec (.closePass dt n w) s = .next (u.under (slotSnap u n).2 fun _ => closeSent n p w
      (accessFrame (enumTaken u n c w) n (slotSnap u n).1 (slotSnap u n).2 c 0 w)) := by
  subst hc
  rw [exec_closePass, execClosePass, run_arrives h]
  simp only [startGrowth_enumerating hpos, LaneState.enumerating, hpos, hstep]
  rw [if_neg (by simp [hcold, htop]), inSlot_enumerates hruns]
  simp only [closeSent]

theorem openPass_sends {p : Pos} {c : CmdFrame} (hc : c = openFrame p) (hdue : openDue (slotMeets u n) n = some p.val)
    (hruns : SlotRuns u n 0 c w) :
    exec (.openPass dt n p w) s = .next (u.under (slotSnap u n).2 fun _ => openSent n p w
      (accessFrame (slotTaken u n c w) n (slotSnap u n).1 (slotSnap u n).2 c 0 w)) := by
  subst hc
  rw [exec_openPass, execOpenPass, run_arrives h]
  dsimp only
  rw [if_pos (show openDue (u.seenAt (slotSnap u n).2) n = some p.val from hdue), inSlot_runs hruns]
  simp only [openSent]

end

/-- Settles O13, step by step. -/
theorem enumerationAdvances : Obligations.EnumerationAdvances := by
  unfold Obligations.EnumerationAdvances
  refine ⟨fun s u dt n h hmode hclk hl hpos hclear hhigh htop => ?_,
    fun s u dt n w p c d h hc hruns hpos hstep hwait htop hd => ?_,
    fun s u dt n w p c h hc hruns hpos hstep hcold htop => ?_,
    fun s u dt n p w c h hc hdue hruns hsent => ?_, fun s u dt n h hl hfail hpos htop hopen hwait => ?_,
    fun s n hl hend hpos htop hopen hwait => ?_⟩
  · have hstarts : enumStarts u n = true := by
      rcases hl with hl | ⟨hl, howed⟩
      · simp [enumStarts, backToBack, hmode, hclk, hl]
      · simp [enumStarts, hmode, hclk, hl, howed]
    obtain ⟨t, ht, hlane⟩ := enumerationStart_begins h hstarts hpos hclear hhigh htop
    refine ⟨t, ht, ?_⟩
    rw [hlane]
    exact ⟨rfl, rfl, rfl, rfl, rfl, rfl⟩
  · refine ⟨_, enum_sends h hc hruns hpos hstep hwait htop, fun x hx hfin hp => ?_, fun x hx hfin => ?_⟩
    · rw [under_lane, under_ep]
      exact enumSent_matched w (hd.symm.trans hx) hfin hp
    · rw [under_lane]
      exact enumSent_empty w (hd.symm.trans hx) hfin
  · refine ⟨_, closePass_sends h hc hruns hpos hstep hcold htop, fun hdone => ?_⟩
    rw [under_lane]
    exact closeSent_advances w hdone
  · refine ⟨_, openPass_sends h hc hdue hruns, ?_⟩
    rw [under_lane, under_grid_eq]
    exact openSent_forgets w hsent
  · refine ⟨_, (exec_enumRetry dt n s).trans (run_arrives h _), ?_⟩
    simp [hl, hfail, hpos, htop, hopen, hwait]
  · refine ⟨_, exec_enumRepoll n s, ?_⟩
    simp [hl, hend, hpos, htop, hopen, hwait]

end Sys2Proof.Machine
end

section
/-!
SUPPORT. What a frame on a SENT, PSI5 or LIN lane leaves of its lane and its endpoints beside its reception (R137, R189,
R220): the loops, the monitors and the trace keep when the lane last heard an edge, its requests and its mode, and the
frames that its endpoints have counted.
-/

namespace Sys2Proof.Machine

/-! ### A lane beside its frames -/

/-- A lane without what a frame on a standard bus writes beside its reception: what any frame writes, the trigger or
cycle, the packets, the bytes sent, and the slots that are over. -/
def LaneState.offBus (l : LaneState) : LaneState :=
  { l.unframed with
    trig := none, lastTag := none, staged := [], gapUntilFrame := false, stuck := false, linTx := none
    linServed := [] }

/-- The lanes without what frames on standard buses write beside their reception. -/
def State.offBus (s : State) : Nat → LaneState := fun k => (s.lane k).offBus

theorem offBus_of_unframed {s t : State} (h : t.unframed = s.unframed) : t.offBus = s.offBus := by
  funext k
  have hk : (t.lane k).unframed = (s.lane k).unframed := congrFun h k
  simp only [State.offBus, LaneState.offBus, hk]

theorem setLane_offBus {s : State} {n : Nat} {x : LaneState} (h : x.offBus = (s.lane n).offBus) :
    (s.setLane n x).offBus = s.offBus := by
  funext k
  unfold State.offBus
  by_cases hk : k = n
  · subst hk
    simpa using h
  · rw [State.setLane_lane_other _ _ hk]

theorem onLane_offBus {s : State} {n : Nat} {f : LaneState → LaneState} (h : ∀ l, (f l).offBus = l.offBus) :
    (s.onLane n f).offBus = s.offBus := setLane_offBus (h _)

/-- A part of a lane that the view keeps. -/
theorem lane_of_offBus {γ : Type} (f : LaneState → γ) (hf : ∀ l, f l.offBus = f l) {s t : State}
    (h : t.offBus = s.offBus) (k : Nat) : f (t.lane k) = f (s.lane k) :=
  (hf _).symm.trans ((congrArg f (congrFun h k : (t.lane k).offBus = (s.lane k).offBus)).trans (hf _))

/-- A part of a lane that no frame writes. -/
theorem lane_of_unframed {γ : Type} (f : LaneState → γ) (hf : ∀ l, f l.unframed = f l) {s t : State}
    (h : t.unframed = s.unframed) (k : Nat) : f (t.lane k) = f (s.lane k) :=
  (hf _).symm.trans ((congrArg f (congrFun h k : (t.lane k).unframed = (s.lane k).unframed)).trans (hf _))

@[simp] theorem onEp_offBus (s : State) (i : Nat) (f : EpState → EpState) : (s.onEp i f).offBus = s.offBus := rfl

/-! ### The frames that endpoints count -/

/-- Each endpoint's accepted frames, and those of its clean run (R139, R204). -/
def State.tally (s : State) : Nat → Nat × Nat := fun i => ((s.ep i).accepted, (s.ep i).clean)

theorem tally_congr {s t : State} (h : t.eps = s.eps) : t.tally = s.tally := by
  unfold State.tally State.ep
  rw [h]

theorem setEp_tally {s : State} {i : Nat} {x : EpState} (ha : x.accepted = (s.ep i).accepted)
    (hc : x.clean = (s.ep i).clean) : (s.setEp i x).tally = s.tally := by
  funext k
  unfold State.tally
  by_cases hk : k = i
  · subst hk
    simp [ha, hc]
  · rw [State.setEp_ep_other _ _ hk]

theorem onEp_tally {s : State} {i : Nat} {f : EpState → EpState}
    (h : ∀ e, (f e).accepted = e.accepted ∧ (f e).clean = e.clean) : (s.onEp i f).tally = s.tally :=
  setEp_tally (h _).1 (h _).2

/-- The parts of equal views. -/
theorem of_tally {s t : State} (h : t.tally = s.tally) (i : Nat) :
    (t.ep i).accepted = (s.ep i).accepted ∧ (t.ep i).clean = (s.ep i).clean := by
  simpa only [State.tally, Prod.mk.injEq] using congrFun h i

@[simp] theorem setLane_tally (s : State) (n : Nat) (x : LaneState) : (s.setLane n x).tally = s.tally := rfl
@[simp] theorem onLane_tally (s : State) (n : Nat) (f : LaneState → LaneState) : (s.onLane n f).tally = s.tally := rfl
@[simp] theorem onHoard_tally (s : State) (f : HoardState → HoardState) : (s.onHoard f).tally = s.tally := rfl
@[simp] theorem raise_tally (s : State) (src origin : Nat) (data : Word) :
    (raise s src origin data).tally = s.tally := tally_congr (by simp)

/-- Each endpoint has accepted as many frames as before, and a clean run that had not begun still has not. -/
def CountsKept (s t : State) : Prop :=
  ∀ i, (t.ep i).accepted = (s.ep i).accepted ∧ ((s.ep i).clean = 0 → (t.ep i).clean = 0)

theorem CountsKept.of_tally {s t : State} (h : t.tally = s.tally) : CountsKept s t := fun i => by
  obtain ⟨ha, hc⟩ := Machine.of_tally h i
  exact ⟨ha, fun h0 => hc.trans h0⟩

theorem CountsKept.refl (s : State) : CountsKept s s := .of_tally rfl

theorem CountsKept.trans {s t u : State} (h : CountsKept s t) (h' : CountsKept t u) : CountsKept s u := fun i =>
  ⟨(h' i).1.trans (h i).1, fun h0 => (h' i).2 ((h i).2 h0)⟩

theorem CountsKept.foldl {α : Type} {f : State → α → State} (h : ∀ s a, CountsKept s (f s a)) (l : List α) (s : State) :
    CountsKept s (l.foldl f s) := by
  induction l generalizing s with
  | nil => exact .refl s
  | cons a l ih => exact (h s a).trans (ih _)

/-- A sprout has no clean frames and keeps its count of accepted ones (R203). -/
theorem becomeSprout_countsKept (s : State) (i : Nat) : CountsKept s (becomeSprout s i) := fun k => by
  rw [becomeSprout_ep]
  split
  · next hk =>
    subst hk
    exact ⟨rfl, fun _ => rfl⟩
  · exact ⟨rfl, id⟩

theorem enterSprouts_countsKept (s : State) (n : Nat) (start : Option Int) : CountsKept s (enterSprouts s n start) :=
  CountsKept.foldl (fun s p => by
    dsimp only
    split
    · exact iteInduction (fun _ => becomeSprout_countsKept s _) fun _ => .refl s
    · exact .refl s) _ s

theorem swapSuspect_countsKept (s : State) (i : Nat) (why : Hold) : CountsKept s (swapSuspect s i why) := by
  refine (becomeSprout_countsKept s i).trans (.of_tally ?_)
  rw [swapSuspect, raise_tally]
  exact onEp_tally fun _ => ⟨rfl, rfl⟩

/-! ### The trace and the monitors -/

@[simp] theorem hoardBlock_tally (s : State) (typ lane : Nat) (body : Bytes) :
    (hoardBlock s typ lane body).tally = s.tally :=
  tally_congr (by rw [eq_of_offHoard (hoardBlock_offHoard s typ lane body)])
@[simp] theorem happen_tally (s : State) (n : Nat) (tick : BitVec 48) (kind pos : Nat) (arg : Bytes) :
    (happen s n tick kind pos arg).tally = s.tally :=
  tally_congr (by rw [eq_of_offHoard (happen_offHoard s n tick kind pos arg)])
@[simp] theorem keepRaw_tally (s : State) (n : Nat) (at_ : Int) (fines : List Int) (lev : Int × Int) :
    (keepRaw s n at_ fines lev).tally = s.tally := by
  unfold keepRaw amendRaw
  dsimp only
  (repeat' split) <;> simp only [onHoard_tally, onLane_tally]

section

variable (s : State) (n : Nat) (num : BitVec 48) (at_ : Int) (edges all : List Int) (a b : Int)

@[simp] theorem traceEdges_tally : (traceEdges s n num at_ edges all a b).tally = s.tally := by
  unfold traceEdges
  dsimp only
  split <;> simp only [hoardBlock_tally, keepRaw_tally]
@[simp] theorem traceEdges_unframed : (traceEdges s n num at_ edges all a b).unframed = s.unframed := by
  unfold traceEdges
  dsimp only
  split <;> simp only [hoardBlock_unframed, keepRaw_unframed]
@[simp] theorem traceEdges_setting : (traceEdges s n num at_ edges all a b).setting = s.setting := by
  unfold traceEdges
  dsimp only
  split <;> simp only [hoardBlock_setting, keepRaw_setting]

end

@[simp] theorem devSample_unframed (s : State) (n : Nat) (d : Int) : (devSample s n d).unframed = s.unframed :=
  onLane_unframed fun _ => rfl
@[simp] theorem frameCount_unframed (s : State) (n : Nat) (ok : Bool) : (frameCount s n ok).unframed = s.unframed :=
  onLane_unframed fun _ => rfl
@[simp] theorem levelSample_unframed (s : State) (n hi lo : Nat) : (levelSample s n hi lo).unframed = s.unframed :=
  onLane_unframed fun _ => rfl
@[simp] theorem cleanStep_unframed (s : State) (i : Nat) (ok clean : Bool) :
    (cleanStep s i ok clean).unframed = s.unframed := rfl

/-! ### The frame boundary -/

@[simp] theorem loadEps_tally (s : State) (n : Nat) (loops : Word) (l : List (Nat × Word)) :
    (loadEps s n loops l).tally = s.tally := by
  unfold loadEps
  split
  · refine keep_foldl State.tally fun s p => ?_
    dsimp only
    split
    · exact onEp_tally fun _ => ⟨rfl, rfl⟩
    · rfl
  · rfl

@[simp] theorem applyLoad_tally (s : State) (n : Nat) (before : LaneCal) :
    (applyLoad s n before).tally = s.tally := by
  unfold applyLoad
  dsimp only
  split
  · rfl
  · rw [loadEps_tally, onLane_tally]

@[simp] theorem stepLane_tally (s : State) (n : Nat) : (stepLane s n).tally = s.tally :=
  keep_foldl State.tally fun _ _ => onEp_tally fun _ => ⟨rfl, rfl⟩

@[simp] theorem sproutExit_tally (s : State) (i : Nat) : (sproutExit s i).tally = s.tally := by
  unfold sproutExit
  split
  · exact onEp_tally fun _ => ⟨rfl, rfl⟩
  · rfl

@[simp] theorem lineCounts_tally (s : State) (n : Nat) : (lineCounts s n).tally = s.tally := by
  unfold lineCounts
  dsimp only
  split
  · rw [happenLine, happenNow, happen_tally, setLane_tally]
  · rfl

@[simp] theorem busBoundary_unframed (s : State) (n : Nat) (before : LaneCal) (step : Bool) :
    (busBoundary s n before step).unframed = s.unframed := by
  unfold busBoundary
  dsimp only
  rw [enterSprouts_unframed, keep_foldl State.unframed fun _ _ => sproutExit_unframed _ _,
    apply_ite State.unframed, stepLane_unframed, ite_self]
  exact Eq.trans (onLane_unframed fun _ => rfl) (applyLoad_unframed _ _ _)

theorem busBoundary_countsKept (s : State) (n : Nat) (before : LaneCal) (step : Bool) :
    CountsKept s (busBoundary s n before step) := by
  refine CountsKept.trans (.of_tally ?_) (enterSprouts_countsKept _ n none)
  rw [keep_foldl State.tally fun _ _ => sproutExit_tally _ _, apply_ite State.tally, stepLane_tally, ite_self,
    onLane_tally, applyLoad_tally]

/-! ### Packets -/

/-- Lanes and endpoints, but for the packets that wait for the next bank. -/
def State.unpacked (s : State) : (Nat → LaneState) × Tbl EpState := (fun k => { s.lane k with staged := [] }, s.eps)

@[simp] theorem setRegion_unpacked (s : State) (g : Nat) (x : RegionState) :
    (s.setRegion g x).unpacked = s.unpacked := rfl
@[simp] theorem overflow_unpacked (s : State) (g data : Nat) : (overflow s g data).unpacked = s.unpacked := by
  have h : (overflow s g data).evRest = s.evRest := overflow_evRest s g data
  have hlanes : (overflow s g data).lanes = s.lanes := (congrArg State.lanes h :)
  have heps : (overflow s g data).eps = s.eps := (congrArg State.eps h :)
  simp only [State.unpacked, State.lane, hlanes, heps]

@[simp] theorem stagePacket_unpacked (s : State) (p : Packet) : (stagePacket s p).unpacked = s.unpacked := by
  unfold stagePacket
  dsimp only
  split
  · refine Prod.ext (funext fun k => ?_) rfl
    by_cases hk : k = p.lane
    · subst hk
      simp [State.unpacked]
    · simp only [State.unpacked, State.setLane_lane_other _ _ hk]
  · exact overflow_unpacked _ _ _

/-- The collector takes a packet into a bank or a lane's staging buffer (R223). -/
@[simp] theorem collect_unpacked (s : State) (p : Packet) : (collect s p).unpacked = s.unpacked := by
  unfold collect writeLate writeOnTime
  dsimp only
  (repeat' split) <;> simp only [stagePacket_unpacked, overflow_unpacked, State.onRegion_eq, setRegion_unpacked]

theorem offBus_of_unpacked {s t : State} (h : t.unpacked = s.unpacked) : t.offBus = s.offBus :=
  funext fun k => (congrArg LaneState.offBus (congrFun (congrArg Prod.fst h) k) :)

section

variable (s : State) (n : Nat) (num : BitVec 48) (at_ : Int) (ran : Bool) (base : Int) (es : List Entry)
  (slot : Option Nat)

/-- A packet that is handed over is its lane's last one (R220). -/
theorem handOver_unpacked : (handOver s n num at_ ran base es slot).unpacked =
    (s.onLane n fun l => { l with lastTag := some num }).unpacked := collect_unpacked _ _

theorem handOver_lastTag : ((handOver s n num at_ ran base es slot).lane n).lastTag = some num := by
  have h := congrArg LaneState.lastTag (congrFun (congrArg Prod.fst (handOver_unpacked s n num at_ ran base es slot)) n)
  simpa [State.unpacked] using h

@[simp] theorem handOver_offBus : (handOver s n num at_ ran base es slot).offBus = s.offBus :=
  (offBus_of_unpacked (handOver_unpacked s n num at_ ran base es slot)).trans (onLane_offBus fun _ => rfl)

@[simp] theorem handOver_tally : (handOver s n num at_ ran base es slot).tally = s.tally :=
  tally_congr (congrArg Prod.snd (handOver_unpacked s n num at_ ran base es slot))

end

/-! ### What is heard and what counts -/

/-- Lane `n` has heard an edge at the time of `s`, and is to leave its mode when it was to (R135, R148). -/
structure Hears (n : Nat) (s t : State) : Prop where
  lastEdge : (t.lane n).lastEdge = s.grid.now
  silent : (t.lane n).silent = false
  leaveAt : (t.lane n).leaveAt = (s.lane n).leaveAt

/-- What comes before an edge is heard and leaves the lanes alone beside their frames does not matter. -/
theorem Hears.after {n : Nat} {s t u : State} (hlane : t.offBus = s.offBus) (hset : t.setting = s.setting)
    (h : Hears n t u) : Hears n s u where
  lastEdge := by rw [h.lastEdge, (of_setting hset).2.1]
  silent := h.silent
  leaveAt := h.leaveAt.trans (lane_of_offBus LaneState.leaveAt (fun _ => rfl) hlane n)

/-- What comes after an edge is heard and leaves the lanes alone beside their frames does not matter. -/
theorem Hears.before {n : Nat} {s t u : State} (h : Hears n s t) (hlane : u.offBus = t.offBus) : Hears n s u where
  lastEdge := (lane_of_offBus LaneState.lastEdge (fun _ => rfl) hlane n).trans h.lastEdge
  silent := (lane_of_offBus LaneState.silent (fun _ => rfl) hlane n).trans h.silent
  leaveAt := (lane_of_offBus LaneState.leaveAt (fun _ => rfl) hlane n).trans h.leaveAt

theorem hears_onLane {n : Nat} {s : State} {f : LaneState → LaneState}
    (h : ∀ l, (f l).lastEdge = s.grid.now ∧ (f l).silent = false ∧ (f l).leaveAt = l.leaveAt) :
    Hears n s (s.onLane n f) := by
  obtain ⟨hedge, hsilent, hleave⟩ := h (s.lane n)
  constructor <;> simpa

/-- Endpoint `i` has counted one more frame, or has not and begins its clean run again (R139, R204). -/
def Counts (i : Nat) (ok : Bool) (s t : State) : Prop :=
  ((t.ep i).accepted = if ok then ((s.ep i).accepted + 1) % 16 else (s.ep i).accepted) ∧
    (ok = false → (t.ep i).clean = 0)

theorem Counts.after {i : Nat} {ok : Bool} {s t u : State} (hc : CountsKept s t) (h : Counts i ok t u) :
    Counts i ok s u := by
  obtain ⟨ha, hclean⟩ := h
  obtain ⟨hst, -⟩ := hc i
  exact ⟨by rw [ha, hst], hclean⟩

theorem Counts.before {i : Nat} {ok : Bool} {s t u : State} (h : Counts i ok s t) (hc : CountsKept t u) :
    Counts i ok s u := by
  obtain ⟨ha, hclean⟩ := h
  obtain ⟨htu, hrun⟩ := hc i
  exact ⟨htu.trans ha, fun hok => hrun (hclean hok)⟩

/-- A frame counts at its endpoint (R139, R204). -/
theorem cleanStep_counts (s : State) (i : Nat) (ok clean : Bool) :
    Counts i ok s (cleanStep s i ok (ok && clean)) := by
  refine ⟨?_, fun hok => ?_⟩
  · simp [cleanStep]
  · simp [cleanStep, hok]

/-- A lane that is not to leave its mode stays in it at a frame's end (R135). -/
theorem leaveNow_of_none {s : State} {n : Nat} (h : (s.lane n).leaveAt = none) : leaveNow s n = s := by
  simp [leaveNow, h]

theorem leaveFlight_of_none {s : State} {n : Nat} (h : (s.lane n).leaveAt = none) : leaveFlight s n = s := by
  simp [leaveFlight, h]

end Sys2Proof.Machine
end

section
/-!
SUPPORT. SENT and PSI5 (R142, R143, R148, R151, R153, R154): triggers and sync pulses, what a received frame counts, and
lines that are stuck or silent.
-/

namespace Sys2Proof.Machine

theorem exec_spcTrigger (dt : Nat) (n : Lane) (stamp : Int) (s : State) :
    exec (.spcTrigger dt n stamp) s = execSpcTrigger dt n stamp s := rfl
theorem exec_sentFrame (dt : Nat) (n : Lane) (w : SentWire) (s : State) :
    exec (.sentFrame dt n w) s = execSentFrame dt n w s := rfl
theorem exec_sentStuck (dt : Nat) (n : Lane) (s : State) : exec (.sentStuck dt n) s = execSentStuck dt n s := rfl
theorem exec_sentSilent (dt : Nat) (n : Lane) (s : State) : exec (.sentSilent dt n) s = execSentSilent dt n s := rfl
theorem exec_syncPulse (dt : Nat) (n : Lane) (stamp : Int) (s : State) :
    exec (.syncPulse dt n stamp) s = execSyncPulse dt n stamp s := rfl
theorem exec_psi5Frame (dt : Nat) (n : Lane) (k : Fin 4) (w : Psi5Wire) (s : State) :
    exec (.psi5Frame dt n k w) s = execPsi5Frame dt n k w s := rfl
theorem exec_psi5Silent (dt : Nat) (n : Lane) (s : State) : exec (.psi5Silent dt n) s = execPsi5Silent dt n s := rfl

/-! ### Counts and loops -/

@[simp] theorem cleanStep_setting (s : State) (i : Nat) (ok clean : Bool) :
    (cleanStep s i ok clean).setting = s.setting := rfl

@[simp] theorem frameCount_setting (s : State) (n : Nat) (ok : Bool) : (frameCount s n ok).setting = s.setting := rfl
@[simp] theorem frameCount_tally (s : State) (n : Nat) (ok : Bool) : (frameCount s n ok).tally = s.tally := rfl

@[simp] theorem devSample_tally (s : State) (n : Nat) (d : Int) : (devSample s n d).tally = s.tally := rfl

@[simp] theorem nibbleDevs_unframed (s : State) (n : Nat) (lcal : Int) (ivs : List Int) :
    (nibbleDevs s n lcal ivs).unframed = s.unframed := keep_foldl State.unframed fun _ _ => devSample_unframed _ _ _
@[simp] theorem nibbleDevs_setting (s : State) (n : Nat) (lcal : Int) (ivs : List Int) :
    (nibbleDevs s n lcal ivs).setting = s.setting := keep_foldl State.setting fun _ _ => onLane_setting _ _ _
@[simp] theorem nibbleDevs_tally (s : State) (n : Nat) (lcal : Int) (ivs : List Int) :
    (nibbleDevs s n lcal ivs).tally = s.tally := keep_foldl State.tally fun _ _ => onLane_tally _ _ _

@[simp] theorem swapSuspect_unframed (s : State) (i : Nat) (why : Hold) :
    (swapSuspect s i why).unframed = s.unframed := by
  rw [swapSuspect, raise_unframed, onEp_unframed, becomeSprout_unframed]

/-- What a jump does to its endpoint leaves lanes, words and counts alone (R207). -/
theorem jumpTest_keeps (jump : Bool) (s : State) (i : Nat) :
    let t := if jump = true then swapSuspect s i .jump else s
    t.unframed = s.unframed ∧ t.setting = s.setting ∧ CountsKept s t := by
  cases jump with
  | false => exact ⟨rfl, rfl, .refl s⟩
  | true => exact ⟨swapSuspect_unframed s i .jump, swapSuspect_setting s i .jump, swapSuspect_countsKept s i .jump⟩

/-- The calibration pulse writes the lane's loops, after the jump test (R200, R207). -/
theorem sentPulse_keeps (s : State) (n : Nat) (lcal : Int) :
    (sentPulse s n lcal).1.unframed = s.unframed ∧ (sentPulse s n lcal).1.setting = s.setting ∧
      CountsKept s (sentPulse s n lcal).1 := by
  unfold sentPulse
  extract_lets c jump x
  obtain ⟨hframe, hset, hcount⟩ : x.unframed = s.unframed ∧ x.setting = s.setting ∧ CountsKept s x :=
    jumpTest_keeps jump s (epIdx n 0)
  exact ⟨Eq.trans (onLane_unframed fun _ => rfl) hframe, (onLane_setting _ _ _).trans hset,
    hcount.trans (.of_tally (onLane_tally _ _ _))⟩

/-! ### A SENT frame -/

@[simp] theorem storeMessage_offBus (s : State) (i : Nat) (m : Word) : (storeMessage s i m).offBus = s.offBus :=
  (offBus_of_unframed (raise_unframed _ _ _ _)).trans rfl

@[simp] theorem serialStep_offBus (s : State) (n st : Nat) : (serialStep s n st).1.offBus = s.offBus := by
  unfold serialStep
  dsimp only
  split
  · rfl
  split
  · exact (storeMessage_offBus _ _ _).trans rfl
  · rfl

@[simp] theorem storeMessage_tally (s : State) (i : Nat) (m : Word) : (storeMessage s i m).tally = s.tally :=
  (raise_tally _ _ _ _).trans (onEp_tally fun _ => ⟨rfl, rfl⟩)

@[simp] theorem serialStep_tally (s : State) (n st : Nat) : (serialStep s n st).1.tally = s.tally := by
  unfold serialStep
  dsimp only
  split
  · rfl
  split
  · exact (storeMessage_tally _ _ _).trans (onEp_tally fun _ => ⟨rfl, rfl⟩)
  · exact onEp_tally fun _ => ⟨rfl, rfl⟩

@[simp] theorem unstick_offBus (s : State) (n : Nat) : (unstick s n).offBus = s.offBus := by
  unfold unstick
  dsimp only
  split
  · rw [happenLine, happenNow, offBus_of_unframed (happen_unframed _ _ _ _ _ _)]
    exact setLane_offBus rfl
  · rfl

@[simp] theorem unstick_tally (s : State) (n : Nat) : (unstick s n).tally = s.tally := by
  unfold unstick
  dsimp only
  split
  · rw [happenLine, happenNow, happen_tally, setLane_tally]
  · rfl

/-- A frame is accepted when its pulses decode (R143). -/
theorem sentAccepts_eq (s : State) (n : Nat) (w : SentWire) :
    sentAccepts s n w = (if calPulseOk s n ((gaps (sentFalls s n w)).headD 0) = true then
      sentDecode s n ((gaps (sentFalls s n w)).headD 0) (gaps (sentFalls s n w)).tail else none).isSome := by
  unfold sentAccepts
  dsimp only
  split
  · next hgood => rw [hgood, Bool.true_and]
  · next hbad => rw [Bool.eq_false_of_not_eq_true hbad, Bool.false_and, Option.isSome_none]

/-- A received frame is heard on its lane and counts at its endpoint, and an accepted one has its entry (R143). -/
theorem sentTake_counts (s : State) (n : Nat) (num : BitVec 48) (at_ : Int) (w : SentWire) :
    Hears n s (sentTake s n num at_ w).1 ∧
      Counts (epIdx n 0) (sentAccepts s n w) s (sentTake s n num at_ w).1 ∧
      (sentTake s n num at_ w).2.isEmpty = !sentAccepts s n w := by
  unfold sentTake
  extract_lets i falls ivs lcal good frame ok e v
  have hok : sentAccepts s n w = ok := sentAccepts_eq s n w
  generalize hm : (if good = true then sentPulse v n lcal else (v, false)) = m
  obtain ⟨x, jump⟩ := m
  obtain ⟨hframe, hset, hcount⟩ : x.unframed = s.unframed ∧ x.setting = s.setting ∧ CountsKept s x := by
    rw [show x = _ from (congrArg Prod.fst hm).symm]
    unfold v
    cases good with
    | false => exact ⟨rfl, rfl, .refl s⟩
    | true =>
      simp only [if_true]
      obtain ⟨hframe, hset, hcount⟩ :=
        sentPulse_keeps (nibbleDevs s n lcal (ivs.tail.take (sentNibbles s n + 2))) n lcal
      exact ⟨hframe.trans (nibbleDevs_unframed _ _ _ _), hset.trans (nibbleDevs_setting _ _ _ _),
        (CountsKept.of_tally (nibbleDevs_tally _ _ _ _)).trans hcount⟩
  dsimp -zeta -zetaHave only
  extract_lets x1 x2 x3 inst
  rw [hok]
  have hhears : Hears n s x3 :=
    Hears.after ((offBus_of_unframed (frameCount_unframed _ _ _)).trans (offBus_of_unframed hframe))
      ((frameCount_setting _ _ _).trans hset)
      ((hears_onLane fun _ => ⟨rfl, rfl, rfl⟩ : Hears n x1 x2).before (onEp_offBus _ _ _))
  have htally : x2.tally = x.tally := (onLane_tally _ _ _).trans (frameCount_tally _ _ _)
  have hcounts : Counts i ok s x3 := (cleanStep_counts x2 i ok (!jump)).after (hcount.trans (.of_tally htally))
  clear_value frame
  cases frame with
  | none => exact ⟨hhears.before (onEp_offBus _ _ _), hcounts.before (.of_tally (onEp_tally fun _ => ⟨rfl, rfl⟩)), rfl⟩
  | some ns =>
    dsimp -zeta -zetaHave only
    extract_lets y
    refine ⟨hhears.before ?_, hcounts.before (.of_tally ?_), rfl⟩
    · unfold y
      rw [onEp_offBus, serialStep_offBus, unstick_offBus]
    · exact Eq.trans (onEp_tally fun _ => ⟨rfl, rfl⟩) ((serialStep_tally _ _ _).trans (unstick_tally _ _))

@[simp] theorem sentEnd_unframed (s : State) (n : Nat) (before : LaneCal) (hi lo : Nat) :
    (sentEnd s n before hi lo).unframed = s.unframed := by
  unfold sentEnd
  dsimp only
  rw [busBoundary_unframed, levelSample_unframed, lineCounts_unframed]
  exact setLane_unframed rfl

theorem sentEnd_countsKept (s : State) (n : Nat) (before : LaneCal) (hi lo : Nat) :
    CountsKept s (sentEnd s n before hi lo) := by
  refine CountsKept.trans (.of_tally ?_) (busBoundary_countsKept _ _ _ _)
  rw [levelSample, onLane_tally, lineCounts_tally, setLane_tally]

/-- A frame on a lane that stays in its mode is heard and counts, and an accepted one hands over its packet
(R143, R220). -/
theorem sentReceive_counts {s x : State} {n : Nat} {num : BitVec 48} {at_ : Int} {w : SentWire}
    (hx : x = frameBoundary (enterSprouts s n (some (at_ + w.edges.headD 0 / 8))) n num)
    (hleave : (x.lane n).leaveAt = none) :
    Hears n x (sentReceive s n num at_ w) ∧ Counts (epIdx n 0) (sentAccepts x n w) x (sentReceive s n num at_ w) ∧
      (sentAccepts x n w = true → ((sentReceive s n num at_ w).lane n).lastTag = some num) := by
  unfold sentReceive
  extract_lets v before edges base
  have hv : v = x := hx.symm
  clear_value v
  subst hv
  obtain ⟨hhears, hcounts, hentry⟩ := sentTake_counts v n num at_ w
  generalize sentTake v n num at_ w = r at hhears hcounts hentry ⊢
  obtain ⟨y, es⟩ := r
  dsimp -zeta -zetaHave only at hhears hcounts hentry ⊢
  extract_lets y1 y2
  have hbus : y2.offBus = y.offBus := by
    unfold y2 y1
    split <;> simp only [handOver_offBus, offBus_of_unframed (traceEdges_unframed _ _ _ _ _ _ _ _)]
  have htally : y2.tally = y.tally := by
    unfold y2 y1
    split <;> simp only [handOver_tally, traceEdges_tally]
  have hend := sentEnd_unframed y2 n before w.hi w.low
  have hheard : Hears n v (sentEnd y2 n before w.hi w.low) :=
    (hhears.before hbus).before (offBus_of_unframed hend)
  rw [leaveNow_of_none (hheard.leaveAt.trans hleave)]
  refine ⟨hheard, (hcounts.before (.of_tally htally)).before (sentEnd_countsKept _ _ _ _ _), fun hok => ?_⟩
  rw [lane_of_unframed LaneState.lastTag (fun _ => rfl) hend n]
  unfold y2
  rw [if_pos (by simp [hentry, hok])]
  exact handOver_lastTag _ _ _ _ _ _ _ _

/-! ### A PSI5 frame -/

@[simp] theorem seenAt_offBus (s : State) (G : Int) : (s.seenAt G).offBus = s.offBus := rfl
@[simp] theorem under_offBus (s : State) (G : Int) (f : State → State) :
    (s.under G f).offBus = (f (s.seenAt G)).offBus := rfl
@[simp] theorem under_tally (s : State) (G : Int) (f : State → State) :
    (s.under G f).tally = (f (s.seenAt G)).tally := rfl

@[simp] theorem closeCycle_offBus (s : State) (n : Nat) : (closeCycle s n).offBus = s.offBus := by
  unfold closeCycle
  dsimp only
  split
  · split
    · rfl
    · split
      · rw [under_offBus, handOver_offBus, seenAt_offBus]
        exact onLane_offBus fun _ => rfl
      · exact onLane_offBus fun _ => rfl
  · rfl

@[simp] theorem closeCycle_tally (s : State) (n : Nat) : (closeCycle s n).tally = s.tally := by
  unfold closeCycle
  dsimp only
  split
  · split
    · rfl
    · split
      · rw [under_tally, handOver_tally]
        rfl
      · rfl
  · rfl

/-- An accepted frame's entry goes into a packet, now or at the end of its cycle (R220). -/
@[simp] theorem psi5Entry_offBus (s : State) (n : Nat) (num : BitVec 48) (at_ base : Int) (e : Entry) :
    (psi5Entry s n num at_ base e).offBus = s.offBus := by
  unfold psi5Entry
  split
  · split
    · exact onLane_offBus fun _ => rfl
    · exact handOver_offBus _ _ _ _ _ _ _ _
  · exact handOver_offBus _ _ _ _ _ _ _ _

@[simp] theorem psi5Entry_tally (s : State) (n : Nat) (num : BitVec 48) (at_ base : Int) (e : Entry) :
    (psi5Entry s n num at_ base e).tally = s.tally := by
  unfold psi5Entry
  (repeat' split) <;> simp only [handOver_tally, onLane_tally]

@[simp] theorem slotOver_offBus (s : State) (n k : Nat) (over_ : List Nat) :
    (slotOver s n k over_).offBus = s.offBus := by
  unfold slotOver
  dsimp only
  split
  · split
    · rw [closeCycle_offBus]
      exact onLane_offBus fun _ => rfl
    · exact onLane_offBus fun _ => rfl
  · rfl

@[simp] theorem slotOver_tally (s : State) (n k : Nat) (over_ : List Nat) :
    (slotOver s n k over_).tally = s.tally := by
  unfold slotOver
  dsimp only
  (repeat' split) <;> simp only [closeCycle_tally, onLane_tally]

@[simp] theorem psi5End_unframed (s : State) (n : Nat) (before : LaneCal) :
    (psi5End s n before).unframed = s.unframed := by
  unfold psi5End
  dsimp only
  rw [busBoundary_unframed, keep_foldl State.unframed fun _ _ => by split <;> rfl]
  exact setLane_unframed rfl

theorem psi5End_countsKept (s : State) (n : Nat) (before : LaneCal) : CountsKept s (psi5End s n before) := by
  refine CountsKept.trans (.of_tally ?_) (busBoundary_countsKept _ _ _ _)
  rw [keep_foldl State.tally fun s k => ?_, setLane_tally]
  dsimp only
  split
  · exact onEp_tally fun _ => ⟨rfl, rfl⟩
  · rfl

/-- An accepted frame on a lane that stays in its mode is heard and counts at its slot's endpoint (R153, R154). -/
theorem psi5Receive_counts {s x : State} {n k : Nat} {num : BitVec 48} {at_ : Int} {w : Psi5Wire}
    (hx : x = frameBoundary (enterSprouts s n (some (at_ + w.stamp / 8))) n num)
    (hleave : (x.lane n).leaveAt = none) (hacc : psi5Accepts x n k num w = true) :
    Hears n x (psi5Receive s n k num at_ w) ∧ Counts (epIdx n k) true x (psi5Receive s n k num at_ w) := by
  unfold psi5Receive
  extract_lets i base x0 x1 before sync good unwanted took ok e slot jump x2 x3 x4 x5 x6 x7 x8 x9 raw inst x10
  have hx1 : x1 = x := hx.symm
  clear_value x1
  subst hx1
  obtain ⟨htook, hdesc⟩ : took = true ∧ (descProto x1 i != 0) = true := Bool.and_eq_true_iff.1 hacc
  have hok : ok = true := Bool.and_eq_true_iff.2 ⟨htook, hdesc⟩
  have hwanted : unwanted = false := by simpa using (Bool.and_eq_true_iff.1 htook).2
  have hx4 : x4 = cleanStep x3 i ok (ok && !jump) := if_neg (by simp [hwanted])
  have hx8 : x8 = devSample x7 n (rnd (w.bitTime - slot.btRef) 16) := if_pos htook
  obtain ⟨hframe, hset, hjump⟩ : x6.unframed = x5.unframed ∧ x6.setting = x5.setting ∧ CountsKept x5 x6 :=
    jumpTest_keeps jump x5 i
  have hbus6 : x6.offBus = x1.offBus := by
    rw [offBus_of_unframed hframe, offBus_of_unframed (traceEdges_unframed _ _ _ _ _ _ _ _), hx4,
      offBus_of_unframed (cleanStep_unframed _ _ _ _)]
    exact Eq.trans (onLane_offBus fun _ => rfl) (offBus_of_unframed (frameCount_unframed _ _ _))
  have hset6 : x6.setting = x1.setting := by
    rw [hset, traceEdges_setting, hx4, cleanStep_setting, onLane_setting, frameCount_setting]
  have hcount : Counts i true x1 x6 := by
    have h3 : x3.tally = x1.tally := (onLane_tally _ _ _).trans (frameCount_tally _ _ _)
    have h4 : Counts i true x3 x4 := by
      rw [hx4, ← hok]
      exact cleanStep_counts x3 i ok (!jump)
    exact (h4.after (.of_tally h3)).before (.trans (.of_tally (traceEdges_tally _ _ _ _ _ _ _ _)) hjump)
  have hheard : Hears n x1 x8 := by
    rw [hx8]
    exact ((hears_onLane fun _ => ⟨rfl, rfl, rfl⟩ : Hears n x6 x7).after hbus6 hset6).before
      (offBus_of_unframed (devSample_unframed _ _ _))
  have hx10 : x10 = psi5Entry x9 n num at_ base (busEntry x9 n k num raw inst false (e.sprout || jump) e.stepped) :=
    if_pos hok
  have hbus10 : x10.offBus = x8.offBus := by
    rw [hx10, psi5Entry_offBus]
    exact onEp_offBus _ _ _
  have htally10 : x10.tally = x6.tally := by
    rw [hx10, psi5Entry_tally]
    refine Eq.trans (onEp_tally fun _ => ⟨rfl, rfl⟩) ?_
    rw [hx8, devSample_tally, onLane_tally]
  clear_value x10
  have hheard10 : Hears n x1 (psi5End (slotOver x10 n k (overlapped x10 n k w)) n before) :=
    ((hheard.before hbus10).before (slotOver_offBus _ _ _ _)).before (offBus_of_unframed (psi5End_unframed _ _ _))
  rw [leaveNow_of_none (hheard10.leaveAt.trans hleave)]
  refine ⟨hheard10, hcount.before (.trans (.of_tally ?_) (psi5End_countsKept _ _ _))⟩
  rw [slotOver_tally, htally10]

/-! ### Commands -/

/-- Where no time lies in an activation pause, no transition does (R507). -/
theorem inPause_of_none {s : State} (h : s.upd.pauseSpan = none) (a b : Int) : inPause s a b = false := by
  simp [inPause, h]

theorem edgeInPause_of_none {s : State} (h : s.upd.pauseSpan = none) (es : List Int) : edgeInPause s es = false := by
  simp [edgeInPause, inPause_of_none h]

/-- The state in which a bus frame is taken: lanes and endpoints stand in it as before, but for sprout entries. -/
theorem busMeets_offBus (u : State) (n : Nat) (num : BitVec 48) (g b : Int) :
    (busMeets u n num g b).offBus = u.offBus := by
  rw [busMeets, offBus_of_unframed (frameBoundary_unframed _ _ _), offBus_of_unframed (enterSprouts_unframed _ _ _),
    seenAt_offBus]

theorem busMeets_now (u : State) (n : Nat) (num : BitVec 48) (g b : Int) :
    (busMeets u n num g b).grid.now = u.grid.now := by
  have h : (busMeets u n num g b).setting = (u.seenAt g).setting := by
    rw [busMeets, frameBoundary_setting, enterSprouts_setting]
  rw [(of_setting h).2.1]
  rfl

/-- A trigger or sync pulse that is started is the lane's latest (R142, R151). -/
theorem startTrig_trig (s : State) (n : Nat) (at_ : Int) (num : BitVec 48) (inst : Int) :
    ((startTrig s n at_ num inst).lane n).trig = some { at_ := at_, num := num, inst := inst } := by
  simp [startTrig]

section

variable {s u v : State} {dt : Nat} {n : Lane} {num : BitVec 48} {g : Int}

/-- The trigger of a due period is driven, where the lane's probe is over (R142). -/
theorem spcTrigger_drives (stamp : Int) (h : Arrives s dt u) (hsnap : laneSnap u n = (num, g)) (hv : v = u.seenAt g)
    (hprobe : probeDue u n = false) (hover : probeOver v n = true) (hruns : busRuns v n .sent = true)
    (hspc : sentSpc v n = true) (hframe : frameRuns v num = true) (hdue : epDue v (epIdx n 0) num = true)
    (hproto : descProto v (epIdx n 0) ≠ 0) (htag : (u.lane n).lastTag ≠ some num) (hsent : trigSent v n num = false)
    (hwin : windowed v n g = false) :
    ∃ t, exec (.spcTrigger dt n stamp) s = .next t ∧
      (t.lane n).trig = some { at_ := g + stamp25 (u.lane n).cal.og stamp, num := num, inst := g } := by
  subst hv
  refine ⟨_, (exec_spcTrigger dt n stamp s).trans (run_arrives h _), ?_⟩
  rw [if_neg (by simp [hprobe]), hsnap]
  dsimp only
  rw [under_lane, if_pos ⟨hover, hruns, hspc, hframe, hdue, hproto, htag, by simpa using hsent, by simpa using hwin⟩,
    startTrig_trig]
  rfl

/-- The sync pulse of a due period is driven, and ends the cycle before it (R151, R152). -/
theorem syncPulse_drives (stamp : Int) (h : Arrives s dt u) (hsnap : laneSnap u n = (num, g)) (hv : v = u.seenAt g)
    (hruns : busRuns v n .psi5 = true) (hsync : psi5Sync v n = true) (hframe : frameRuns v num = true)
    (hfrom : (u.lane n).syncFrom ≤ u.grid.now)
    (hdue : psi5Every v n = true ∨ ∃ p ∈ lanePositions v n, epDue v (epIdx n p) num = true)
    (hsent : trigSent v n num = false) (hwin : windowed v n g = false) :
    ∃ t, exec (.syncPulse dt n stamp) s = .next t ∧
      (t.lane n).trig = some { at_ := g + stamp25 (u.lane n).cal.og stamp, num := num, inst := g } := by
  subst hv
  refine ⟨_, (exec_syncPulse dt n stamp s).trans (run_arrives h _), ?_⟩
  have hany : (psi5Every (u.seenAt g) n ||
      (lanePositions (u.seenAt g) n).any fun p => epDue (u.seenAt g) (epIdx n p) num) = true := by
    simpa only [Bool.or_eq_true, List.any_eq_true] using hdue
  rw [hsnap]
  dsimp only
  rw [under_lane, if_pos ⟨hruns, hsync, hframe, hfrom, hany, by simpa using hsent, by simpa using hwin⟩, startTrig_trig]
  rfl

/-- A SENT frame that its lane awaits is received (R143). -/
theorem sentFrame_receives {w : SentWire} {b : Int} (h : LineArrives s dt u) (hprobe : probing u n = false)
    (hsnap : sentSnap u n = (num, g)) (hv : v = u.seenAt g) (hb : b = g + w.edges.headD 0 / 8)
    (hruns : busRuns v n .sent = true) (hawait : awaits v n (sentSpc v n) num = true)
    (hready : ((u.lane n).readyAt : Int) ≤ b) (hpause : u.upd.pauseSpan = none) :
    exec (.sentFrame dt n w) s = .next (u.under g fun v => sentReceive v n num g w) := by
  obtain ⟨hreset, hu⟩ := h
  subst hv hb
  rw [exec_sentFrame, execSentFrame, run_arrives ⟨hreset, rfl⟩]
  dsimp only
  rw [← hu, if_neg (by simp [hprobe]), hsnap]
  exact congrArg _ (under_congr (if_pos ⟨hruns, hawait, hready, .inr (by
    rw [edgeInPause_of_none (s := u.seenAt g) hpause, Bool.not_false])⟩))

/-- A PSI5 frame in a slot of a sync cycle is received (R153). -/
theorem psi5Frame_receives {k : Fin 4} {w : Psi5Wire} (h : LineArrives s dt u) (hsnap : psi5Snap u n = (num, g))
    (hv : v = u.seenAt g) (hruns : busRuns v n .psi5 = true) (hsync : psi5Sync v n = true)
    (hawait : awaits v n true num = true) (hslot : slotEn v n k = true)
    (hready : ((u.lane n).readyAt : Int) ≤ g + w.stamp / 8) :
    exec (.psi5Frame dt n k w) s = .next (u.under g fun v => psi5Receive v n k num g w) := by
  obtain ⟨hreset, hu⟩ := h
  subst hv
  rw [exec_psi5Frame, execPsi5Frame, run_arrives ⟨hreset, rfl⟩]
  dsimp only
  rw [← hu, hsnap]
  exact congrArg _ (under_congr (if_pos
    ⟨hruns, by rw [hsync]; exact hawait, by simp [hsync, hslot], hready, .inl hsync⟩))

end

/-- A lane that is declared stuck shows it (R148, R163). -/
theorem declareStuck_shows (s : State) (n data : Nat) :
    ((declareStuck s n data).lane n).stuck = true ∧ Raised s (declareStuck s n data) 13 n (BitVec.ofNat 32 data) := by
  unfold declareStuck
  extract_lets v
  obtain ⟨hlane, -, hcycle⟩ := withFaults_shows (s := s) (n := n)
    (t := happenLine (raise v 13 n (BitVec.ofNat 32 data)) n data 1) (by simp [laneFault, happenLine, v])
  refine ⟨by rw [hlane]; simp [happenLine, v], raised_of_cycle (s := v) ?_ rfl rfl⟩
  rw [hcycle]
  simp [happenLine]

/-- Settles O18, happening by happening. -/
theorem sentAndPsi5Frames : Obligations.SentAndPsi5Frames := by
  unfold Obligations.SentAndPsi5Frames
  refine ⟨fun s u v dt n stamp num g => spcTrigger_drives stamp,
    fun s u v x dt n w num g b h hprobe hsnap hv hb hruns hawait hready hpause hleave hx => ?_,
    fun s u dt n h hmode hl hbusy hstuck => ?_, fun s u dt n h hmode hl hedge => ?_,
    fun s u v dt n stamp num g => syncPulse_drives stamp,
    fun s u v x dt n k w num g h hsnap hv hruns hsync hawait hslot hready hleave hx hacc => ?_,
    fun s u dt n h hmode hl hsync hedge => ?_⟩
  · have hmeets : x.offBus = u.offBus := hx ▸ busMeets_offBus _ _ _ _ _
    obtain ⟨hheard, ⟨haccepted, hclean⟩, htag⟩ := sentReceive_counts (s := u.seenAt g) (x := x) (by rw [hx, hb]; rfl)
      ((lane_of_offBus LaneState.leaveAt (fun _ => rfl) hmeets n).trans hleave)
    refine ⟨_, sentFrame_receives h hprobe hsnap hv hb hruns hawait hready hpause, ?_⟩
    rw [under_lane, under_ep]
    refine ⟨hheard.lastEdge.trans (hx ▸ busMeets_now _ _ _ _ _), hheard.silent, fun hok => ?_, fun hbad => ?_⟩
    · exact ⟨haccepted.trans (if_pos hok), htag hok⟩
    · exact ⟨haccepted.trans (by rw [hbad]; rfl), hclean hbad⟩
  · exact ⟨_, (exec_sentStuck dt n s).trans ((run_arrives h _).trans
      (congrArg _ (if_pos ⟨hmode, hl, by simpa using hbusy, by simpa using hstuck⟩))), declareStuck_shows u n 1⟩
  · refine ⟨_, (exec_sentSilent dt n s).trans (run_arrives h _), ?_⟩
    simp [hmode, hl, hedge]
  · have hmeets : x.offBus = u.offBus := hx ▸ busMeets_offBus _ _ _ _ _
    obtain ⟨hheard, haccepted, -⟩ := psi5Receive_counts (s := u.seenAt g) (x := x) (by rw [hx]; rfl)
      ((lane_of_offBus LaneState.leaveAt (fun _ => rfl) hmeets n).trans hleave) hacc
    refine ⟨_, psi5Frame_receives h hsnap hv hruns hsync hawait hslot hready, ?_⟩
    rw [under_lane, under_ep]
    exact ⟨hheard.lastEdge.trans (hx ▸ busMeets_now _ _ _ _ _), hheard.silent, haccepted⟩
  · refine ⟨_, (exec_psi5Silent dt n s).trans (run_arrives h _), ?_⟩
    simp [hmode, hl, hsync, hedge]

end Sys2Proof.Machine
end

section
/-!
SUPPORT. LIN (R159 to R163): frame slots and the diagnostic pair, the wake-up pulse and the start of the schedule, nodes
that wake a stopped bus, and buses that are stuck and found free.
-/

namespace Sys2Proof.Machine

theorem exec_linFrameSlot (dt : Nat) (n : Lane) (fid : BitVec 6) (w : LinWire) (s : State) :
    exec (.linFrameSlot dt n fid w) s = execLinFrameSlot dt n fid w s := rfl
theorem exec_linDiagPair (dt : Nat) (n : Lane) (w : LinWire) (s : State) :
    exec (.linDiagPair dt n w) s = execLinDiagPair dt n w s := rfl
theorem exec_linWakeUp (dt : Nat) (n : Lane) (s : State) : exec (.linWakeUp dt n) s = execLinWakeUp dt n s := rfl
theorem exec_linScheduleStart (n : Lane) (s : State) : exec (.linScheduleStart n) s = execLinScheduleStart n s := rfl
theorem exec_linWake (dt : Nat) (n : Lane) (us : Nat) (s : State) :
    exec (.linWake dt n us) s = execLinWake dt n us s := rfl
theorem exec_linStuck (dt : Nat) (n : Lane) (vbat : Bool) (s : State) :
    exec (.linStuck dt n vbat) s = execLinStuck dt n vbat s := rfl
theorem exec_linStuckClear (dt : Nat) (n : Lane) (s : State) :
    exec (.linStuckClear dt n) s = execLinStuckClear dt n s := rfl

/-! ### A frame slot -/

theorem seenAt_lane (s : State) (G : Int) (k : Nat) : (s.seenAt G).lane k = s.lane k := rfl
theorem seenAt_now (s : State) (G : Int) : (s.seenAt G).grid.now = s.grid.now := rfl

@[simp] theorem tellOuts_unframed (s : State) (n fid : Nat) (num : BitVec 48) :
    (tellOuts s n fid num).unframed = s.unframed :=
  keep_foldl State.unframed fun s p => by
    dsimp only
    split
    · rw [onEp_unframed, happen_unframed]
    · rfl

@[simp] theorem linEnd_unframed (s : State) (n : Nat) (before : LaneCal) :
    (linEnd s n before).unframed = s.unframed := by
  unfold linEnd
  dsimp only
  rw [busBoundary_unframed]
  exact onLane_unframed fun _ => rfl

/-- The breaks in a row that a lane read back as recessive (R163). -/
theorem countBreaks_lane (s : State) (n k : Nat) (recessive : Bool) :
    (countBreaks s n k recessive).lane n =
      { s.lane n with linBreaks := if recessive then min 3 ((s.lane n).linBreaks + k) else 0 } := by
  simp [countBreaks]

/-- A frame slot hands over its packet and counts its break (R160, R163). -/
theorem linReceive_lane (s : State) (n fid : Nat) (num : BitVec 48) (at_ : Int) (w : LinWire) :
    ((linReceive s n fid num at_ w).lane n).lastTag = some num ∧
      ((linReceive s n fid num at_ w).lane n).linBreaks =
        (if w.breakRecessive then min 3 ((s.lane n).linBreaks + 1) else 0) ∧
      ((linReceive s n fid num at_ w).lane n).leaveAt = (s.lane n).leaveAt := by
  unfold linReceive
  extract_lets p0 len publish x0 x1 before x2 bytes sound ok x3 x4 x5 brk ps
  have h4 : x4.offBus = s.offBus := by
    have h1 : x1.unframed = s.unframed := (frameBoundary_unframed _ _ _).trans (enterSprouts_unframed _ _ _)
    have h2 : x2.unframed = x1.unframed := by
      unfold x2
      split <;> simp only [tellOuts_unframed]
    have h3 : x3.offBus = s.offBus := offBus_of_unframed ((frameCount_unframed _ _ _).trans (h2.trans h1))
    unfold x4
    split
    · exact Eq.trans (onLane_offBus fun _ => rfl) h3
    · exact h3
  have hbreaks : (x5.lane n).linBreaks = if w.breakRecessive then min 3 ((s.lane n).linBreaks + 1) else 0 := by
    unfold x5
    simp only [countBreaks_lane, State.onLane_eq, State.setLane_lane,
      lane_of_offBus LaneState.linBreaks (fun _ => rfl) h4 n]
  have hleave : (x5.lane n).leaveAt = (s.lane n).leaveAt := by
    unfold x5
    simp only [countBreaks_lane, State.onLane_eq, State.setLane_lane,
      lane_of_offBus LaneState.leaveAt (fun _ => rfl) h4 n]
  generalize hr : List.foldl _ (x5, ([] : List Entry)) ps = r
  have hframe : r.1.unframed = x5.unframed := by
    rw [← hr]
    refine keep_foldl_at State.unframed Prod.fst fun a p => ?_
    dsimp only
    split <;> simp only [onEp_unframed, cleanStep_unframed]
  obtain ⟨x6, es⟩ := r
  dsimp -zeta -zetaHave only at hframe ⊢
  extract_lets x7 x8
  have hend := linEnd_unframed x8 n before
  have h8 : x8.offBus = x5.offBus :=
    (handOver_offBus _ _ _ _ _ _ _ _).trans (offBus_of_unframed ((traceEdges_unframed _ _ _ _ _ _ _ _).trans hframe))
  refine ⟨?_, ?_, ?_⟩
  · exact (lane_of_unframed LaneState.lastTag (fun _ => rfl) hend n).trans (handOver_lastTag _ _ _ _ _ _ _ _)
  · rw [lane_of_unframed LaneState.linBreaks (fun _ => rfl) hend n,
      lane_of_offBus LaneState.linBreaks (fun _ => rfl) h8 n, hbreaks]
  · rw [lane_of_unframed LaneState.leaveAt (fun _ => rfl) hend n,
      lane_of_offBus LaneState.leaveAt (fun _ => rfl) h8 n, hleave]

/-- A slot that is over leaves the rest of its lane alone. -/
@[simp] theorem linOver_kept (s : State) (n fid t : Nat) :
    ((linOver s n fid t).lane n).lastTag = (s.lane n).lastTag ∧
      ((linOver s n fid t).lane n).linBreaks = (s.lane n).linBreaks ∧
      ((linOver s n fid t).lane n).leaveAt = (s.lane n).leaveAt ∧
      ((linOver s n fid t).lane n).acc = (s.lane n).acc := by
  simp [linOver]

/-- The slot of the running schedule whose frame ends now (R159, R160). The state after a cutoff is named before the
match on the slot is reduced, so that the kernel does not compute the cutoff's time. -/
theorem linFrameSlot_runs {s u v : State} {dt : Nat} {n : Lane} {fid : BitVec 6} {w : LinWire} {at_ : Nat}
    {num : BitVec 48} {g : Int} (h : LineArrives s dt u) (hslot : linSlotNow u n fid.toNat = some at_)
    (hv : v = u.seenAt at_) (hruns : busRuns v n .lin = true) (hrun : (u.lane n).linRun = true)
    (hstuck : (u.lane n).stuck = false) (hfid : fid.toNat < 0x3C) (hready : (u.lane n).readyAt ≤ at_)
    (hpause : u.upd.pauseSpan = none) (hsnap : freeSnap v u.grid.now = (num, g)) :
    exec (.linFrameSlot dt n fid w) s = .next (u.under at_ fun v =>
      leaveFlight (linOver (linReceive v n fid.toNat num g w) n fid.toNat at_) n) := by
  obtain ⟨hreset, hu⟩ := h
  subst hv
  rw [exec_linFrameSlot, execLinFrameSlot, run_arrives ⟨hreset, rfl⟩, ← hu]
  dsimp only
  rw [hslot]
  refine congrArg _ (under_congr ?_)
  rw [seenAt_now, hsnap]
  exact if_pos ⟨hruns, hrun, (Bool.not_eq_true' _).mpr hstuck, hfid, hready,
    by rw [inPause_of_none (s := u.seenAt at_) hpause, Bool.not_false],
    by rw [edgeInPause_of_none (s := u.seenAt at_) hpause, Bool.not_false]⟩

/-! ### The diagnostic pair -/

@[simp] theorem diagFrame_unframed (s : State) (n : Nat) (start : Int) (num : BitVec 48) (at_ : Int) (ok : Bool)
    (edges : List Int) : (diagFrame s n start num at_ ok edges).unframed = s.unframed := by
  unfold diagFrame
  dsimp only
  rw [linEnd_unframed, traceEdges_unframed, frameCount_unframed, frameBoundary_unframed, enterSprouts_unframed]

/-- The pair's frames leave its request and the lane's mode alone (R135, R161). -/
theorem diagFrames_lane (s : State) (n : Nat) (t t1 : Int) (num : BitVec 48) (at_ : Int) (w : LinWire) :
    ((diagFrames s n t t1 num at_ w).lane n).acc = (s.lane n).acc ∧
      ((diagFrames s n t t1 num at_ w).lane n).leaveAt = (s.lane n).leaveAt := by
  unfold diagFrames
  extract_lets bs es cut x
  obtain ⟨hacc, hleave⟩ : (x.lane n).acc = (s.lane n).acc ∧ (x.lane n).leaveAt = (s.lane n).leaveAt := by
    simp [x, countBreaks_lane]
  have hframe := (diagFrame_unframed (diagFrame x n t num at_ (!cut) es.1) n t1 num at_ (diagOk w && !cut) es.2).trans
    (diagFrame_unframed x n t num at_ (!cut) es.1)
  exact ⟨(lane_of_unframed LaneState.acc (fun _ => rfl) hframe n).trans hacc,
    (lane_of_unframed LaneState.leaveAt (fun _ => rfl) hframe n).trans hleave⟩

theorem accComplete_leaveAt (s : State) (n : Nat) (st : AccState) (d0 d1 : Option Word) :
    ((accComplete s n st d0 d1).lane n).leaveAt = (s.lane n).leaveAt := by rw [accComplete_lane]

/-- A pending request completes by the response (R161, R364). -/
theorem diagResult_lane {s : State} {n : Nat} (h : (s.lane n).acc.rstate = .pending) (w : LinWire) :
    ((diagResult s n false w).lane n).acc.rstate =
        (if w.bytes.isEmpty then .noResponse else if diagOk w then .done else .checksum) ∧
      ((diagResult s n false w).lane n).leaveAt = (s.lane n).leaveAt := by
  unfold diagResult
  dsimp only
  rw [List.isEmpty_map, Bool.or_false]
  split
  · rw [accComplete_acc h, accComplete_leaveAt]
    exact ⟨rfl, rfl⟩
  · rw [accComplete_acc h, accComplete_leaveAt]
    exact ⟨rfl, rfl⟩

theorem diagOk_iff (w : LinWire) :
    diagOk w = true ↔ w.inSlot ∧ w.bytes.length = 8 ∧ w.bytes.all (fun x => x.2) = true ∧
      w.check = some (linSum (w.bytes.map Prod.fst)) := by
  simp [diagOk, and_assoc]

/-- The pair that serves a pending request (R161). -/
theorem linDiagPair_serves {s u : State} {dt : Nat} {n : Lane} {w : LinWire} {at_ : Nat} (h : LineArrives s dt u)
    (hpair : pairNow u n = some at_) (hruns : busRuns (u.seenAt at_) n .lin = true) (hrun : (u.lane n).linRun = true)
    (hstuck : (u.lane n).stuck = false) (hpend : (u.lane n).acc.rstate = .pending) (hop : (u.lane n).acc.op = 3)
    (hfrom : (u.lane n).acc.at_ ≤ at_) (hto : at_ < (u.lane n).acc.at_ + 256 * period u)
    (hpause : u.upd.pauseSpan = none) :
    exec (.linDiagPair dt n w) s = .next (leaveFlight (diagResult
      (u.under at_ fun v => diagFrames (linOver v n 0x3C at_) n at_ ((at_ + pairGap (u.lane n) : Nat) : Int)
        (freeSnap u u.grid.now).1 (freeSnap u u.grid.now).2 w) n false w) n) := by
  obtain ⟨hreset, hu⟩ := h
  rw [exec_linDiagPair, execLinDiagPair, run_arrives ⟨hreset, rfl⟩, ← hu]
  dsimp only
  rw [hpair]
  dsimp only
  have hcut (t1 at1 : Int) : diagCut u t1 at1 w = false := by
    rw [diagCut, inPause_of_none hpause, edgeInPause_of_none hpause, Bool.or_false]
  rw [if_pos ⟨hruns, hrun, (Bool.not_eq_true' _).mpr hstuck, hpend, hop, hfrom, hto,
    by rw [inPause_of_none hpause, Bool.not_false]⟩, hcut]

/-! ### Wake-up and schedule -/

theorem laneSprouts_unframed (s : State) (n : Nat) : (laneSprouts s n).unframed = s.unframed :=
  keep_foldl State.unframed fun _ _ => becomeSprout_unframed _ _

/-- A fold that makes sprouts of endpoints makes one of each, and leaves none that was one (R203). -/
theorem sprout_foldl {n i : Nat} (ps : List Nat) {s : State}
    (h : (s.ep i).sprout = true ∨ i ∈ ps.map (epIdx n)) :
    ((ps.foldl (fun s p => becomeSprout s (epIdx n p)) s).ep i).sprout = true := by
  induction ps generalizing s with
  | nil => simpa using h
  | cons p ps ih =>
    refine ih ?_
    rw [becomeSprout_ep]
    by_cases hi : i = epIdx n p
    · exact .inl (by rw [if_pos hi]; rfl)
    · rw [if_neg hi]
      simpa [hi] using h

/-- Every endpoint of a lane becomes a sprout (R203). -/
theorem laneSprouts_sprout {s : State} {n p : Nat} (hp : p ∈ lanePositions s n) :
    ((laneSprouts s n).ep (epIdx n p)).sprout = true :=
  sprout_foldl _ (.inr (List.mem_map_of_mem hp))

/-- A wake condition in SENTINEL asserts WAKE_OUT (R273). -/
theorem wakeCond_wakes {s : State} (h : s.mode.dev = .sentinel) : (wakeCond s).mode.wakeOut = true := by
  simp [wakeCond, h]

@[simp] theorem wakeCond_cycle (s : State) : (wakeCond s).cycle = s.cycle := by
  unfold wakeCond
  (repeat' split) <;> rfl

/-- A node's wake-up on a bus whose schedule is stopped is shown, and wakes the device from a polled lane
(R162, R273). -/
theorem linWake_shows {s u : State} {dt : Nat} {n : Lane} {us : Nat} (h : Arrives s dt u)
    (hmode : (u.lane n).mode = .lin) (hl : (u.lane n).lstate = .run) (hrun : (u.lane n).linRun = false)
    (hlow : 150 ≤ us) (hhigh : us ≤ 5000) :
    ∃ t, exec (.linWake dt n us) s = .next t ∧ Raised u t 25 n.val 0 ∧
      (u.mode.dev = .sentinel → u.mode.polls.any (fun x => x.1 == n.val) = true → t.mode.wakeOut = true) := by
  refine ⟨_, (exec_linWake dt n us s).trans (run_arrives h _), ?_⟩
  dsimp only
  rw [if_pos ⟨hmode, hl, by simpa using hrun, hlow, hhigh⟩]
  have hraised := raise_raised u 25 n 0
  refine ⟨?_, fun hdev hpoll => ?_⟩
  · split
    · exact hraised.of_mem fun _ he => by rwa [wakeCond_cycle]
    · exact hraised
  · rw [if_pos ⟨.inl (by simpa using hdev), by simpa using hpoll⟩]
    exact wakeCond_wakes (by simpa using hdev)

/-- Settles O19, happening by happening. -/
theorem linBusRuns : Obligations.LinBusRuns := by
  unfold Obligations.LinBusRuns
  refine ⟨fun s u v dt n fid w at_ num g h hslot hv hruns hrun hstuck hfid hready hpause hleave hsnap => ?_,
    fun s u dt n w at_ h hpair hruns hrun hstuck hpend hop hfrom hto hpause hleave => ?_,
    fun s u dt n h hruns hrun hstuck hwoke hdev => ?_, fun s n at_ hwoke hruns hwait hnow => ?_,
    fun s u dt n us h hmode hl hrun hlow hhigh => linWake_shows h hmode hl hrun hlow hhigh,
    fun s u dt n vbat h hmode hl hstuck hbreaks => ?_, fun s u dt n h hmode hstuck => ?_⟩
  · refine ⟨_, linFrameSlot_runs h hslot hv hruns hrun hstuck hfid hready hpause hsnap, ?_⟩
    obtain ⟨htag, hbreaks, hstay⟩ := linReceive_lane (u.seenAt at_) n fid.toNat num g w
    obtain ⟨htag', hbreaks', hstay', -⟩ :=
      linOver_kept (linReceive (u.seenAt at_) n fid.toNat num g w) n fid.toNat at_
    rw [under_lane, leaveFlight_of_none (hstay'.trans (hstay.trans hleave)), htag', hbreaks', htag, hbreaks,
      seenAt_lane]
    exact ⟨rfl, rfl⟩
  · refine ⟨_, linDiagPair_serves h hpair hruns hrun hstuck hpend hop hfrom hto hpause, ?_⟩
    generalize hx : u.under at_ _ = x
    obtain ⟨hacc, hstay⟩ : (x.lane n).acc = (u.lane n).acc ∧ (x.lane n).leaveAt = (u.lane n).leaveAt := by
      rw [← hx, under_lane]
      obtain ⟨hacc, hstay⟩ := diagFrames_lane (linOver (u.seenAt at_) n 0x3C at_) n at_
        ((at_ + pairGap (u.lane n) : Nat) : Int) (freeSnap u u.grid.now).1 (freeSnap u u.grid.now).2 w
      obtain ⟨-, -, hstay', hacc'⟩ := linOver_kept (u.seenAt at_) n 0x3C at_
      exact ⟨hacc.trans (hacc'.trans rfl), hstay.trans (hstay'.trans rfl)⟩
    obtain ⟨hdone, hstay'⟩ := diagResult_lane (hacc ▸ hpend : (x.lane n).acc.rstate = .pending) w
    rw [leaveFlight_of_none (hstay'.trans (hstay.trans hleave)), hdone]
    simp only [diagOk_iff]
  · refine ⟨_, (exec_linWakeUp dt n s).trans (run_arrives h _), ?_⟩
    simp [hruns, hrun, hstuck, hwoke, hdev]
  · refine ⟨_, exec_linScheduleStart n s, ?_⟩
    simp only [hwoke]
    rw [if_pos ⟨hruns, hwait, hnow⟩]
    have hframe := laneSprouts_unframed (s.setLane n { s.lane n with linRun := true, linWoke := none }) n
    refine ⟨?_, ?_, fun p hp => laneSprouts_sprout hp⟩
    · rw [lane_of_unframed LaneState.linRun (fun _ => rfl) hframe n, State.setLane_lane]
    · rw [lane_of_unframed LaneState.linWoke (fun _ => rfl) hframe n, State.setLane_lane]
  · refine ⟨_, (exec_linStuck dt n vbat s).trans (run_arrives h _), ?_⟩
    obtain ⟨hshown, hraised⟩ := declareStuck_shows u n (if vbat then 3 else 2)
    dsimp only
    rw [if_pos ⟨hmode, hl, by simpa using hstuck, by cases vbat <;> simp_all⟩]
    exact ⟨hshown, by cases vbat <;> exact hraised⟩
  · refine ⟨_, (exec_linStuckClear dt n s).trans (run_arrives h _), ?_⟩
    simp [hmode, hstuck, happenLine]

end Sys2Proof.Machine
end

section
/-!
SUPPORT. What a commit that takes effect leaves alone beside its own words (R317): the words in force, the commits in
flight and COMMIT_STATUS stay as they are through its work on lanes, streams, routes, monitors and loops.
-/

namespace Sys2Proof.Machine

/-- What a commit reads and ends with: the words, the commits in flight and COMMIT_STATUS. -/
def State.committed (s : State) := (s.cfg, s.commits, s.cstat)

/-- The parts of equal views. -/
theorem of_committed {s t : State} (h : t.committed = s.committed) :
    t.cfg = s.cfg ∧ t.commits = s.commits ∧ t.cstat = s.cstat := by
  simpa only [State.committed, Prod.mk.injEq] using h

/-- The commits stand among the stores of the device, the words beside them. -/
theorem committed_of_stores {s t : State} (hstores : t.stores = s.stores) (hcfg : t.cfg = s.cfg) :
    t.committed = s.committed := by
  have hcommits : t.stores.commits = s.stores.commits := congrArg State.commits hstores
  have hcstat : t.stores.cstat = s.stores.cstat := congrArg State.cstat hstores
  exact Prod.ext hcfg (Prod.ext hcommits hcstat)

theorem committed_of_evRest {s t : State} (h : t.evRest = s.evRest) : t.committed = s.committed := by
  have hcfg : t.evRest.cfg = s.evRest.cfg := congrArg State.cfg h
  exact committed_of_stores (stores_of_evRest h) hcfg

/-! ### Writes, events and queues -/

@[simp] theorem committed_mk (s : State) (fresh : Nat) (h m u : PortState) (epoch : BitVec 16) (epochAt : Option Nat)
    (cap : CaptureState) (cycle : List Event) (ul0 ul1 : UplinkState) (replay : ReplayRun) (grid : GridState) :
    State.committed { s with
      fresh := fresh, h := h, m := m, u := u, epoch := epoch, epochAt := epochAt, cap := cap, cycle := cycle
      ul0 := ul0, ul1 := ul1, replay := replay, grid := grid } = s.committed := rfl

theorem onLane_committed (s : State) (n : Nat) (f : LaneState → LaneState) :
    (s.onLane n f).committed = s.committed := rfl
theorem onEp_committed (s : State) (i : Nat) (f : EpState → EpState) : (s.onEp i f).committed = s.committed := rfl
theorem onRegion_committed (s : State) (g : Nat) (f : RegionState → RegionState) :
    (s.onRegion g f).committed = s.committed := rfl
theorem onStream_committed (s : State) (k : Nat) (f : StreamState → StreamState) :
    (s.onStream k f).committed = s.committed := rfl
@[simp] theorem setUplink_committed (s : State) (u : Ul) (x : UplinkState) :
    (s.setUplink u x).committed = s.committed := by cases u <;> rfl
theorem onUplink_committed (s : State) (u : Ul) (f : UplinkState → UplinkState) :
    (s.onUplink u f).committed = s.committed := setUplink_committed _ _ _
theorem onGrid_committed (s : State) (f : GridState → GridState) : (s.onGrid f).committed = s.committed := rfl

@[simp] theorem raise_committed (s : State) (src origin : Nat) (data : Word) :
    (raise s src origin data).committed = s.committed := committed_of_evRest (raise_evRest _ _ _ _)
@[simp] theorem glb_committed (s : State) (n : Nat) : (glb s n).committed = s.committed := rfl
@[simp] theorem ruleChange_committed (s : State) : (ruleChange s).committed = s.committed := by
  unfold ruleChange
  split <;> rfl
@[simp] theorem supervise_committed (s : State) (p : Port) : (supervise s p).committed = s.committed :=
  committed_of_evRest (supervise_evRest _ _)
@[simp] theorem hoardCommit_committed (s : State) (tc eff : BitVec 48) (groups : BitVec 16) :
    (hoardCommit s tc eff groups).committed = s.committed :=
  keep_foldl State.committed fun s n => by
    split
    · exact committed_of_evRest (hoardBlock_evRest _ _ _ _)
    · rfl

/-! ### Endpoints and lanes (R135, R169, R187) -/

@[simp] theorem descEffect_committed (old : Tbl Word) (s : State) (i : Nat) :
    (descEffect old s i).committed = s.committed := by
  unfold descEffect
  extract_lets proto shape id trust aknun x1 x2 x3
  have h1 : x1.committed = s.committed := by simp only [x1]; split <;> rfl
  have h2 : x2.committed = x1.committed := by simp only [x2]; split <;> rfl
  have h3 : x3.committed = x2.committed := by simp only [x3]; split <;> rfl
  rw [← h1, ← h2, ← h3]
  split <;> rfl

/-- A lane's endpoint access, window, wave and source end without a change of the words. -/
@[simp] theorem unpower_committed (s : State) (n : Nat) : (unpower s n).committed = s.committed :=
  committed_of_stores (unpower_stores s n) (of_beyond (unpower_beyond rfl s)).2.1
@[simp] theorem becomeSprout_committed (s : State) (i : Nat) : (becomeSprout s i).committed = s.committed :=
  committed_of_stores (becomeSprout_stores s i) (of_setting (becomeSprout_setting s i)).1
@[simp] theorem linSleep_committed (s : State) (n : Nat) : (linSleep s n).committed = s.committed := by
  unfold linSleep linStop
  dsimp only
  split <;> rfl

@[simp] theorem leaveMode_committed (s : State) (n t : Nat) : (leaveMode s n t).committed = s.committed := by
  unfold leaveMode
  dsimp only
  rw [keep_foldl State.committed fun s p => (becomeSprout_committed _ _).trans (onEp_committed s _ _),
    onLane_committed, unpower_committed, linSleep_committed]

@[simp] theorem modeEffect_committed (old : Tbl Word) (s : State) (n : Nat) :
    (modeEffect old s n).committed = s.committed := by
  unfold modeEffect
  dsimp only
  split
  · rfl
  · exact leaveMode_committed _ _ _

@[simp] theorem accComplete_committed (s : State) (n : Nat) (st : AccState) (d0 d1 : Option Word) :
    (accComplete s n st d0 d1).committed = s.committed := by
  unfold accComplete
  dsimp only
  (repeat' split) <;> simp only [raise_committed, onLane_committed]

@[simp] theorem accessEffect_committed (old : Tbl Word) (s : State) (n : Nat) (modeChanged : Bool) :
    (accessEffect old s n modeChanged).committed = s.committed := by
  unfold accessEffect refuseAccess
  dsimp only
  (repeat' split) <;> simp only [accComplete_committed]

@[simp] theorem keepFlight_committed (s : State) (n T : Nat) : (keepFlight s n T).committed = s.committed := by
  unfold keepFlight
  dsimp only
  split <;> rfl

@[simp] theorem spuEffect_committed (s : State) (n : Nat) : (spuEffect s n).committed = s.committed := by
  have hend : (endSpu s n).committed = s.committed :=
    committed_of_stores (endSpu_stores s n) (of_beyond (endSpu_beyond rfl s)).2.1
  unfold spuEffect
  (repeat' split) <;> simp only [raise_committed, hend]

@[simp] theorem enumDone_committed (s : State) (n : Nat) : (enumDone s n).committed = s.committed :=
  committed_of_stores (leaveWave_stores s n) (of_beyond (leaveWave_beyond rfl s)).2.1

@[simp] theorem topEffect_committed (s : State) (n : Nat) : (topEffect s n).committed = s.committed := by
  unfold topEffect
  extract_lets l owed above x
  have h : x.committed = s.committed := rfl
  clear_value x
  (repeat' split) <;> simp only [enumDone_committed, h]

@[simp] theorem laneEffect_committed (old : Tbl Word) (s : State) (n : Nat) :
    (laneEffect old s n).committed = s.committed := by
  unfold laneEffect
  extract_lets modeChanged x1 slots x2 x3 x4
  have h2 : x2.committed = x1.committed := by simp only [x2]; split <;> simp
  have h3 : x3.committed = x2.committed := by simp only [x3]; split <;> simp
  calc x4.committed = x3.committed := by simp only [x4, topEffect_committed, spuEffect_committed]
    _ = s.committed := by rw [h3, h2, accessEffect_committed]

theorem clusterEffect_committed (s : State) (c : Nat) : (clusterEffect s c).committed = s.committed := rfl

@[simp] theorem sowEffect_committed (old : Tbl Word) (s : State) (c : CommitRun) :
    (sowEffect old s c).committed = s.committed := by
  unfold sowEffect
  dsimp only
  rw [keep_foldl State.committed fun s g => keep_foldl State.committed fun s j => clusterEffect_committed s (8 * g + j),
    keep_foldl State.committed fun s g => keep_foldl State.committed fun s n => laneEffect_committed old s n]

@[simp] theorem dropIneligible_committed (s : State) : (dropIneligible s).committed = s.committed :=
  keep_foldl State.committed fun s x => by
    unfold dropRouteWrite routeDrop
    (repeat' split) <;> rfl

/-! ### Uplinks and streams (R248, R249, R259) -/

@[simp] theorem macRun_committed (u : Ul) (n : Nat) (s : State) : (macRun u n s).committed = s.committed := by
  induction n generalizing s with
  | zero => rfl
  | succ n ih =>
    simp only [macRun]
    (repeat' split) <;> simp only [ih, setUplink_committed]
@[simp] theorem macs_committed (s : State) : (macs s).committed = s.committed := by simp [macs]
@[simp] theorem refreshStreams_committed (s : State) : (refreshStreams s).committed = s.committed :=
  keep_foldl State.committed fun s k => by
    unfold refreshStream dropStopped
    dsimp only
    (repeat' split) <;> rfl
@[simp] theorem reroute_committed (u : Ul) (s : State) (f : TxFrame) : (reroute u s f).committed = s.committed := by
  unfold reroute handMac countDropped
  dsimp only
  (repeat' split) <;> simp only [onUplink_committed, onStream_committed]
@[simp] theorem portDown_committed (s : State) (u : Ul) (cause : Nat) :
    (portDown s u cause).committed = s.committed := by
  unfold portDown
  dsimp only
  split
  · rfl
  · rw [refreshStreams_committed, macs_committed, keep_foldl State.committed fun s k => by split <;> rfl,
      keep_foldl State.committed fun s f => reroute_committed u s f, raise_committed, State.onUplink_eq,
      setUplink_committed]

@[simp] theorem streamEffect_committed (old : Tbl Word) (s : State) (k : Nat) :
    (streamEffect old s k).committed = s.committed := by
  unfold streamEffect choosePort
  extract_lets was on sel dead again x own m
  have h : x.committed = s.committed := onStream_committed _ _ _
  clear_value x
  split <;> simp only [onStream_committed, h]

@[simp] theorem streamsEffect_committed (old : Tbl Word) (s : State) :
    (streamsEffect old s).committed = s.committed := by
  unfold streamsEffect
  dsimp only
  rw [refreshStreams_committed, keep_foldl State.committed fun s k => streamEffect_committed old s k,
    keep_foldl State.committed fun s u => by split <;> simp]

/-! ### Routes, channels, monitors and loops (R211, R271, R385, R387) -/

@[simp] theorem routesEffect_committed (old : Tbl Word) (s : State) : (routesEffect old s).committed = s.committed :=
  keep_foldl State.committed fun s r => by split <;> rfl
@[simp] theorem channelsEffect_committed (s : State) : (retick (channelsEffect s)).committed = s.committed :=
  committed_of_evRest ((retick_evRest _).trans (channelsEffect_evRest _))
@[simp] theorem monitorsEffect_committed (old : Tbl Word) (s : State) :
    (monitorsEffect old s).committed = s.committed := by
  have hlanes (f : LaneState → LaneState) (s : State) (g : Nat) :
      ((regionLanes g).foldl (fun s n => s.onLane n f) s).committed = s.committed :=
    keep_foldl State.committed fun _ _ => onLane_committed _ _ _
  unfold monitorsEffect
  refine (keep_foldl State.committed fun s u => ?_).trans (keep_foldl State.committed fun s g => ?_)
  · split <;> simp only [onUplink_committed]
  · extract_lets dev low ct x
    have h : x.committed = s.committed := by
      simp only [x]
      split
      · exact hlanes _ s g
      · rfl
    clear_value x
    split <;> simp only [onRegion_committed, h]
@[simp] theorem calEffect_committed (s : State) (loads : List (Nat × Word)) :
    (calEffect s loads).committed = s.committed := by
  unfold calEffect
  dsimp only
  rw [keep_foldl State.committed fun s g => by split <;> rfl, keep_foldl State.committed fun s n => by split <;> rfl]
@[simp] theorem replayControls_committed (s : State) (c : CommitRun) :
    (replayControls s c).committed = s.committed := by
  unfold replayControls
  split <;> rfl

/-! ### Captures (R322) -/

@[simp] theorem captureSample_committed (s : State) : (captureSample s).committed = s.committed := by
  have hrestart (x : State) : (restartMonitors x).committed = x.committed := by
    unfold restartMonitors
    dsimp only
    rw [committed_mk, keep_foldl State.committed fun x g => onRegion_committed x g _,
      keep_foldl State.committed fun x n => onLane_committed x n _]
  unfold captureSample
  split
  · rfl
  · dsimp only
    split <;> simp [hrestart]

end Sys2Proof.Machine
end

section
/-!
SUPPORT. How a commit ends (R183, R317 to R319): the end of its sowing, with its effective tick or a refusal, and its
effective tick.
-/

namespace Sys2Proof.Machine

theorem exec_sowingComplete (s : State) : exec .sowingComplete s = execSowingComplete s := rfl
theorem exec_commitEffective (s : State) : exec .commitEffective s = execCommitEffective s := rfl

/-! ### The end of a commit -/

/-- A commit that ends is reported in COMMIT_STATUS and in GLB_STATUS, and its end changes no word (R319, R374). -/
theorem commitEnd_reports (s : State) (c : CommitRun) (st : CommitState) (r : Reason) :
    (commitEnd s c st r).cfg = s.cfg ∧ (commitEnd s c st r).cstat.state = st ∧
      (commitEnd s c st r).cstat.reason = BitVec.ofNat 5 r.1 ∧
      (commitEnd s c st r).cstat.item = BitVec.ofNat 13 r.2 ∧
      (commitEnd s c st r).cstat.cseq = c.cseq ∧ (commitEnd s c st r).glbHas 18 = true := by
  obtain ⟨hcfg, -, hstat⟩ := of_committed ((glb_committed _ 18).trans
    (raise_committed (commitStatus s c st r) 41 c.cseq.toNat (cstatWord (commitStatus s c st r).cstat)))
  refine ⟨hcfg, ?_, ?_, ?_, ?_, glb_glbHas (by decide)⟩ <;> exact congrArg _ hstat

/-! ### The end of a sowing (R182, R183) -/

section

variable (f : Nat → RegionState → RegionState) {l : List Nat} (s : State)

/-- Changes of regions one after the other change the regions alone. -/
theorem onRegion_foldl : l.foldl (fun s g => s.onRegion g (f g)) s =
    { s with regions := (l.foldl (fun s g => s.onRegion g (f g)) s).regions } := by
  induction l generalizing s with
  | nil => rfl
  | cons g l ih =>
    rw [List.foldl_cons, ih]
    rfl

/-- Each region that the list names has changed once. -/
theorem onRegion_foldl_region (hl : l.Nodup) (k : Nat) : (l.foldl (fun s g => s.onRegion g (f g)) s).region k =
    if k ∈ l then f k (s.region k) else s.region k := by
  induction l generalizing s with
  | nil => simp
  | cons g l ih =>
    obtain ⟨hg, hl⟩ := List.nodup_cons.1 hl
    rw [List.foldl_cons, ih _ hl, State.onRegion_eq]
    by_cases hk : k = g
    · subst hk
      simp [hg]
    · simp [hk, State.setRegion_region_other]

end

theorem CommitRun.regions_nodup (c : CommitRun) : c.regions.Nodup := List.nodup_range.filter _

@[simp] theorem setSowing_committed (s : State) (c : CommitRun) (b : Bool) :
    (setSowing s c b).committed = s.committed := committed_of_evRest (setSowing_evRest _ _ _)
@[simp] theorem writeReports_committed (s k : State) (c : CommitRun) (eff : BitVec 48) :
    (writeReports s k c eff).committed = s.committed := committed_of_evRest (writeReports_evRest _ _ _ _)

/-- The tick of the changeover does not depend on the regions (R33, R183). -/
theorem changeover_setSowing (s : State) (c : CommitRun) (b : Bool) :
    changeover (setSowing s c b) c = changeover s c := by
  rw [setSowing, onRegion_foldl (fun _ r => { r with sowing := b })]
  rfl
theorem inOldNumbers_sown (s k : State) (c : CommitRun) (b : Bool) (eff n : BitVec 48) :
    inOldNumbers (writeReports (setSowing s c b) k c eff) n = inOldNumbers s n := by
  rw [writeReports, onRegion_foldl (fun g r => { r with report := sowReport k g c.tc eff }), setSowing,
    onRegion_foldl (fun _ r => { r with sowing := b })]
  rfl

/-- The covered regions leave SOWING, and their reports do not bring it back (R342). -/
theorem writeReports_sowing (s k : State) {c : CommitRun} (b : Bool) (eff : BitVec 48) {g : Nat}
    (hg : g ∈ c.regions) :
    ((writeReports (setSowing s c b) k c eff).region g).sowing = b := by
  rw [writeReports, onRegion_foldl_region (fun g r => { r with report := sowReport k g c.tc eff }) _ c.regions_nodup,
    if_pos hg, setSowing, onRegion_foldl_region (fun _ r => { r with sowing := b }) _ c.regions_nodup, if_pos hg]

/-- A sowing whose regions all fit ends with its effective tick (R183). -/
theorem endSowing_fits {s : State} {c : CommitRun} (h : ∀ g ∈ c.regions, regionFails (sownFrom s c) g = []) :
    (endSowing s c).commits =
        (putCommit s c { c with sown := true, eff := some (inOldNumbers s (changeover s c)) }).commits ∧
      (∀ g ∈ c.regions, ((endSowing s c).region g).sowing = false) ∧ (endSowing s c).cfg = s.cfg := by
  have hnone : c.regions.find? (fun g => !(regionFails (sownFrom s c) g).isEmpty) = none :=
    List.find?_eq_none.2 fun g hg => by simp [h g hg]
  unfold endSowing
  dsimp only
  rw [hnone]
  dsimp only
  rw [changeover_setSowing, inOldNumbers_sown]
  obtain ⟨hcfg, hcommits, -⟩ := of_committed
    ((writeReports_committed _ (sownFrom s c) c (changeover s c)).trans (setSowing_committed s c false))
  refine ⟨?_, fun g hg => writeReports_sowing s _ false _ hg, hcfg⟩
  rw [putCommit, hcommits]
  rfl

/-- A region that fails refuses a host's commit, by its first such region (R183, R318). -/
theorem endSowing_refused {s : State} {c : CommitRun} {g : Nat} (hports : c.ports ≠ 0)
    (h : c.regions.find? (fun g => !(regionFails (sownFrom s c) g).isEmpty) = some g) :
    ∃ x, endSowing s c = commitEnd (dropCommit x c) c .refused (3, g) ∧ x.cfg = s.cfg := by
  refine ⟨writeReports (setSowing s c false) (sownFrom s c) c 0, ?_, ?_⟩
  · unfold endSowing
    dsimp only
    rw [h]
    exact if_neg hports
  · exact (of_committed ((writeReports_committed _ _ _ _).trans (setSowing_committed s c false))).1

theorem dropCommit_not_mem (s : State) (c : CommitRun) : c ∉ (dropCommit s c).commits := by simp [dropCommit]

/-! ### The effective tick (R317) -/

/-- A host's commit takes effect in a state in which its own words, and no others, have come into force, and then
ends. -/
theorem effect_ends {c : CommitRun} (s : State) (hports : c.ports ≠ 0) :
    ∃ x, effect s c = commitEnd x c .applied (0, 0) ∧ x.commits = (dropCommit s c).commits ∧
      x.cfg.live = applyDiff s.cfg.live c.diff := by
  unfold effect
  extract_lets old has x1 live x2 x3 x4 x5 x6 x7 x8 x9 x10 x11 x12
  have h3 : x3.committed = x2.committed := keep_foldl State.committed fun s i => descEffect_committed old s i
  have h4 : x4.committed = x3.committed := by simp only [x4, dropIneligible_committed, sowEffect_committed]
  have h5 : x5.committed = x4.committed := by simp only [x5]; split <;> simp only [streamsEffect_committed]
  have h6 : x6.committed = x5.committed := by simp only [x6]; split <;> simp only [routesEffect_committed]
  have h7 : x7.committed = x6.committed := by simp only [x7]; split <;> simp only [channelsEffect_committed]
  have h8 : x8.committed = x7.committed := by simp only [x8]; split <;> simp only [onGrid_committed]
  have h9 : x9.committed = x8.committed := by simp only [x9]; split <;> simp only [monitorsEffect_committed]
  have h10 : x10.committed = x9.committed := by
    simp only [x10]; split <;> simp only [replayControls_committed, calEffect_committed]
  have h12 : x12.committed = x10.committed := by simp only [x12, x11, hoardCommit_committed, supervise_committed]
  have h : x12.committed = x2.committed := by rw [h12, h10, h9, h8, h7, h6, h5, h4, h3]
  obtain ⟨hcfg, hcommits, -⟩ := of_committed h
  exact ⟨x12, if_neg fun hboot => hports hboot.1, hcommits, congrArg CfgState.live hcfg⟩

/-- The one commit of its effective tick takes effect, after a capture that is due has been sampled, and may then
advance the rule epoch (R317, R321, R322). -/
theorem commitsEffect_single {s : State} {c : CommitRun} (h : s.commits.filter (effective s) = [c]) :
    ∃ x, (commitsEffect s = effect x c ∨ commitsEffect s = ruleChange (effect x c)) ∧ x.commits = s.commits ∧
      x.cfg.live = s.cfg.live := by
  unfold commitsEffect
  extract_lets cs x1 words x2 x3
  have hcs : cs = [c] := h
  have h1 : x1.committed = s.committed := by simp only [x1]; split <;> simp only [captureSample_committed]
  obtain ⟨hcfg, hcommits, -⟩ := of_committed h1
  have hlive : x1.cfg.live = s.cfg.live := congrArg CfgState.live hcfg
  refine ⟨x2, ?_, hcommits, hlive⟩
  have h3 : x3 = effect x2 c := by simp only [x3, hcs, List.foldl_cons, List.foldl_nil]
  rw [← h3, if_neg (by simp [hcs])]
  split
  · exact .inr rfl
  · exact .inl rfl

/-- A rule change leaves GLB_STATUS alone (R321). -/
theorem ruleChange_glbHas (s : State) (n : Nat) : (ruleChange s).glbHas n = s.glbHas n := by
  unfold ruleChange
  split <;> rfl

/-- At its effective tick a host's commit is in force, settled and reported (R317, R319). -/
theorem commitsEffect_applies {s : State} {c : CommitRun} (hports : c.ports ≠ 0)
    (h : s.commits.filter (effective s) = [c]) :
    (commitsEffect s).commits = s.commits.filter (fun o => decide (o ≠ c)) ∧
      (commitsEffect s).cfg.live = applyDiff s.cfg.live c.diff ∧ (commitsEffect s).cstat.state = .applied ∧
      (commitsEffect s).cstat.cseq = c.cseq ∧ (commitsEffect s).glbHas 18 = true := by
  obtain ⟨u, hu, hcommits, hlive⟩ := commitsEffect_single h
  obtain ⟨x, hx, hxcommits, hxlive⟩ := effect_ends u hports
  obtain ⟨hcfg, hstate, -, -, hseq, hglb⟩ := commitEnd_reports x c .applied (0, 0)
  have hend : (commitsEffect s).committed = (commitEnd x c .applied (0, 0)).committed ∧
      (commitsEffect s).glbHas 18 = (commitEnd x c .applied (0, 0)).glbHas 18 := by
    rw [← hx]
    rcases hu with hu | hu <;> rw [hu]
    · exact ⟨rfl, rfl⟩
    · exact ⟨ruleChange_committed _, ruleChange_glbHas _ _⟩
  obtain ⟨hparts, hglb'⟩ := hend
  obtain ⟨hcfg', hcommits', hstat'⟩ := of_committed hparts
  refine ⟨?_, ?_, ?_, ?_, hglb'.trans hglb⟩
  · rw [hcommits', commitEnd_commits, hxcommits, dropCommit, hcommits]
  · rw [hcfg', hcfg, hxlive, hlive]
  · rw [hstat', hstate]
  · rw [hstat', hseq]

/-- Settles O30, by the two ends of a sowing and the effective tick. -/
theorem commitsTakeEffect : Obligations.CommitsTakeEffect := by
  unfold Obligations.CommitsTakeEffect
  refine ⟨fun s c hon htick hrun hdisc hfirst => ?_, fun s c hon htick hports hsingle => ?_⟩
  · have hexec : exec .sowingComplete s = .next (endSowing s c) := by
      rw [exec_sowingComplete, execSowingComplete, if_pos (by simp [hon, htick, hrun, hdisc]), hfirst]
    refine ⟨fun hfits => ⟨_, hexec, endSowing_fits hfits⟩, fun g hports hfails => ⟨_, hexec, ?_⟩⟩
    obtain ⟨x, hx, hcfg⟩ := endSowing_refused hports hfails
    obtain ⟨hcfg', hstate, hreason, hitem, -, hglb⟩ := commitEnd_reports (dropCommit x c) c .refused (3, g)
    rw [hx, commitEnd_commits]
    exact ⟨dropCommit_not_mem x c, hstate, hreason, hitem, hcfg'.trans hcfg, hglb⟩
  · refine ⟨_, ?_, commitsEffect_applies hports hsingle⟩
    rw [exec_commitEffective, execCommitEffective, if_pos ⟨hon, htick⟩]

end Sys2Proof.Machine
end

section
/-!
SUPPORT. How a calibrated endpoint's pulse decodes (R197): lengths by grade as multiples of a power of two, windows that
do not meet, and an empty pip that is too short for any of them.
-/

namespace Sys2Proof.Machine

/-! ### Lengths by grade -/

/-- An even time of standard grade, in the grade of a decode. -/
theorem scale_two_mul (q : DecodeWith) (t : Nat) : q.scale (2 * t) = t * 2 ^ q.grade := by
  rw [DecodeWith.scale, mul_assoc, Nat.mul_div_cancel_left _ two_pos]
  push_cast
  rfl

/-- n(x) of the table, by grade (R197). -/
theorem centre_by_grade : ∀ g < 3, ∀ x < 4,
    ([[100, 160, 220, 280], [200, 320, 440, 560], [400, 640, 880, 1120]].getD g []).getD x (0 : Int) =
      (100 + 60 * x) * 2 ^ g := by decide

/-- w of the table, by grade (R197). -/
theorem width_by_grade : ∀ g < 3, [20, 40, 80].getD g (0 : Int) = 20 * 2 ^ g := by decide

/-- The release deadline, by grade (R78). -/
theorem deadline_by_grade : ∀ g < 3, [300, 600, 1200].getD g (0 : Int) = 300 * 2 ^ g := by decide

/-! ### The windows of a calibrated endpoint -/

section

variable {q : DecodeWith} (hcal : q.sprout = false)
include hcal

/-- The window of a symbol in integer form (R197). -/
theorem inSymWindow_calibrated (lt lm : Int) (x : Nat) : inSymWindow q lt lm x = true ↔
    (100 + 60 * x) * 2 ^ q.grade * q.asc - 20 * 2 ^ q.grade * 65536 ≤ lm * 65536 ∧
      lm * 65536 < (100 + 60 * x) * 2 ^ q.grade * q.asc + 20 * 2 ^ q.grade * 65536 := by
  have hc : q.scale (200 + 120 * x) = (100 + 60 * x) * 2 ^ q.grade := by
    rw [show 200 + 120 * x = 2 * (100 + 60 * x) by ring, scale_two_mul]
    push_cast
    rfl
  have hw : q.scale 40 = 20 * 2 ^ q.grade := scale_two_mul q 20
  simp only [inSymWindow, hcal, hc, hw, Bool.false_eq_true, if_false, decide_eq_true_eq]

variable (hasc : 61604 ≤ q.asc) {lt lm : Int} {x : Nat} (hx : inSymWindow q lt lm x = true)
include hasc hx

/-- A length in a window is no empty pip (R76). -/
theorem not_short_of_inSymWindow : q.scale 128 ≤ lm := by
  obtain ⟨hlow, -⟩ := (inSymWindow_calibrated hcal lt lm x).1 hx
  have hG : (0 : Int) < 2 ^ q.grade := by positivity
  have hA : 61604 * 2 ^ q.grade ≤ 2 ^ q.grade * q.asc := by nlinarith
  have hxA : 0 ≤ (x : Int) * (2 ^ q.grade * q.asc) := by positivity
  rw [show q.scale 128 = 64 * 2 ^ q.grade from scale_two_mul q 64]
  linarith

/-- The windows of two symbols do not meet. -/
theorem inSymWindow_unique {y : Nat} (hxy : x < y) : inSymWindow q lt lm y = false := by
  by_contra hy
  obtain ⟨-, hhigh⟩ := (inSymWindow_calibrated hcal lt lm x).1 hx
  obtain ⟨hlow, -⟩ := (inSymWindow_calibrated hcal lt lm y).1 (by simpa using hy)
  have hG : (0 : Int) < 2 ^ q.grade := by positivity
  have hA : 61604 * 2 ^ q.grade ≤ 2 ^ q.grade * q.asc := by nlinarith
  have hstep : ((x : Int) + 1) * (2 ^ q.grade * q.asc) ≤ y * (2 ^ q.grade * q.asc) :=
    mul_le_mul_of_nonneg_right (by exact_mod_cast hxy) (by positivity)
  linarith

end

/-! ### The outcome of a pip -/

/-- Lateness in terms of the release deadline by grade (R78, R184). -/
theorem isLate_iff (q : DecodeWith) (lm : Int) :
    isLate q lm = true ↔ (if q.stretched then 108 else 100) * (300 * 2 ^ q.grade) < 100 * lm := by
  rw [isLate, decide_eq_true_eq, show q.scale 600 = 300 * 2 ^ q.grade from scale_two_mul q 300]

section

variable {q : DecodeWith} {lt raw : Int} {p : Pulse} (hraw : pulseLen q.og p = some raw)
include hraw

/-- A pulse past the release deadline is late, whatever its window (R78). -/
theorem classify_late (h : isLate q (raw - q.dE) = true) : classify q (some lt) p = .inl .late := by
  have hlate := (isLate_iff q _).1 h
  have hG : (0 : Int) < 2 ^ q.grade := by positivity
  have hlong : ¬ raw - q.dE < q.scale 128 := by
    rw [show q.scale 128 = 64 * 2 ^ q.grade from scale_two_mul q 64]
    split at hlate <;> linarith
  simp only [classify, hraw]
  rw [if_neg hlong, if_pos h]

/-- A pulse within the release deadline decodes as the symbol in whose window it lies (R197). -/
theorem classify_eq_inr_iff (hcal : q.sprout = false) (hasc : 61604 ≤ q.asc) (h : isLate q (raw - q.dE) = false)
    {x : Nat} (hx : x < 4) :
    classify q (some lt) p = .inr x ↔ inSymWindow q lt (raw - q.dE) x = true := by
  have hfind : (List.range 4).find? (inSymWindow q lt (raw - q.dE)) = some x ↔
      inSymWindow q lt (raw - q.dE) x = true := by
    rw [List.find?_range_eq_some]
    refine ⟨And.left, fun hw => ⟨hw, List.mem_range.2 hx, fun j hj => ?_⟩⟩
    by_contra hj'
    rw [inSymWindow_unique hcal hasc (by simpa using hj') hj] at hw
    cases hw
  rw [← hfind]
  simp only [classify, hraw, h]
  by_cases hshort : raw - q.dE < q.scale 128
  · have hnone : (List.range 4).find? (inSymWindow q lt (raw - q.dE)) ≠ some x := fun hf =>
      absurd (not_short_of_inSymWindow hcal hasc (hfind.1 hf)) (by omega)
    simp [hshort, hnone]
  · rw [if_neg hshort]
    cases (List.range 4).find? (inSymWindow q lt (raw - q.dE)) <;> simp

end

/-- Settles O60: the windows do not meet, none reaches down to an empty pip, and the deadline is judged before them. -/
theorem pulsesDecodeInCalibratedWindows : Obligations.PulsesDecodeInCalibratedWindows := by
  unfold Obligations.PulsesDecodeInCalibratedWindows
  intro q lt r p hcal hgrade hlo _ hrise
  have hraw : pulseLen q.og p = some (stamp25 q.og r - stamp25 q.og p.fall) := by rw [pulseLen, hrise]
  dsimp only
  rw [width_by_grade _ hgrade, deadline_by_grade _ hgrade]
  refine ⟨fun hin x hx => ?_, fun hlate => classify_late hraw ((isLate_iff q _).2 hlate)⟩
  have hin' : isLate q (stamp25 q.og r - stamp25 q.og p.fall - q.dE) = false := by
    rw [Bool.eq_false_iff, Ne, isLate_iff]
    exact not_lt.2 hin
  rw [centre_by_grade _ hgrade _ hx, classify_eq_inr_iff hraw hcal hlo hin' hx, inSymWindow_calibrated hcal]

end Sys2Proof.Machine
end

section
/-!
SUPPORT. The words that a host port stages and reads back (R313, R352), and an ordinary write of a descriptor's word.
-/

namespace Sys2Proof.Machine

theorem exec_registerWrite (dt : Nat) (p : Port) (indirect : Bool) (addr : BitVec 24) (data : Word) (s : State) :
    exec (.registerWrite dt p indirect addr data) s = execRegisterWrite dt p indirect addr data s := rfl

/-! ### Host ports -/

theorem port_eq_h_or_m {p : Port} (hp : p ≠ .u) : p = .h ∨ p = .m := by
  cases p
  case u => exact absurd rfl hp
  · exact .inl rfl
  · exact .inr rfl

theorem port_other_ne {p : Port} (hp : p ≠ .u) : p.other ≠ p := by
  rcases port_eq_h_or_m hp with rfl | rfl <;> decide

/-- The direct registers that a host port writes (R311, R344). -/
theorem dirWrites_host {p : Port} (hp : p ≠ .u) (off : Nat) : dirWrites p off = (dirMapped off && off != 0x0E4) := by
  rcases port_eq_h_or_m hp with rfl | rfl <;> rfl

/-! ### Staged words (R313) -/

/-- A staged word after it has been written. -/
theorem setStaged_staged {p : Port} (hp : p ≠ .u) (s : State) (a : Nat) (w : Word) :
    (s.setStaged p a w).staged p a = w := by
  rcases port_eq_h_or_m hp with rfl | rfl <;> exact Tbl.get_set_same _ _ a w

/-- Another staged word. -/
theorem setStaged_staged_other (p : Port) (s : State) {a b : Nat} (w : Word) (hb : b ≠ a) :
    (s.setStaged p a w).staged p b = s.staged p b := by
  cases p
  case u => rfl
  all_goals exact Tbl.get_set_other _ _ w hb

/-- What staging a word leaves alone: what is in force, the loops' present values and the ports. -/
theorem setStaged_kept (s : State) (p : Port) (a : Nat) (w : Word) :
    (s.setStaged p a w).cfg.live = s.cfg.live ∧ calNow (s.setStaged p a w) = calNow s ∧
      (s.setStaged p a w).port = s.port := by
  cases p <;> exact ⟨rfl, rfl, rfl⟩

/-- What the record of a session's bits leaves alone (R300). -/
theorem setSecStaged_kept (s : State) (p : Port) (l : List (Nat × Word)) :
    (s.setSecStaged p l).cfg.live = s.cfg.live ∧ (s.setSecStaged p l).staged = s.staged ∧
      (s.setSecStaged p l).port = s.port := by
  cases p <;> exact ⟨rfl, rfl, rfl⟩

theorem merge_allOnes (w d : Word) : merge w d allOnes = d := by
  have h : allOnes = BitVec.allOnes 32 := rfl
  rw [merge, h, BitVec.and_allOnes, BitVec.not_allOnes, BitVec.and_zero, BitVec.zero_or]

/-- A whole word goes to the writing port's staging copy, and to nothing else that is in force (R313). -/
theorem stage_whole {p : Port} (hp : p ≠ .u) (s : State) (a : Nat) (d : Word) (secure : Bool) :
    (stage s p a d allOnes secure).staged p a = d ∧ (stage s p a d allOnes secure).cfg.live = s.cfg.live ∧
      (stage s p a d allOnes secure).port = s.port := by
  obtain ⟨hlive, hstaged, hport⟩ := setSecStaged_kept (s.setStaged p a d) p
    (noteSecure secure ((s.setStaged p a d).secStaged p) a allOnes)
  obtain ⟨hlive', -, hport'⟩ := setStaged_kept s p a d
  rw [stage, merge_allOnes, hstaged, hlive, hport]
  exact ⟨setStaged_staged hp s a d, hlive', hport'⟩

/-! ### The words of a descriptor (R168, R313) -/

/-- A key of the descriptor table. -/
theorem word4_desc {a : Nat} (h : a < 0x040000) : word4 a = .desc (a / 32) (a % 32) := if_pos h

/-- No LOCK bit guards a word of a descriptor (R320). -/
theorem lockedBits_desc (s : State) {a : Nat} (h : a < 0x040000) (d m : Word) : lockedBits s a d m = 0 := by
  simp [lockedBits, word4_desc h, word4Lock]

/-- A host may write the second word of a descriptor whole in an ordinary frame outside OFF (R289, R391). -/
theorem judgeInd_desc {p : Port} (hp : p ≠ .u) {s : State} (ho : s.mode.dev ≠ .off) {a : Nat} (h : a < 0x040000)
    (ha : a % 32 = 4) (d : Word) : judgeInd s p a d false = accepted_ := by
  have howner : ownerOf s a = none := by simp only [ownerOf, word4_desc h]
  have hmask : (cfgMask a ||| liveMask a) &&& allOnes = allOnes := by
    simp only [cfgMask, liveMask, word4_desc h, word4Mask]
    rfl
  have hsec : secureMask s a = 0 := by simp only [secureMask, howner, word4_desc h, ha, word4Secure]
  have hglobal : (a == aCalGlobal) = false := by simp only [aCalGlobal, beq_eq_false_iff_ne]; omega
  have hstaged : judgeStaged s p a d false = accepted_ := by
    simp only [judgeStaged, ownerMask, howner, hmask, hsec, lockedBits_desc s h, hglobal, ho]
    simp [accepted_, allOnes]
  have hmapped : indMapped a = true := by simp only [indMapped, decide_eq_true_eq]; omega
  have hlive : isLive a = false := by simp only [isLive, decide_eq_false_iff_not]; omega
  have hgroup : cfgGroup a = some 8 := by simp only [cfgGroup, word4_desc h, word4Group]
  rcases port_eq_h_or_m hp with rfl | rfl <;> simp [judgeInd, hmapped, hlive, hgroup, hstaged]

/-- A word of a descriptor that is accepted whole is staged (R313, R352). -/
theorem putInd_desc {p : Port} (hp : p ≠ .u) (s : State) {a : Nat} (h : a < 0x040000) (d : Word) (secure : Bool) :
    putInd s p a d allOnes secure = stage s p a d allOnes secure := by
  have hmask : allOnes &&& cfgMask a = allOnes := by
    simp only [cfgMask, word4_desc h, word4Mask]
    rfl
  have hm : allOnes ≠ 0 := by decide
  have hacc : ¬ (0x075000 ≤ a ∧ a < 0x077000) := by omega
  have hout : ¬ (0x077000 ≤ a ∧ a < 0x078000) := by omega
  rcases port_eq_h_or_m hp with rfl | rfl <;> simp only [putInd, hm, hacc, hout, if_false, word4_desc h, hmask]

/-- An ordinary write of a descriptor's second word stages it (R313). -/
theorem registerWrite_desc {s u : State} {dt : Nat} {p : Port} (h : FrameArrives s dt p u) (hp : p ≠ .u)
    (ho : u.mode.dev ≠ .off) {addr : BitVec 24} (ha : addr.toNat < 0x040000) (h4 : addr.toNat % 32 = 4) (d : Word) :
    exec (.registerWrite dt p true addr d) s = .next (stage u p addr.toNat d allOnes false) := by
  have hword : addr.toNat / 4 * 4 = addr.toNat := by omega
  rw [exec_registerWrite, execRegisterWrite, hostFrame_arrives h]
  simp only [hword, judgeInd_desc hp ho ha h4, accepted_, if_true, putInd_desc hp u ha]

end Sys2Proof.Machine
end

section
/-!
SUPPORT. Sequence write-backs (R314 to R316): the registers with SQ fields, when a write of one is accepted, and what it
clears.
-/

namespace Sys2Proof.Machine

theorem exec_seqWriteBack (dt : Nat) (p : Port) (off : BitVec 9) (data : Word) (s : State) :
    exec (.seqWriteBack dt p off data) s = execSeqWriteBack dt p off data s := rfl

/-- Whether a register has SQ fields depends on its offset alone. -/
theorem sqReg_isSome (x y : PortState) (off : Nat) : (sqReg x off).isSome = (sqReg y off).isSome := by
  unfold sqReg
  (repeat' split) <;> rfl

/-- The offsets of the registers with SQ fields. -/
theorem sqReg_off {x : PortState} {off : Nat} {r : SqReg} (h : sqReg x off = some r) :
    off = 0x00C ∨ off = 0x010 ∨ off = 0x018 ∨ off = 0x020 ∨ 0x0C0 ≤ off ∧ off ≤ 0x0E0 := by
  by_contra hne
  simp only [not_or] at hne
  obtain ⟨hcrc, hglb, halarm, hsupply, hregion⟩ := hne
  rw [sqReg, if_neg hcrc, if_neg hglb, if_neg halarm, if_neg hsupply, if_neg (by omega), if_neg (by omega)] at h
  cases h

/-- A copy of SQ fields after it has been replaced, where the register has any. -/
theorem setSqReg_sqReg (x : PortState) (off : Nat) (r : SqReg) :
    sqReg (setSqReg x off r) off = (sqReg x off).map fun _ => r := by
  unfold sqReg setSqReg
  split_ifs <;> simp

/-- A write-back with the current SEQ clears the masked fields, of a register that is no counter (R316). -/
theorem writeBack_sqReg {x : PortState} {off : Nat} {r : SqReg} (h : sqReg x off = some r) (hoff : off ≠ 0x00C)
    (d : Word) : sqReg (writeBack x off d) off = some (sqClear r (BitVec.ofNat 24 d.toNat)) := by
  simp only [writeBack, h, if_neg hoff, setSqReg_sqReg, Option.map_some]

/-- An ordinary write of a register with SQ fields is accepted in every state, where its SEQ is current (R289, R316,
R439). -/
theorem judgeDir_sqReg {s : State} {p : Port} (hp : p ≠ .u) {off : Nat} (h4 : off % 4 = 0) {r : SqReg}
    (h : sqReg (s.port p) off = some r) (d : Word) :
    judgeDir s p off d false =
      if BitVec.ofNat 8 (fld d 31 24) = r.seq then accepted_ else refused .seqStale := by
  have hoff := sqReg_off h
  have hsome : (sqReg {} off).isNone = false := by
    rw [← Option.not_isSome, sqReg_isSome {} (s.port p), h]
    rfl
  have hwrites : dirWrites p off = true := by
    simp only [dirWrites_host hp, dirMapped, Bool.and_eq_true, decide_eq_true_eq, Bool.not_eq_true',
      Bool.or_eq_false_iff, beq_eq_false_iff_ne, decide_eq_false_iff_not, bne_iff_ne]
    omega
  obtain ⟨hpolicy, hthresh, hlockReg, hcommit, hsession, hupdate, hmode⟩ : off ≠ 0x01C ∧ off ≠ 0x024 ∧
    off ≠ 0x028 ∧ off ≠ 0x02C ∧ off ≠ 0x060 ∧ off ≠ 0x0F0 ∧ off ≠ 0x110 := by omega
  have hsecure : needsSecure s p off d = false := by simp [needsSecure, hpolicy, hlockReg, hmode, hsession]
  have hstate : stateRefuses s p off d false = false := by
    simp only [stateRefuses, hsome]
    simp [hcommit, hmode, hupdate]
  have hlock : dirLocked s p off d false = 0 := by
    rw [dirLocked, if_neg hpolicy, if_neg hthresh, if_neg hupdate]
  by_cases hseq : BitVec.ofNat 8 (fld d 31 24) = r.seq
  · simp [judgeDir, hwrites, hsecure, hstate, hlock, h, hseq]
  · simp [judgeDir, hwrites, hsecure, hstate, hlock, h, hseq, Ne.symm hseq]

section

variable {s u : State} {dt : Nat} {p : Port} (h : FrameArrives s dt p u) (hp : p ≠ .u) {off : BitVec 9} {r : SqReg}
  (h4 : off.toNat % 4 = 0) (hr : sqReg (u.port p) off.toNat = some r) {d : Word}
include h hp h4 hr

/-- A write-back with the current SEQ (R316). -/
theorem seqWriteBack_current (hseq : BitVec.ofNat 8 (fld d 31 24) = r.seq) :
    exec (.seqWriteBack dt p off d) s = .next (u.onPort p fun x => writeBack x off.toNat d) := by
  rw [exec_seqWriteBack, execSeqWriteBack, hostFrame_arrives h, sqReg_isSome {} (u.port p), hr, Option.isSome_some,
    if_pos rfl, writeDir, judgeDir_sqReg hp h4 hr, if_pos hseq]
  simp only [accepted_, if_true, putDir, hr, Option.isSome_some]

/-- A write-back with another SEQ is answered SEQ_STALE and does nothing (R316). -/
theorem seqWriteBack_stale (hseq : BitVec.ofNat 8 (fld d 31 24) ≠ r.seq) :
    exec (.seqWriteBack dt p off d) s = .next u := by
  rw [exec_seqWriteBack, execSeqWriteBack, hostFrame_arrives h, sqReg_isSome {} (u.port p), hr, Option.isSome_some,
    if_pos rfl, writeDir, judgeDir_sqReg hp h4 hr, if_neg hseq]
  simp [refused, refusal]

end

end Sys2Proof.Machine
end

section
/-!
SUPPORT. Host writes with an effect of their own: LOCK, commits and captures (R317, R320, R322), flushes and saves
(R215, R228, R382), and DISCARD (R335).
-/

namespace Sys2Proof.Machine

theorem exec_commit (dt : Nat) (p : Port) (groups : BitVec 16) (s : State) :
    exec (.commit dt p groups) s = execCommit dt p groups s := rfl
theorem exec_lockSet (dt : Nat) (p : Port) (bits : BitVec 6) (s : State) :
    exec (.lockSet dt p bits) s = execLockSet dt p bits s := rfl
theorem exec_captureReq (dt : Nat) (p : Port) (restart : Bool) (s : State) :
    exec (.captureReq dt p restart) s = execCaptureReq dt p restart s := rfl
theorem exec_flush (dt : Nat) (p : Port) (g : Region) (s : State) :
    exec (.flush dt p g) s = execFlush dt p g s := rfl
theorem exec_evqFlush (dt : Nat) (p : Port) (s : State) : exec (.evqFlush dt p) s = execEvqFlush dt p s := rfl
theorem exec_calSave (dt : Nat) (p : Port) (s : State) : exec (.calSave dt p) s = execCalSave dt p s := rfl
theorem exec_discard (dt : Nat) (p : Port) (groups : BitVec 16) (s : State) :
    exec (.discard dt p groups) s = execDiscard dt p groups s := rfl

/-! ### LOCK, commits and captures (R317, R320, R322) -/

/-- LOCK takes secure writes only (R320). -/
theorem registerWrite_lock {s u : State} {dt : Nat} {p : Port} (h : FrameArrives s dt p u) (hp : p ≠ .u) (d : Word) :
    exec (.registerWrite dt p false 0x028 d) s = .next u := by
  have hwrites : dirWrites p 0x028 = true := (dirWrites_host hp _).trans rfl
  have hjudged : judgeDir u p 0x028 d false = refused .secure := by simp [judgeDir, hwrites, needsSecure]
  rw [exec_registerWrite, execRegisterWrite, hostFrame_arrives h]
  simp [writeDir, hjudged, refused, refusal]

/-- A rule change advances the rule epoch, once for an instant, and leaves LOCK alone (R321). -/
theorem ruleChange_epoch (s : State) : (ruleChange s).lock = s.lock ∧
    (s.epochAt ≠ some s.grid.now → (ruleChange s).epoch = s.epoch + 1) := by
  unfold ruleChange
  split
  · next h => exact ⟨rfl, fun hne => absurd h hne⟩
  · exact ⟨rfl, fun _ => rfl⟩

/-- A secure write of LOCK sets bits, and a bit newly set is a rule change (R320, R321). -/
theorem lockWrite_sets (s : State) (bits : BitVec 6) : (lockWrite s bits).lock = s.lock ||| bits ∧
    (s.lock ||| bits ≠ s.lock → s.epochAt ≠ some s.grid.now → (lockWrite s bits).epoch = s.epoch + 1) := by
  unfold lockWrite
  split
  · next h => exact ⟨h.symm, fun hne => absurd h hne⟩
  · obtain ⟨hlock, hepoch⟩ := ruleChange_epoch { s with lock := s.lock ||| bits }
    exact ⟨hlock, fun _ => hepoch⟩

/-- A capture request where none waits (R322). -/
theorem requestCapture_req {s : State} (h : s.cap.req = none) (restart : Bool) :
    (requestCapture s restart).cap.req = some (captureFrom s, restart) := by
  simp only [requestCapture, h]

/-! ### Flushes and saves (R215, R228) -/

/-- A region whose banks have both been replaced by empty ones, whichever of them is open. -/
theorem setOpen_setClosed_emptied (r : RegionState) {b c : BankState} (hb : b.pkts = []) (hc : c.pkts = []) :
    ((r.setOpen b).setClosed c).bankA.pkts = [] ∧ ((r.setOpen b).setClosed c).bankB.pkts = [] ∧
      ((r.setOpen b).setClosed c).open_ = b := by
  rw [setClosed_open, setOpen_open]
  cases h : r.openB <;> simp [RegionState.setOpen, RegionState.setClosed, h, hb, hc]

/-- A happening of the hoard leaves the regions alone. -/
theorem regionLost_region (s : State) (g : Nat) (num : BitVec 48) (k : Nat) :
    (regionLost s g num).region k = s.region k := by
  obtain ⟨-, -, -, -, -, hregion, -⟩ := of_offHoard (regionLost_offHoard s g num)
  exact hregion k

/-- FLUSH empties both banks of its region and marks the open one lost (R228); it counts, and leaves the other
regions alone. -/
theorem flushRegion_region (s : State) (g : Nat) :
    ((flushRegion s g).region g).bankA.pkts = [] ∧ ((flushRegion s g).region g).bankB.pkts = [] ∧
      ((flushRegion s g).region g).open_.lost = true ∧
      ((flushRegion s g).region g).flushes = satInc (s.region g).flushes ∧
      ∀ k, k ≠ g → (flushRegion s g).region k = s.region k := by
  unfold flushRegion
  extract_lets r c draining s1 s2 s3
  have h1 (k : Nat) : s1.region k = s.region k := by simp only [s1]; split <;> simp only [regionLost_region]
  have h2 (k : Nat) : s2.region k = s.region k := by
    simp only [s2]; split <;> simp only [regionLost_region, h1]
  have h3 (k : Nat) : s3.region k = s.region k := by simp only [s3, State.onAsm_kept, h2]
  rw [State.onRegion_eq, State.setRegion_region, h3]
  obtain ⟨hA, hB, hopen⟩ := setOpen_setClosed_emptied (s.region g)
    (b := { (s.region g).open_ with pkts := [], lost := true })
    (c := { c with pkts := [], lost := c.lost || draining }) rfl rfl
  refine ⟨hA, hB, congrArg BankState.lost hopen, rfl, fun k hk => ?_⟩
  rw [State.setRegion_region_other _ _ hk, h3]

/-- CAL_SAVE in RUN is due at once where none has been taken (R215). -/
theorem calSaveWrite_due {s : State} (hrun : s.mode.dev = .run) (hnone : s.mode.savedAt = none) :
    (calSaveWrite s).mode.saveDue = true ∧ (calSaveWrite s).mode.saveRefused = false := by
  simp [calSaveWrite, hrun, hnone]

/-! ### DISCARD (R335) -/

/-- One word of a DISCARD: a word of the named groups takes its present value. -/
def discardWord (p : Port) (groups : BitVec 16) (s : State) (a : Nat) : State :=
  if takes groups a then s.setStaged p a (calNow s a &&& cfgMask a) else s

theorem discardWrite_eq (s : State) (p : Port) (groups : BitVec 16) : discardWrite s p groups =
    takeSec ((stagedKeys s p ++ if groups.getLsbD 14 then calKeys s else []).foldl (discardWord p groups) s) p groups :=
  rfl

/-- What a DISCARD of a word leaves alone, and the staged words after it. -/
theorem discardWord_staged {p : Port} (hp : p ≠ .u) (groups : BitVec 16) (s : State) (k : Nat) :
    (discardWord p groups s k).cfg.live = s.cfg.live ∧ calNow (discardWord p groups s k) = calNow s ∧
      ∀ a, (discardWord p groups s k).staged p a =
        if a = k ∧ takes groups a then calNow s a &&& cfgMask a else s.staged p a := by
  unfold discardWord
  split
  · next ht =>
    obtain ⟨hlive, hcal, -⟩ := setStaged_kept s p k (calNow s k &&& cfgMask k)
    refine ⟨hlive, hcal, fun a => ?_⟩
    by_cases ha : a = k
    · subst ha
      rw [setStaged_staged hp, if_pos ⟨rfl, ht⟩]
    · rw [setStaged_staged_other p s _ ha, if_neg fun h => ha h.1]
  · next ht => exact ⟨rfl, rfl, fun a => (if_neg (by rintro ⟨rfl, h⟩; exact ht h)).symm⟩

/-- A DISCARD of several words: the present values do not change under it, so each word takes its own. -/
theorem discardWords_staged {p : Port} (hp : p ≠ .u) (groups : BitVec 16) (keys : List Nat) (s : State) :
    (keys.foldl (discardWord p groups) s).cfg.live = s.cfg.live ∧
      ∀ a, (keys.foldl (discardWord p groups) s).staged p a =
        if a ∈ keys ∧ takes groups a then calNow s a &&& cfgMask a else s.staged p a := by
  induction keys generalizing s with
  | nil => exact ⟨rfl, fun a => by simp⟩
  | cons k keys ih =>
    obtain ⟨hlive, hcal, hstaged⟩ := discardWord_staged hp groups s k
    obtain ⟨hlive', hstaged'⟩ := ih (discardWord p groups s k)
    refine ⟨hlive'.trans hlive, fun a => ?_⟩
    rw [List.foldl_cons, hstaged', hcal, hstaged]
    by_cases ht : takes groups a = true
    · by_cases ha : a ∈ keys <;> simp [ht, ha]
    · simp [ht]

/-- DISCARD sets a port's staged words of its groups to what is in force, and leaves the others alone (R335). -/
theorem discardWrite_staged {p : Port} (hp : p ≠ .u) (s : State) (groups : BitVec 16) :
    (discardWrite s p groups).cfg.live = s.cfg.live ∧
      ∀ a ∈ stagedKeys s p, (discardWrite s p groups).staged p a =
        if takes groups a then calNow s a &&& cfgMask a else s.staged p a := by
  rw [discardWrite_eq, takeSec]
  obtain ⟨hlive, hstaged, -⟩ := setSecStaged_kept
    ((stagedKeys s p ++ if groups.getLsbD 14 then calKeys s else []).foldl (discardWord p groups) s) p _
  obtain ⟨hlive', hstaged'⟩ := discardWords_staged hp groups
    (stagedKeys s p ++ if groups.getLsbD 14 then calKeys s else []) s
  refine ⟨hlive.trans hlive', fun a ha => ?_⟩
  rw [hstaged, hstaged']
  simp [ha]

/-! ### Host writes with an effect of their own -/

/-- Settles O27, write by write. -/
theorem hostWritesAct : Obligations.HostWritesAct := by
  unfold Obligations.HostWritesAct
  refine ⟨fun s u dt p off d r h hp h4 hoff hr =>
      ⟨fun hseq => ⟨_, seqWriteBack_current h hp h4 hr hseq, ?_, ?_⟩,
        fun hseq => seqWriteBack_stale h hp h4 hr hseq⟩,
    fun s u dt p addr d h hp ho ha h4 => ⟨_, registerWrite_desc h hp ho ha h4 d, ?_⟩,
    fun s u dt p d h hp => registerWrite_lock h hp d,
    fun s u dt p h hp ho => ⟨fun groups hgroups hstate => ?_, fun bits hsess => ?_, fun restart hreq => ?_,
      fun g => ?_, ?_, fun hmig hrun hsaved => ?_, fun groups => ?_⟩⟩
  · rw [State.onPort_eq, State.setPort_port]
    exact writeBack_sqReg hr (fun hcrc => hoff (BitVec.eq_of_toNat_eq hcrc)) d
  · rw [State.onPort_eq, State.setPort_other _ _ (port_other_ne hp)]
  · obtain ⟨hstaged, hlive, hport⟩ := stage_whole hp u addr.toNat d false
    exact ⟨hstaged, hlive, congrFun hport p⟩
  · refine ⟨_, (exec_commit dt p groups s).trans (hostWrite_arrives h ho _), ?_⟩
    rw [if_pos ⟨hp, hstate⟩, commitWrite, if_neg hgroups]
  · refine ⟨_, (exec_lockSet dt p bits s).trans (hostWrite_arrives h ho _), ?_⟩
    rw [if_pos hsess]
    exact lockWrite_sets u bits
  · refine ⟨_, (exec_captureReq dt p restart s).trans (hostWrite_arrives h ho _), ?_⟩
    rw [if_neg (by simp [hp, ho])]
    exact requestCapture_req hreq restart
  · refine ⟨_, (exec_flush dt p g s).trans (hostWrite_arrives h ho _), ?_⟩
    rw [if_neg hp]
    exact flushRegion_region u g.val
  · refine ⟨_, (exec_evqFlush dt p s).trans (hostWrite_arrives h ho _), ?_⟩
    rw [if_neg hp, flushQueue, State.onPort_eq, State.setPort_port, State.setPort_other _ _ (port_other_ne hp)]
    exact ⟨rfl, rfl⟩
  · refine ⟨_, (exec_calSave dt p s).trans (hostWrite_arrives h ho _), ?_⟩
    rw [if_neg (by simp [hp, hmig])]
    exact calSaveWrite_due hrun hsaved
  · refine ⟨_, (exec_discard dt p groups s).trans (hostWrite_arrives h ho _), ?_⟩
    rw [if_neg hp]
    exact discardWrite_staged hp u groups

end Sys2Proof.Machine
end

section
/-!
SUPPORT. The rows of the table of record states (R234, R235), in their order.
-/

namespace Sys2Proof.Machine

section
variable (due : Bool) {on : Option Entry} (late : Option Entry)

/-- No on-time entry is in state GAP, so that the row of R234 for such an entry does not hold. -/
def NoEntryGap (on : Option Entry) : Prop := ∀ e, on = some e → e.prov ≠ .gap

theorem recState_laneGap : recState false false .gap due on late = (.gap, none, none) := by
  cases on <;> rfl

theorem recState_entryGap (lane : LaneCond) {e : Entry} (h : e.prov = .gap) :
    recState false false lane due (some e) late = (.gap, none, none) := by
  unfold recState
  simp [h]

theorem recState_fault (h : NoEntryGap on) : recState false false .fault due on late = (.fault, none, on) := by
  cases on with
  | none => rfl
  | some e =>
    unfold recState
    simp [h e rfl]

theorem recState_onTime {e : Entry} (h : e.prov ≠ .gap) : recState false false .none true (some e) late =
    (e.prov, if e.hasValue && e.prov != .stale then some e else none, some e) := by
  unfold recState
  simp [h]

theorem recState_late (h : NoEntryGap on) (hdue : due = false ∨ on = none) (e : Entry) :
    recState false false .none due on (some e) = (.late, some e, some e) := by
  obtain rfl | rfl := hdue
  · cases on with
    | none => rfl
    | some x =>
      unfold recState
      simp [h x rfl]
  · cases due <;> rfl

theorem recState_notDue (h : NoEntryGap on) : recState false false .none false on none = (.stale, none, on) := by
  cases on with
  | none => rfl
  | some x =>
    unfold recState
    simp [h x rfl]

end

/-- Settles O51, row by row. -/
theorem recordsTakeTheFirstRow : Obligations.RecordsTakeTheFirstRow := by
  unfold Obligations.RecordsTakeTheFirstRow
  intro gap lost due lane on late
  refine ⟨fun hgap => ?_, fun hgap hlost => ?_, fun hgap hlost => ?_⟩
  · rw [hgap]; rfl
  · rw [hgap, hlost]; rfl
  subst hgap hlost
  refine ⟨fun hrow => ?_, fun hlane hon => ?_, fun hlane hon => ?_⟩
  · obtain rfl | ⟨e, rfl, he⟩ := hrow
    · exact recState_laneGap due late
    · exact recState_entryGap due late lane he
  · rw [hlane, recState_fault due late hon]
  subst hlane
  refine ⟨fun e hdue he => ?_, fun e hnone he => ?_, fun hdue hnone hlate => ?_, fun hdue hlate => ?_⟩
  · rw [hdue, he, recState_onTime late (hon e he)]
  · rw [he, recState_late due hon hnone]
  · rw [hdue, hnone, hlate]; rfl
  · rw [hdue, hlate, recState_notDue hon]

end Sys2Proof.Machine
end

section
/-!
SUPPORT. The records of a snapshot (R234 to R237): what resolving one endpoint adds to the records, and what it makes of
the error counts.
-/

namespace Sys2Proof.Machine

theorem b2n_le_one (b : Bool) : b2n b ≤ 1 := by cases b <;> decide

theorem RecState.code_lt (st : RecState) : st.code < 8 := by cases st <;> decide

/-! ### Error counts (R237) -/

theorem errAfter_le {err : Nat} (h : err ≤ 3) (st : RecState) : errAfter st err ≤ 3 := by
  unfold errAfter
  split <;> omega

/-- The error counts after a write of an endpoint. -/
theorem setEp_err (s : State) (i : Nat) (x : EpState) (k : Nat) :
    ((s.setEp i x).ep k).err = if k = i then x.err else (s.ep k).err := by
  by_cases hk : k = i
  · subst hk
    simp
  · simp [hk, State.setEp_ep_other s x hk]

/-- A write of an endpoint that leaves its error count leaves them all. -/
theorem setEp_same_err (s : State) (i : Nat) {x : EpState} (h : x.err = (s.ep i).err) (k : Nat) :
    ((s.setEp i x).ep k).err = (s.ep k).err := by
  rw [setEp_err, h]
  split
  · next hk => rw [hk]
  · rfl

theorem settleClears_err (s : State) (b : Build) (i k : Nat) : ((settleClears s b i).ep k).err = (s.ep k).err := by
  unfold settleClears
  dsimp only
  split
  · rfl
  · refine setEp_same_err s i ?_ k
    rfl

theorem threshold_err (s : State) (i : Nat) (st : RecState) (v : Word) (k : Nat) :
    ((threshold s i st v).ep k).err = (s.ep k).err := by
  unfold threshold
  dsimp only
  split
  · rfl
  · simp only [raise_kept, State.onEp_eq]
    refine setEp_same_err s i ?_ k
    rfl

/-! ### One record -/

/-- `t` has one record more than `r`, that of endpoint `i` in state `st`: its status starts with the state's code and
ends with the error count that this endpoint then has, and no other error count is new (R236, R237). -/
structure Recorded (r : Resolve) (i : Nat) (st : RecState) (x : Rec) (t : Resolve) : Prop where
  recs : t.recs = r.recs ++ [x]
  idx : x.idx = i
  status : ∃ m < 8, x.status = BitVec.ofNat 8 (st.code + 8 * m + 64 * errAfter st (r.st.ep i).err)
  err : ∀ k, (t.st.ep k).err = if k = i then errAfter st (r.st.ep i).err else (r.st.ep k).err

/-- The status bits between the state and the error count: HUSK, the calibration step and TIME_UNLOCKED (R236). -/
theorem statusFlags_fit (c err f : Nat) (husk step : Bool) :
    ∃ m < 8, BitVec.ofNat 8 (c + 8 * b2n husk + 16 * b2n step + 32 * (f % 2) + 64 * err) =
      BitVec.ofNat 8 (c + 8 * m + 64 * err) := by
  have hhusk := b2n_le_one husk
  have hstep := b2n_le_one step
  exact ⟨b2n husk + 2 * b2n step + 4 * (f % 2), by omega, congrArg _ (by omega)⟩

/-- A status holds the state's code in bits 2:0 and the error count in bits 7:6 (R236). -/
theorem status_fields {c m err : Nat} (hc : c < 8) (hm : m < 8) (he : err ≤ 3) :
    (BitVec.ofNat 8 (c + 8 * m + 64 * err)).toNat % 8 = c ∧
      (BitVec.ofNat 8 (c + 8 * m + 64 * err)).toNat / 64 = err := by
  rw [BitVec.toNat_ofNat]
  omega

/-- Resolving an endpoint adds its record. -/
theorem resolveRec_recorded (b : Build) (r : Resolve) (i : Nat) : ∃ st x, Recorded r i st x (resolveRec b r i) := by
  unfold resolveRec
  extract_lets s n gap lost onPk on lates newest late stale e status due
  have hs (k : Nat) : (s.ep k).err = (r.st.ep k).err := settleClears_err _ _ _ k
  have he : e.err = (r.st.ep i).err := hs i
  split
  case isTrue =>
    refine ⟨.gap, _, rfl, rfl, ?_, fun k => ?_⟩
    · rw [← he]
      exact statusFlags_fit 7 e.err b.flags.toNat false false
    · refine (threshold_err _ _ _ _ _).trans ((hs k).trans ?_)
      split
      · next hk => rw [hk]; rfl
      · rfl
  case isFalse =>
    obtain ⟨st, src, bits⟩ := recState false lost (condOfPackets onPk) due on late
    refine ⟨st, _, rfl, rfl, ?_, fun k => ?_⟩
    · rw [← he]
      exact statusFlags_fit st.code (errAfter st e.err) b.flags.toNat _ _
    · refine (threshold_err _ _ _ _ _).trans ((setEp_err _ _ _ _).trans ?_)
      rw [hs k, he]

/-- Settles O52, from what resolving one endpoint adds. -/
theorem errorCountsStayBelowFour : Obligations.ErrorCountsStayBelowFour := by
  unfold Obligations.ErrorCountsStayBelowFour
  refine ⟨fun _ => rfl, fun st err hst herr => ?_, fun st err hvalid hmissing hlate hfault => ?_,
    fun st _ herr => errAfter_le herr st, fun _ _ _ _ => rfl, fun b r i herr => ?_⟩
  · have hcount : errAfter st err = min 3 (err + 1) := by obtain rfl | rfl | rfl := hst <;> rfl
    split <;> omega
  · rw [errAfter] <;> assumption
  · obtain ⟨st, x, h⟩ := resolveRec_recorded b r i
    obtain ⟨m, hm, hstatus⟩ := h.status
    obtain ⟨hcode, hcount⟩ := status_fields st.code_lt hm (errAfter_le herr st)
    refine ⟨st, x, h.recs, h.idx, ?_, (h.err i).trans (if_pos rfl), ?_, fun k hk => (h.err k).trans (if_neg hk)⟩
    · rw [hstatus, hcode]
    · rw [hstatus, hcount]

end Sys2Proof.Machine
end

section
/-!
SUPPORT. What the work that follows the assembly of a snapshot leaves alone (R232): the snapshots under way, the number
and the records of the latest complete one, the count of snapshots, and the device state. Streams, routes and the hoard
read the snapshot; they change of it at most what later readers find in its bank (R243).
-/

namespace Sys2Proof.Machine

/-- The snapshots under way, number and records of the latest complete one, the count of complete ones, the device
state, and whether the boot commit fell back. -/
def State.assembled (s : State) :=
  (s.asm_.build, s.asm_.latest.map (fun x => (x.num, x.recs)), s.asm_.cnt.snapshots, s.mode.dev, s.mode.fallback)

/-! ### Writes and events -/

@[simp] theorem assembled_mk (s : State) (cfg : CfgState) (h m u : PortState) (cap : CaptureState) (cycle : List Event)
    (lanes : Tbl LaneState) (eps : Tbl EpState) (regions : Tbl RegionState) (streams : Tbl StreamState)
    (ul0 ul1 : UplinkState) (routes : Tbl RouteState) (hoard : HoardState) (grid : GridState) :
    State.assembled { s with
      cfg := cfg, h := h, m := m, u := u, cap := cap, cycle := cycle, lanes := lanes, eps := eps, regions := regions
      streams := streams, ul0 := ul0, ul1 := ul1, routes := routes, hoard := hoard, grid := grid } = s.assembled := rfl

@[simp] theorem setEp_assembled (s : State) (i : Nat) (x : EpState) : (s.setEp i x).assembled = s.assembled := rfl
@[simp] theorem setRoute_assembled (s : State) (r : Nat) (x : RouteState) :
    (s.setRoute r x).assembled = s.assembled := rfl
@[simp] theorem setStream_assembled (s : State) (k : Nat) (x : StreamState) :
    (s.setStream k x).assembled = s.assembled := rfl
@[simp] theorem setUplink_assembled (s : State) (u : Ul) (x : UplinkState) :
    (s.setUplink u x).assembled = s.assembled := by cases u <;> rfl
@[simp] theorem onHoard_assembled (s : State) (f : HoardState → HoardState) :
    (s.onHoard f).assembled = s.assembled := rfl
@[simp] theorem glb_assembled (s : State) (n : Nat) : (glb s n).assembled = s.assembled := rfl
@[simp] theorem raise_assembled (s : State) (src origin : Nat) (data : Word) :
    (raise s src origin data).assembled = s.assembled := by simp [State.assembled]

theorem under_assembled (s : State) (G : Int) {f : State → State} (h : ∀ u, (f u).assembled = u.assembled) :
    (s.under G f).assembled = s.assembled := h (s.seenAt G)

/-! ### The hoard and the routes (R271, R272, R486) -/

@[simp] theorem hoardBlock_assembled (s : State) (typ lane : Nat) (body : Bytes) :
    (hoardBlock s typ lane body).assembled = s.assembled := by
  unfold hoardBlock
  dsimp only
  (repeat' split) <;> rfl
@[simp] theorem hoardDigest_assembled (s : State) (num : BitVec 48) (body : Bytes) :
    (hoardDigest s num body).assembled = s.assembled := by
  unfold hoardDigest
  (repeat' split) <;> simp
@[simp] theorem happen_assembled (s : State) (n : Nat) (tick : BitVec 48) (kind pos : Nat) (arg : Bytes) :
    (happen s n tick kind pos arg).assembled = s.assembled := by unfold happen; split <;> simp
@[simp] theorem wakeCond_assembled (s : State) : (wakeCond s).assembled = s.assembled := by
  unfold wakeCond
  (repeat' split) <;> rfl
@[simp] theorem dropRouteWrite_assembled (s : State) (i : Nat) : (dropRouteWrite s i).assembled = s.assembled := by
  unfold dropRouteWrite routeDrop
  split <;> simp
@[simp] theorem routeWriteTo_assembled (s : State) (r : Nat) (v : Word) :
    (routeWriteTo s r v).assembled = s.assembled := by
  unfold routeWriteTo routeDrop
  dsimp only
  (repeat' split) <;> simp
@[simp] theorem routeFire_assembled (s : State) (r : Nat) (v : Word) : (routeFire s r v).assembled = s.assembled := by
  unfold routeFire
  dsimp only
  split <;> simp
@[simp] theorem routeEval_assembled (s : State) (r : Nat) (x : Option Rec) :
    (routeEval s r x).assembled = s.assembled := by
  unfold routeEval
  dsimp only
  (repeat' split) <;> simp
@[simp] theorem routesSnap_assembled (s : State) (x : Snap) : (routesSnap s x).assembled = s.assembled :=
  keep_foldl State.assembled fun s r => routeEval_assembled s r _

/-! ### Streams (R258 to R268) -/

@[simp] theorem handMac_assembled (s : State) (f : TxFrame) (u : Ul) : (handMac s f u).assembled = s.assembled :=
  setUplink_assembled _ _ _
@[simp] theorem macRun_assembled (u : Ul) (n : Nat) (s : State) : (macRun u n s).assembled = s.assembled := by
  induction n generalizing s with
  | zero => rfl
  | succ n ih =>
    simp only [macRun]
    (repeat' split) <;> simp [ih]
@[simp] theorem macs_assembled (s : State) : (macs s).assembled = s.assembled := by simp [macs]
@[simp] theorem refreshStreams_assembled (s : State) : (refreshStreams s).assembled = s.assembled :=
  keep_foldl State.assembled fun s k => by
    unfold refreshStream dropStopped
    dsimp only
    (repeat' split) <;> simp
@[simp] theorem countDropped_assembled (s : State) (k n : Nat) : (countDropped s k n).assembled = s.assembled := rfl
@[simp] theorem keyCurrent_assembled (s : State) (k : Nat) (num : BitVec 48) :
    (keyCurrent s k num).assembled = s.assembled := by
  unfold keyCurrent
  (repeat' split) <;> rfl
@[simp] theorem seqCheck_assembled (s : State) (k : Nat) (num : BitVec 48) :
    (seqCheck s k num).assembled = s.assembled := by
  unfold seqCheck
  (repeat' split) <;> rfl
@[simp] theorem keyExpiredEvent_assembled (s : State) (k : Nat) : (keyExpiredEvent s k).assembled = s.assembled := by
  simp [keyExpiredEvent]
@[simp] theorem dropJob_assembled (k : Nat) (s : State) (j : SegJob) : (dropJob k s j).assembled = s.assembled := by
  simp [dropJob]
@[simp] theorem streamSnap_assembled (x : Snap) (s : State) (k : Nat) : (streamSnap x s k).assembled = s.assembled := by
  have hdrop (js : List SegJob) (v : State) : (js.foldl (dropJob k) v).assembled = v.assembled :=
    keep_foldl State.assembled (dropJob_assembled k)
  unfold streamSnap
  dsimp only
  (repeat' split) <;> simp [hdrop]

/-- A write of the assembler that leaves the snapshots and their count. -/
theorem onAsm_assembled (s : State) {f : AsmState → AsmState}
    (h : ∀ a, (f a).build = a.build ∧ (f a).latest = a.latest ∧ (f a).cnt.snapshots = a.cnt.snapshots) :
    (s.onAsm f).assembled = s.assembled := by
  simp [State.assembled, h]

/-- What a later reading finds in a record changes neither number nor records of a held snapshot (R243). -/
theorem onSnap_assembled (s : State) (num : BitVec 48) {f : Snap → Snap}
    (h : ∀ x, (f x).num = x.num ∧ (f x).recs = x.recs) : (onSnap s num f).assembled = s.assembled := by
  simp only [State.assembled, onSnap, State.onAsm_asm_, State.onAsm_kept]
  cases s.asm_.latest with
  | none => rfl
  | some x =>
    simp only [Option.map_some]
    split <;> simp [h x]
@[simp] theorem eccRead_assembled (num : BitVec 48) (s : State) (j : Nat) :
    (eccRead num s j).assembled = s.assembled := by
  unfold eccRead
  split
  · rfl
  · extract_lets v
    have hv : v.assembled = s.assembled := by
      simp only [v]
      split
      · refine (onAsm_assembled _ fun _ => ⟨rfl, rfl, rfl⟩).trans (onSnap_assembled s num ?_)
        exact fun _ => ⟨rfl, rfl⟩
      · rfl
    split
    · refine (raise_assembled _ _ _ _).trans ((onSnap_assembled v num ?_).trans hv)
      exact fun _ => ⟨rfl, rfl⟩
    · exact hv
@[simp] theorem emit_assembled (s : State) (k : Nat) (num : BitVec 48) (idx : Nat) (g : Option Nat) (via : List Ul)
    (hdr body : Bytes) : (emit s k num idx g via hdr body).assembled = s.assembled :=
  (keep_foldl State.assembled fun s u => handMac_assembled s _ u).trans (setStream_assembled _ _ _)
@[simp] theorem sealJob_assembled (s : State) (k : Nat) (j : SegJob) (x : Snap) :
    (sealJob s k j x).1.assembled = s.assembled := by
  unfold sealJob
  dsimp only
  split
  · rfl
  · refine (keep_foldl State.assembled fun s r => ?_).trans ((emit_assembled _ _ _ _ _ _ _ _).trans ?_)
    · rfl
    · exact keep_foldl State.assembled fun s r => eccRead_assembled _ _ _
@[simp] theorem streamTurn_assembled (s : State) (k : Nat) : (streamTurn s k).assembled = s.assembled := by
  unfold streamTurn
  split
  · rfl
  · split
    · exact (keep_foldl State.assembled (dropJob_assembled k)).trans rfl
    · refine under_assembled s _ fun u => ?_
      split
      · dsimp only
        split <;> simp
      · rfl
      · rfl
@[simp] theorem sealTurns_assembled (n : Nat) (s : State) : (sealTurns n s).assembled = s.assembled := by
  induction n generalizing s with
  | zero => rfl
  | succ n ih => exact (ih _).trans (keep_foldl State.assembled streamTurn_assembled)
@[simp] theorem sealAll_assembled (s : State) : (sealAll s).assembled = s.assembled := by
  unfold sealAll
  split
  · rfl
  · exact (macs_assembled _).trans ((sealTurns_assembled _ _).trans (keep_foldl State.assembled streamTurn_assembled))

end Sys2Proof.Machine
end

section
/-!
SNAPSHOT_DONE (R232, R233, R437, R459): the records of the population, the completion, and the end of SOW.
-/

namespace Sys2Proof.Machine

theorem exec_snapshotDone (dt : Nat) (single : EccFound) (bad decayed : List Idx) (s : State) :
    exec (.snapshotDone dt single bad decayed) s = execSnapshotDone dt single bad decayed s := rfl

/-! ### The records -/

@[simp] theorem settleClears_assembled (s : State) (b : Build) (i : Nat) :
    (settleClears s b i).assembled = s.assembled := by
  unfold settleClears
  dsimp only
  split <;> rfl
@[simp] theorem threshold_assembled (s : State) (i : Nat) (st : RecState) (v : Word) :
    (threshold s i st v).assembled = s.assembled := by
  unfold threshold
  dsimp only
  split <;> simp
@[simp] theorem resolveRec_assembled (b : Build) (r : Resolve) (i : Nat) :
    (resolveRec b r i).st.assembled = r.st.assembled := by
  unfold resolveRec
  extract_lets s n gap lost onPk on lates newest late stale e status due
  have hs : s.assembled = r.st.assembled := settleClears_assembled _ _ _
  split
  · exact (threshold_assembled _ _ _ _).trans hs
  · exact (threshold_assembled _ _ _ _).trans hs

/-- Resolving endpoints one after another adds their records in their order (R232). -/
theorem resolveRecs_recs (b : Build) (is_ : List Nat) (r : Resolve) :
    (is_.foldl (resolveRec b) r).recs.map Rec.idx = r.recs.map Rec.idx ++ is_ := by
  induction is_ generalizing r with
  | nil => simp
  | cons i is_ ih =>
    obtain ⟨st, x, h⟩ := resolveRec_recorded b r i
    rw [List.foldl_cons, ih, h.recs, List.map_append, List.map_singleton, h.idx, List.append_assoc,
      List.singleton_append]

/-- The assembler's snapshot has one record for each endpoint of the population (R232); an uncorrectable record stays
its endpoint's (R243). -/
theorem assemble_recs (s : State) (b : Build) (fixed : Nat) (bad decayed flips : List Nat) :
    (assemble s b fixed bad decayed flips).2.recs.map Rec.idx = population s := by
  have hrecs := resolveRecs_recs b (population s) { st := s, recs := [], dropped := 0, lost := [], kept := [] }
  unfold assemble
  dsimp only
  rw [List.map_map]
  refine Eq.trans (List.map_congr_left fun x _ => ?_) (hrecs.trans (List.nil_append _))
  rw [Function.comp_apply]
  split <;> rfl

@[simp] theorem drained_assembled (num : BitVec 48) (s : State) (g : Nat) :
    (drained num s g).assembled = s.assembled := by
  unfold drained
  dsimp only
  split <;> rfl

/-- The oldest snapshot under way is the latest complete one once it is assembled, and counts (R232, R233). -/
theorem assemble_assembled (s : State) (b : Build) (fixed : Nat) (bad decayed flips : List Nat) :
    (assemble s b fixed bad decayed flips).1.assembled =
      (s.asm_.build.drop 1, some (b.num, (assemble s b fixed bad decayed flips).2.recs),
        satAdd 4294967295 s.asm_.cnt.snapshots, s.mode.dev, s.mode.fallback) := by
  have hrecs : ((population s).foldl (resolveRec b)
      { st := s, recs := [], dropped := 0, lost := [], kept := [] }).st.assembled = s.assembled :=
    keep_foldl_at State.assembled Resolve.st (resolveRec_assembled b)
  simp only [State.assembled, Prod.mk.injEq] at hrecs
  obtain ⟨hbuild, -, hcount, hdev, hfallback⟩ := hrecs
  unfold assemble
  dsimp only
  rw [keep_foldl State.assembled (drained_assembled b.num)]
  simp only [State.assembled, State.onAsm_asm_, State.onAsm_kept, hbuild, hcount, hdev, hfallback, Option.map_some]

/-- Streams, routes and the hoard follow the assembly (R232, step 5). -/
theorem snapDone_assembled (s : State) (b : Build) (fixed : Nat) (bad decayed flips : List Nat) :
    (snapDone s b fixed bad decayed flips).assembled = (assemble s b fixed bad decayed flips).1.assembled := by
  unfold snapDone
  dsimp only
  rw [hoardDigest_assembled, routesSnap_assembled, keep_foldl State.assembled (streamSnap_assembled _), glb_assembled,
    raise_assembled]

/-- What SNAPSHOT_DONE leaves of the state that it meets, before SOW ends: the snapshot's completion under the words of
its grid instant, and the segments that can be sealed then (R28, R258). -/
def completed (u : State) (b : Build) (fixed : Nat) (bad decayed flips : List Nat) : State :=
  refreshStreams (sealAll (u.under b.at_ fun v => snapDone v b fixed bad decayed flips))

theorem snapshotDone_completes {s u : State} {dt : Nat} {b : Build} {rest : List Build} (h : Arrives s dt u)
    (hbuild : u.asm_.build = b :: rest) (single : EccFound) (bad decayed : List Idx) :
    exec (.snapshotDone dt single bad decayed) s = .next (endSow (completed u b single.fixed (bad.map Fin.val)
      (decayed.map Fin.val) (single.flips.map Fin.val))) := by
  rw [exec_snapshotDone, execSnapshotDone, run_arrives h, hbuild, completed]

theorem completed_assembled (u : State) (b : Build) (fixed : Nat) (bad decayed flips : List Nat) :
    (completed u b fixed bad decayed flips).assembled =
      (u.asm_.build.drop 1, some (b.num, (assemble (u.seenAt b.at_) b fixed bad decayed flips).2.recs),
        satAdd 4294967295 u.asm_.cnt.snapshots, u.mode.dev, u.mode.fallback) := by
  rw [completed, refreshStreams_assembled, sealAll_assembled]
  exact (snapDone_assembled (u.seenAt b.at_) b _ _ _ _).trans (assemble_assembled _ _ _ _ _ _)

/-! ### The end of SOW -/

theorem supervise_asm (s : State) (p : Port) : (supervise s p).asm_ = s.asm_ := by
  have h : (supervise s p).evRest.asm_ = s.evRest.asm_ := congrArg State.asm_ (supervise_evRest s p)
  exact h
theorem supervise_mode (s : State) (p : Port) : (supervise s p).mode = s.mode := by
  unfold supervise
  dsimp only
  (repeat' split) <;> simp

/-- The first snapshot ends SOW, in RUN, or in RECOVER after a fallback (R437, R453, R459), and leaves the snapshots. -/
theorem endSow_shows (s : State) : (endSow s).asm_ = s.asm_ ∧ (endSow s).mode.dev =
    if s.mode.dev = .sow then (if s.mode.fallback then .recover else .run) else s.mode.dev := by
  unfold endSow
  split
  · next hsow =>
    extract_lets v w
    have hv : v.mode = { s.mode with dev := .run } := setDev_mode _ _
    have hw : w.asm_ = s.asm_ ∧ w.mode.dev = if s.mode.fallback then .recover else .run := by
      simp only [w, hv]
      split <;> simp [v]
    rw [supervise_asm, supervise_asm, supervise_mode, supervise_mode]
    exact hw
  · exact ⟨rfl, rfl⟩

/-- Settles O21, from the assembly and what follows it. -/
theorem snapshotsComplete : Obligations.SnapshotsComplete := by
  unfold Obligations.SnapshotsComplete
  intro s u dt single bad decayed b rest h hbuild
  have hview := completed_assembled u b single.fixed (bad.map Fin.val) (decayed.map Fin.val) (single.flips.map Fin.val)
  have hrecs := assemble_recs (u.seenAt b.at_) b single.fixed (bad.map Fin.val) (decayed.map Fin.val)
    (single.flips.map Fin.val)
  simp only [State.assembled, Prod.mk.injEq, Option.map_eq_some_iff, hbuild, List.drop_one, List.tail_cons] at hview
  obtain ⟨hrest, ⟨x, hlatest, hnum, hx⟩, hcount, hdev, hfallback⟩ := hview
  obtain ⟨hasm, hends⟩ := endSow_shows (completed u b single.fixed (bad.map Fin.val) (decayed.map Fin.val)
    (single.flips.map Fin.val))
  refine ⟨_, x, snapshotDone_completes h hbuild single bad decayed, ?_⟩
  rw [hasm, hends, hdev, hfallback, hx]
  exact ⟨hrest, hlatest, hnum, hrecs, hcount, rfl⟩

end Sys2Proof.Machine
end

section
/-!
SUPPORT. The uplink ports (R245 to R249): what the MACs, a stream that changes its port, and SSTATE leave of the ports
and of the router cycle, and of a stream's place and key.
-/

namespace Sys2Proof.Machine

/-- A write of a port that changes no part `w` of it. -/
theorem setUplink_keeps {α : Type} (w : UplinkState → α) {s : State} {u : Ul} {x : UplinkState}
    (h : w x = w (s.uplink u)) (v : Ul) : w ((s.setUplink u x).uplink v) = w (s.uplink v) := by
  cases u <;> cases v
  · exact h
  · rfl
  · rfl
  · exact h

/-! ### The MACs (R245) -/

@[simp] theorem macRun_cycle (u : Ul) (n : Nat) (s : State) : (macRun u n s).cycle = s.cycle := by
  induction n generalizing s with
  | zero => rfl
  | succ n ih =>
    simp only [macRun]
    (repeat' split) <;> simp [ih]
@[simp] theorem macs_cycle (s : State) : (macs s).cycle = s.cycle := by simp [macs]
@[simp] theorem handMac_cycle (s : State) (f : TxFrame) (u : Ul) : (handMac s f u).cycle = s.cycle := by simp [handMac]

/-- Sending frames brings no port up or down. -/
theorem macRun_up (u : Ul) (n : Nat) (s : State) (v : Ul) :
    ((macRun u n s).uplink v).up = (s.uplink v).up := by
  induction n generalizing s with
  | zero => rfl
  | succ n ih =>
    simp only [macRun]
    split
    · rfl
    · split
      · split
        · rfl
        · rw [ih]
          refine setUplink_keeps UplinkState.up ?_ v
          rfl
      · rfl
theorem macs_up (s : State) (v : Ul) : ((macs s).uplink v).up = (s.uplink v).up :=
  (macRun_up _ _ _ v).trans (macRun_up _ _ s v)

/-- A MAC sends from its own queue alone. -/
theorem macRun_other (u : Ul) (n : Nat) (s : State) : (macRun u n s).uplink u.other = s.uplink u.other := by
  induction n generalizing s with
  | zero => rfl
  | succ n ih =>
    simp only [macRun]
    (repeat' split) <;> simp [ih, State.setUplink_other]

/-- A MAC without a frame sends nothing. -/
theorem macRun_of_empty {u : Ul} {s : State} (h : (s.uplink u).queue = []) (n : Nat) : macRun u n s = s := by
  cases n with
  | zero => rfl
  | succ n => simp only [macRun, h]

/-- A port without a frame stays as it is while the MACs run. -/
theorem macs_uplink_of_empty {s : State} {u : Ul} (h : (s.uplink u).queue = []) :
    (macs s).uplink u = s.uplink u := by
  cases u with
  | ul0 =>
    have hidle : macRun .ul0 (s.ul0.queue.length + 1) s = s := macRun_of_empty h _
    rw [macs, hidle]
    exact macRun_other .ul1 _ s
  | ul1 =>
    have hkept := macRun_other .ul0 (s.ul0.queue.length + 1) s
    have hempty : ((macRun .ul0 (s.ul0.queue.length + 1) s).uplink .ul1).queue = [] :=
      (congrArg UplinkState.queue hkept).trans h
    rw [macs, macRun_of_empty hempty]
    exact hkept

/-! ### Streams and their ports (R248, R268) -/

/-- The router cycle and the uplink ports. -/
def State.links (s : State) := (s.cycle, s.uplink)

/-- The parts of equal views. -/
theorem of_links {s t : State} (h : t.links = s.links) : t.cycle = s.cycle ∧ ∀ u, t.uplink u = s.uplink u := by
  simpa only [State.links, Prod.mk.injEq, funext_iff] using h

theorem onStream_links (s : State) (k : Nat) (f : StreamState → StreamState) :
    (s.onStream k f).links = s.links := by simp [State.links, funext_iff]
theorem choosePort_links (s : State) (k : Nat) : (choosePort s k).links = s.links := onStream_links _ _ _
@[simp] theorem dropStopped_links (s : State) (k : Nat) : (dropStopped s k).links = s.links := by
  unfold dropStopped
  dsimp only
  (repeat' split) <;> rfl
@[simp] theorem refreshStream_links (s : State) (k : Nat) : (refreshStream s k).links = s.links := by
  unfold refreshStream
  dsimp only
  split
  · rfl
  · split
    · rfl
    · exact dropStopped_links s k
@[simp] theorem refreshStreams_links (s : State) : (refreshStreams s).links = s.links :=
  keep_foldl State.links refreshStream_links

/-- A stream without what SSTATE and the segments that wait make of it (R258, R268). -/
def StreamState.steady (x : StreamState) : StreamState := { x with sstate := .off, jobs := [], dropped := 0 }

/-- A stream's place and the warning of its key, of equal views. -/
theorem of_steady {x y : StreamState} (h : x.steady = y.steady) : x.moved = y.moved ∧ x.warned = y.warned := by
  have hmoved : x.steady.moved = y.steady.moved := congrArg StreamState.moved h
  have hwarned : x.steady.warned = y.steady.warned := congrArg StreamState.warned h
  exact ⟨hmoved, hwarned⟩

/-- A stream changed in no more than SSTATE and its segments. -/
theorem onStream_steady (s : State) (k : Nat) {f : StreamState → StreamState} (hf : ∀ x, (f x).steady = x.steady)
    (j : Nat) : ((s.onStream k f).stream j).steady = (s.stream j).steady := by
  rw [State.onStream_eq]
  by_cases hj : j = k
  · rw [hj, State.setStream_stream, hf]
  · rw [State.setStream_stream_other _ _ hj]
theorem dropStopped_steady (s : State) (k j : Nat) :
    ((dropStopped s k).stream j).steady = (s.stream j).steady := by
  have hdrop := onStream_steady (f := StreamState.dropWaiting) s k (fun _ => rfl) j
  unfold dropStopped
  dsimp only
  (repeat' split) <;> simp only [hdrop]
theorem refreshStream_steady (s : State) (k j : Nat) :
    ((refreshStream s k).stream j).steady = (s.stream j).steady := by
  unfold refreshStream
  dsimp only
  split
  · rfl
  · simp only [glb_kept]
    refine (onStream_steady _ k ?_ j).trans ?_
    · exact fun _ => rfl
    · split
      · rfl
      · exact dropStopped_steady s k j
theorem refreshStreams_steady (s : State) (j : Nat) :
    ((refreshStreams s).stream j).steady = (s.stream j).steady :=
  keep_foldl (fun s => (s.stream j).steady) fun s k => refreshStream_steady s k j

/-! ### A port goes down or comes up (R249) -/

@[simp] theorem reroute_cycle (u : Ul) (s : State) (f : TxFrame) : (reroute u s f).cycle = s.cycle := by
  unfold reroute
  dsimp only
  (repeat' split) <;> simp [countDropped]

/-- The frames of a port that has gone down go to the other port, if anywhere. -/
theorem reroute_uplink (u : Ul) (s : State) (f : TxFrame) : (reroute u s f).uplink u = s.uplink u := by
  have hother (x : UplinkState) : (s.setUplink u.other x).uplink u = s.uplink u := by cases u <;> rfl
  unfold reroute
  dsimp only
  (repeat' split) <;> simp [handMac, countDropped, hother]

/-- A port that has just lost its link. -/
def unlinked (s : State) (u : Ul) : State :=
  s.onUplink u fun x => { x with
    up := false, queue := [], pdelay := none, mon := { x.mon with downs := satAdd 4294967295 x.mon.downs } }

/-- The streams of a port that has lost its link, moved to the other port where they may be (R248). -/
def moveStreams (s : State) (u : Ul) : State :=
  (List.range 32).foldl (fun s k =>
    if redund s ≠ 0 ∧ carrier s k = u ∧ mayMove s ∧ (s.uplink u.other).up then
      s.onStream k (fun x => { x with moved := !x.moved, jobs := x.jobs.map (fun j => { j with via := none }) })
    else s) s

/-- A port that has just come up. -/
def linked (s : State) (u : Ul) : State :=
  s.onUplink u fun x => { x with up := true, upAt := s.grid.now, lineFree := s.grid.now }

/-- The streams that no port carries, each with its port chosen anew (R248). -/
def chooseLost (s : State) : State :=
  (List.range 32).foldl (fun s k => if redund s ≠ 0 ∧ !(s.uplink (carrier s k)).up then choosePort s k else s) s

theorem portDown_of_up {s : State} {port : Ul} (hup : (s.uplink port).up = true) (cause : Nat) :
    portDown s port cause = refreshStreams (macs (moveStreams ((s.uplink port).queue.foldl (reroute port)
      (raise (unlinked s port) 32 port.num (BitVec.ofNat 32 cause))) port)) := by
  rw [portDown, hup]
  rfl
theorem portUp_of_down {s : State} {port : Ul} (hdown : (s.uplink port).up = false)
    (hparked : (s.uplink port).parked = false) (hmode : pmode s port ≠ 0) :
    portUp s port = refreshStreams (chooseLost (raise (linked s port) 33 port.num 0)) := by
  rw [portUp, hdown, hparked, beq_eq_false_iff_ne.mpr hmode]
  rfl

theorem moveStreams_links (s : State) (u : Ul) : (moveStreams s u).links = s.links :=
  keep_foldl State.links fun s k => by
    split
    · exact onStream_links _ _ _
    · rfl
theorem chooseLost_links (s : State) : (chooseLost s).links = s.links :=
  keep_foldl State.links fun s k => by
    split
    · exact choosePort_links _ _
    · rfl

/-- Once its link is lost, nothing that follows changes the port. -/
theorem portDown_uplink {s : State} {port : Ul} (hup : (s.uplink port).up = true) (cause : Nat) :
    (portDown s port cause).uplink port = (unlinked s port).uplink port := by
  rw [portDown_of_up hup]
  have hmoved := (of_links (moveStreams_links ((s.uplink port).queue.foldl (reroute port)
    (raise (unlinked s port) 32 port.num (BitVec.ofNat 32 cause))) port)).2 port
  simp only [keep_foldl (fun s => s.uplink port) (reroute_uplink port), raise_kept] at hmoved
  rw [(of_links (refreshStreams_links _)).2, macs_uplink_of_empty (by rw [hmoved]; simp [unlinked]), hmoved]

/-- The event of a port that goes down (R374). -/
theorem portDown_raised {u s : State} {port : Ul} (hup : (s.uplink port).up = true) (hcfg : s.cfg = u.cfg)
    (hgrid : s.grid = u.grid) (cause : Nat) :
    Raised u (portDown s port cause) 32 port.num (BitVec.ofNat 32 cause) := by
  refine raised_of_cycle (s := unlinked s port) ?_ (by simp [unlinked, hcfg]) (by simp [unlinked, hgrid])
  rw [portDown_of_up hup, (of_links (refreshStreams_links _)).1, macs_cycle, (of_links (moveStreams_links _ _)).1,
    keep_foldl State.cycle (reroute_cycle port)]

/-- A port that goes down loses its link, its queue and its measured peer delay. -/
theorem portDown_shows {u s : State} {port : Ul} (hup : (s.uplink port).up = true) (hcfg : s.cfg = u.cfg)
    (hgrid : s.grid = u.grid) (cause : Nat) :
    ((portDown s port cause).uplink port).up = false ∧ ((portDown s port cause).uplink port).queue = [] ∧
      ((portDown s port cause).uplink port).pdelay = none ∧
      Raised u (portDown s port cause) 32 port.num (BitVec.ofNat 32 cause) := by
  rw [portDown_uplink hup, unlinked, State.onUplink_eq, State.setUplink_uplink]
  exact ⟨rfl, rfl, rfl, portDown_raised hup hcfg hgrid cause⟩

/-- A port that comes up carries from now on, and its event shows it. -/
theorem portUp_shows {s : State} {port : Ul} (hdown : (s.uplink port).up = false)
    (hparked : (s.uplink port).parked = false) (hmode : pmode s port ≠ 0) :
    ((portUp s port).uplink port).up = true ∧ ((portUp s port).uplink port).upAt = s.grid.now ∧
      Raised s (portUp s port) 33 port.num 0 := by
  obtain ⟨hcycle, hlink⟩ := of_links ((congrArg State.links (portUp_of_down hdown hparked hmode)).trans
    ((refreshStreams_links _).trans (chooseLost_links _)))
  refine ⟨?_, ?_, raised_of_cycle hcycle (by simp [linked]) (by simp [linked])⟩
  · simp [hlink, linked]
  · simp [hlink, linked]

end Sys2Proof.Machine
end

section
/-!
KEY_LIMIT, UPLINK_DOWN, UPLINK_UP, REVERT and UPLINK_RX (R245, R246, R249, R267).
-/

namespace Sys2Proof.Machine

theorem exec_keyLimit (k : Fin 32) (s : State) : exec (.keyLimit k) s = execKeyLimit k s := rfl
theorem exec_uplinkDown (dt : Nat) (port : Ul) (cause : DownCause) (s : State) :
    exec (.uplinkDown dt port cause) s = execUplinkDown dt port cause s := rfl
theorem exec_uplinkUp (dt : Nat) (port : Ul) (s : State) : exec (.uplinkUp dt port) s = execUplinkUp dt port s := rfl
theorem exec_revert (k : Fin 32) (s : State) : exec (.revert k) s = execRevert k s := rfl
theorem exec_uplinkRx (dt : Nat) (port : Ul) (f : List Byte) (s : State) :
    exec (.uplinkRx dt port f) s = execUplinkRx dt port f s := rfl

/-- The first use of a key at its warning point is reported (R267). -/
theorem keyLimit_warns {s : State} {k : Fin 32} (hkey : (s.stream k).key ≠ none)
    (hwarn : keyAtWarn (s.stream k).segUsed (s.stream k).keyTicks = true) (hfirst : (s.stream k).warned = false) :
    ∃ t, exec (.keyLimit k) s = .next t ∧ (t.stream k).warned = true ∧
      Raised s t 35 k.val (BitVec.ofNat 32 (keyId (s.stream k))) := by
  have hsome : (s.stream k).key.isSome = true := Option.isSome_iff_ne_none.mpr hkey
  rw [exec_keyLimit, execKeyLimit]
  simp only [hsome, hwarn, hfirst, Bool.not_false, Bool.and_self, if_true]
  refine ⟨_, rfl, ?_, ?_⟩
  · rw [(of_steady (refreshStream_steady _ k k)).2]
    simp
  · refine raised_of_cycle (s := s.onStream k fun x => { x with warned := true }) ?_ rfl rfl
    exact (of_links (refreshStream_links _ k)).1

/-- A port goes down for a lost synchronisation, and for a failed auto-negotiation where that is enabled. -/
theorem uplinkDown_syncLost {s u : State} {dt : Nat} (h : Arrives s dt u) (port : Ul) :
    exec (.uplinkDown dt port .syncLost) s = .next (portDown (macs u) port 1) := by
  rw [exec_uplinkDown, execUplinkDown, run_arrives h]
theorem uplinkDown_autoNeg {s u : State} {dt : Nat} {port : Ul} (h : Arrives s dt u) (hmode : pmode u port = 2) :
    exec (.uplinkDown dt port .autoNeg) s = .next (portDown (macs u) port 2) := by
  rw [exec_uplinkDown, execUplinkDown, run_arrives h]
  dsimp only
  rw [if_pos hmode]

/-- A moved stream returns to its own port. -/
theorem revert_returns {s : State} {k : Fin 32} (hmoved : (s.stream k).moved = true) (hredund : redund s ≠ 0)
    (hup : (s.uplink (ownPort s k)).up = true) (hrevert : revertBit s (ownPort s k) = true)
    (hlong : (s.uplink (ownPort s k)).upAt + second ≤ s.grid.now) (hinst : s.grid.now = s.grid.gridAt) :
    ∃ t, exec (.revert k) s = .next t ∧ (t.stream k).moved = false := by
  rw [exec_revert, execRevert]
  dsimp only
  rw [if_pos ⟨hmoved, hredund, hup, hrevert, hlong, hinst⟩]
  refine ⟨_, rfl, ?_⟩
  rw [(of_steady (refreshStreams_steady _ k)).1]
  simp

/-- A PAUSE frame counts as one (R246). -/
theorem uplinkRx_pause {s u : State} {dt : Nat} {port : Ul} {f : List Byte} (h : Arrives s dt u)
    (hup : (u.uplink port).up = true) (hwhole : frameWhole f = true) (htype : frameNat f 12 2 = 0x8808)
    (hop : frameNat f 14 2 = 1) : exec (.uplinkRx dt port f) s =
      .next (u.onUplink port fun x => { x with pauseRx := satInc x.pauseRx }) := by
  have htime : ¬(frameNat f 12 2 = 0x88F7 ∧ frameNat f 0 6 = 0x0180C200000E) := by rw [htype]; simp
  rw [exec_uplinkRx, execUplinkRx, run_arrives h]
  dsimp only
  rw [hup, hwhole, Bool.not_true, if_neg Bool.false_ne_true, if_neg Bool.false_ne_true, if_neg htime,
    if_pos ⟨htype, hop⟩]

/-- A frame that is neither one of IEEE 802.1AS nor a PAUSE frame counts as discarded (R246). -/
theorem uplinkRx_discards {s u : State} {dt : Nat} {port : Ul} {f : List Byte} (h : Arrives s dt u)
    (hup : (u.uplink port).up = true)
    (hother : frameWhole f = false ∨ (frameNat f 12 2 ≠ 0x88F7 ∨ frameNat f 0 6 ≠ 0x0180C200000E) ∧
      (frameNat f 12 2 ≠ 0x8808 ∨ frameNat f 14 2 ≠ 1)) : exec (.uplinkRx dt port f) s =
      .next (u.onUplink port fun x => { x with rxDiscard := satInc x.rxDiscard }) := by
  rw [exec_uplinkRx, execUplinkRx, run_arrives h]
  dsimp only
  rw [hup, Bool.not_true, if_neg Bool.false_ne_true]
  rcases hother with hbroken | ⟨htime, hpause⟩
  · rw [hbroken, Bool.not_false, if_pos rfl]
  · rw [if_neg (not_and_or.mpr htime), if_neg (not_and_or.mpr hpause), ite_self]

/-- Settles O22, command by command. -/
theorem uplinksGoDownAndUp : Obligations.UplinksGoDownAndUp := by
  unfold Obligations.UplinksGoDownAndUp
  refine ⟨?keyLimit, ?down, ?up, ?revert, ?pause, ?discard⟩
  case keyLimit => exact fun s k => keyLimit_warns
  case down =>
    intro s u dt port cause h hup hmode
    have hcfg := (of_committed (macs_committed u)).1
    have hshows := portDown_shows ((macs_up u port).trans hup) hcfg (macs_grid u)
    cases cause with
    | syncLost => exact ⟨_, uplinkDown_syncLost h port, hshows 1⟩
    | autoNeg => exact ⟨_, uplinkDown_autoNeg h (hmode rfl), hshows 2⟩
  case up =>
    intro s u dt port h hdown hparked hmode
    rw [exec_uplinkUp, execUplinkUp, run_arrives h]
    exact ⟨_, rfl, portUp_shows hdown hparked hmode⟩
  case revert => exact fun s k => revert_returns
  case pause =>
    intro s u dt port f h hup hwhole htype hop
    refine ⟨_, uplinkRx_pause h hup hwhole htype hop, ?_⟩
    exact ⟨State.setUplink_uplink _ _ _, State.setUplink_other _ _ _⟩
  case discard =>
    intro s u dt port f h hup hother
    refine ⟨_, uplinkRx_discards h hup hother, ?_⟩
    exact ⟨State.setUplink_uplink _ _ _, State.setUplink_other _ _ _⟩

end Sys2Proof.Machine
end

section
/-!
WAKE_OUT_RELEASE, REMEMBERED_DELIVERY and SPU_DEFER_END (R274, R376, R380), and what a consumer leaves of the channel
that feeds it.
-/

namespace Sys2Proof.Machine

theorem exec_wakeOutRelease (dt : Nat) (s : State) : exec (.wakeOutRelease dt) s = execWakeOutRelease dt s := rfl
theorem exec_rememberedDelivery (dt : Nat) (c : Fin 32) (s : State) :
    exec (.rememberedDelivery dt c) s = execRememberedDelivery dt c s := rfl
theorem exec_spuDeferEnd (dt : Nat) (g : Region) (s : State) :
    exec (.spuDeferEnd dt g) s = execSpuDeferEnd dt g s := rfl

/-! ### A channel whose consumer acts (R376) -/

@[simp] theorem queueItem_chan (s : State) (p : Port) (it : Item) (d : Nat) :
    (queueItem s p it).chan d = s.chan d := by simp [queueItem]
@[simp] theorem requestCapture_chan (s : State) (restart : Bool) (d : Nat) :
    (requestCapture s restart).chan d = s.chan d := rfl
@[simp] theorem freezeEvent_chan (s : State) (it : Item) (d : Nat) : (freezeEvent s it).chan d = s.chan d := by
  unfold freezeEvent
  dsimp only
  (repeat' split) <;> simp
@[simp] theorem wakeCond_chan (s : State) (d : Nat) : (wakeCond s).chan d = s.chan d := by
  unfold wakeCond
  (repeat' split) <;> simp
@[simp] theorem spuDefer_chan (s : State) (c d : Nat) : (spuDefer s c).chan d = s.chan d :=
  keep_foldl (fun s => s.chan d) fun s g => by split <;> simp

/-- A consumer changes no more of its channel than the count of a route gate. -/
theorem consume_chan (s : State) (c : Nat) (it : Item) :
    ∃ g, (consume s c it).chan c = { s.chan c with gate := g } := by
  unfold consume
  split
  case h_6 => exact ⟨_, rfl⟩
  case h_8 =>
    split
    · exact ⟨_, State.setChan_chan _ _ _⟩
    · exact ⟨_, rfl⟩
  all_goals exact ⟨(s.chan c).gate, by simp⟩

/-- A delivery keeps what the channel remembers. -/
theorem deliverItem_held (s : State) (c : Nat) (it : Item) :
    ((deliverItem s c it).chan c).held = (s.chan c).held := by
  obtain ⟨g, hg⟩ := consume_chan s c it
  unfold deliverItem
  dsimp only
  split <;> simp [hg]

/-- A delivery to a consumer that counts is counted (R380). -/
theorem deliverItem_delivered {s : State} {c : Nat} (h : counts (consumer s c) = true) (it : Item) :
    ((deliverItem s c it).chan c).delivered = satInc (s.chan c).delivered := by
  obtain ⟨g, hg⟩ := consume_chan s c it
  simp [deliverItem, h, hg]

/-- A delivery to Port H's event queue. -/
theorem deliverItem_queue {s : State} {c : Nat} (h : consumer s c = 1) (it : Item) :
    (deliverItem s c it).h.evq = s.h.evq ++ [it] ∧ (deliverItem s c it).m.evq = s.m.evq := by
  have hconsume : consume s c it = queueItem s .h it := by simp only [consume, h]
  unfold deliverItem
  rw [hconsume]
  dsimp only
  split
  · exact ⟨rfl, rfl⟩
  · exact ⟨rfl, rfl⟩

/-! ### A remembered event (R380) -/

theorem consumer_onChan (s : State) (c : Nat) (f : ChanState → ChanState) (d : Nat) :
    consumer (s.onChan c f) d = consumer s d := rfl

/-- A remembered event is delivered once its consumer is free and none remembered earlier waits for it. -/
theorem deliverHeld_of_free {s : State} {c : Nat} {ev : Event} (hheld : (s.chan c).held = some ev)
    (hfree : consumerBusy s c = false) (hfirst : earlierHeld s c = false) : deliverHeld s c =
      deliverItem (s.onChan c fun x => { x with held := none }) c
        { ev := ev, remembered := true, chan := BitVec.ofNat 5 c } := by
  simp [deliverHeld, hheld, hfree, hfirst]

/-- Until then it stays remembered. -/
theorem deliverHeld_of_waiting {s : State} {c : Nat} (hwait : consumerBusy s c = true ∨ earlierHeld s c = true) :
    deliverHeld s c = s := by
  unfold deliverHeld
  split
  · rfl
  · rw [if_pos ((Bool.or_eq_true _ _).mpr hwait)]

/-- Settles O23, command by command. -/
theorem routerDeliversLater : Obligations.RouterDeliversLater := by
  unfold Obligations.RouterDeliversLater
  refine ⟨?wake, ?delivered, ?waits, ?deferEnd⟩
  case wake =>
    intro s u dt h hrun hlate
    rw [exec_wakeOutRelease, execWakeOutRelease, run_arrives h, if_pos ⟨hrun, hlate⟩]
    exact ⟨_, rfl, rfl⟩
  case delivered =>
    intro s u dt c ev h hheld hfree hfirst
    rw [exec_rememberedDelivery, execRememberedDelivery, run_arrives h, deliverHeld_of_free hheld hfree hfirst]
    refine ⟨_, rfl, ?_, fun hcounts => ?_, fun hqueue => ?_⟩
    · rw [deliverItem_held, State.onChan_eq, State.setChan_chan]
    · rw [deliverItem_delivered (by rwa [consumer_onChan]), State.onChan_eq, State.setChan_chan]
    · exact deliverItem_queue ((consumer_onChan u c _ c).trans hqueue) _
  case waits =>
    intro s u dt c ev h _ hwait
    rw [exec_rememberedDelivery, execRememberedDelivery, run_arrives h, deliverHeld_of_waiting hwait]
    exact ⟨u, rfl, rfl⟩
  case deferEnd =>
    intro s u dt g h hdue
    rw [exec_spuDeferEnd, execSpuDeferEnd, run_arrives h, if_pos hdue]
    refine ⟨_, rfl, ?_, fun k hk => State.setRegion_region_other _ _ hk⟩
    simp

end Sys2Proof.Machine
end

section
/-!
SUPPORT. Why a READ of GLB_STATUS need not leave the register's copy at its reset value: clear on read clears the
fields and their SEQ (R287, R314), not the note of what has been set since the view of a burst was refreshed.
-/

namespace Sys2Proof.Machine

theorem exec_portRead (dt : Nat) (p : Port) (fast : Bool) (cmd : Byte) (addr : BitVec 16) (crc : Byte) (s : State) :
    exec (.portRead dt p fast cmd addr crc) s = execPortRead dt p fast cmd addr crc s := rfl

/-- A device in RUN whose GLB_STATUS holds CLOCK on Port H, a bit that was set since the view of a burst was last
refreshed (R287, R327). -/
def clockNoted : State :=
  { State.reset with
    mode := { dev := .run, booted := true }
    h := { glb := sqSet {} (bit24 4) } }

/-- The READ of GLB_STATUS on Port H clears its bits, and the note of the bit stays. -/
theorem clockNoted_read :
    ∃ t, exec (.portRead 0 .h false 0x00 0x010 (portCrc (headBytes 0x00 0x010))) clockNoted = .next t ∧
      (t.port .h).glb = { bits := 0, seq := 0, again := bit24 4 } :=
  ⟨_, rfl, by decide +kernel⟩

/-- Refutes O24: a READ of GLB_STATUS in RUN clears its fields, but the copy keeps the note of the bits that have been
set since a burst's view was refreshed, which its reset value does not have. -/
theorem not_ordinaryFramesAnswer : ¬ Obligations.OrdinaryFramesAnswer := by
  unfold Obligations.OrdinaryFramesAnswer
  rintro ⟨hread, -⟩
  obtain ⟨t, ht, -, -, hglb⟩ := hread clockNoted _ _ 0 .h false 0x00 0x010 _ ⟨rfl, rfl⟩ (by decide +kernel)
    (by decide +kernel) rfl (by decide +kernel) (by decide +kernel) (by decide +kernel) (by decide) rfl
  obtain ⟨t', ht', hnoted⟩ := clockNoted_read
  cases ht'.symm.trans ht
  have hclears : (advance clockNoted 0).mode.dev.readClears = true := by decide +kernel
  have hempty := hglb rfl
  rw [if_pos hclears, hnoted] at hempty
  exact absurd (congrArg SqReg.again hempty) (by decide)

end Sys2Proof.Machine
end

section
/-!
SUPPORT. A frame whose header is good (R283, R289): what the checks answer, and the state in which its effect begins.
-/

namespace Sys2Proof.Machine

/-- A later write of a port replaces an earlier one. -/
@[simp] theorem State.setPort_setPort (s : State) (p : Port) (x y : PortState) :
    (s.setPort p x).setPort p y = s.setPort p y := by
  cases p <;> rfl

/-- A header with the right CRC, CMD and LEN is good while the device serves (R289). -/
theorem headCheck_ok {u : State} {p : Port} {fast : Bool} {hd : Bytes} {crc cmd : Byte}
    (hbusy : busyNow u fast = false)
    (hcrc : portCrc hd = crc) (hcmd : badCmd p cmd = false) :
    headCheck u p fast (portCrc hd == crc) false cmd = .ok := by
  simp [headCheck, hbusy, hcrc, hcmd]

/-- CSN's rise does not make the device busy. -/
@[simp] theorem busyNow_csnRise (u : State) (p : Port) (fast : Bool) :
    busyNow (csnRise u p) fast = busyNow u fast := by
  cases p <;> rfl

/-- The state after a good header: CSN has ended any burst before it, and it counts as a heartbeat (R302). -/
def headed (u : State) (p : Port) : State :=
  u.setPort p { u.port p with burst := none, stallSent := none, lastGood := u.grid.now }

theorem headed_port (u : State) (p : Port) : (headed u p).port p =
    { u.port p with burst := none, stallSent := none, lastGood := u.grid.now } := by
  simp [headed]

theorem takeHeader_ok (u : State) (p : Port) : takeHeader (csnRise u p) p .ok = headed u p := by
  cases p <;> rfl

/-- What CSN's rise leaves of its port: all but the transaction. -/
theorem csnRise_port (u : State) (p : Port) :
    (csnRise u p).port p = { u.port p with burst := none, stallSent := none } := by
  simp [csnRise]

theorem drive_eq (s : State) (p : Port) (bs : Bytes) : drive s p bs = s.setPort p { s.port p with sdo := bs } := rfl

theorem indAt_headed (u : State) (p : Port) : indAt (headed u p) p = indAt u p := by
  simp [indAt, headed_port]

/-- IND_ADDR as a byte address lies in the port's map (R291). -/
theorem indAt_lt (u : State) (p : Port) : indAt u p < 0x1000000 := by
  have := (u.port p).indAddr.isLt
  simp only [indAt]
  omega

end Sys2Proof.Machine
end

section
/-!
SUPPORT. Indirect bursts (R290 to R293): the state and the run in which a burst begins, what its words leave in
IND_ADDR and IND_STATUS, and how many bytes SDO carries.
-/

namespace Sys2Proof.Machine

theorem exec_burstRead (dt : Nat) (p : Port) (how : Clocking) (cmd : Byte) (addr : BitVec 16) (crc : Byte)
    (words : Nat) (s : State) :
    exec (.burstRead dt p how cmd addr crc words) s = execBurstRead dt p how cmd addr crc words s := rfl
theorem exec_burstWrite (dt : Nat) (p : Port) (how : Clocking) (cmd : Byte) (addr : BitVec 16) (crc : Byte)
    (words : List CrcWord) (s : State) :
    exec (.burstWrite dt p how cmd addr crc words) s = execBurstWrite dt p how cmd addr crc words s := rfl

/-- The state in which the words of an accepted burst begin: IND_STATUS is clear and the view is fresh (R287, R335). -/
def burstBegun (u : State) (p : Port) : State :=
  u.setPort p
    { u.port p with burst := none, stallSent := none, lastGood := u.grid.now, indStat := {} }.viewed

/-- What the header of a burst leaves of its port's indirect access, and of the rest of the state. -/
@[simp] theorem burstBegun_shows (u : State) (p : Port) : ((burstBegun u p).port p).indStat = {} ∧
    ((burstBegun u p).port p).indAddr = (u.port p).indAddr ∧ (burstBegun u p).mode = u.mode ∧
    (burstBegun u p).cfg = u.cfg := by
  simp [burstBegun, PortState.viewed]

/-- An indirect burst that goes on at word `words` of the base `base`: accepted, and neither failed nor stopped. -/
structure BurstRun.Runs (r : BurstRun) (base words : Nat) : Prop where
  ok : r.ok = true
  ind : r.ind = true
  busy : r.busy = false
  failed : r.failed = false
  base : r.base = base
  words : r.words = words

theorem BurstRun.Runs.stepped {r : BurstRun} {base words : Nat} (h : r.Runs base words) :
    r.stepped.Runs base (words + 1) :=
  ⟨h.ok, h.ind, h.busy, h.failed, h.base, congrArg (· + 1) h.words⟩

theorem BurstRun.Runs.addr {r : BurstRun} {base words : Nat} (h : r.Runs base words) :
    r.addr = (base + 4 * words) % 0x1000000 := by
  rw [BurstRun.addr, burstAddr, h.ind, h.base, h.words, if_pos rfl]

/-- A burst that comes to a calibration entry goes on (R368). -/
theorem BurstRun.Runs.tied {r : BurstRun} {base words : Nat} (h : r.Runs base words) (s : State) (p : Port) :
    (r.tied s p).Runs base words := by
  unfold BurstRun.tied
  (repeat' split) <;> exact ⟨h.ok, h.ind, h.busy, h.failed, h.base, h.words⟩

/-- A good header for ADDR 0x044 begins an indirect burst at IND_ADDR, under the rules in force (R289, R291). -/
theorem burstHead_begins {u : State} {p : Port} {fast : Bool} {cmd crc : Byte} (write : Bool)
    (hbusy : busyNow u fast = false) (hcrc : portCrc (headBytes cmd 0x044) = crc) (hcmd : badCmd p cmd = false) :
    ∃ r, burstHead (csnRise u p) p write fast cmd 0x044 crc = (.ok, r, burstBegun u p) ∧ r.Runs (indAt u p) 0 ∧
      r.rules = rulesOf (headed u p) := by
  have hhead := headCheck_ok ((busyNow_csnRise u p fast).trans hbusy) hcrc hcmd
  have haddr : badAddr 0x044 = false := by decide
  simp only [burstHead, hhead, takeHeader_ok, haddr, Bool.false_eq_true, and_false, if_false, if_true]
  refine ⟨_, Prod.ext rfl (Prod.ext rfl ?_), ⟨rfl, rfl, rfl, rfl, ?_, rfl⟩, rfl⟩
  · simp [burstBegun, clearInd, headed]
  · exact indAt_headed u p

/-- The end of a whole burst: what SDO drove, and a heartbeat where the header was good (R302). -/
theorem keepBurst_whole (s : State) (p : Port) (bs : Bytes) (r : BurstRun) :
    keepBurst (drive s p bs) p .whole r = s.setPort p { s.port p with
      sdo := bs, burst := none, lastGood := if r.good then s.grid.now else (s.port p).lastGood } := by
  simp [keepBurst, drive, Piece.stays]

/-- A word completed in an indirect burst counts and moves IND_ADDR (R291, R335). -/
theorem wordDone_ind (s : State) (p : Port) (base w : Nat) :
    wordDone s p true base w = s.setPort p { s.port p with
      indStat := { (s.port p).indStat with count := BitVec.ofNat 5 (w + 1) }
      indAddr := BitVec.ofNat 24 (base + 4 * (w + 1)) } := by
  have hmod : BitVec.ofNat 24 ((base + 4 * (w + 1)) % 0x1000000) = BitVec.ofNat 24 (base + 4 * (w + 1)) :=
    BitVec.eq_of_toNat_eq (by simp)
  simp [wordDone, noteCount, setIndAddr, burstAddr, hmod]

theorem beBytes_length (n v : Nat) : (beBytes n v).length = n := by
  induction n with
  | zero => rfl
  | succ n ih => rw [beBytes, List.length_cons, ih]

/-- What the words of an indirect burst read leave, after `words` of them: COUNT, and IND_ADDR once a word
is complete. -/
def State.BurstCounts (s : State) (p : Port) (base words : Nat) : Prop :=
  (s.port p).indStat.count = BitVec.ofNat 5 words ∧
    (words ≠ 0 → (s.port p).indAddr = BitVec.ofNat 24 (base + 4 * words))

/-- The next word of an indirect burst read (R290, R291). -/
theorem readWord_counted {r : BurstRun} {base w : Nat} (h : r.Runs base w) (p : Port) (s : State) :
    (readWord r p s).2.BurstCounts p base (w + 1) := by
  simp only [readWord, h.ok, h.busy, h.ind, h.base, h.words, wordDone_ind, Bool.not_true, Bool.or_false,
    Bool.false_eq_true, if_false]
  simp [State.BurstCounts]

/-- The next words of an indirect burst read, five bytes each on SDO (R290). -/
theorem readWords_counted (p : Port) {base : Nat} (n : Nat) : ∀ {w : Nat} {r : BurstRun} {s : State}, r.Runs base w →
    s.BurstCounts p base w → (readWords p n r s).1.length = 5 * n ∧
      (readWords p n r s).2.2.BurstCounts p base (w + n) := by
  induction n with
  | zero => exact fun _ hc => ⟨rfl, hc⟩
  | succ n ih =>
    intro w r s h hc
    have ht := h.tied s p
    obtain ⟨hlen, hcount⟩ := ih ht.stepped (readWord_counted ht p s)
    refine ⟨?_, ?_⟩
    · simp only [readWords, List.length_append, hlen, beBytes_length, List.length_singleton]
      omega
    · rw [Nat.add_right_comm] at hcount
      exact hcount


/-- A whole indirect burst read (R290, R291). -/
theorem burstRead_moves {s u : State} {dt : Nat} {p : Port} {fast : Bool} {cmd crc : Byte} (words : Nat)
    (h : Arrives s dt u) (hlay : layoutIs p cmd 2 = true) (hbusy : busyNow u fast = false)
    (hcrc : portCrc (headBytes cmd 0x044) = crc) (hcmd : badCmd p cmd = false) :
    ∃ t, exec (.burstRead dt p { fast := fast } cmd 0x044 crc words) s = .next t ∧
      t.BurstCounts p (indAt u p) words ∧ (t.port p).sdo.length = 2 + 5 * words := by
  obtain ⟨r, hhead, hruns, -⟩ := burstHead_begins false hbusy hcrc hcmd
  have hbegun : (burstBegun u p).BurstCounts p (indAt u p) 0 :=
    ⟨by simp, fun h => absurd rfl h⟩
  obtain ⟨hlen, hcount⟩ := readWords_counted p words hruns hbegun
  have hread : burstReadOf u p .whole fast cmd 0x044 crc words =
      burstReadOn p .whole [statByte u p .ok, 0] words r (burstBegun u p) := by
    simp only [burstReadOf, Piece.goesOn, hlay, hhead, Bool.not_true, Bool.false_eq_true, if_false]
  refine ⟨_, (exec_burstRead dt p _ cmd _ crc words s).trans (run_arrives h _), ?_⟩
  simp only [hread, burstReadOn, keepBurst_whole, State.BurstCounts, State.setPort_port, List.length_append, hlen]
  rw [Nat.zero_add] at hcount
  exact ⟨hcount, rfl⟩

/-! ### A word of a descriptor written in a burst (R291 to R293, R313) -/

/-- A host may write every word of a descriptor whole in a secure frame outside OFF (R289, R391). -/
theorem judgeInd_desc_secure {p : Port} (hp : p ≠ .u) {s : State} (ho : s.mode.dev ≠ .off) {a : Nat}
    (h : a < 0x040000) (d : Word) : judgeInd s p a d true = accepted_ := by
  have howner : ownerOf s a = none := by simp only [ownerOf, word4_desc h]
  have hmask : (cfgMask a ||| liveMask a) &&& allOnes = allOnes := by
    simp only [cfgMask, liveMask, word4_desc h, word4Mask]
    rfl
  have hglobal : (a == aCalGlobal) = false := by simp only [aCalGlobal, beq_eq_false_iff_ne]; omega
  have hstaged : judgeStaged s p a d true = accepted_ := by
    simp only [judgeStaged, ownerMask, howner, hmask, lockedBits_desc s h, hglobal, ho]
    simp [accepted_, allOnes]
  have hmapped : indMapped a = true := by simp only [indMapped, decide_eq_true_eq]; omega
  have hlive : isLive a = false := by simp only [isLive, decide_eq_false_iff_not]; omega
  have hgroup : cfgGroup a = some 8 := by simp only [cfgGroup, word4_desc h, word4Group]
  rcases port_eq_h_or_m hp with rfl | rfl <;> simp [judgeInd, hmapped, hlive, hgroup, hstaged]

/-- The words of a burst are judged in the device state of its header (R289). -/
theorem underRules_dev (r : Rules) (s : State) : (underRules r s).mode.dev = r.dev := by
  refine congrArg ModeState.dev (keep_foldl State.mode ?_)
  exact fun _ _ => rfl

/-- Outside OFF a burst's word of a descriptor is staged whole, by a secure frame or where it is the second word of its
descriptor (R289, R292, R313). -/
theorem burstPut_desc {p : Port} (hp : p ≠ .u) {v : State} (ho : v.mode.dev ≠ .off) {a : Nat} (ha : a < 0x040000)
    {secure : Bool} (hword : secure = true ∨ a % 32 = 4) (d : Word) (s : State) :
    burstPut (rulesOf v) p true secure a d s = stage s p a d allOnes secure := by
  have hmapped : mapped p a = true := by simp only [mapped, if_neg hp, indMapped, decide_eq_true_eq]; omega
  have hdev : (underRules (rulesOf v) s).mode.dev ≠ .off := by rwa [underRules_dev]
  have hjudged : judgeInd (underRules (rulesOf v) s) p a d secure = accepted_ := by
    cases secure with
    | true => exact judgeInd_desc_secure hp hdev ha d
    | false => exact judgeInd_desc hp hdev ha (hword.resolve_left Bool.false_ne_true) d
  simp only [burstPut, hmapped, hjudged, accepted_, putInd_desc hp s ha, Bool.not_true, Bool.false_eq_true, if_true,
    if_false]

/-- Staging a word writes the configuration alone: no port, and not the device state (R313). -/
@[simp] theorem stage_kept (s : State) (p : Port) (a : Nat) (d m : Word) (secure : Bool) :
    (stage s p a d m secure).mode = s.mode ∧ (stage s p a d m secure).port = s.port := by
  cases p <;> exact ⟨rfl, rfl⟩

/-- A staged word outlives the end of a word and of a frame, which write the port alone. -/
@[simp] theorem setPort_staged (s : State) (p : Port) (x : PortState) (q : Port) (a : Nat) :
    (s.setPort p x).staged q a = s.staged q a := by
  cases p <;> rfl

section

variable {s u : State} {dt : Nat} {p : Port} {fast : Bool} {cmd crc : Byte} (h : Arrives s dt u)
  (hlay : layoutIs p cmd 3 = true) (hbusy : busyNow u fast = false) (hcrc : portCrc (headBytes cmd 0x044) = crc)
  (hcmd : badCmd p cmd = false)
include h hlay hbusy hcrc hcmd

/-- A whole indirect burst write goes on from the state in which its words begin (R290). -/
theorem burstWrite_begins (words : List CrcWord) :
    ∃ r, exec (.burstWrite dt p { fast := fast } cmd 0x044 crc words) s =
        .next (burstWriteOn p .whole [statByte u p .ok] words r (burstBegun u p)) ∧
      r.Runs (indAt u p) 0 ∧ r.rules = rulesOf (headed u p) := by
  obtain ⟨r, hhead, hruns, hrules⟩ := burstHead_begins true hbusy hcrc hcmd
  refine ⟨r, (exec_burstWrite dt p _ cmd _ crc words s).trans ((run_arrives h _).trans ?_), hruns, hrules⟩
  simp only [burstWriteOf, Piece.goesOn, hlay, hhead, Bool.not_true, Bool.false_eq_true, if_false]

/-- A burst write of one word whose CRC-8 fails notes the word and does no more (R293). -/
theorem burstWrite_badCrc {d : Word} {k : Byte} (hk : k ≠ wordCrc (indAt u p) d) :
    ∃ t, exec (.burstWrite dt p { fast := fast } cmd 0x044 crc [{ data := d, crc := k }]) s = .next t ∧
      t.cfg = u.cfg ∧ (t.port p).indStat = { burstCrc := true, first := BitVec.ofNat 22 (indAt u p / 4) } ∧
      (t.port p).indAddr = (u.port p).indAddr := by
  obtain ⟨r, ht, hruns, -⟩ := burstWrite_begins h hlay hbusy hcrc hcmd [{ data := d, crc := k }]
  have haddr : r.addr = indAt u p := hruns.addr.trans (Nat.mod_eq_of_lt (indAt_lt u p))
  have hwords : writeWords (burstBegun u p).mode.resets p [{ data := d, crc := k }] r (burstBegun u p) =
      ({ r with failed := true }, noteBurstCrc (burstBegun u p) p (indAt u p)) := by
    simp [writeWords, hruns.ok, hruns.failed, hruns.busy, haddr, hk.symm]
  refine ⟨_, ht, ?_⟩
  simp only [burstWriteOn, hwords]
  simp [resetHit, noteBurstCrc, keepBurst_whole, noteFirst]

/-- A burst write of the second word of a descriptor stages it where its CRC-8 is right (R291, R313). -/
theorem burstWrite_stages (hp : p ≠ .u) (ho : u.mode.dev ≠ .off) (ha : indAt u p < 0x040000)
    (h4 : indAt u p % 32 = 4) (d : Word) :
    ∃ t, exec (.burstWrite dt p { fast := fast } cmd 0x044 crc [{ data := d, crc := wordCrc (indAt u p) d }]) s =
        .next t ∧
      t.staged p (indAt u p) = d ∧ (t.port p).indStat = { count := 1 } ∧
      (t.port p).indAddr = BitVec.ofNat 24 (indAt u p + 4) := by
  obtain ⟨r, ht, hruns, hrules⟩ := burstWrite_begins h hlay hbusy hcrc hcmd
    [{ data := d, crc := wordCrc (indAt u p) d }]
  have haddr : r.addr = indAt u p := hruns.addr.trans (Nat.mod_eq_of_lt (indAt_lt u p))
  have hput := burstPut_desc hp (v := headed u p) (by simpa [headed] using ho) ha (secure := false) (.inr h4) d
    (burstBegun u p)
  have hwords : writeWords (burstBegun u p).mode.resets p [{ data := d, crc := wordCrc (indAt u p) d }] r
      (burstBegun u p) = (r.stepped, wordDone (stage (burstBegun u p) p (indAt u p) d allOnes false) p true
        (indAt u p) 0) := by
    simp [writeWords, hruns.ok, hruns.failed, hruns.busy, haddr, hrules, hruns.ind, hput, resetHit, hruns.base,
      hruns.words]
  refine ⟨_, ht, ?_⟩
  simp only [burstWriteOn, hwords, wordDone_ind]
  simp [resetHit, keepBurst_whole, (stage_whole hp _ _ d _).1]

end

end Sys2Proof.Machine
end

section
/-!
SUPPORT. Stall reads (R294, R295): the item that is sent, sent again or missing, and where CSN cuts one short.
-/

namespace Sys2Proof.Machine

theorem exec_stallRead (dt : Nat) (p : Port) (how : StallPart) (cmd : Byte) (addr : BitVec 16) (crc : Byte)
    (s : State) :
    exec (.stallRead dt p how cmd addr crc) s = execStallRead dt p how cmd addr crc s := rfl
theorem exec_transactionAbort (dt : Nat) (p : Port) (at_ : CutShort) (s : State) :
    exec (.transactionAbort dt p at_) s = execTransactionAbort dt p at_ s := rfl

/-- A header of any result leaves the event queue. -/
theorem takeHeader_evq (s : State) (p : Port) (r : Result) : ((takeHeader s p r).port p).evq = (s.port p).evq := by
  cases r <;> simp [takeHeader, countCrc]

/-- A stall read takes the oldest item, and sends it (R294). -/
theorem stallOn_item {s : State} {p : Port} {it : Item} {rest : List Item} (h : (s.port p).evq = it :: rest)
    (stays : Bool) (head : Bytes) (sent fillers : Nat) :
    stallOn s p stays head sent fillers = s.setPort p { s.port p with
      evq := rest, lastItem := some it, stallSent := none, lastGood := s.grid.now
      sdo := head ++ stallBytes (some it) } := by
  simp [stallOn, h, stallEnd, drive]

/-- A whole stall read of an empty queue sends STALL fillers, and the EMPTY item (R294). -/
theorem stallOn_empty {s : State} {p : Port} (h : (s.port p).evq = []) (head : Bytes) (fillers : Nat) :
    stallOn s p false head 0 fillers = s.setPort p { s.port p with
      stallSent := none, lastGood := s.grid.now
      sdo := head ++ List.replicate (stallLimit (s.port p)) 0 ++ stallBytes none } := by
  simp [stallOn, h, stallEnd, drive]

/-- A whole stall read with a good header (R294, R295). -/
theorem stallRead_goesOn {s u : State} {dt : Nat} {p : Port} {fast : Bool} {cmd crc : Byte} (fillers : Nat)
    (h : Arrives s dt u) (hlay : layoutIs p cmd 4 = true) (hbusy : busyNow u fast = false)
    (hcrc : portCrc (headBytes cmd 0x0E4) = crc) (hcmd : badCmd p cmd = false) :
    exec (.stallRead dt p { fast := fast, fillers := fillers } cmd 0x0E4 crc) s = .next
      (if cmd.toNat % 2 = 1 then
        drive (headed u p) p (statByte u p .ok :: stallBytes ((headed u p).port p).lastItem)
      else stallOn (headed u p) p false [statByte u p .ok] 0 fillers) := by
  have hhead := headCheck_ok ((busyNow_csnRise u p fast).trans hbusy) hcrc hcmd
  rw [exec_stallRead, execStallRead, run_arrives h]
  simp only [Piece.goesOn, Piece.stays, hlay, stallHead, hhead, takeHeader_ok, ne_eq, not_true, and_false, if_false,
    Bool.not_true, Bool.false_eq_true]

/-- Settles O25, burst by burst and stall read by stall read. -/
theorem burstsAndStallReads : Obligations.BurstsAndStallReads := by
  unfold Obligations.BurstsAndStallReads
  refine ⟨?burstRead, ?burstWrite, ?stallRead, ?cutShort⟩
  case burstRead =>
    intro s u dt p fast cmd crc words h hlay hbusy hcrc hcmd
    obtain ⟨t, ht, ⟨hcount, haddr⟩, hlen⟩ := burstRead_moves words h hlay hbusy hcrc hcmd
    exact ⟨t, ht, hcount, hlen, haddr⟩
  case burstWrite =>
    intro s u dt p fast cmd crc d a h hlay hbusy hcrc hcmd hp ho ha hlt h4
    subst ha
    exact ⟨burstWrite_stages h hlay hbusy hcrc hcmd hp ho hlt h4 d,
      fun k hk => burstWrite_badCrc h hlay hbusy hcrc hcmd hk⟩
  case stallRead =>
    intro s u dt p fast cmd crc fillers h hlay hbusy hcrc hcmd
    have hread := stallRead_goesOn fillers h hlay hbusy hcrc hcmd
    refine ⟨fun heven it rest hq => ⟨_, hread, ?_⟩, fun heven hq => ⟨_, hread, ?_⟩, fun hodd => ⟨_, hread, ?_⟩⟩
    · have hq' : ((headed u p).port p).evq = it :: rest := by simpa [headed_port] using hq
      simp [heven, stallOn_item hq']
    · have hq' : ((headed u p).port p).evq = [] := by simpa [headed_port] using hq
      simp [heven, stallOn_empty hq', hq, headed_port, stallLimit, stallBytes]
    · simp [hodd, drive, headed_port]
  case cutShort =>
    intro s u dt p fast cmd crc h
    refine ⟨_, (exec_transactionAbort dt p _ s).trans (run_arrives h _), ?_⟩
    dsimp only
    split
    · rfl
    · rw [stallHead, takeHeader_evq, csnRise_port]

end Sys2Proof.Machine
end

section
/-!
SUPPORT. Secure frames (R296 to R299): what their checks answer, the write of LOCK, a failure of a session, and the
words of a secure burst.
-/

namespace Sys2Proof.Machine

theorem exec_secureWrite (dt : Nat) (p : Port) (fast : Bool) (cmd : Byte) (addr : BitVec 16) (data ctr : Word)
    (tag : BitVec 64) (crc : Byte) (s : State) : exec (.secureWrite dt p fast cmd addr data ctr tag crc) s =
      execSecureWrite dt p fast cmd addr data ctr tag crc s := rfl
theorem exec_secureBurst (dt : Nat) (p : Port) (fast : Bool) (cmd : Byte) (addr : BitVec 16) (len : Byte) (ctr : Word)
    (crc : Byte) (words : List CrcWord) (tag : BitVec 64) (tagCrc : Byte) (s : State) :
    exec (.secureBurst dt p fast cmd addr len ctr crc words tag tagCrc) s =
      execSecureBurst dt p fast cmd addr len ctr crc words tag tagCrc s := rfl

/-! ### The checks (R298, R299) -/

/-- A frame in an open session with a CTR above the last one and the right tag is accepted, and its CTR is the last. -/
theorem secureCheck_ok {s : State} {p : Port} {cmd : Byte} {addr : BitVec 16} {len : Nat} {ctr : Word} {ds : List Word}
    {tag : Bytes} (hsess : (s.port p).sess = .opened) (hctr : (s.port p).lastCtr.toNat < ctr.toNat)
    (htag : frameTag (s.port p) p cmd addr len ctr ds = tag) :
    secureCheck s p cmd addr len ctr ds tag = (.ok, s.setPort p { s.port p with lastCtr := ctr }) := by
  simp [secureCheck, acceptCtr, hsess, hctr, htag]

/-- A frame whose CTR is not above the last one is a REPLAY, and a failure of the session. -/
theorem secureCheck_replay {s : State} {p : Port} {ctr : Word} (hsess : (s.port p).sess = .opened)
    (hctr : ctr.toNat ≤ (s.port p).lastCtr.toNat) (cmd : Byte) (addr : BitVec 16) (len : Nat) (ds : List Word)
    (tag : Bytes) : secureCheck s p cmd addr len ctr ds tag = (.replay, sessionFailure s p) := by
  simp [secureCheck, acceptCtr, hsess, not_lt.2 hctr]

/-- A frame with any CTR but the last possible one leaves its session open. -/
theorem endSecure_of_ne {ctr : Word} (h : ctr ≠ 0xFFFFFFFF) (s : State) (p : Port) : endSecure s p ctr = s :=
  if_neg fun hc => h hc.1

/-- The tag of a frame does not depend on what its header writes (R298). -/
theorem frameTag_headed (u : State) (p q : Port) (cmd : Byte) (addr : BitVec 16) (len : Nat) (ctr : Word)
    (ds : List Word) : frameTag ((headed u p).port p) q cmd addr len ctr ds =
      frameTag (u.port p) q cmd addr len ctr ds := by
  rw [headed_port]
  rfl

/-- The state in which a failure of a session has been counted on its port and reported (R396). -/
def failureTold (s : State) (p : Port) : State :=
  glbPort (raise (s.setPort p { s.port p with
    fails := recent s.grid.now second (s.port p).fails ++ [s.grid.now] }) 47 p.code 3) p 13

/-- After a failure of a session that is not the eighth within 1 s nothing follows (R396). -/
theorem sessionFailure_quiet {s : State} (hfew : (recent s.grid.now second s.alarm.joint).length < 7) (p : Port) :
    (sessionFailure s p).lock = (failureTold s p).lock ∧ (sessionFailure s p).port = (failureTold s p).port ∧
      (sessionFailure s p).cycle = (failureTold s p).cycle := by
  unfold sessionFailure
  extract_lets now s1 s2 s3 j
  have hj : j.length < 8 := by
    simp only [j, s3, s2, s1, State.onAsm_kept, glbPort_kept, raise_kept, State.onPort_eq, State.setPort_kept,
      List.length_append, List.length_singleton]
    exact Nat.succ_lt_succ hfew
  rw [if_neg (not_le.2 hj)]
  exact ⟨rfl, rfl, rfl⟩

/-- Such a failure leaves LOCK and the last counter, and is reported (R299, R396). -/
theorem sessionFailure_shows {u s : State} {p : Port} (hcfg : s.cfg = u.cfg) (hgrid : s.grid = u.grid)
    (hfew : (recent s.grid.now second s.alarm.joint).length < 7) :
    (sessionFailure s p).lock = s.lock ∧ ((sessionFailure s p).port p).lastCtr = (s.port p).lastCtr ∧
      ∀ bs, Raised u (drive (sessionFailure s p) p bs) 47 p.code 3 := by
  obtain ⟨hlock, hport, hcycle⟩ := sessionFailure_quiet hfew p
  refine ⟨hlock.trans (by simp [failureTold]), ?_, fun bs => raised_of_cycle (s := s.setPort p { s.port p with
    fails := recent s.grid.now second (s.port p).fails ++ [s.grid.now] }) ?_
      (by simpa using hcfg) (by simpa using hgrid)⟩
  · simp [hport, failureTold, glbPort]
  · simp [drive, hcycle, failureTold]

/-! ### LOCK and words (R297, R320) -/

/-- A secure write of LOCK is accepted outside OFF, and sets the bits that it carries (R289, R320). -/
theorem writeFrameOf_lock {s : State} {p : Port} (hp : p ≠ .u) (ho : s.mode.dev ≠ .off) (d : Word) :
    writeFrameOf s p 0x028 d true = (.ok, lockWrite s (BitVec.ofNat 6 d.toNat)) := by
  have haddr : badAddr 0x028 = false := by decide
  have hwrites : dirWrites p 0x028 = true := (dirWrites_host hp _).trans rfl
  have hsq : sqReg (s.port p) 0x028 = none := rfl
  have hjudged : judgeDir s p 0x028 d true = accepted_ := by
    simp [judgeDir, hwrites, hsq, stateRefuses, ho, dirLocked]
  have hoff : (0x028 : BitVec 16).toNat = 0x028 := rfl
  simp only [writeFrameOf, haddr, hoff, writeDir, hjudged, accepted_, putDir, hsq, Option.isSome_none,
    Bool.false_eq_true, Nat.reduceEqDiff, false_and, if_false, if_true]

/-- A write of LOCK leaves the ports alone. -/
theorem lockWrite_port (s : State) (bits : BitVec 6) : (lockWrite s bits).port = s.port := by
  unfold lockWrite ruleChange
  split
  · rfl
  · split <;> rfl

/-! ### A SECURE_WRITE of LOCK (R296, R299, R320) -/

section

variable {s u : State} {dt : Nat} {p : Port} {fast : Bool} {cmd : Byte} (h : Arrives s dt u)
  (hlay : layoutIs p cmd 5 = true) (hbusy : busyNow u fast = false) (hcmd : badCmd p cmd = false)
  (hsess : (u.port p).sess = .opened)
include h hlay hbusy hcmd hsess

/-- A SECURE_WRITE of LOCK that its session accepts (R296, R299, R320). -/
theorem secureWrite_lock {data ctr : Word} {tag : BitVec 64} {crc : Byte}
    (hcrc : portCrc (headBytes cmd 0x028 ++ beBytes 4 data.toNat ++ beBytes 4 ctr.toNat ++ beBytes 8 tag.toNat) = crc)
    (hp : p ≠ .u) (ho : u.mode.dev ≠ .off) (hctr : (u.port p).lastCtr.toNat < ctr.toNat) (hlast : ctr ≠ 0xFFFFFFFF)
    (htag : frameTag (u.port p) p cmd 0x028 1 ctr [data] = beBytes 8 tag.toNat) :
    ∃ t, exec (.secureWrite dt p fast cmd 0x028 data ctr tag crc) s = .next t ∧
      t.lock = u.lock ||| BitVec.ofNat 6 data.toNat ∧ (t.port p).lastCtr = ctr ∧ (t.port p).sess = .opened := by
  have hhead := headCheck_ok (p := p) hbusy hcrc hcmd
  have hcheck := secureCheck_ok (s := headed u p) (by simpa [headed_port] using hsess)
    (by simpa [headed_port] using hctr) ((frameTag_headed u p p cmd _ 1 ctr [data]).trans htag)
  have hwrite := writeFrameOf_lock (s := (headed u p).setPort p { (headed u p).port p with lastCtr := ctr }) hp
    (by simpa [headed] using ho) data
  refine ⟨_, (exec_secureWrite dt p fast cmd _ data ctr tag crc s).trans (run_arrives h _), ?_⟩
  simp only [hlay, hhead, takeHeader_ok, hcheck, hwrite, endSecure_of_ne hlast, drive, Bool.not_true,
    Bool.false_eq_true, if_false, if_true]
  simp [(lockWrite_sets _ _).1, lockWrite_port, headed, hsess]

/-- A SECURE_WRITE of LOCK whose CTR is not above the last one (R299). -/
theorem secureWrite_replay {data ctr : Word} {tag : BitVec 64} {crc : Byte}
    (hcrc : portCrc (headBytes cmd 0x028 ++ beBytes 4 data.toNat ++ beBytes 4 ctr.toNat ++ beBytes 8 tag.toNat) = crc)
    (hctr : ctr.toNat ≤ (u.port p).lastCtr.toNat) (hfew : (recent u.grid.now second u.alarm.joint).length < 7) :
    ∃ t, exec (.secureWrite dt p fast cmd 0x028 data ctr tag crc) s = .next t ∧ t.lock = u.lock ∧
      (t.port p).lastCtr = (u.port p).lastCtr ∧ (t.port p).sdo.head? = some (statByte u p .replay) ∧
      Raised u t 47 p.code 3 := by
  have hhead := headCheck_ok (p := p) hbusy hcrc hcmd
  have hcheck := secureCheck_replay (s := headed u p) (p := p) (ctr := ctr) (by simpa [headed_port] using hsess)
    (by simpa [headed_port] using hctr) cmd 0x028 1 [data] (beBytes 8 tag.toNat)
  obtain ⟨hlock, hkept, hraised⟩ := sessionFailure_shows (u := u) (s := headed u p) (p := p) (by simp [headed])
    (by simp [headed]) (by simpa [headed] using hfew)
  refine ⟨_, (exec_secureWrite dt p fast cmd _ data ctr tag crc s).trans (run_arrives h _), ?_⟩
  simp only [hlay, hhead, takeHeader_ok, hcheck, Bool.not_true, Bool.false_eq_true, if_false, if_true, reduceCtorEq]
  refine ⟨?_, ?_, ?_, hraised _⟩
  · simpa [drive, headed] using hlock
  · simpa [drive, headed_port] using hkept
  · simp [drive]

end

/-! ### A secure burst (R297) -/

/-- A good header of a secure burst in an open session clears IND_STATUS (R297, R335). -/
theorem secureHead_ok {u : State} {p : Port} {fast : Bool} {cmd len crc : Byte} {ctr : Word}
    (hbusy : busyNow u fast = false) (hcrc : portCrc (headBytes cmd 0x044 ++ [len] ++ beBytes 4 ctr.toNat) = crc)
    (hcmd : badCmd p cmd = false) (hlen : len ≠ 0) (hmax : len.toNat ≤ 64) (hsess : (u.port p).sess = .opened) :
    secureHead (csnRise u p) p fast cmd 0x044 len ctr crc = (.ok, clearInd (headed u p) p) := by
  have hlen' : (len == 0 || decide (64 < len.toNat)) = false := by
    rw [beq_eq_false_iff_ne.2 hlen, Bool.false_or, decide_eq_false (not_lt.2 hmax)]
  have hhead := headCheck_ok (p := p) ((busyNow_csnRise u p fast).trans hbusy) hcrc hcmd
  have hsess' : ((headed u p).port p).sess = .opened := by simpa [headed_port] using hsess
  simp only [secureHead, hlen', hhead, takeHeader_ok, hsess', ne_eq, not_true, and_false, if_false, if_true]

/-- The state in which the words of an accepted secure burst are written (R297, R299). -/
def secureBegun (u : State) (p : Port) (ctr : Word) : State :=
  u.setPort p
    { u.port p with burst := none, stallSent := none, lastGood := u.grid.now, indStat := {}, lastCtr := ctr }

/-- A secure burst whose words and tag are right is accepted (R297 to R299). -/
theorem secureTag_ok {u : State} {p : Port} {cmd : Byte} {ctr : Word} {base : Nat} {words : List CrcWord} {tag : Bytes}
    {tagCrc : Byte} (hwords : wordsOk true base 0 words = true) (hcrc : portCrc tag = tagCrc)
    (hsess : (u.port p).sess = .opened) (hctr : (u.port p).lastCtr.toNat < ctr.toNat)
    (htag : frameTag (u.port p) p cmd 0x044 words.length ctr (words.map (fun x => x.data)) = tag) :
    secureTag (clearInd (headed u p) p) p cmd 0x044 ctr base words tag tagCrc = (.ok, secureBegun u p ctr) := by
  have hport : (clearInd (headed u p) p).port p =
      { u.port p with burst := none, stallSent := none, lastGood := u.grid.now, indStat := {} } := by
    simp [clearInd, headed_port]
  have hind : ((0x044 : BitVec 16) == 0x044) = true := rfl
  have hcheck := secureCheck_ok (s := clearInd (headed u p) p) (p := p) (cmd := cmd) (addr := 0x044)
    (len := words.length) (ctr := ctr) (ds := words.map (fun x => x.data)) (tag := tag)
    (by rw [hport]; exact hsess) (by rw [hport]; exact hctr) (by rw [hport]; exact htag)
  simp only [secureTag, hind, hwords, hcrc, hcheck]
  simp [clearInd, headed, secureBegun]

/-- Staging a word leaves the other staged words. -/
theorem stage_staged_other (p : Port) (s : State) {a b : Nat} (d m : Word) (secure : Bool) (hb : b ≠ a) :
    (stage s p a d m secure).staged p b = s.staged p b := by
  obtain ⟨-, hstaged, -⟩ := setSecStaged_kept (s.setStaged p a (merge (s.staged p a) d m)) p
    (noteSecure secure ((s.setStaged p a (merge (s.staged p a) d m)).secStaged p) a m)
  rw [stage, hstaged, setStaged_staged_other p s _ hb]

/-- The addresses of the first two words of a burst that does not come to the end of the map (R291). -/
theorem burstAddr_first {a : Nat} (h : a < 0x1000000) : burstAddr true a 0 = a := by
  simp only [burstAddr, if_true]; omega
theorem burstAddr_second {a : Nat} (h : a + 4 < 0x1000000) : burstAddr true a 1 = a + 4 := by
  simp only [burstAddr, if_true]; omega

/-- Two words of a descriptor in a secure burst are both staged, and IND_ADDR is behind them (R297, R313). -/
theorem securePuts_desc {p : Port} (hp : p ≠ .u) {v : State} (ho : v.mode.dev ≠ .off) {a : Nat}
    (ha : a + 4 < 0x040000) (d e : Word) (c k : Byte) (s : State) :
    securePuts s.mode.resets (rulesOf v) p true a 0 [{ data := d, crc := c }, { data := e, crc := k }] s =
      wordDone (stage (wordDone (stage s p a d allOnes true) p true a 0) p (a + 4) e allOnes true) p true a 1 := by
  have h0 : burstAddr true a 0 = a := burstAddr_first (by omega)
  have h1 : burstAddr true a 1 = a + 4 := burstAddr_second (by omega)
  simp only [securePuts, h0, h1, burstPut_desc hp ho (show a < 0x040000 by omega) (.inl rfl),
    burstPut_desc hp ho ha (.inl rfl), resetHit, wordDone_ind, stage_kept, State.setPort_kept, bne_self_eq_false,
    Bool.false_eq_true, if_false]

/-- What those words leave: both staged, and IND_ADDR behind them; of their port, the last counter. -/
theorem securePuts_desc_shows {p : Port} (hp : p ≠ .u) (a : Nat) (d e : Word) (s : State) {t : State}
    (ht : t =
      wordDone (stage (wordDone (stage s p a d allOnes true) p true a 0) p (a + 4) e allOnes true) p true a 1) :
    t.staged p a = d ∧ t.staged p (a + 4) = e ∧ (t.port p).lastCtr = (s.port p).lastCtr ∧
      (t.port p).indAddr = BitVec.ofNat 24 (a + 8) := by
  subst ht
  simp only [wordDone_ind, setPort_staged, stage_kept, State.setPort_port, (stage_whole hp _ _ _ _).1]
  refine ⟨?_, trivial, trivial, trivial⟩
  rw [stage_staged_other p _ _ _ _ (by omega), setPort_staged, (stage_whole hp _ _ _ _).1]

/-- An accepted secure burst at IND_ADDR writes its words, and is no vault request (R297, R397). -/
theorem secureWrites_ind {v s : State} (hr : v.mode.resets = s.mode.resets) (p : Port) (ctr : Word) (base : Nat)
    (words : List CrcWord) : secureWrites v s p 0x044 ctr base words =
      (.ok, securePuts s.mode.resets (rulesOf v) p true base 0 words s) := by
  have haddr : badAddr 0x044 = false := by decide
  have hvault : (0x044 : BitVec 16) ≠ 0x070 := by decide
  simp only [secureWrites, haddr, hvault, hr, beq_self_eq_true, false_and, Bool.false_eq_true, if_false]

/-- A SECURE_BURST of two words of a descriptor that its session accepts (R297, R299, R313). -/
theorem secureBurst_desc {s u : State} {dt : Nat} {p : Port} {fast : Bool} {cmd : Byte} {ctr : Word} {crc : Byte}
    {d e : Word} {words : List CrcWord} {tag : BitVec 64} {tagCrc : Byte} (h : Arrives s dt u)
    (hlay : layoutIs p cmd 6 = true) (hbusy : busyNow u fast = false)
    (hcrc : portCrc (headBytes cmd 0x044 ++ [2] ++ beBytes 4 ctr.toNat) = crc) (hcmd : badCmd p cmd = false)
    (hp : p ≠ .u) (ho : u.mode.dev ≠ .off) (hsess : (u.port p).sess = .opened)
    (hctr : (u.port p).lastCtr.toNat < ctr.toNat) (hlast : ctr ≠ 0xFFFFFFFF) (ha : indAt u p + 4 < 0x040000)
    (hwords : words = [{ data := d, crc := wordCrc (indAt u p) d }, { data := e, crc := wordCrc (indAt u p + 4) e }])
    (htag : frameTag (u.port p) p cmd 0x044 2 ctr [d, e] = beBytes 8 tag.toNat)
    (htagCrc : portCrc (beBytes 8 tag.toNat) = tagCrc) :
    ∃ t, exec (.secureBurst dt p fast cmd 0x044 2 ctr crc words tag tagCrc) s = .next t ∧ t.staged p (indAt u p) = d ∧
      t.staged p (indAt u p + 4) = e ∧ (t.port p).lastCtr = ctr ∧
      (t.port p).indAddr = BitVec.ofNat 24 (indAt u p + 8) := by
  have hok : wordsOk true (indAt u p) 0 words = true := by
    rw [hwords, wordsOk, wordsOk, wordsOk, burstAddr_first (indAt_lt u p), burstAddr_second (by omega)]
    simp
  have hlen : words.length = 2 := by rw [hwords]; rfl
  have hdata : words.map (fun x => x.data) = [d, e] := by rw [hwords]; rfl
  have hhead := secureHead_ok (p := p) hbusy hcrc hcmd (by decide) (by decide) hsess
  have htagged := secureTag_ok (cmd := cmd) (words := words) hok htagCrc hsess hctr (by rw [hlen, hdata]; exact htag)
  have hwritten := secureWrites_ind (v := clearInd (headed u p) p) (s := secureBegun u p ctr)
    (by simp [clearInd, headed, secureBegun]) p ctr (indAt u p) words
  have hputs := securePuts_desc hp (v := clearInd (headed u p) p) (by simpa [clearInd, headed] using ho) ha d e
    (wordCrc (indAt u p) d) (wordCrc (indAt u p + 4) e) (secureBegun u p ctr)
  rw [← hwords] at hputs
  obtain ⟨hfirst, hsecond, hcounted, haddr⟩ := securePuts_desc_shows hp _ d e _ hputs
  have hbase : burstBase u p 0x044 = indAt u p := if_pos rfl
  refine ⟨_, (exec_secureBurst dt p fast cmd _ 2 ctr crc words tag tagCrc s).trans (run_arrives h _), ?_⟩
  simp only [hlay, hhead, hbase, hlen, htagged, hwritten, endSecure_of_ne hlast, drive, Bool.not_true,
    Bool.false_eq_true, if_false, if_true, ne_eq, not_true, show (2 : BitVec 8).toNat = 2 from rfl,
    State.onPort_eq, setPort_staged, State.setPort_port]
  exact ⟨hfirst, hsecond, hcounted.trans (by simp [secureBegun]), haddr⟩

/-- Settles O26, frame by frame. -/
theorem secureFramesPass : Obligations.SecureFramesPass := by
  unfold Obligations.SecureFramesPass
  refine ⟨?lock, ?replay, ?burst⟩
  case lock =>
    intro s u dt p fast cmd data ctr tag crc h hlay hbusy hcrc hcmd hp ho hsess hctr hlast htag
    exact secureWrite_lock h hlay hbusy hcmd hsess hcrc hp ho hctr hlast htag
  case replay =>
    intro s u dt p fast cmd data ctr tag crc h hlay hbusy hcrc hcmd hsess hctr hfew
    exact secureWrite_replay h hlay hbusy hcmd hsess hcrc hctr hfew
  case burst =>
    intro s u dt p fast cmd ctr crc d e a words tag tagCrc h hlay hbusy hcrc hcmd hp ho hsess hctr hlast ha hlt hoff
      hwords htag htagCrc
    subst ha
    exact secureBurst_desc h hlay hbusy hcrc hcmd hp ho hsess hctr hlast (by omega) hwords htag htagCrc

end Sys2Proof.Machine
end

section
/-!
SUPPORT. A port that closes its session, is lost or is reset (R302, R303, R305): what it shows, and what it leaves
of the clock and of the other ports.
-/

namespace Sys2Proof.Machine

theorem exec_heartbeatMissed (dt : Nat) (p : Port) (s : State) :
    exec (.heartbeatMissed dt p) s = execHeartbeatMissed dt p s := rfl
theorem exec_leaseExpiry (dt : Nat) (p : Port) (s : State) :
    exec (.leaseExpiry dt p) s = execLeaseExpiry dt p s := rfl
theorem exec_reclaim (dt : Nat) (p : Port) (s : State) : exec (.reclaim dt p) s = execReclaim dt p s := rfl
theorem exec_preset (dt : Nat) (p : Port) (s : State) : exec (.preset dt p) s = execPreset dt p s := rfl

/-! ### What stays -/

/-- A rule change writes the rule epoch alone (R321). -/
theorem ruleChange_rest (s : State) :
    ruleChange s = { s with epoch := (ruleChange s).epoch, epochAt := (ruleChange s).epochAt } := by
  unfold ruleChange
  split <;> rfl

@[simp] theorem ruleChange_kept (s : State) :
    (ruleChange s).port = s.port ∧ (ruleChange s).grid = s.grid ∧ (ruleChange s).mode = s.mode ∧
      (ruleChange s).cfg = s.cfg ∧ (ruleChange s).stream = s.stream := by
  rw [ruleChange_rest]
  exact ⟨rfl, rfl, rfl, rfl, rfl⟩

/-- The staged words of a session are configuration (R300). -/
theorem discardSession_rest (s : State) (p : Port) :
    discardSession s p = { s with cfg := (discardSession s p).cfg } := by
  have hunstage : ∀ (l : List (Nat × Word)) (s : State), ∃ c, l.foldl (unstage p) s = { s with cfg := c } := by
    intro l
    induction l with
    | nil => exact fun s => ⟨s.cfg, rfl⟩
    | cons x l ih =>
      intro s
      obtain ⟨c, hc⟩ := ih (unstage p s x)
      exact ⟨c, hc.trans (by cases p <;> rfl)⟩
  obtain ⟨c, hc⟩ := hunstage (s.secStaged p) s
  rw [discardSession, hc]
  cases p <;> rfl

theorem discardSession_kept (s : State) (p : Port) :
    (discardSession s p).port = s.port ∧ (discardSession s p).grid = s.grid := by
  rw [discardSession_rest]
  exact ⟨rfl, rfl⟩

/-- Supervision sets PSTATE of a port that is neither lost nor reverted, and a heartbeat (R303). -/
theorem supervise_eq (s : State) (p : Port) : ∃ (x : PState) (a : Nat),
    supervise s p = s.setPort p { s.port p with pstate := x, lastGood := a } ∧
      ((s.port p).pstate = .lost → x = .lost) := by
  have hsame : s = s.setPort p { s.port p with pstate := (s.port p).pstate, lastGood := (s.port p).lastGood } := by
    cases p <;> rfl
  unfold supervise
  split
  · exact ⟨_, _, hsame, id⟩
  dsimp only
  split
  · next h =>
    split
    · exact ⟨_, _, rfl, fun hl => absurd (h.symm.trans hl) (by decide)⟩
    · exact ⟨_, _, hsame, id⟩
  · next h =>
    split
    · exact ⟨_, _, hsame, id⟩
    · exact ⟨_, _, rfl, fun hl => absurd (h.symm.trans hl) (by decide)⟩
  · exact ⟨_, _, hsame, id⟩

/-! ### The end of a session (R302, R395) -/

/-- What closing a session leaves of a port and of the clock. -/
structure SessionOver (p : Port) (s t : State) : Prop where
  sess : (t.port p).sess = .closed
  lost : (s.port p).pstate = .lost → (t.port p).pstate = .lost
  lostAt : (t.port p).lostAt = (s.port p).lostAt
  indAddr : (t.port p).indAddr = (s.port p).indAddr
  indStat : (t.port p).indStat = (s.port p).indStat
  other : ∀ q, q ≠ p → t.port q = s.port q
  grid : t.grid = s.grid

theorem closeSession_over (s : State) (p : Port) : SessionOver p s (closeSession s p) := by
  unfold closeSession
  split
  · next h => exact ⟨h, id, rfl, rfl, rfl, fun _ _ => rfl, rfl⟩
  · have hp : (s.onPort p clearSession).port p = clearSession (s.port p) := by simp
    refine ⟨?_, ?_, ?_, ?_, ?_, fun q hq => State.setPort_other _ _ hq, by simp⟩
    all_goals rw [hp]
    · rfl
    · exact id
    all_goals rfl
  · obtain ⟨hport, hgrid⟩ := discardSession_kept s p
    extract_lets s1
    generalize hv : ruleChange (glbPort (raise s1 47 p.code 2) p 13) = v
    have hclosed : v.port p = { clearSession (s.port p) with glb := sqSet (s.port p).glb (bit24 13) } := by
      simp [← hv, glbPort, s1, hport, clearSession]
    have hother : ∀ q, q ≠ p → v.port q = s.port q := fun q hq => by
      simp [← hv, glbPort, State.setPort_other _ _ hq, s1, hport]
    have hclock : v.grid = s.grid := by simp [← hv, glbPort, s1, hgrid]
    obtain ⟨x, a, heq, hlost⟩ := supervise_eq v p
    rw [heq]
    refine ⟨?_, ?_, ?_, ?_, ?_, fun q hq => (State.setPort_other _ _ hq).trans (hother q hq), by simp [hclock]⟩
    all_goals rw [State.setPort_port, hclosed]
    · rfl
    · exact fun h => hlost (by rw [hclosed]; exact h)
    all_goals rfl

/-! ### A port that is lost (R302) -/

/-- An event without a region is formed under every mask (R375). -/
theorem raise_raised_always {u s : State} (hgrid : s.grid = u.grid) {src origin : Nat}
    (hregion : eventRegion src origin = none) (data : Word) : Raised u (raise s src origin data) src origin data := by
  intro _
  have hformed : eventFormed s src origin = true := by simp only [eventFormed, hregion]
  have := raise_raised s src origin data hformed
  rwa [hgrid, show s.subtick = u.subtick by simp only [State.subtick, hgrid]] at this

/-- What a port's loss shows. -/
structure PortLost (p : Port) (s t : State) : Prop where
  pstate : (t.port p).pstate = .lost
  lostAt : (t.port p).lostAt = s.grid.now
  sess : (t.port p).sess = .closed
  indAddr : (t.port p).indAddr = (s.port p).indAddr
  indStat : (t.port p).indStat = (s.port p).indStat
  peer : (t.port p.other).glb.bits.getLsbD 12 = true
  told : Raised s t 48 (portNum p) 2

/-- The other host port sees a bit of GLB_STATUS that is set on it. -/
theorem glbPort_bit (s : State) (p : Port) {n : Nat} (h : n < 24) :
    ((glbPort s p n).port p).glb.bits.getLsbD n = true := by
  simp [glbPort, bit24_getLsbD h]

theorem losePort_lost (s : State) {p : Port} (hp : p ≠ .u) : PortLost p s (losePort s p) := by
  unfold losePort
  extract_lets s1 s2
  have h1 : (ruleChange s1).port p = { s.port p with pstate := .lost, lostAt := s.grid.now } := by simp [s1]
  have hover := closeSession_over (ruleChange s1) p
  have hgrid : s2.grid = s.grid := hover.grid.trans (by simp [s1])
  have hne : p ≠ p.other := (port_other_ne hp).symm
  have hport : (glbPort (raise s2 48 (portNum p) 2) p.other 12).port p = s2.port p := by
    rw [glbPort, State.onPort_eq, State.setPort_other _ _ hne]
    simp
  refine ⟨?_, ?_, ?_, ?_, ?_, glbPort_bit _ _ (by decide), ?_⟩
  · rw [hport]; exact hover.lost (by rw [h1])
  · rw [hport, hover.lostAt, h1]
  · rw [hport, hover.sess]
  · rw [hport, hover.indAddr, h1]
  · rw [hport, hover.indStat, h1]
  · exact (raise_raised_always hgrid (by rfl) 2).of_mem fun e he => by simpa using he

/-- A missed heartbeat loses a port (R302). -/
theorem heartbeatMiss_lost {s : State} {p : Port} (hp : p ≠ .u) (hactive : (s.port p).pstate = .active)
    (hframe : (s.port p).inFrame = false)
    (hdue : (s.port p).lastGood + 400000 * ranged 1 1000 (s.port p).hb.toNat ≤ s.grid.now) :
    PortLost p s (heartbeatMiss s p) := by
  rw [heartbeatMiss, if_pos ⟨hactive, by simp [hframe], hdue⟩]
  exact losePort_lost s hp

/-- A port reset clears the indirect access and closes the session; a supervised port with a session is lost (R302). -/
theorem portReset_shows {s : State} {p : Port} (hp : p ≠ .u) :
    ((portReset s p).port p).sess = .closed ∧ ((portReset s p).port p).indAddr = 0 ∧
      ((portReset s p).port p).indStat = {} ∧ ((portReset s p).port p).words = [0, 0, 0, 0, 0, 0, 0] ∧
      ((s.port p).sess = .opened → (s.port p).pstate = .active →
        ((portReset s p).port p).pstate = .lost ∧ ((portReset s p).port p).lostAt = s.grid.now) := by
  rw [portReset, if_neg hp]
  extract_lets was s1 s2
  have h1 : (s1.port p).indAddr = 0 ∧ (s1.port p).indStat = {} := by simp [s1]
  have h2 : (s2.port p).sess = .closed ∧ (s2.port p).indAddr = 0 ∧ (s2.port p).indStat = {} := by
    simp only [s2]
    split
    · have hlost := losePort_lost s1 hp
      exact ⟨hlost.sess, hlost.indAddr.trans h1.1, hlost.indStat.trans h1.2⟩
    · have hover := closeSession_over s1 p
      exact ⟨hover.sess, hover.indAddr.trans h1.1, hover.indStat.trans h1.2⟩
  rw [State.onPort_eq, State.setPort_port]
  obtain ⟨hsess, haddr, hstat⟩ := h2
  refine ⟨hsess, haddr, hstat, rfl, fun hopen hactive => ?_⟩
  have hwas : was = true := by simp [was, hopen, hactive]
  have hlost := losePort_lost s1 hp
  simp only [s2, hwas, if_true]
  exact ⟨hlost.pstate, hlost.lostAt.trans (by simp [s1])⟩

/-- A lost or reverted port that is reclaimed is ACTIVE, which is a rule change (R305, R321). -/
theorem reclaimPort_active {s : State} {p : Port} (h : (s.port p).pstate = .lost ∨ (s.port p).pstate = .reverted) :
    ((reclaimPort s p).port p).pstate = .active ∧ ((reclaimPort s p).port p).lastGood = s.grid.now ∧
      (s.epochAt ≠ some s.grid.now → (reclaimPort s p).epoch = s.epoch + 1) := by
  have heq : reclaimPort s p =
      ruleChange (s.onPort p fun x => { x with pstate := .active, lastGood := s.grid.now }) := by
    rcases h with h | h <;> simp only [reclaimPort, h]
  obtain ⟨-, hepoch⟩ := ruleChange_epoch (s.onPort p fun x => { x with pstate := .active, lastGood := s.grid.now })
  rw [heq]
  refine ⟨by simp, by simp, fun hne => (hepoch (by simpa using hne)).trans (by simp)⟩

end Sys2Proof.Machine
end

section
/-!
SUPPORT. The end of a lease (R303, R379): which words of the routing it writes, and which streams it stops.
-/

namespace Sys2Proof.Machine

/-! ### A channel word without EN (R379) -/

/-- A channel word whose EN the end of a lease has cleared. -/
def withoutEn (w : Word) : Word := merge w 0 0x80000000

theorem withoutEn_toNat (w : Word) : (withoutEn w).toNat = w.toNat % 2 ^ 31 := by
  have h : withoutEn w = w &&& 0x7FFFFFFF := by
    simp [withoutEn, merge]
  rw [h, BitVec.toNat_and]
  exact Nat.and_two_pow_sub_one_eq_mod w.toNat 31

/-- EN is 0, and OWNER stays. -/
theorem withoutEn_bit (w : Word) : bit (withoutEn w) 31 = false := by
  simp only [bit, withoutEn_toNat, beq_eq_false_iff_ne]
  omega
theorem withoutEn_owner (w : Word) : fld (withoutEn w) 30 29 = fld w 30 29 := by
  simp only [fld, withoutEn_toNat]
  omega
@[simp] theorem withoutEn_withoutEn (w : Word) : withoutEn (withoutEn w) = withoutEn w :=
  BitVec.eq_of_toNat_eq (by simp only [withoutEn_toNat, Nat.mod_mod])

/-! ### The channels (R379) -/

theorem aChan_injective {c k : Nat} (h : aChan c 0 = aChan k 0) : c = k := by
  simp only [aChan] at h
  omega

/-- A word in force after it has been written, and another one. -/
theorem setInForce_inForce (s : State) (a : Nat) (w : Word) (b : Nat) :
    (s.setInForce a w).inForce b = if b = a then w else s.inForce b := by
  by_cases hb : b = a
  · rw [if_pos hb, hb]
    exact Tbl.get_set_same _ _ _ _
  · rw [if_neg hb]
    exact Tbl.get_set_other _ _ _ hb

/-- The end of a lease on one channel: it is disabled, and what it remembered is dropped, where the port owns it. -/
def revertChannel (p : Port) (s : State) (c : Nat) : State :=
  if chanOwner s c = p.owner then dropHeld (setBoth s p (aChan c 0) 0x80000000 0) c else s

theorem revertChannels_eq (s : State) (p : Port) :
    revertChannels s p = (List.range 32).foldl (revertChannel p) s := rfl

theorem dropHeld_kept (s : State) (c : Nat) : (dropHeld s c).cfg = s.cfg ∧ (dropHeld s c).port = s.port ∧
    (dropHeld s c).grid = s.grid := by
  unfold dropHeld
  split
  · exact ⟨rfl, rfl, rfl⟩
  · exact ⟨rfl, rfl, rfl⟩

theorem setBoth_kept (s : State) (p : Port) (a : Nat) (m d : Word) : (setBoth s p a m d).port = s.port ∧
    (setBoth s p a m d).grid = s.grid := by
  cases p <;> exact ⟨rfl, rfl⟩

theorem revertChannel_inForce (p : Port) (s : State) (c b : Nat) : (revertChannel p s c).inForce b =
    if b = aChan c 0 ∧ chanOwner s c = p.owner then withoutEn (s.inForce b) else s.inForce b := by
  unfold revertChannel
  split
  · next howner =>
    have hlive : ((setBoth s p (aChan c 0) 0x80000000 0)).cfg.live =
        (s.setInForce (aChan c 0) (withoutEn (s.inForce (aChan c 0)))).cfg.live := (setStaged_kept _ p _ _).1
    rw [State.inForce, (dropHeld_kept _ c).1, hlive, ← State.inForce, setInForce_inForce]
    simp only [howner, and_true]
    split
    · next hb => rw [hb]
    · rfl
  · next howner => rw [if_neg fun h => howner h.2]

theorem revertChannel_kept (p : Port) (s : State) (c : Nat) :
    (revertChannel p s c).port = s.port ∧ (revertChannel p s c).grid = s.grid := by
  unfold revertChannel
  split
  · obtain ⟨-, hport, hgrid⟩ := dropHeld_kept (setBoth s p (aChan c 0) 0x80000000 0) c
    obtain ⟨hport', hgrid'⟩ := setBoth_kept s p (aChan c 0) 0x80000000 0
    exact ⟨hport.trans hport', hgrid.trans hgrid'⟩
  · exact ⟨rfl, rfl⟩

/-- The owner of a channel stays the same. -/
theorem revertChannel_owner (p : Port) (s : State) (c k : Nat) :
    chanOwner (revertChannel p s c) k = chanOwner s k := by
  rw [chanOwner, revertChannel_inForce]
  split
  · exact withoutEn_owner _
  · rfl

/-- The channels that the port owns lose EN, and no other word in force changes (R379). -/
theorem revertChannels_foldl (p : Port) (cs : List Nat) (s : State) (b : Nat) :
    (cs.foldl (revertChannel p) s).inForce b =
      if ∃ c ∈ cs, b = aChan c 0 ∧ chanOwner s c = p.owner then withoutEn (s.inForce b) else s.inForce b := by
  induction cs generalizing s with
  | nil => simp
  | cons c cs ih =>
    simp only [List.foldl_cons, ih, revertChannel_owner, revertChannel_inForce, List.exists_mem_cons_iff]
    by_cases hhead : b = aChan c 0 ∧ chanOwner s c = p.owner
    · simp [hhead]
    · simp [hhead]

theorem revertChannels_kept (s : State) (p : Port) :
    (revertChannels s p).port = s.port ∧ (revertChannels s p).grid = s.grid :=
  ⟨keep_foldl State.port fun s c => (revertChannel_kept p s c).1,
    keep_foldl State.grid fun s c => (revertChannel_kept p s c).2⟩

/-- A channel after the end of a lease (R379). -/
theorem revertChannels_chan (s : State) (p : Port) {c : Nat} (hc : c < 32) :
    (revertChannels s p).inForce (aChan c 0) =
      if chanOwner s c = p.owner then withoutEn (s.inForce (aChan c 0)) else s.inForce (aChan c 0) := by
  rw [revertChannels_eq, revertChannels_foldl]
  refine if_congr ⟨?_, fun howner => ⟨c, List.mem_range.2 hc, rfl, howner⟩⟩ rfl rfl
  rintro ⟨k, -, hk, howner⟩
  rwa [aChan_injective hk]

/-- The streams keep their owners. -/
theorem revertChannels_streamOwner (s : State) (p : Port) {k : Nat} :
    streamOwner (revertChannels s p) k = streamOwner s k := by
  rw [streamOwner, revertChannels_eq, revertChannels_foldl, if_neg]
  · rfl
  · rintro ⟨c, hc, hk, -⟩
    have := List.mem_range.1 hc
    simp only [aStream, aChan] at hk
    omega

/-! ### The streams (R303) -/

/-- The end of a lease on one stream: it is to stop where the port owns it. -/
def revertStream (p : Port) (s : State) (k : Nat) : State :=
  if streamOwner s k = p.owner then s.onStream k fun x => { x with stopping := some p } else s

theorem revertStreams_eq (s : State) (p : Port) : revertStreams s p = (List.range 32).foldl (revertStream p) s := rfl

theorem revertStream_kept (p : Port) (s : State) (k : Nat) : (revertStream p s k).cfg = s.cfg ∧
    (revertStream p s k).grid = s.grid ∧ (revertStream p s k).port = s.port := by
  unfold revertStream
  split
  · exact ⟨rfl, rfl, rfl⟩
  · exact ⟨rfl, rfl, rfl⟩

theorem revertStream_owner (p : Port) (s : State) (k j : Nat) :
    streamOwner (revertStream p s k) j = streamOwner s j := by
  simp only [streamOwner, State.inForce, (revertStream_kept p s k).1]

/-- A stream that is to stop for the port stays so. -/
theorem revertStream_stays {p : Port} {s : State} {j : Nat} (k : Nat) (h : (s.stream j).stopping = some p) :
    ((revertStream p s k).stream j).stopping = some p := by
  unfold revertStream
  split
  · by_cases hj : j = k
    · subst hj
      simp
    · rwa [State.onStream_eq, State.setStream_stream_other _ _ hj]
  · exact h

theorem revertStream_same {p : Port} {s : State} {k : Nat} (h : streamOwner s k = p.owner) :
    ((revertStream p s k).stream k).stopping = some p := by
  simp [revertStream, h]

/-- Each stream of the list that the port owns is to stop. -/
theorem revertStreams_foldl (p : Port) (ks : List Nat) (s : State) (k : Nat)
    (h : (s.stream k).stopping = some p ∨ k ∈ ks ∧ streamOwner s k = p.owner) :
    ((ks.foldl (revertStream p) s).stream k).stopping = some p := by
  induction ks generalizing s with
  | nil => exact h.resolve_right fun h => List.not_mem_nil h.1
  | cons j ks ih =>
    refine ih _ ?_
    rcases h with h | ⟨hmem, howner⟩
    · exact .inl (revertStream_stays j h)
    · rcases List.mem_cons.1 hmem with rfl | htail
      · exact .inl (revertStream_same howner)
      · exact .inr ⟨htail, (revertStream_owner p s j k).trans howner⟩

/-- The streams that the port owns are to stop, and the configuration stays (R303). -/
theorem revertStreams_stopping (s : State) (p : Port) :
    (revertStreams s p).cfg = s.cfg ∧ (revertStreams s p).grid = s.grid ∧ (revertStreams s p).port = s.port ∧
      ∀ k, k < 32 → streamOwner s k = p.owner → ((revertStreams s p).stream k).stopping = some p :=
  ⟨keep_foldl State.cfg fun s k => (revertStream_kept p s k).1,
    keep_foldl State.grid fun s k => (revertStream_kept p s k).2.1,
    keep_foldl State.port fun s k => (revertStream_kept p s k).2.2,
    fun k hk howner => revertStreams_foldl p _ s k (.inr ⟨List.mem_range.2 hk, howner⟩)⟩

/-- The end of a lease (R303, R379). -/
theorem leaseEnd_shows {s : State} {p : Port} (hp : p ≠ .u) (hlost : (s.port p).pstate = .lost)
    (hdue : (s.port p).lostAt + 40000000 * ranged 1 600 (s.port p).lease.toNat ≤ s.grid.now) :
    ((leaseEnd s p).port p).pstate = .reverted ∧ ((leaseEnd s p).port p.other).glb.bits.getLsbD 12 = true ∧
      Raised s (leaseEnd s p) 48 (portNum p) 3 ∧
      (∀ c, c < 32 → (leaseEnd s p).inForce (aChan c 0) =
        if chanOwner s c = p.owner then withoutEn (s.inForce (aChan c 0)) else s.inForce (aChan c 0)) ∧
      ∀ k, k < 32 → streamOwner s k = p.owner → ((leaseEnd s p).stream k).stopping = some p := by
  rw [leaseEnd, if_pos ⟨hlost, hdue⟩]
  extract_lets s1 s2
  obtain ⟨hport, hgrid⟩ := revertChannels_kept (ruleChange s1) p
  obtain ⟨hcfg', hgrid', hport', hstop⟩ := revertStreams_stopping (revertChannels (ruleChange s1) p) p
  have hlive : (ruleChange s1).cfg = s.cfg := by simp [s1]
  have hforce : ∀ b, (ruleChange s1).inForce b = s.inForce b := fun b => by rw [State.inForce, hlive]; rfl
  have hchan : ∀ c, chanOwner (ruleChange s1) c = chanOwner s c := fun c => by rw [chanOwner, hforce]; rfl
  have hstream : ∀ k, streamOwner (ruleChange s1) k = streamOwner s k := fun k => by rw [streamOwner, hforce]; rfl
  have hports : s2.port = s1.port := hport'.trans (hport.trans (ruleChange_kept s1).1)
  have hclock : s2.grid = s.grid := by
    calc s2.grid = s1.grid := hgrid'.trans (hgrid.trans (ruleChange_kept s1).2.1)
      _ = s.grid := by simp [s1]
  refine ⟨?_, glbPort_bit _ _ (by decide), ?_, fun c hc => ?_, fun k hk howner => ?_⟩
  · rw [glbPort, State.onPort_eq, State.setPort_other _ _ (port_other_ne hp).symm]
    simp only [raise_kept, hports]
    simp [s1]
  · exact (raise_raised_always hclock (by rfl) 3).of_mem fun e he => by simpa using he
  · have hkept : (glbPort (raise s2 48 (portNum p) 3) p.other 12).cfg = (revertChannels (ruleChange s1) p).cfg := by
      simp [s2, hcfg']
    rw [State.inForce, hkept, ← State.inForce, revertChannels_chan _ p hc, hforce, hchan]
  · simp only [glbPort_kept, raise_kept, s2]
    exact hstop k hk (by rw [revertChannels_streamOwner, hstream, howner])

/-- Settles O33, from the missed heartbeat to the port's reset. -/
theorem portsAreSupervised : Obligations.PortsAreSupervised := by
  unfold Obligations.PortsAreSupervised
  refine ⟨?missed, ?lease, ?reclaim, ?preset⟩
  case missed =>
    intro s u dt p h hp hactive hframe hdue
    have hlost := heartbeatMiss_lost hp hactive hframe hdue
    exact ⟨_, (exec_heartbeatMissed dt p s).trans (run_arrives h _), hlost.pstate, hlost.lostAt, hlost.sess,
      hlost.peer, hlost.told⟩
  case lease =>
    intro s u dt p h hp hlost hdue
    obtain ⟨hpstate, hpeer, htold, hchans, hstreams⟩ := leaseEnd_shows hp hlost hdue
    refine ⟨_, (exec_leaseExpiry dt p s).trans (run_arrives h _), hpstate, hpeer, htold, fun c hc howner => ?_,
      fun c hc howner => ?_, hstreams⟩
    · rw [hchans c hc, if_pos howner, withoutEn_bit]
    · rw [hchans c hc, if_neg howner]
  case reclaim =>
    intro s u dt p h hp ho hstate hsecure
    have hallowed : ¬ (p = .u ∨ (reclaimSecure u p = true ∧ (u.port p).sess ≠ .opened)) := by
      rintro (hu | ⟨hneeds, hclosed⟩)
      · exact hp hu
      · exact hclosed (hsecure hneeds)
    refine ⟨_, (exec_reclaim dt p s).trans (hostWrite_arrives h ho _), ?_⟩
    rw [if_neg hallowed]
    exact reclaimPort_active hstate
  case preset =>
    intro s u dt p h hp ho
    exact ⟨_, (exec_preset dt p s).trans (hostWrite_arrives h ho _), portReset_shows hp⟩

end Sys2Proof.Machine
end

section
/-!
SUPPORT. What operations of the hoard and of the device state leave alone, beyond the operations of the frame above.
-/

namespace Sys2Proof.Machine

/-! ### The hoard (R471, R473 to R477) -/

@[simp] theorem checkpointAll_evRest (s : State) : (checkpointAll s).evRest = s.evRest :=
  evRest_foldl fun s n => checkpoint_evRest s n _

@[simp] theorem beginBlocks_evRest (s : State) : (beginBlocks s).evRest = s.evRest := by
  unfold beginBlocks
  split
  · dsimp only
    split <;> simp
  · rfl

@[simp] theorem startRing_evRest (s : State) : (startRing s).evRest = s.evRest := by simp [startRing]

@[simp] theorem startExport_evRest (s : State) : (startExport s).evRest = s.evRest := by
  unfold startExport
  dsimp only
  split <;> simp

@[simp] theorem arm_evRest (s : State) (w : Word) : (arm s w).evRest = s.evRest := by
  unfold arm
  split <;> simp

@[simp] theorem exportChange_evRest (s : State) (w : Word) : (exportChange s w).evRest = s.evRest := by
  unfold exportChange
  split <;> simp

/-! ### The device state (R327) -/

/-- A device state other than RUN starts no lane (R131). -/
theorem setDev_evRest (s : State) {d : DevState} (hd : d ≠ .run) : (setDev s d).evRest = s.evRest := by
  simp only [setDev, if_neg hd]
  split
  · rfl
  · simp

end Sys2Proof.Machine
end

section
/-!
SUPPORT. The frame of the commands that act on events, clocks, captures, the hoard or the device state alone (R287,
R380, R438): each of them, command by command.
-/

namespace Sys2Proof.Machine

/-! ### Outcomes -/

/-- A command ends in a next state that agrees with the first one in what `W` shows of the rest of the state: all of it
for `id`, and else all but the parts that `W` empties. -/
def Keeps {α : Type} (W : State → α) (s : State) (o : Out) : Prop := Answers o fun t => W t.evRest = W s.evRest

section
variable {α : Type} {W : State → α} {s : State} {f : State → State}

theorem next_keeps {t : State} (h : W t.evRest = W s.evRest) : Keeps W s (.next t) := ⟨t, rfl, h⟩

theorem run_keeps {dt : Nat} (h : ∀ u, W (f u).evRest = W u.evRest) : Keeps W s (run dt s f) := by
  unfold run
  split
  · exact next_keeps rfl
  · exact next_keeps ((h _).trans (congrArg W (advance_evRest s dt)))

theorem hostFrame_keeps {dt : Nat} {p : Port} (h : ∀ u, W (f u).evRest = W u.evRest) :
    Keeps W s (hostFrame dt p s f) :=
  run_keeps fun u => by
    dsimp only
    split
    · rw [csnRise_evRest]
    · rw [h, State.onPort_eq, setPort_evRest, csnRise_evRest]

theorem hostWrite_keeps {dt : Nat} {p : Port} (h : ∀ u, W (f u).evRest = W u.evRest) :
    Keeps W s (hostWrite dt p s f) :=
  hostFrame_keeps fun u => by
    split
    · rfl
    · exact h u

/-- What a command keeps, of the state that it ends in. -/
theorem Keeps.of_next {o : Out} {t : State} (hk : Keeps W s o) (h : o = .next t) : W t.evRest = W s.evRest := by
  obtain ⟨v, hv, hW⟩ := hk
  cases hv.symm.trans h
  exact hW

end

/-! ### Clocks and the grid -/

theorem execAcquisitionComplete_keeps (dt : Nat) (offset : Int) (s : State) :
    Keeps id s (execAcquisitionComplete dt offset s) :=
  run_keeps fun u => by
    dsimp only
    (repeat' split) <;> simp

theorem execCorePll_keeps (dt : Nat) (s : State) : Keeps id s (execCorePll dt s) :=
  run_keeps fun u => by split <;> simp

theorem execCorePllRelock_keeps (dt : Nat) (s : State) : Keeps id s (execCorePllRelock dt s) :=
  run_keeps fun u => by (repeat' split) <;> simp

theorem execEchoMark_keeps (dt arrival : Nat) (s : State) : Keeps id s (execEchoMark dt arrival s) :=
  run_keeps fun u => by split <;> simp

theorem execFollowLost_keeps (s : State) : Keeps id s (execFollowLost s) :=
  next_keeps (by split <;> simp)

theorem execFollowerLost_keeps (hop : Fin 4) (s : State) : Keeps id s (execFollowerLost hop s) :=
  next_keeps (by split <;> simp)

theorem execHoldMax_keeps (dt : Nat) (s : State) : Keeps id s (execHoldMax dt s) :=
  run_keeps fun u => by split <;> simp

theorem execLanePllRelock_keeps (dt : Nat) (s : State) : Keeps id s (execLanePllRelock dt s) :=
  run_keeps fun u => by split <;> simp

theorem execLockAcquired_keeps (dt : Nat) (s : State) : Keeps id s (execLockAcquired dt s) :=
  run_keeps fun u => by
    dsimp only
    split <;> simp

theorem execReferenceLoss_keeps (dt : Nat) (s : State) : Keeps id s (execReferenceLoss dt s) :=
  run_keeps fun u => by split <;> simp

theorem execReferenceReturn_keeps (s : State) : Keeps id s (execReferenceReturn s) :=
  next_keeps (by split <;> simp)

theorem execRephase_keeps (dt : Nat) (p : Port) (s : State) : Keeps id s (execRephase dt p s) :=
  hostWrite_keeps fun u => by split <;> simp

theorem execSyncTimeout_keeps (dt : Nat) (otherPortOk : Bool) (s : State) :
    Keeps id s (execSyncTimeout dt otherPortOk s) :=
  run_keeps fun u => by
    dsimp only
    (repeat' split) <;> simp

/-! ### Captures, events and host frames -/

theorem execCalSave_keeps (dt : Nat) (p : Port) (s : State) : Keeps id s (execCalSave dt p s) :=
  hostWrite_keeps fun u => by split <;> simp

theorem execCaptureDone_keeps (dt : Nat) (s : State) : Keeps id s (execCaptureDone dt s) :=
  run_keeps fun u => by split <;> simp

theorem execCaptureReq_keeps (dt : Nat) (p : Port) (restart : Bool) (s : State) :
    Keeps id s (execCaptureReq dt p restart s) :=
  hostWrite_keeps fun u => by split <;> simp

theorem execChallengeTimeout_keeps (dt : Nat) (p : Port) (s : State) : Keeps id s (execChallengeTimeout dt p s) :=
  run_keeps fun u => congrArg id (challengeExpire_evRest u p)

theorem execEvqFlush_keeps (dt : Nat) (p : Port) (s : State) : Keeps id s (execEvqFlush dt p s) :=
  hostWrite_keeps fun u => by split <;> simp

theorem execRememberedDelivery_keeps (dt : Nat) (c : Fin 32) (s : State) :
    Keeps id s (execRememberedDelivery dt c s) :=
  run_keeps fun u => congrArg id (deliverHeld_evRest u c)

theorem execStallRead_keeps (dt : Nat) (p : Port) (how : StallPart) (cmd : Byte) (addr : BitVec 16) (crc : Byte)
    (s : State) : Keeps id s (execStallRead dt p how cmd addr crc s) :=
  run_keeps fun u => by
    dsimp only
    (repeat' split) <;> simp

/-! ### Regions and rails -/

theorem execQueueTimeout_keeps (dt : Nat) (g : Region) (s : State) : Keeps id s (execQueueTimeout dt g s) :=
  run_keeps fun u => by
    dsimp only
    (repeat' split) <;> simp

theorem execRailRecovery_keeps (dt : Nat) (r : Rail) (th : Threshold) (s : State) :
    Keeps id s (execRailRecovery dt r th s) := by
  cases th <;> dsimp only [execRailRecovery]
  · exact run_keeps fun u => by (repeat' split) <;> simp
  · exact run_keeps fun u => rfl
  · refine next_keeps ?_
    split <;> simp

theorem execRegionCal_keeps (g : Region) (s : State) : Keeps id s (execRegionCal g s) :=
  next_keeps (by
    dsimp only
    (repeat' split) <;> simp)

theorem execSpuDeferEnd_keeps (dt : Nat) (g : Region) (s : State) : Keeps id s (execSpuDeferEnd dt g s) :=
  run_keeps fun u => by split <;> simp

theorem execStageAdmit_keeps (g : Region) (s : State) : Keeps id s (execStageAdmit g s) :=
  next_keeps (by
    dsimp only
    split <;> simp)

/-! ### The hoard and the device state -/

theorem execHoardArm_keeps (s : State) : Keeps id s (execHoardArm s) :=
  next_keeps (by (repeat' split) <;> simp)

theorem execHoardExport_keeps (s : State) : Keeps id s (execHoardExport s) :=
  next_keeps (by (repeat' split) <;> simp)

theorem execHoardFreeze_keeps (dt : Nat) (p : Port) (s : State) : Keeps id s (execHoardFreeze dt p s) :=
  hostWrite_keeps fun u => by split <;> simp

theorem execHoardFrozen_keeps (dt : Nat) (s : State) : Keeps id s (execHoardFrozen dt s) :=
  run_keeps fun u => by split <;> simp

/-- A frame that writes a mode request. -/
theorem modeFrame_keeps (dt : Nat) (p : Port) (secure : Bool) (d : DevState) (s : State) :
    Keeps id s (hostFrame dt p s fun u => modeWrite u p secure d) :=
  hostFrame_keeps fun u => congrArg id (modeWrite_evRest u p secure d)

theorem execWakeOutRelease_keeps (dt : Nat) (s : State) : Keeps id s (execWakeOutRelease dt s) :=
  run_keeps fun u => by split <;> simp

/-- An event-level command keeps the rest of the state. -/
theorem eventLevel_keeps {c : Instr} (h : eventLevel c = true) (s : State) : Keeps id s (exec c s) := by
  unfold eventLevel at h
  split at h
  · exact execAcquisitionComplete_keeps _ _ s
  · exact execCalSave_keeps _ _ s
  · exact execCaptureDone_keeps _ s
  · exact execCaptureReq_keeps _ _ _ s
  · exact execChallengeTimeout_keeps _ _ s
  · exact execCorePll_keeps _ s
  · exact execCorePllRelock_keeps _ s
  · exact execEchoMark_keeps _ _ s
  · exact execEvqFlush_keeps _ _ s
  · exact execHoardFreeze_keeps _ _ s
  · exact execHoardFrozen_keeps _ s
  · exact execHoldMax_keeps _ s
  · exact execLanePllRelock_keeps _ s
  · exact execLockAcquired_keeps _ s
  · exact modeFrame_keeps _ _ _ _ s
  · exact modeFrame_keeps _ _ _ _ s
  · exact modeFrame_keeps _ _ _ _ s
  · exact modeFrame_keeps _ _ _ _ s
  · exact modeFrame_keeps _ _ _ _ s
  · exact modeFrame_keeps _ _ _ _ s
  · exact execQueueTimeout_keeps _ _ s
  · exact execRailRecovery_keeps _ _ _ s
  · exact execReferenceLoss_keeps _ s
  · exact execRememberedDelivery_keeps _ _ s
  · exact execRephase_keeps _ _ s
  · exact execSpuDeferEnd_keeps _ _ s
  · exact execStallRead_keeps _ _ _ _ _ _ s
  · exact execSyncTimeout_keeps _ _ s
  · exact execWakeOutRelease_keeps _ s
  · exact execFollowLost_keeps s
  · exact execFollowerLost_keeps _ s
  · exact execReferenceReturn_keeps s
  · exact execHoardArm_keeps s
  · exact execHoardExport_keeps s
  · exact execRegionCal_keeps _ s
  · exact execStageAdmit_keeps _ s
  · cases h

end Sys2Proof.Machine
end

section
/-!
SUPPORT. The frame of the commands that change one more part of the state (R287, R289, R301): the notes of snapshots
and harvests, staged words, commit requests, the update engine, or the routing with the rule epoch. Each part has a
view of the state without it, which the operations of its commands keep.
-/

namespace Sys2Proof.Machine

/-! ### Views -/

/-- The state without the notes of snapshots and harvests. -/
def State.noNotes (s : State) : State := { s with asm_ := {} }
/-- The state without lanes and the notes of snapshots and harvests. -/
def State.noLanes (s : State) : State := { s with asm_ := {}, lanes := [] }
/-- The state without lanes, clusters and notes, and the lanes of the clusters other than `c`. -/
def State.offCluster (c : Nat) (s : State) : State × ({ n : Nat // laneCluster n ≠ c } → LaneState) :=
  ({ s.noLanes with clusters := [] }, fun n => s.lane n)
/-- The state without commit requests. -/
def State.noRequests (s : State) : State := { s with creqs := [] }
/-- The state without the configuration but for its words in force. -/
def State.noStaged (s : State) : State := { s with cfg := { live := s.cfg.live } }
/-- The state without the update engine. -/
def State.noUpdate (s : State) : State := { s with upd := {} }
/-- The state without the configuration and the rule epoch. -/
def State.noRules (s : State) : State := { s with epoch := 0, epochAt := none, cfg := {} }

@[simp] theorem onAsm_noNotes (s : State) (f : AsmState → AsmState) :
    (s.onAsm f).evRest.noNotes = s.evRest.noNotes := rfl
@[simp] theorem onUpd_noUpdate (s : State) (f : UpdState → UpdState) :
    (s.onUpd f).evRest.noUpdate = s.evRest.noUpdate := rfl

/-! ### Reads of the snapshots (R242, R243, R287) -/

@[simp] theorem onSnap_noNotes (s : State) (num : BitVec 48) (f : Snap → Snap) :
    (onSnap s num f).evRest.noNotes = s.evRest.noNotes := by simp [onSnap]

@[simp] theorem eccRead_noNotes (num : BitVec 48) (s : State) (j : Nat) :
    (eccRead num s j).evRest.noNotes = s.evRest.noNotes := by
  unfold eccRead
  (repeat' split) <;> simp

@[simp] theorem readInd_noNotes (s : State) (p : Port) (a : Nat) :
    (readInd s p a).2.evRest.noNotes = s.evRest.noNotes := by
  unfold readInd indSeen
  (repeat' split) <;> simp

@[simp] theorem readFrameOf_noNotes (s : State) (p : Port) (addr : BitVec 16) :
    (readFrameOf s p addr).2.2.evRest.noNotes = s.evRest.noNotes := by
  unfold readFrameOf
  dsimp only
  (repeat' split) <;> simp

@[simp] theorem readTied_noNotes (r : BurstRun) (s : State) (p : Port) (a : Nat) :
    (readTied r s p a).2.evRest.noNotes = s.evRest.noNotes := by
  unfold readTied
  (repeat' split) <;> simp

@[simp] theorem readWord_noNotes (r : BurstRun) (p : Port) (s : State) :
    (readWord r p s).2.evRest.noNotes = s.evRest.noNotes := by
  unfold readWord
  dsimp only
  (repeat' split) <;> simp

@[simp] theorem readWords_noNotes (p : Port) (n : Nat) (r : BurstRun) (s : State) :
    (readWords p n r s).2.2.evRest.noNotes = s.evRest.noNotes := by
  induction n generalizing r s with
  | zero => rfl
  | succ n ih => simp only [readWords, ih, readWord_noNotes]

@[simp] theorem burstReadOn_noNotes (p : Port) (piece : Piece) (head : Bytes) (words : Nat) (r : BurstRun)
    (s : State) : (burstReadOn p piece head words r s).evRest.noNotes = s.evRest.noNotes := by simp [burstReadOn]

theorem burstReadOf_noNotes (s : State) (p : Port) (piece : Piece) (fast : Bool) (cmd : Byte) (addr : BitVec 16)
    (crc : Byte) (words : Nat) :
    (burstReadOf s p piece fast cmd addr crc words).evRest.noNotes = s.evRest.noNotes := by
  unfold burstReadOf
  dsimp only
  (repeat' split) <;> simp

theorem execPortRead_keeps (dt : Nat) (p : Port) (fast : Bool) (cmd : Byte) (addr : BitVec 16) (crc : Byte)
    (s : State) : Keeps State.noNotes s (execPortRead dt p fast cmd addr crc s) :=
  run_keeps fun u => by
    dsimp only
    (repeat' split) <;> simp

theorem execBurstRead_keeps (dt : Nat) (p : Port) (how : Clocking) (cmd : Byte) (addr : BitVec 16) (crc : Byte)
    (words : Nat) (s : State) : Keeps State.noNotes s (execBurstRead dt p how cmd addr crc words s) :=
  run_keeps fun u => burstReadOf_noNotes u p _ _ cmd addr crc words

/-! ### The warden and the region queues (R17, R228, R229, R437) -/

@[simp] theorem dropRequest_noNotes (s : State) : (dropRequest s).evRest.noNotes = s.evRest.noNotes := by
  unfold dropRequest
  (repeat' split) <;> simp

theorem wardenResume_noNotes (s : State) : (wardenResume s).evRest.noNotes = s.evRest.noNotes := by
  unfold wardenResume
  dsimp only
  (repeat' split) <;> simp [setDev_evRest]

theorem flushRegion_noNotes (s : State) (g : Nat) : (flushRegion s g).evRest.noNotes = s.evRest.noNotes := by
  unfold flushRegion
  dsimp only
  (repeat' split) <;> simp

theorem execWardenRestart_keeps (dt : Nat) (s : State) : Keeps State.noNotes s (execWardenRestart dt s) :=
  run_keeps wardenResume_noNotes

theorem execFlush_keeps (dt : Nat) (p : Port) (g : Region) (s : State) : Keeps State.noNotes s (execFlush dt p g s) :=
  hostWrite_keeps fun u => by
    split
    · rfl
    · exact flushRegion_noNotes u g

theorem execLinkRetry_keeps (dt : Nat) (g : Region) (lanes : List Lane) (twice : Bool) (s : State) :
    Keeps State.noNotes s (execLinkRetry dt g lanes twice s) :=
  run_keeps fun u => by
    dsimp only
    split
    · split <;> simp [evRest_foldl]
    · simp

theorem execQueuePtr_keeps (dt : Nat) (g : Region) (k : Bank) (s : State) :
    Keeps State.noNotes s (execQueuePtr dt g k s) :=
  run_keeps fun u => by
    dsimp only
    simp only [setQueue_evRest, setRegionBit_evRest, raise_evRest, State.onRegion_eq, setRegion_evRest]
    rw [apply_ite State.evRest, regionLost_evRest, ite_self, onAsm_noNotes]

/-! ### A parity error and the loss of the lane PLL (R19, R21) -/

theorem loseTail_noLanes (s : State) (ns : List Nat) : (loseTail s ns).evRest.noLanes = s.evRest.noLanes := by
  rw [loseTail_rest]
  rfl

theorem stopLanes_noLanes (s : State) (ns : List Nat) : (stopLanes s ns).evRest.noLanes = s.evRest.noLanes := by
  rw [stopLanes_rest]
  rfl

theorem execLanePll_keeps (dt : Nat) (s : State) : Keeps State.noLanes s (execLanePll dt s) :=
  run_keeps fun u => by
    split
    · dsimp only
      rw [glb_evRest, raise_evRest, stopLanes_noLanes, loseTail_noLanes]
      rfl
    · rfl

theorem loseTail_offCluster (c : Nat) (s : State) (ns : List Nat) :
    (loseTail s ns).evRest.offCluster c = s.evRest.offCluster c := by
  rw [loseTail_rest]
  rfl

/-- Stopping lanes of a cluster leaves the lanes of the others alone. -/
theorem stopLanes_offCluster {c : Nat} (s : State) {ns : List Nat} (h : ∀ n ∈ ns, laneCluster n = c) :
    (stopLanes s ns).evRest.offCluster c = s.evRest.offCluster c := by
  induction ns generalizing s with
  | nil => rfl
  | cons m ns ih =>
    obtain ⟨hm, hns⟩ := List.forall_mem_cons.1 h
    refine (ih _ hns).trans ?_
    dsimp only
    split
    · rfl
    · refine Prod.ext rfl (funext fun n => ?_)
      exact State.setLane_lane_other s _ fun hn => n.2 (hn ▸ hm)

theorem execSeqParity_keeps (dt : Nat) (c : Cluster) (s : State) :
    Keeps (State.offCluster c) s (execSeqParity dt c s) :=
  run_keeps fun u => by
    have hlanes : ∀ n ∈ (List.range 8).map fun j => 8 * c.val + j, laneCluster n = c.val := by
      simp only [List.mem_map, List.mem_range, laneCluster]
      rintro n ⟨j, hj, rfl⟩
      omega
    split
    · rfl
    · dsimp only
      rw [evRest_foldl fun _ _ => happenNow_evRest _ _ _ _ _, stopLanes_offCluster _ hlanes, loseTail_offCluster,
        raise_evRest]
      rfl

/-! ### Commits and staged words (R317, R335) -/

theorem commitWrite_noRequests (s : State) (p : Port) (groups : BitVec 16) :
    (commitWrite s p groups).evRest.noRequests = s.evRest.noRequests := by
  unfold commitWrite
  split <;> rfl

theorem execCommit_keeps (dt : Nat) (p : Port) (groups : BitVec 16) (s : State) :
    Keeps State.noRequests s (execCommit dt p groups s) :=
  hostWrite_keeps fun u => by
    split
    · exact commitWrite_noRequests u p groups
    · rfl

theorem setStaged_noStaged (s : State) (p : Port) (a : Nat) (w : Word) :
    (s.setStaged p a w).evRest.noStaged = s.evRest.noStaged := by cases p <;> rfl

theorem takeSec_noStaged (s : State) (p : Port) (groups : BitVec 16) :
    (takeSec s p groups).evRest.noStaged = s.evRest.noStaged := by cases p <;> rfl

theorem discardWord_noStaged (p : Port) (groups : BitVec 16) (s : State) (a : Nat) :
    (discardWord p groups s a).evRest.noStaged = s.evRest.noStaged := by
  unfold discardWord
  split
  · exact setStaged_noStaged s p a _
  · rfl

theorem discardWrite_noStaged (s : State) (p : Port) (groups : BitVec 16) :
    (discardWrite s p groups).evRest.noStaged = s.evRest.noStaged := by
  rw [discardWrite_eq, takeSec_noStaged]
  exact keep_foldl (fun s : State => s.evRest.noStaged) (discardWord_noStaged p groups)

theorem execDiscard_keeps (dt : Nat) (p : Port) (groups : BitVec 16) (s : State) :
    Keeps State.noStaged s (execDiscard dt p groups s) :=
  hostWrite_keeps fun u => by
    split
    · rfl
    · exact discardWrite_noStaged u p groups

/-! ### The update engine (R502 to R507, R512) -/

@[simp] theorem setUState_noUpdate (s : State) (x : UState) :
    (setUState s x).evRest.noUpdate = s.evRest.noUpdate := by
  unfold setUState
  split <;> simp

theorem abortWrite_noUpdate (s : State) : (abortWrite s).evRest.noUpdate = s.evRest.noUpdate := by
  unfold abortWrite
  split <;> simp

@[simp] theorem activateWrite_noUpdate (s : State) (rolling : Bool) :
    (activateWrite s rolling).evRest.noUpdate = s.evRest.noUpdate := by simp [activateWrite]

theorem execAbort_keeps (dt : Nat) (p : Port) (s : State) : Keeps State.noUpdate s (execAbort dt p s) :=
  hostWrite_keeps abortWrite_noUpdate

theorem execActivate_keeps (dt : Nat) (p : Port) (s : State) : Keeps State.noUpdate s (execActivate dt p s) :=
  hostWrite_keeps fun u => by split <;> simp

theorem execRollback_keeps (dt : Nat) (p : Port) (s : State) : Keeps State.noUpdate s (execRollback dt p s) :=
  hostWrite_keeps fun u => by split <;> simp

theorem execActivationPause_keeps (dt : Nat) (s : State) : Keeps State.noUpdate s (execActivationPause dt s) :=
  run_keeps fun u => by
    dsimp only
    (repeat' split) <;> simp [beginPause]

theorem execVerify_keeps (dt : Nat) (s : State) : Keeps State.noUpdate s (execVerify dt s) :=
  hostFrame_keeps fun u => by split <;> simp [verifyWrite]

theorem execTakeBlock_keeps (dt : Nat) (block : Byte) (s : State) :
    Keeps State.noUpdate s (execTakeBlock dt block s) :=
  hostFrame_keeps fun u => by split <;> simp [takeWrite]

/-! ### Ports that are closed, reset or lost (R302, R303, R379) -/

@[simp] theorem ruleChange_noRules (s : State) : (ruleChange s).evRest.noRules = s.evRest.noRules := by
  rw [ruleChange_rest]
  rfl

@[simp] theorem discardSession_noRules (s : State) (p : Port) :
    (discardSession s p).evRest.noRules = s.evRest.noRules := by
  rw [discardSession_rest]
  rfl

@[simp] theorem closeSession_noRules (s : State) (p : Port) :
    (closeSession s p).evRest.noRules = s.evRest.noRules := by
  unfold closeSession
  split <;> simp

@[simp] theorem losePort_noRules (s : State) (p : Port) : (losePort s p).evRest.noRules = s.evRest.noRules := by
  simp [losePort]

theorem portReset_noRules (s : State) (p : Port) : (portReset s p).evRest.noRules = s.evRest.noRules := by
  unfold portReset
  dsimp only
  (repeat' split) <;> simp

theorem heartbeatMiss_noRules (s : State) (p : Port) : (heartbeatMiss s p).evRest.noRules = s.evRest.noRules := by
  unfold heartbeatMiss
  dsimp only
  split <;> simp

@[simp] theorem setBoth_noRules (s : State) (p : Port) (a : Nat) (m d : Word) :
    (setBoth s p a m d).evRest.noRules = s.evRest.noRules := by cases p <;> rfl

theorem revertChannel_noRules (p : Port) (s : State) (c : Nat) :
    (revertChannel p s c).evRest.noRules = s.evRest.noRules := by
  unfold revertChannel
  split <;> simp

@[simp] theorem revertChannels_noRules (s : State) (p : Port) :
    (revertChannels s p).evRest.noRules = s.evRest.noRules :=
  keep_foldl (fun s : State => s.evRest.noRules) (revertChannel_noRules p)

theorem leaseEnd_noRules (s : State) (p : Port) : (leaseEnd s p).evRest.noRules = s.evRest.noRules := by
  unfold leaseEnd
  dsimp only
  split <;> simp

theorem execClose_keeps (dt : Nat) (p : Port) (s : State) : Keeps State.noRules s (execClose dt p s) :=
  hostWrite_keeps fun u => closeSession_noRules u p

theorem execPreset_keeps (dt : Nat) (p : Port) (s : State) : Keeps State.noRules s (execPreset dt p s) :=
  hostWrite_keeps fun u => portReset_noRules u p

theorem execHeartbeatMissed_keeps (dt : Nat) (p : Port) (s : State) :
    Keeps State.noRules s (execHeartbeatMissed dt p s) :=
  run_keeps fun u => heartbeatMiss_noRules u p

theorem execLeaseExpiry_keeps (dt : Nat) (p : Port) (s : State) : Keeps State.noRules s (execLeaseExpiry dt p s) :=
  run_keeps fun u => leaseEnd_noRules u p

/-! ### Streams (R249, R267) -/

theorem evRest_stores (s : State) : s.evRest.stores = s.stores := rfl

theorem execKeyLimit_keeps (k : Fin 32) (s : State) : Keeps State.stores s (execKeyLimit k s) :=
  next_keeps (by
    dsimp only
    rw [evRest_stores, refreshStream_stores]
    split <;> simp [evRest_stores])

theorem execRevert_keeps (k : Fin 32) (s : State) : Keeps State.stores s (execRevert k s) :=
  next_keeps (by
    dsimp only
    split <;> simp [evRest_stores])

/-! ### All of them -/

/-- Settles O56, kind by kind: the view that each kind of command keeps shows what it leaves alone. -/
theorem eventLevelCommandsKeepTheRest : Obligations.EventLevelCommandsKeepTheRest := by
  unfold Obligations.EventLevelCommandsKeepTheRest
  intro c s t h
  refine ⟨fun hc => (eventLevel_keeps hc s).of_next h, ?notes, ?commit, ?discard, ?parity, ?lanePll, ?streams, ?update,
    ?ports⟩
  case notes =>
    intro hc
    have hkeeps : Keeps State.noNotes s (exec c s) := by
      rcases hc with ⟨_, _, _, _, _, _, rfl⟩ | ⟨_, _, _, _, _, _, _, rfl⟩ | ⟨_, rfl⟩ | ⟨_, _, _, rfl⟩ |
        ⟨_, _, _, _, rfl⟩ | ⟨_, _, _, rfl⟩
      · exact execPortRead_keeps _ _ _ _ _ _ s
      · exact execBurstRead_keeps _ _ _ _ _ _ _ s
      · exact execWardenRestart_keeps _ s
      · exact execFlush_keeps _ _ _ s
      · exact execLinkRetry_keeps _ _ _ _ s
      · exact execQueuePtr_keeps _ _ _ s
    exact congrArg (fun x : State => { x with asm_ := s.asm_ }) (hkeeps.of_next h)
  case commit =>
    rintro ⟨dt, p, groups, rfl⟩
    exact congrArg (fun x : State => { x with creqs := s.creqs }) ((execCommit_keeps dt p groups s).of_next h)
  case discard =>
    rintro ⟨dt, p, groups, rfl⟩
    have hkept := (execDiscard_keeps dt p groups s).of_next h
    exact ⟨congrArg (fun x : State => { x with cfg := s.cfg }) hkept,
      (congrArg (fun x : State => x.cfg.live) hkept :)⟩
  case parity =>
    rintro dt cl rfl
    obtain ⟨hrest, hlanes⟩ := Prod.ext_iff.1 ((execSeqParity_keeps dt cl s).of_next h)
    exact ⟨congrArg (fun x : State => { x with clusters := s.clusters, asm_ := s.asm_, lanes := s.lanes }) hrest,
      fun n hn => congrFun hlanes ⟨n, hn⟩⟩
  case lanePll =>
    rintro ⟨dt, rfl⟩
    exact congrArg (fun x : State => { x with asm_ := s.asm_, lanes := s.lanes }) ((execLanePll_keeps dt s).of_next h)
  case streams =>
    rintro (⟨k, rfl⟩ | ⟨k, rfl⟩)
    · exact (execKeyLimit_keeps k s).of_next h
    · exact (execRevert_keeps k s).of_next h
  case update =>
    intro hc
    have hkeeps : Keeps State.noUpdate s (exec c s) := by
      rcases hc with ⟨_, _, rfl⟩ | ⟨_, _, rfl⟩ | ⟨_, _, rfl⟩ | ⟨_, rfl⟩ | ⟨_, rfl⟩ | ⟨_, _, rfl⟩
      · exact execAbort_keeps _ _ s
      · exact execActivate_keeps _ _ s
      · exact execRollback_keeps _ _ s
      · exact execActivationPause_keeps _ s
      · exact execVerify_keeps _ s
      · exact execTakeBlock_keeps _ _ s
    exact congrArg (fun x : State => { x with upd := s.upd }) (hkeeps.of_next h)
  case ports =>
    intro hc
    have hkeeps : Keeps State.noRules s (exec c s) := by
      rcases hc with ⟨_, _, rfl⟩ | ⟨_, _, rfl⟩ | ⟨_, _, rfl⟩ | ⟨_, _, rfl⟩
      · exact execClose_keeps _ _ s
      · exact execPreset_keeps _ _ s
      · exact execHeartbeatMissed_keeps _ _ s
      · exact execLeaseExpiry_keeps _ _ s
    exact congrArg (fun x : State => { x with epoch := s.epoch, epochAt := s.epochAt, cfg := s.cfg })
      (hkeeps.of_next h)

end Sys2Proof.Machine
end

section
/-!
SUPPORT. The queue's front, the rollback counter and the commands that act on nothing else: what a step takes from
the queue and leaves of the lasting parts (R421, R501, R511), and the two rows of the test access port (R521).
-/

namespace Sys2Proof.Machine

/-- What lasts keeps the queue, through a device reset too (R12). -/
theorem Lasts.pending {s t : State} (h : Lasts s t) : t.pending = s.pending := h.elim Grows.pending WasReset.pending

/-- What lasts never lowers the rollback counter, through a device reset neither (R421, R511). -/
theorem Lasts.rollback {s t : State} (h : Lasts s t) : s.nv.rollback.toNat ≤ t.nv.rollback.toNat :=
  h.elim Grows.rollback WasReset.rollback

/-- A step takes the command at the front of the queue. -/
theorem step_cons (c : Instr) (rest : List Instr) (s : State) :
    step { s with pending := c :: rest } = exec c { s with pending := rest } := rfl

/-- A step on an empty queue idles. -/
theorem step_nil {s : State} (h : s.pending = []) : step s = .next s := by
  unfold step
  rw [h]

/-- A step idles on an empty queue, or runs the command at the queue's front. -/
theorem step_cases {s t : State} (h : step s = .next t) :
    t = s ∨ ∃ c rest, exec c { s with pending := rest } = .next t := by
  unfold step at h
  split at h
  · exact .inl (by cases h; rfl)
  · next c rest _ => exact .inr ⟨c, rest, h⟩

/-- Settles O59: every command raises the counter or leaves it, and so does the reset it may end in. -/
theorem rollbackCounterNeverFalls : Obligations.RollbackCounterNeverFalls := by
  unfold Obligations.RollbackCounterNeverFalls
  intro s t h
  obtain rfl | ⟨c, rest, hc⟩ := step_cases h
  · exact le_rfl
  · obtain ⟨u, hu, hlasts⟩ := exec_lasts c { s with pending := rest }
    cases hu.symm.trans hc
    exact hlasts.rollback

/-- Settles O57: every command answers, and what lasts keeps the queue. -/
theorem commandsKeepTheQueue : Obligations.CommandsKeepTheQueue := by
  unfold Obligations.CommandsKeepTheQueue
  intro c s
  obtain ⟨t, ht, hlasts⟩ := exec_lasts c s
  exact ⟨t, ht, hlasts.pending⟩

/-- Settles O1: the two cases of a step. -/
theorem stepRunsTheFront : Obligations.StepRunsTheFront :=
  ⟨step_cons, fun _ => step_nil⟩

theorem decodeTableWord_none (nbits w : Nat) : decodeTableWord nbits w = none := rfl

/-- A word that spells no command leaves the state. -/
theorem withFetchWord_none {s : State} {nbits w : Nat} (h : decodeTableWord nbits w = none) :
    s.withFetchWord nbits w = s := by
  unfold State.withFetchWord
  rw [h]

/-- Settles O49: no row of the table carries bits, so no word is decoded and none joins the queue. -/
theorem noWordSpellsACommand : Obligations.NoWordSpellsACommand := fun nbits w =>
  ⟨decodeTableWord_none nbits w, fun _ => withFetchWord_none (decodeTableWord_none nbits w)⟩

theorem exec_idcode (s : State) : exec .idcode s = .next { s with tdo := some (devId ||| 1) } := rfl
theorem exec_bypass (b : Bool) (s : State) : exec (.bypass b) s = .next { s with tdo := some (if b then 1 else 0) } := by
  cases b <;> rfl

/-- Settles O37: both rows drive TDO and touch nothing else. -/
theorem testPortAnswers : Obligations.TestPortAnswers := fun s => ⟨exec_idcode s, fun b => exec_bypass b s⟩

end Sys2Proof.Machine
end

section
/-!
SUPPORT. The order of a router cycle (R380): the cycle is sorted by insertion, so it is rearranged and never
shortened, and each event finds its place behind those of a lower source and ORIGIN.
-/

namespace Sys2Proof.Machine

/-- The router's order of two events, by source code and then by ORIGIN (R380). -/
def EvOrdered (a b : Event) : Prop := a.src.toNat < b.src.toNat ∨ a.src = b.src ∧ a.origin.toNat ≤ b.origin.toNat

theorem evLe_iff {a b : Event} : evLe a b = true ↔ EvOrdered a b := decide_eq_true_iff

theorem EvOrdered.trans {a b c : Event} (h : EvOrdered a b) (h' : EvOrdered b c) : EvOrdered a c := by
  unfold EvOrdered at *
  have hsrc : ∀ {x y : Event}, x.src = y.src → x.src.toNat = y.src.toNat := congrArg BitVec.toNat
  obtain h | ⟨h, ho⟩ := h <;> obtain h' | ⟨h', ho'⟩ := h'
  · exact .inl (h.trans h')
  · exact .inl (hsrc h' ▸ h)
  · exact .inl (hsrc h ▸ h')
  · exact .inr ⟨h.trans h', ho.trans ho'⟩

/-- The order is total: what does not stand before stands behind. -/
theorem EvOrdered.of_not {a b : Event} (h : ¬ EvOrdered a b) : EvOrdered b a := by
  unfold EvOrdered at *
  have hsrc : a.src = b.src ↔ a.src.toNat = b.src.toNat := BitVec.toNat_inj.symm
  have hsrc' : b.src = a.src ↔ b.src.toNat = a.src.toNat := BitVec.toNat_inj.symm
  rw [hsrc] at h
  rw [hsrc']
  omega

/-- An insertion adds the event and loses none. -/
theorem evInsert_perm (e : Event) (l : List Event) : (evInsert e l).Perm (e :: l) := by
  induction l with
  | nil => exact .refl _
  | cons x xs ih =>
    unfold evInsert
    split
    · exact (ih.cons x).trans (.swap e x xs)
    · exact .refl _

/-- An insertion into an ordered cycle leaves it ordered. -/
theorem evInsert_ordered {l : List Event} (e : Event) (h : l.Pairwise EvOrdered) : (evInsert e l).Pairwise EvOrdered := by
  induction l with
  | nil => exact List.pairwise_singleton _ _
  | cons x xs ih =>
    obtain ⟨hx, hxs⟩ := List.pairwise_cons.1 h
    unfold evInsert
    split
    · next hle =>
      refine List.pairwise_cons.2 ⟨fun y hy => ?_, ih hxs⟩
      obtain rfl | hy := List.mem_cons.1 ((evInsert_perm e xs).mem_iff.1 hy)
      · exact evLe_iff.1 hle
      · exact hx y hy
    · next hle =>
      have hex : EvOrdered e x := .of_not fun h => hle (evLe_iff.2 h)
      refine List.pairwise_cons.2 ⟨fun y hy => ?_, h⟩
      obtain rfl | hy := List.mem_cons.1 hy
      · exact hex
      · exact hex.trans (hx y hy)

/-- The events inserted one after another join those before them. -/
theorem foldl_evInsert_perm (es l : List Event) : (es.foldl (fun l e => evInsert e l) l).Perm (es ++ l) := by
  induction es generalizing l with
  | nil => exact .refl _
  | cons e es ih =>
    calc (es.foldl (fun l e => evInsert e l) (evInsert e l)).Perm (es ++ evInsert e l) := ih _
      List.Perm _ (es ++ e :: l) := (evInsert_perm e l).append_left es
      List.Perm _ (e :: es ++ l) := List.perm_middle

theorem foldl_evInsert_ordered (es : List Event) {l : List Event} (h : l.Pairwise EvOrdered) :
    (es.foldl (fun l e => evInsert e l) l).Pairwise EvOrdered := by
  induction es generalizing l with
  | nil => exact h
  | cons e es ih => exact ih (evInsert_ordered e h)

theorem evSort_perm (es : List Event) : (evSort es).Perm es := by
  simpa [evSort] using foldl_evInsert_perm es []

theorem evSort_ordered (es : List Event) : (evSort es).Pairwise EvOrdered := foldl_evInsert_ordered es .nil

/-- Settles O53: the cycle is delivered as insertion sorts it. -/
theorem routerOrdersACycle : Obligations.RouterOrdersACycle := fun s =>
  ⟨evSort s.cycle, evSort_perm s.cycle, evSort_ordered s.cycle, rfl⟩

end Sys2Proof.Machine
end

section
/-!
SUPPORT. Where SEQ does not follow the SQ fields (R315): ALARM_STATUS of Port U is no copy of SQ fields but is read
from the alarm log, so a value in the state's own copy for that port never shows.
-/

namespace Sys2Proof.Machine

/-- A state whose copy of ALARM_STATUS for Port U holds one set field. -/
def markedPortU : State := { State.reset with u := { State.reset.u with alarm := sqSet {} 1 } }

theorem sqReg_markedPortU : sqReg (markedPortU.port .u) 0x018 = some (sqSet {} 1) := rfl

/-- Port U reads ALARM_STATUS with SEQ 0 all the same. -/
theorem dirWord_markedPortU_seq : (dirWord markedPortU .u 0x018).extractLsb' 24 8 = 0 := by decide

/-- Refutes O50: on Port U, ALARM_STATUS does not read SEQ of that port's copy. -/
theorem not_sequenceNumbersFollowTheFields : ¬ Obligations.SequenceNumbersFollowTheFields := by
  unfold Obligations.SequenceNumbersFollowTheFields
  rintro ⟨-, -, hreads, -⟩
  obtain ⟨hseq, -⟩ := hreads markedPortU .u 0x018 _ sqReg_markedPortU
  exact absurd (dirWord_markedPortU_seq.symm.trans hseq) (by decide)

end Sys2Proof.Machine
end

section
/-!
SUPPORT. Captures (R322, R334), requests for a device state (R348, R438), and the two ends of discovery (R463, R464).
-/

namespace Sys2Proof.Machine

/-! ### Captures -/

theorem exec_captureSample (s : State) : exec .captureSample s = execCaptureSample s := rfl
theorem exec_captureDone (dt : Nat) (s : State) : exec (.captureDone dt) s = execCaptureDone dt s := rfl

@[simp] theorem macRun_cap (u : Ul) (n : Nat) (s : State) : (macRun u n s).cap = s.cap := by
  induction n generalizing s with
  | zero => rfl
  | succ n ih =>
    simp only [macRun]
    (repeat' split) <;> simp [ih]

/-- Frames that leave the MACs leave capture alone. -/
@[simp] theorem macs_cap (s : State) : (macs s).cap = s.cap := by simp [macs]

/-- Restarting the monitors leaves capture alone (R385). -/
@[simp] theorem restartMonitors_cap (s : State) : (restartMonitors s).cap = s.cap := by
  unfold restartMonitors
  dsimp only
  rw [keep_foldl State.cap fun _ _ => by simp, keep_foldl State.cap fun _ _ => by simp]

/-- A capture that is due has been requested. -/
theorem req_of_captureDue {s : State} (h : captureDue s = true) : ∃ r, s.cap.req = some r := by
  obtain hreq | ⟨r, hreq⟩ := Option.eq_none_or_eq_some s.cap.req
  · simp [captureDue, hreq] at h
  · exact ⟨r, hreq⟩

/-- A due capture is sampled with the next number (R322, R334). -/
theorem captureSample_samples {s : State} (h : captureDue s = true) :
    ∃ t c, exec .captureSample s = .next t ∧ t.cap.copying = some c ∧ c.ccount = s.cap.ccount + 1 ∧
      c.tick = s.grid.tick ∧ t.cap.req = none ∧ t.cap.cstate = .copying ∧ t.cap.held = s.cap.held := by
  obtain ⟨⟨due, restart⟩, hreq⟩ := req_of_captureDue h
  refine ⟨_, captureNow (macs s) restart, exec_captureSample s, ?_⟩
  rw [if_pos h, captureSample, hreq]
  dsimp only
  have hcap : (if restart = true then restartMonitors { macs s with cap := { (macs s).cap with
        req := none, copying := some (captureNow (macs s) restart), cstate := .copying, tick := (macs s).grid.tick } }
      else { macs s with cap := { (macs s).cap with
        req := none, copying := some (captureNow (macs s) restart), cstate := .copying, tick := (macs s).grid.tick } }).cap =
      { s.cap with
        req := none, copying := some (captureNow (macs s) restart), cstate := .copying, tick := s.grid.tick } := by
    split <;> simp
  rw [hcap]
  exact ⟨rfl, by simp [captureNow], by simp [captureNow], rfl, rfl, rfl⟩

/-- A capture that has been copied stands in the holding area and is reported (R322, R334). -/
theorem captureDone_holds {s u : State} {dt : Nat} {c : Capture} (h : Arrives s dt u) (hc : u.cap.copying = some c) :
    ∃ t, exec (.captureDone dt) s = .next t ∧ t.cap.copying = none ∧ t.cap.held.head? = some c ∧
      t.cap.ccount = c.ccount ∧ t.cap.cstate = (if u.cap.req.isSome then .pending else .done) ∧ t.glbHas 17 = true ∧
      Raised u t 42 c.ccount.toNat (BitVec.ofNat 32 c.tick.toNat) := by
  refine ⟨_, (exec_captureDone dt s).trans (run_arrives h _), ?_⟩
  simp only [hc]
  exact ⟨by simp, by simp, by simp, by simp, glb_glbHas (by decide), raised_of_cycle rfl rfl rfl⟩

/-- Settles O31, by the sample and the end of its copy. -/
theorem capturesComplete : Obligations.CapturesComplete :=
  ⟨fun _ => captureSample_samples, fun _ _ _ _ => captureDone_holds⟩

/-! ### Requests for a device state -/

/-- A request that is refused changes RESULT alone. -/
theorem modeRequest_refused {s : State} {d : DevState} (h : modeRefused s d = true) :
    (modeRequest s d).mode = { s.mode with result := .refused } := by
  rw [modeRequest, if_pos h]
  rfl

/-- A request for the present state is done at once (log entry 56). -/
theorem modeRequest_present {s : State} (h : modeRefused s s.mode.dev = false) :
    (modeRequest s s.mode.dev).mode = { s.mode with target := BitVec.ofNat 4 s.mode.dev.code, result := .done } := by
  rw [modeRequest, if_neg (by simp [h])]
  exact congrArg State.mode (if_pos rfl)

/-- A request for another state waits for its tick (R438). -/
theorem modeRequest_waits {s : State} {d : DevState} (h : modeRefused s d = false) (hd : d ≠ s.mode.dev) :
    (modeRequest s d).mode.dev = s.mode.dev ∧ (modeRequest s d).mode.target = BitVec.ofNat 4 d.code ∧
      (modeRequest s d).mode.result = .pending ∧ (modeRequest s d).mode.req = some (d, s.grid.now + 4000) := by
  rw [modeRequest, if_neg (by simp [h])]
  extract_lets v
  rw [if_neg (show ¬ d = v.mode.dev from hd)]
  exact ⟨rfl, rfl, rfl, rfl⟩

/-- A frame that carries a request on a host port brings it, where TEST and REPLAY come in a secure one (R348). -/
theorem modeWrite_requests {s u : State} {dt : Nat} {p : Port} (h : FrameArrives s dt p u) (hp : p ≠ .u) {d : DevState}
    {secure : Bool} (hsecure : d = .test ∨ d = .replay → secure = true) :
    hostFrame dt p s (fun s => modeWrite s p secure d) = .next (modeRequest u d) := by
  have hserves := frameArrives_serves h
  simp only [portBusy, Bool.or_eq_false_iff] at hserves
  obtain ⟨hrestarting, hpause⟩ := hserves
  rw [hostFrame_arrives h, modeWrite, if_neg]
  simp only [hrestarting, hpause, Bool.false_eq_true, or_false, not_or, not_and]
  exact ⟨hp, fun hd => by simp [hsecure hd]⟩

/-- Each command that asks for a device state brings its request. -/
theorem modeRows_request {s u : State} {dt : Nat} {p : Port} {x : DevState × Instr} (h : FrameArrives s dt p u)
    (hp : p ≠ .u) (hx : x ∈ modeRows dt p) : exec x.2 s = .next (modeRequest u x.1) := by
  simp only [modeRows, List.mem_cons, List.not_mem_nil, or_false] at hx
  obtain rfl | rfl | rfl | rfl | rfl | rfl := hx
  · exact modeWrite_requests (secure := false) h hp (by simp)
  · exact modeWrite_requests (secure := false) h hp (by simp)
  · exact modeWrite_requests (secure := false) h hp (by simp)
  · exact modeWrite_requests (secure := false) h hp (by simp)
  · exact modeWrite_requests (secure := true) h hp (by simp)
  · exact modeWrite_requests (secure := true) h hp (by simp)

/-- TEST and REPLAY are not asked for in an ordinary frame (R348). -/
theorem modeWrite_idles {s u : State} {dt : Nat} {p : Port} (h : FrameArrives s dt p u) {d : DevState}
    (hd : d = .test ∨ d = .replay) : hostFrame dt p s (fun s => modeWrite s p false d) = .next u := by
  rw [hostFrame_arrives h, modeWrite, if_pos (.inr (.inl ⟨hd, rfl⟩))]

/-- Settles O41, by the three judgements of a request. -/
theorem modeRequestsWait : Obligations.ModeRequestsWait := by
  unfold Obligations.ModeRequestsWait
  refine ⟨fun s u dt p x h hp hx => ⟨_, modeRows_request h hp hx, ?_⟩, fun s u dt p h => ⟨?_, ?_⟩⟩
  · cases hrefused : modeRefused u x.1 with
    | true => simp [modeRequest_refused hrefused]
    | false =>
      by_cases hdev : x.1 = u.mode.dev
      · rw [hdev] at hrefused ⊢
        simp [modeRequest_present hrefused]
      · obtain ⟨hd, ht, hr, hq⟩ := modeRequest_waits hrefused hdev
        exact ⟨hd, by simp, fun _ => ⟨ht, fun he => absurd he hdev, fun _ => ⟨hr, hq⟩⟩⟩
  · exact modeWrite_idles h (.inl rfl)
  · exact modeWrite_idles h (.inr rfl)

/-! ### Discovery -/

theorem exec_discoveryEnd (s : State) : exec .discoveryEnd s = execDiscoveryEnd s := rfl
theorem exec_followerStartTimeout (s : State) : exec .followerStartTimeout s = execFollowerStartTimeout s := rfl

/-- The boot commit shown as sowing moves neither the grid nor the device state. -/
theorem bootSowing_keep {γ : Type} (v : State → γ) (hset : ∀ s c b, v (setSowing s c b) = v s)
    (hstat : ∀ s c st r, v (commitStatus s c st r) = v s) (s : State) (cs : List CommitRun) :
    v (cs.foldl (fun s c =>
      if c.ports = 0 ∧ !c.sown then
        let s := setSowing s c true
        if s.mode.fallback then s else commitStatus s c .sowing (0, 0)
      else s) s) = v s :=
  keep_foldl v fun s c => by
    split
    · dsimp only
      split
      · exact hset s c true
      · rw [hstat, hset]
    · rfl

/-- SOW begins from BOOT, where discovery has ended; the grid stays (R462 to R464). -/
theorem startSow_enters {s : State} (h : s.mode.dev = .boot) :
    (startSow s).mode.dev = .sow ∧ (startSow s).mode.inDisc = false ∧ (startSow s).grid = s.grid := by
  unfold startSow
  extract_lets v1 v2 v3
  have hmode : v2.mode = { s.mode with inDisc := false, dev := .sow } := by
    simp only [v2, v1, State.onMode_mode, h, if_true, setDev_mode]
  have hgrid : v2.grid = s.grid := by
    simp only [v2, v1, State.onMode_mode, h, if_true, setDev_kept, State.onMode_kept]
  have hmode3 : v3.mode = v2.mode := bootSowing_keep State.mode setSowing_mode commitStatus_mode v2 v2.commits
  have hgrid3 : v3.grid = v2.grid := bootSowing_keep State.grid setSowing_grid commitStatus_grid v2 v2.commits
  split
  · simp [hmode3, hmode, hgrid3, hgrid]
  · rw [keep_foldl State.mode requestStage_mode, keep_foldl State.grid requestStage_grid]
    simp [hmode3, hmode, hgrid3, hgrid]

/-- Settles O4: either row enters SOW. -/
theorem discoveryEnds : Obligations.DiscoveryEnds := by
  unfold Obligations.DiscoveryEnds
  refine ⟨fun s hon hlead hdisc hnow hdev htime => ?_, fun s hon hlead hdisc hmarks hjoined htime hhop hdev => ?_⟩
  · have hover : discoveryOver s = true := by
      simp only [discoveryOver, hon, hlead, hdisc, hnow, beq_self_eq_true, Bool.true_and]
      rw [hnow] at htime
      by_cases hnone : s.grid.followers = 0
      · rw [if_pos hnone] at htime ⊢
        exact decide_eq_true htime
      · rw [if_neg hnone] at htime ⊢
        simpa using htime
    refine ⟨_, exec_discoveryEnd s, ?_⟩
    rw [if_pos hover, endDiscovery]
    obtain ⟨hsow, hin, -⟩ := startSow_enters (s := List.foldl markAbsent s (((List.range 4).drop 1).filter fun h =>
      decide (h ≤ s.grid.followers.toNat) && !s.grid.members.contains h))
      (by rw [keep_foldl State.mode markAbsent_mode, hdev])
    exact ⟨hsow, hin⟩
  · refine ⟨_, exec_followerStartTimeout s, ?_⟩
    dsimp only
    rw [if_pos ⟨hon, by simp [hlead], hdisc, hmarks, by simp [hjoined], htime, hhop⟩]
    obtain ⟨hsow, hin, hgrid⟩ := startSow_enters (s := setTState (s.onGrid fun g =>
      { g with pkg := g.savedHop, hop := g.savedHop }) .followLost) (by simp [hdev])
    refine ⟨hsow, hin, ?_⟩
    rw [hgrid]
    simp

end Sys2Proof.Machine
end

section
/-!
SUPPORT. What a lane that loses its power takes with it (R131, R428, R433): its own entry, its endpoints, requests and
route writes, and its place in a wave; events are added to the router cycle, and nothing else of the state moves.
-/

namespace Sys2Proof.Machine

/-- The state without what a lane that loses its power may change. -/
def State.unlaned (s : State) : State :=
  { s with
    fresh := 0, cycle := [], lanes := [], eps := [], routes := [], chain := [], hoard := {}
    mode := { s.mode with wave := none } }

/-- The parts of equal views. -/
theorem of_unlaned {s t : State} (h : t.unlaned = s.unlaned) :
    t.h = s.h ∧ t.m = s.m ∧ t.cfg = s.cfg ∧ t.grid = s.grid ∧ t.regions = s.regions ∧
      { t.mode with wave := none } = { s.mode with wave := none } :=
  ⟨(congrArg State.h h :), (congrArg State.m h :), (congrArg State.cfg h :), (congrArg State.grid h :),
    (congrArg State.regions h :), (congrArg State.mode h :)⟩

theorem region_of_unlaned {s t : State} (h : t.unlaned = s.unlaned) (g : Nat) : t.region g = s.region g := by
  obtain ⟨-, -, -, -, hregions, -⟩ := of_unlaned h
  rw [State.region, hregions, ← State.region]

theorem glbHas_of_unlaned {s t : State} (h : t.unlaned = s.unlaned) (k : Nat) : t.glbHas k = s.glbHas k := by
  obtain ⟨hh, hm, -⟩ := of_unlaned h
  rw [State.glbHas, hh, hm, ← State.glbHas]

theorem unlaned_of_offHoard {s t : State} (h : t.offHoard = s.offHoard) : t.unlaned = s.unlaned :=
  (congrArg State.unlaned h :)

@[simp] theorem setLane_unlaned (s : State) (n : Nat) (x : LaneState) : (s.setLane n x).unlaned = s.unlaned := rfl
@[simp] theorem setEp_unlaned (s : State) (i : Nat) (x : EpState) : (s.setEp i x).unlaned = s.unlaned := rfl
@[simp] theorem onHoard_unlaned (s : State) (f : HoardState → HoardState) : (s.onHoard f).unlaned = s.unlaned := rfl
@[simp] theorem onEndpoint_unlaned (s : State) (i : Nat) (f : Endpoint → Endpoint) :
    (s.onEndpoint i f).unlaned = s.unlaned := rfl
@[simp] theorem raise_unlaned (s : State) (src origin : Nat) (data : Word) :
    (raise s src origin data).unlaned = s.unlaned := by
  unfold raise
  split <;> rfl

@[simp] theorem accComplete_unlaned (s : State) (n : Nat) (st : AccState) (d0 d1 : Option Word) :
    (accComplete s n st d0 d1).unlaned = s.unlaned := by
  unfold accComplete
  dsimp only
  (repeat' split) <;> simp

@[simp] theorem endSpu_unlaned (s : State) (n : Nat) : (endSpu s n).unlaned = s.unlaned := by
  unfold endSpu
  dsimp only
  split <;> rfl

@[simp] theorem dropRouteWrites_unlaned (s : State) (n : Nat) : (dropRouteWrites s n).unlaned = s.unlaned :=
  keep_foldl State.unlaned fun s p => by
    unfold dropRouteWrite
    split <;> rfl

@[simp] theorem leaveWave_unlaned (s : State) (n : Nat) : (leaveWave s n).unlaned = s.unlaned := by
  unfold leaveWave
  dsimp only
  (repeat' split) <;> rfl

@[simp] theorem chainOff_unlaned (s : State) (n : Nat) (t : Int) : (chainOff s n t).unlaned = s.unlaned :=
  keep_foldl State.unlaned fun _ _ => rfl

@[simp] theorem sourceOff_unlaned (s : State) (n : Nat) (t : Int) : (sourceOff s n t).unlaned = s.unlaned := by
  simp [sourceOff]

@[simp] theorem unpower_unlaned (s : State) (n : Nat) : (unpower s n).unlaned = s.unlaned := by
  simp [unpower, refuseAccess]

@[simp] theorem suspendLane_unlaned (s : State) (n : Nat) : (suspendLane s n).unlaned = s.unlaned := by
  simp [suspendLane]

/-- Happenings are written to the hoard alone (R485). -/
@[simp] theorem happenAll_offHoard (s : State) (ns : List Nat) (kind : Nat) (arg : Bytes) :
    (happenAll s ns kind arg).offHoard = s.offHoard :=
  keep_foldl State.offHoard fun _ _ => happenNow_offHoard _ _ _ _ _

@[simp] theorem happenRegion_offHoard (s : State) (ns : List Nat) (code begins : Nat) :
    (happenRegion s ns code begins).offHoard = s.offHoard := happenAll_offHoard _ _ _ _

/-- What happenings leave alone. -/
@[simp] theorem happenAll_kept (s : State) (ns : List Nat) (kind : Nat) (arg : Bytes) :
    (happenAll s ns kind arg).cfg = s.cfg ∧ (happenAll s ns kind arg).grid = s.grid ∧
    (happenAll s ns kind arg).mode = s.mode ∧ (happenAll s ns kind arg).cycle = s.cycle ∧
    (happenAll s ns kind arg).h = s.h ∧ (happenAll s ns kind arg).m = s.m ∧
    (∀ k, (happenAll s ns kind arg).lane k = s.lane k) ∧ ∀ k, (happenAll s ns kind arg).region k = s.region k := by
  rw [eq_of_offHoard (happenAll_offHoard s ns kind arg)]
  simp [State.lane, State.region]

@[simp] theorem happenRegion_kept (s : State) (ns : List Nat) (code begins : Nat) :
    (happenRegion s ns code begins).cfg = s.cfg ∧ (happenRegion s ns code begins).grid = s.grid ∧
    (happenRegion s ns code begins).mode = s.mode ∧ (happenRegion s ns code begins).cycle = s.cycle ∧
    (happenRegion s ns code begins).h = s.h ∧ (happenRegion s ns code begins).m = s.m ∧
    (∀ k, (happenRegion s ns code begins).lane k = s.lane k) ∧
    ∀ k, (happenRegion s ns code begins).region k = s.region k := happenAll_kept s ns 0x06 _

/-! ### Events -/

/-- Events are only added to the router cycle. -/
def CycleGrows (s t : State) : Prop := ∀ e ∈ s.cycle, e ∈ t.cycle

theorem CycleGrows.trans {s t u : State} (h : CycleGrows s t) (h' : CycleGrows t u) : CycleGrows s u :=
  fun e he => h' e (h e he)

theorem CycleGrows.of_eq {s t : State} (h : t.cycle = s.cycle) : CycleGrows s t := fun _ he => h ▸ he

theorem CycleGrows.foldl {α : Type} {f : State → α → State} (h : ∀ s a, CycleGrows s (f s a)) (l : List α)
    (s : State) : CycleGrows s (l.foldl f s) := by
  induction l generalizing s with
  | nil => exact .of_eq rfl
  | cons a l ih => exact (h s a).trans (ih _)

theorem raise_cycleGrows (s : State) (src origin : Nat) (data : Word) : CycleGrows s (raise s src origin data) :=
  fun _ he => raise_mem src origin data he

theorem accComplete_cycleGrows (s : State) (n : Nat) (st : AccState) (d0 d1 : Option Word) :
    CycleGrows s (accComplete s n st d0 d1) := by
  unfold accComplete
  extract_lets a u v
  split
  · have hdone : CycleGrows s v := fun _ he => raise_mem (s := u) _ _ _ he
    split
    · exact hdone.trans (raise_cycleGrows _ _ _ _)
    · exact hdone
  · exact .of_eq rfl

@[simp] theorem endSpu_cycle (s : State) (n : Nat) : (endSpu s n).cycle = s.cycle := by
  unfold endSpu
  dsimp only
  split <;> rfl

@[simp] theorem dropRouteWrites_cycle (s : State) (n : Nat) : (dropRouteWrites s n).cycle = s.cycle :=
  keep_foldl State.cycle fun s p => by
    unfold dropRouteWrite
    split <;> rfl

@[simp] theorem leaveWave_cycle (s : State) (n : Nat) : (leaveWave s n).cycle = s.cycle := by
  unfold leaveWave
  dsimp only
  (repeat' split) <;> rfl

@[simp] theorem sourceOff_cycle (s : State) (n : Nat) (t : Int) : (sourceOff s n t).cycle = s.cycle :=
  keep_foldl State.cycle fun _ _ => rfl

theorem unpower_cycle (s : State) (n : Nat) : (unpower s n).cycle = (refuseAccess s n).cycle := by
  simp [unpower]

/-- A lane that loses its power ends its request with an event and takes none back. -/
theorem unpower_cycleGrows (s : State) (n : Nat) : CycleGrows s (unpower s n) :=
  (accComplete_cycleGrows s n .refused none none).trans (.of_eq (unpower_cycle s n))

theorem suspendLane_cycle (s : State) (n : Nat) : (suspendLane s n).cycle = (unpower s n).cycle := by
  simp [suspendLane]

theorem suspendLane_cycleGrows (s : State) (n : Nat) : CycleGrows s (suspendLane s n) :=
  (unpower_cycleGrows s n).trans (.of_eq (suspendLane_cycle s n))

/-! ### Lanes -/

theorem accComplete_lane_other (s : State) {n k : Nat} (hk : k ≠ n) (st : AccState) (d0 d1 : Option Word) :
    (accComplete s n st d0 d1).lane k = s.lane k := by
  unfold accComplete
  dsimp only
  (repeat' split) <;> simp [State.setLane_lane_other _ _ hk]

theorem endSpu_lane_other (s : State) {n k : Nat} (hk : k ≠ n) : (endSpu s n).lane k = s.lane k := by
  unfold endSpu
  dsimp only
  split
  · rfl
  · exact State.setLane_lane_other _ _ hk

theorem leaveWave_lane_other (s : State) {n k : Nat} (hk : k ≠ n) : (leaveWave s n).lane k = s.lane k := by
  unfold leaveWave
  dsimp only
  (repeat' split) <;> simp [State.setLane_lane_other _ _ hk]

theorem sourceOff_lane_other (s : State) {n k : Nat} (hk : k ≠ n) (t : Int) :
    (sourceOff s n t).lane k = s.lane k := by
  simp [sourceOff, State.setLane_lane_other _ _ hk]

/-- A lane that loses its power leaves the others alone. -/
theorem unpower_lane_other (s : State) {n k : Nat} (hk : k ≠ n) : (unpower s n).lane k = s.lane k := by
  unfold unpower
  dsimp only
  rw [sourceOff_lane_other _ hk, State.onLane_eq, State.setLane_lane_other _ _ hk, leaveWave_lane_other _ hk,
    dropRouteWrites_lane, endSpu_lane_other _ hk, refuseAccess, accComplete_lane_other _ hk]

/-- A lane without power (R131, R428). -/
@[simp] theorem unpower_lstate (s : State) (n : Nat) : ((unpower s n).lane n).lstate = .unpowered := by
  simp [unpower]

theorem suspendLane_lane_other (s : State) {n k : Nat} (hk : k ≠ n) : (suspendLane s n).lane k = s.lane k := by
  rw [suspendLane, State.onLane_eq, State.setLane_lane_other _ _ hk, unpower_lane_other _ hk]

/-- A lane that has been suspended (R433, R435). -/
def LaneState.Suspended (l : LaneState) : Prop :=
  l.suspended = true ∧ l.gapUntilFrame = true ∧ l.lstate = .unpowered

theorem suspendLane_suspends (s : State) (n : Nat) : ((suspendLane s n).lane n).Suspended := by
  simp [suspendLane, LaneState.Suspended]

/-- Lanes taken one by one: what each turn leaves of its own lane holds of all of them at the end. -/
theorem foldl_lane_all {P : LaneState → Prop} {f : State → Nat → State} (hown : ∀ s n, P ((f s n).lane n))
    (hother : ∀ s n k, k ≠ n → (f s n).lane k = s.lane k) (ns : List Nat) (s : State) {n : Nat}
    (h : n ∈ ns ∨ P (s.lane n)) : P ((ns.foldl f s).lane n) := by
  induction ns generalizing s with
  | nil => exact h.resolve_left List.not_mem_nil
  | cons m ns ih =>
    refine ih _ ?_
    by_cases hm : n = m
    · exact .inr (hm ▸ hown s m)
    · exact h.imp (fun hn => (List.mem_cons.1 hn).resolve_left hm) fun hP => by rwa [hother s m n hm]

/-- What the mark of a fault and a GLB_STATUS bit leave alone, new faults do (R222, R327). -/
theorem withFaults_keep {γ : Type} (v : State → γ) (hglb : ∀ s, v (glb s 21) = v s)
    (hlane : ∀ s n, v (s.onLane n fun l => { l with faultSeen := true }) = v s) (ns : List Nat) (s t : State) :
    v (withFaults ns s t) = v t := by
  unfold withFaults
  split
  · rw [hglb]
    exact keep_foldl v fun u n => by
      split
      · exact hlane u n
      · rfl
  · rfl

theorem withFaults_lstate (ns : List Nat) (s t : State) (k : Nat) :
    ((withFaults ns s t).lane k).lstate = (t.lane k).lstate :=
  withFaults_keep (fun u => (u.lane k).lstate) (by simp) (fun u n => by
    by_cases hk : k = n
    · subst hk
      simp
    · simp [State.setLane_lane_other _ _ hk]) ns s t

end Sys2Proof.Machine
end

section
/-!
SUPPORT. Supplies (R430 to R435): warnings and their recovery, the end of a rail's reset, and the suspension and
isolation of lanes.
-/

namespace Sys2Proof.Machine

theorem exec_railWarning (dt : Nat) (r : Rail) (s : State) : exec (.railWarning dt r) s = execRailWarning dt r s := rfl
theorem exec_railRecovery (dt : Nat) (r : Rail) (th : Threshold) (s : State) :
    exec (.railRecovery dt r th) s = execRailRecovery dt r th s := rfl
theorem exec_vlinkSecond (dt : Nat) (g : Region) (s : State) : exec (.vlinkSecond dt g) s = execVlinkSecond dt g s := rfl
theorem exec_vlinkRecovery (dt : Nat) (g : Region) (s : State) :
    exec (.vlinkRecovery dt g) s = execVlinkRecovery dt g s := rfl
theorem exec_regionIsolated (dt : Nat) (g : Region) (s : State) :
    exec (.regionIsolated dt g) s = execRegionIsolated dt g s := rfl
theorem exec_regionIsolationEnd (dt : Nat) (g : Region) (s : State) :
    exec (.regionIsolationEnd dt g) s = execRegionIsolationEnd dt g s := rfl
theorem exec_vbatSecond (dt : Nat) (s : State) : exec (.vbatSecond dt) s = execVbatSecond dt s := rfl
theorem exec_vbatRecovery (dt : Nat) (s : State) : exec (.vbatRecovery dt) s = execVbatRecovery dt s := rfl

/-! ### Warnings (R430, R431) -/

theorem railBit_lt (r : Rail) : railBit r < 24 := by
  cases r with
  | vlink g =>
    have := g.isLt
    simp only [railBit]
    omega
  | _ => decide

/-- A bit of SUPPLY_STATUS that is set shows on both ports, with SUPPLY in GLB_STATUS (R327, R331). -/
theorem setSupply_shows {n : Nat} (s : State) (h : n < 24) :
    (setSupply s n).h.supply.bits.getLsbD n = true ∧ (setSupply s n).m.supply.bits.getLsbD n = true ∧
      (setSupply s n).glbHas 22 = true :=
  ⟨by simp [setSupply, bit24_getLsbD h], by simp [setSupply, bit24_getLsbD h], glb_glbHas (by decide)⟩

/-- What a live bit leaves alone (R431). -/
@[simp] theorem setLive_kept (s : State) (b : Bool) (r : Rail) :
    (setLive s b r).cfg = s.cfg ∧ (setLive s b r).grid = s.grid ∧ (setLive s b r).cycle = s.cycle := by
  cases r <;> simp [setLive]

/-- The live bit that is set, of a rail that has one (R431). -/
theorem railLive_setLive (s : State) (b : Bool) {r : Rail} (h : r = .vbat ∨ ∃ g, r = .vlink g) :
    railLive (setLive s b r) r = b := by
  obtain rfl | ⟨g, rfl⟩ := h
  · rfl
  · simp [railLive, setLive]

/-- A live bit stands in the regions and the mode. -/
theorem railLive_congr {s t : State} (hr : ∀ g, t.region g = s.region g) (hm : t.mode = s.mode) (r : Rail) :
    railLive t r = railLive s r := by
  cases r <;> simp [railLive, hr, hm]

theorem rail_of_railLive {s : State} {r : Rail} (h : railLive s r = true) : r = .vbat ∨ ∃ g, r = .vlink g := by
  cases r with
  | vlink g => exact .inr ⟨g, rfl⟩
  | vbat => exact .inl rfl
  | _ => exact absurd h Bool.false_ne_true

@[simp] theorem staleWaits_unlaned (s : State) (g : Nat) : (staleWaits s g).unlaned = s.unlaned :=
  keep_foldl State.unlaned fun s n => by (repeat' split) <;> rfl

@[simp] theorem staleWaits_kept (s : State) (g : Nat) : (staleWaits s g).cycle = s.cycle ∧
    (staleWaits s g).mode = s.mode :=
  ⟨keep_foldl State.cycle fun s n => by (repeat' split) <;> rfl,
    keep_foldl State.mode fun s n => by (repeat' split) <;> rfl⟩

/-- The state that a warning shows, without what a VLINK's warning does to its lanes. -/
def railWarned (s : State) (r : Rail) : State := raise (setSupply (setLive s true r) (railBit r)) 38 (railCode r) 0

/-- What a warning shows. -/
structure RailWarned (r : Rail) (u t : State) : Prop where
  h : t.h.supply.bits.getLsbD (railBit r) = true
  m : t.m.supply.bits.getLsbD (railBit r) = true
  glb : t.glbHas 22 = true
  told : Raised u t 38 (railCode r) 0
  live : (r = .vbat ∨ ∃ g, r = .vlink g) → railLive t r = true

theorem railWarned_shows (s : State) (r : Rail) : RailWarned r s (railWarned s r) := by
  obtain ⟨hh, hm, hglb⟩ := setSupply_shows (setLive s true r) (railBit_lt r)
  refine ⟨by simpa [railWarned] using hh, by simpa [railWarned] using hm,
    glbHas_of_ports (by simp [railWarned]) (by simp [railWarned]) hglb,
    raised_of_cycle (s := setSupply (setLive s true r) (railBit r)) rfl (by simp [setSupply]) (by simp [setSupply]),
    fun hr => ?_⟩
  rw [← railLive_setLive s true hr]
  exact railLive_congr (by simp [railWarned, setSupply]) (by simp [railWarned, setSupply]) r

/-- What a warning shows, later changes to lanes and the hoard leave. -/
theorem RailWarned.after {r : Rail} {u t v : State} (h : RailWarned r u t) (hv : v.unlaned = t.unlaned)
    (hcycle : v.cycle = t.cycle) (hmode : v.mode = t.mode) : RailWarned r u v := by
  obtain ⟨hh, hm, -⟩ := of_unlaned hv
  exact ⟨hh ▸ h.h, hm ▸ h.m, (glbHas_of_unlaned hv 22).trans h.glb, h.told.of_mem fun e he => hcycle ▸ he,
    fun hr => (railLive_congr (region_of_unlaned hv) hmode r).trans (h.live hr)⟩

theorem railWarning_warns {s u : State} {dt : Nat} {r : Rail} (h : Arrives s dt u) (hlive : railLive u r = false) :
    ∃ t, exec (.railWarning dt r) s = .next t ∧ RailWarned r u t := by
  refine ⟨_, (exec_railWarning dt r s).trans (run_arrives h _), ?_⟩
  rw [if_neg (by simp [hlive])]
  have hwarned := railWarned_shows u r
  cases r with
  | vlink g =>
    refine hwarned.after ?_ ?_ ?_
    · exact (unlaned_of_offHoard (happenAll_offHoard _ _ _ _)).trans (staleWaits_unlaned _ _)
    · simp [railWarned]
    · simp [railWarned]
  | _ => exact hwarned

/-- What the recovery of a rail from its warning does. -/
def railRecovered (r : Rail) (s : State) : State :=
  if railLive s r then
    match r with
    | .vlink g => happenAll (setLive s false r) (regionLanes g) 0x07 [0, 0]
    | _ => setLive s false r
  else s

theorem exec_railRecovery_warning (dt : Nat) (r : Rail) (s : State) :
    exec (.railRecovery dt r .warning) s = run dt s (railRecovered r) := rfl

theorem railRecovery_clears {s u : State} {dt : Nat} {r : Rail} (h : Arrives s dt u) (hlive : railLive u r = true) :
    ∃ t, exec (.railRecovery dt r .warning) s = .next t ∧ railLive t r = false := by
  refine ⟨_, (exec_railRecovery_warning dt r s).trans (run_arrives h _), ?_⟩
  unfold railRecovered
  rw [if_pos hlive]
  have hcleared := railLive_setLive u false (rail_of_railLive hlive)
  cases r with
  | vlink g => exact (railLive_congr (by simp) (by simp) _).trans hcleared
  | _ => exact hcleared

theorem railRecovery_releases {s : State} (dt : Nat) (r : Rail) (h : s.mode.inReset = true) :
    ∃ t, exec (.railRecovery dt r .reset) s = .next t ∧
      t.mode.lowRails = s.mode.lowRails.filter (fun x => !isRail r x) ∧ t.mode.inReset = !t.mode.lowRails.isEmpty ∧
      t.mode.dev = s.mode.dev := by
  refine ⟨_, exec_railRecovery dt r .reset s, ?_⟩
  rw [if_pos h]
  exact ⟨rfl, rfl, rfl⟩

/-- Settles O38, by warning, recovery and the end of a reset. -/
theorem railsWarnAndRecover : Obligations.RailsWarnAndRecover := by
  unfold Obligations.RailsWarnAndRecover
  refine ⟨fun s u dt r h hlive => ?_, fun s u dt r => railRecovery_clears, fun s dt r => railRecovery_releases dt r⟩
  obtain ⟨t, ht, hw⟩ := railWarning_warns h hlive
  exact ⟨t, ht, hw.h, hw.m, hw.glb, hw.told, hw.live⟩

end Sys2Proof.Machine
end

section
/-!
SUPPORT. Second thresholds and isolation (R433 to R435, R451): the suspension of the lanes of a supply, its end, and a
region's isolation and its end.
-/

namespace Sys2Proof.Machine

/-! ### Lanes and regions that the changes turn on -/

theorem vlinkLanes_cfg {s t : State} (h : t.cfg = s.cfg) (g : Nat) : vlinkLanes t g = vlinkLanes s g := by
  unfold vlinkLanes cfgMode State.inForce
  rw [h]

theorem vbatLanes_cfg {s t : State} (h : t.cfg = s.cfg) : vbatLanes t = vbatLanes s := by
  unfold vbatLanes cfgMode State.inForce
  rw [h]

theorem suspendLanes_unlaned (s : State) (ns : List Nat) : (ns.foldl suspendLane s).unlaned = s.unlaned :=
  keep_foldl State.unlaned suspendLane_unlaned

/-- Lanes that are suspended one by one all stand suspended (R433, R435). -/
theorem suspendLanes_suspends {s : State} {ns : List Nat} {n : Nat} (h : n ∈ ns) :
    ((ns.foldl suspendLane s).lane n).Suspended :=
  foldl_lane_all suspendLane_suspends (fun s _ _ hk => suspendLane_lane_other s hk) ns s (.inl h)

/-- What a bit of REGION_STATUS leaves alone (R342). -/
theorem setRegionBit_leaves (s : State) (g n : Nat) :
    (setRegionBit s g n).cycle = s.cycle ∧ (setRegionBit s g n).cfg = s.cfg ∧ (setRegionBit s g n).grid = s.grid ∧
    (∀ k, (setRegionBit s g n).region k = s.region k) ∧ (∀ k, (setRegionBit s g n).lane k = s.lane k) ∧
    (setRegionBit s g n).h.supply = s.h.supply ∧ (setRegionBit s g n).m.supply = s.m.supply := by
  simp [setRegionBit]

/-- A bit of REGION_STATUS that is set shows on both ports (R342). -/
theorem setRegionBit_shows {n : Nat} (s : State) (g : Nat) (h : n < 24) :
    (Tbl.get (fun _ => {}) (setRegionBit s g n).h.region g).bits.getLsbD n = true ∧
      (Tbl.get (fun _ => {}) (setRegionBit s g n).m.region g).bits.getLsbD n = true := by
  constructor <;> simp [setRegionBit, Tbl.get_set_same, bit24_getLsbD h]

/-- What the end of a region's stage leaves alone (R451). -/
@[simp] theorem dropStage_kept (s : State) (g : Nat) :
    (dropStage s g).cycle = s.cycle ∧ (dropStage s g).cfg = s.cfg ∧ (dropStage s g).grid = s.grid ∧
    (dropStage s g).h = s.h ∧ (dropStage s g).m = s.m ∧ ∀ k, (dropStage s g).lane k = s.lane k := by
  simp [dropStage]

theorem dropStage_region (s : State) (g : Nat) :
    (dropStage s g).region g = { s.region g with stageReq := false, stageAt := none, stageStep := 0 } := by
  simp [dropStage]

/-! ### A region suspends (R433) -/

/-- A suspension before its region's fields, its event and its bit. -/
def suspending (s : State) (g : Nat) : State :=
  happenRegion ((vlinkLanes s g).foldl suspendLane (dropStage s g)) (vlinkLanes s g) 1 1

theorem suspendRegion_eq (s : State) (g : Nat) :
    suspendRegion s g = setRegionBit (raise ((suspending s g).onRegion g (fun r =>
      { r with second := true, power := if r.iso then .isolated else .suspended })) 28 g 1) g 20 := rfl

theorem suspending_unlaned (s : State) (g : Nat) : (suspending s g).unlaned = (dropStage s g).unlaned :=
  (unlaned_of_offHoard (happenRegion_offHoard _ _ _ _)).trans (suspendLanes_unlaned _ _)

theorem suspendRegion_region (s : State) (g : Nat) :
    ((suspendRegion s g).region g).second = true ∧ ((suspendRegion s g).region g).stageReq = false ∧
      ((suspendRegion s g).region g).power = (if (s.region g).iso then .isolated else .suspended) := by
  simp [suspendRegion_eq, region_of_unlaned (suspending_unlaned s g), dropStage_region]

theorem suspendRegion_supply (s : State) (g : Nat) :
    (suspendRegion s g).h.supply = s.h.supply ∧ (suspendRegion s g).m.supply = s.m.supply := by
  obtain ⟨hh, hm, -⟩ := of_unlaned (suspending_unlaned s g)
  obtain ⟨-, -, -, -, -, hhb, hmb⟩ := setRegionBit_leaves (raise ((suspending s g).onRegion g (fun r =>
    { r with second := true, power := if r.iso then .isolated else .suspended })) 28 g 1) g 20
  exact ⟨hhb.trans (by simp [hh]), hmb.trans (by simp [hm])⟩

theorem suspending_cycleGrows (s : State) (g : Nat) : CycleGrows s (suspending s g) := by
  refine (CycleGrows.of_eq (dropStage_kept s g).1).trans
    ((CycleGrows.foldl suspendLane_cycleGrows (vlinkLanes s g) _).trans (.of_eq ?_))
  simp [suspending]

theorem suspendRegion_cycleGrows (s : State) (g : Nat) : CycleGrows s (suspendRegion s g) := by
  rw [suspendRegion_eq]
  refine (suspending_cycleGrows s g).trans (.trans ?_ (.of_eq (setRegionBit_leaves _ _ _).1))
  exact CycleGrows.trans (.of_eq (by simp)) (raise_cycleGrows _ _ _ _)

theorem suspendRegion_raised {u s : State} (hcfg : s.cfg = u.cfg) (hgrid : s.grid = u.grid) (g : Nat) :
    Raised u (suspendRegion s g) 28 g 1 := by
  obtain ⟨-, -, hcfg', hgrid', -⟩ := of_unlaned (suspending_unlaned s g)
  rw [suspendRegion_eq]
  refine raised_of_cycle (setRegionBit_leaves _ _ _).1 ?_ ?_
  · simp [hcfg', hcfg]
  · simp [hgrid', hgrid]

theorem suspendRegion_suspends {s : State} {g n : Nat} (h : n ∈ vlinkLanes s g) :
    ((suspendRegion s g).lane n).Suspended := by
  have hlane : (suspendRegion s g).lane n = ((vlinkLanes s g).foldl suspendLane (dropStage s g)).lane n := by
    simp [suspendRegion_eq, suspending]
  exact hlane ▸ suspendLanes_suspends h

/-- The state of a VLINK below its second threshold, before its region suspends. -/
def railFallen (s : State) (n origin : Nat) : State := raise (setSupply s n) 39 origin 0

theorem railFallen_kept (s : State) (n origin : Nat) :
    (railFallen s n origin).cfg = s.cfg ∧ (railFallen s n origin).grid = s.grid ∧
    (∀ g, (railFallen s n origin).region g = s.region g) := by
  simp [railFallen, setSupply]

/-- A rail below its second threshold shows in SUPPLY_STATUS and by its event (R331, R433, R435). -/
theorem railFallen_shows {n : Nat} (s : State) (h : n < 24) (origin : Nat) :
    (railFallen s n origin).h.supply.bits.getLsbD n = true ∧ (railFallen s n origin).m.supply.bits.getLsbD n = true ∧
      Raised s (railFallen s n origin) 39 origin 0 := by
  obtain ⟨hh, hm, -⟩ := setSupply_shows s h
  exact ⟨by simpa [railFallen] using hh, by simpa [railFallen] using hm,
    raised_of_cycle (s := setSupply s n) rfl (by simp [setSupply]) (by simp [setSupply])⟩

theorem vlinkSecond_suspends {s u : State} {dt : Nat} {g : Region} (h : Arrives s dt u)
    (hsecond : (u.region g).second = false) :
    exec (.vlinkSecond dt g) s = .next (suspendRegion (railFallen u (8 + g.val) g) g) := by
  refine (exec_vlinkSecond dt g s).trans ((run_arrives h _).trans ?_)
  rw [if_neg (by simp [hsecond])]
  rfl

/-! ### A region resumes (R433) -/

/-- The end of a lane's suspension. -/
def resumeOf (s : State) (n : Nat) : State :=
  if (s.lane n).suspended then s.onLane n (fun l => { l with suspended := false }) else s

theorem resumeOf_suspended (s : State) (n : Nat) : ((resumeOf s n).lane n).suspended = false := by
  unfold resumeOf
  split
  next => simp
  next h => simpa using h

theorem resumeOf_lane_other (s : State) {n k : Nat} (hk : k ≠ n) : (resumeOf s n).lane k = s.lane k := by
  unfold resumeOf
  split
  · exact State.setLane_lane_other _ _ hk
  · rfl

@[simp] theorem resumeOf_unlaned (s : State) (n : Nat) : (resumeOf s n).unlaned = s.unlaned := by
  unfold resumeOf
  split <;> rfl

/-- A region that resumes, before its event and its stage. -/
def resuming (s : State) (g : Nat) : State :=
  (vlinkLanes s g).foldl resumeOf (happenRegion s (vlinkLanes s g) 1 0)

theorem resumeRegion_eq (s : State) (g : Nat) :
    resumeRegion s g = requestStage (raise (resuming s g) 28 g 0) g := rfl

theorem resuming_unlaned (s : State) (g : Nat) : (resuming s g).unlaned = s.unlaned :=
  (keep_foldl State.unlaned resumeOf_unlaned).trans (unlaned_of_offHoard (happenRegion_offHoard _ _ _ _))

/-- A region's request for its stage moves its stage and the state of its power alone (R446, R447). -/
theorem requestStage_region (s : State) (g : Nat) :
    ((requestStage s g).region g).second = (s.region g).second ∧
      ((requestStage s g).region g).iso = (s.region g).iso := by
  unfold requestStage
  split <;> simp

@[simp] theorem requestStage_kept (s : State) (g : Nat) :
    (requestStage s g).cycle = s.cycle ∧ ∀ k, (requestStage s g).lane k = s.lane k := by
  unfold requestStage
  split <;> simp

theorem resumeRegion_region (s : State) (g : Nat) :
    ((resumeRegion s g).region g).second = (s.region g).second ∧
      ((resumeRegion s g).region g).iso = (s.region g).iso := by
  obtain ⟨hsecond, hiso⟩ := requestStage_region (raise (resuming s g) 28 g 0) g
  have hregion : (raise (resuming s g) 28 g 0).region g = s.region g := by
    simp [region_of_unlaned (resuming_unlaned s g)]
  exact ⟨hsecond.trans (congrArg _ hregion), hiso.trans (congrArg _ hregion)⟩

theorem resumeRegion_raised {u s : State} (hcfg : s.cfg = u.cfg) (hgrid : s.grid = u.grid) (g : Nat) :
    Raised u (resumeRegion s g) 28 g 0 := by
  obtain ⟨-, -, hcfg', hgrid', -⟩ := of_unlaned (resuming_unlaned s g)
  exact raised_of_cycle (requestStage_kept _ _).1 (hcfg'.trans hcfg) (hgrid'.trans hgrid)

theorem resumeRegion_resumes {s : State} {g n : Nat} (h : n ∈ vlinkLanes s g) :
    ((resumeRegion s g).lane n).suspended = false := by
  have hlane : (resumeRegion s g).lane n = (resuming s g).lane n := by simp [resumeRegion_eq]
  rw [hlane]
  exact foldl_lane_all (P := fun l => l.suspended = false) resumeOf_suspended
    (fun s _ _ hk => resumeOf_lane_other s hk) _ _ (.inl h)

/-- A region whose VLINK has recovered is no longer suspended. -/
def recovered (s : State) (g : Nat) : State := s.onRegion g (fun r => { r with second := false })

theorem vlinkRecovery_resumes {s u : State} {dt : Nat} {g : Region} (h : Arrives s dt u)
    (hsecond : (u.region g).second = true) (hiso : (u.region g).iso = false) :
    exec (.vlinkRecovery dt g) s = .next (resumeRegion (recovered u g) g) := by
  refine (exec_vlinkRecovery dt g s).trans ((run_arrives h _).trans ?_)
  dsimp only
  rw [if_pos hsecond, if_neg (by simp [hiso])]
  rfl

/-! ### VBAT (R435) -/

/-- The state in which VBAT's lanes are suspended. -/
def vbatFallen (s : State) : State := (railFallen s 6 8).onMode (fun m => { m with vbatSusp := true })

theorem vbatFallen_cfg (s : State) : (vbatFallen s).cfg = s.cfg := by simp [vbatFallen, railFallen, setSupply]

/-- The state after VBAT's lanes have been suspended. -/
def vbatSuspended (s : State) : State :=
  happenRegion ((vbatLanes (vbatFallen s)).foldl suspendLane (vbatFallen s)) (vbatLanes (vbatFallen s)) 3 1

theorem vbatSecond_suspends {s u : State} {dt : Nat} (h : Arrives s dt u) (hsusp : u.mode.vbatSusp = false) :
    exec (.vbatSecond dt) s = .next (vbatSuspended u) := by
  refine (exec_vbatSecond dt s).trans ((run_arrives h _).trans ?_)
  rw [if_neg (by simp [hsusp])]
  rfl

theorem vbatSuspended_unlaned (s : State) : (vbatSuspended s).unlaned = (vbatFallen s).unlaned :=
  (unlaned_of_offHoard (happenRegion_offHoard _ _ _ _)).trans (suspendLanes_unlaned _ _)

theorem vbatSusp_of_unlaned {s t : State} (h : t.unlaned = s.unlaned) : t.mode.vbatSusp = s.mode.vbatSusp :=
  (congrArg (fun x : State => x.mode.vbatSusp) h :)

theorem vbatSuspended_cycleGrows (s : State) : CycleGrows (vbatFallen s) (vbatSuspended s) :=
  (CycleGrows.foldl suspendLane_cycleGrows (vbatLanes (vbatFallen s)) _).trans (.of_eq (by simp [vbatSuspended]))

theorem vbatSuspended_suspends {s : State} {n : Nat} (h : n ∈ vbatLanes s) :
    ((vbatSuspended s).lane n).Suspended := by
  have hlane : (vbatSuspended s).lane n = ((vbatLanes (vbatFallen s)).foldl suspendLane (vbatFallen s)).lane n := by
    simp [vbatSuspended]
  rw [hlane]
  exact suspendLanes_suspends (vbatLanes_cfg (vbatFallen_cfg s) ▸ h)

/-- The end of a PSI5 or LIN lane's suspension: its endpoints return as sprouts and the lane powers up. -/
def restartLane (s : State) (n : Nat) : State :=
  tryPower (laneSprouts (s.onLane n (fun l => { l with suspended := false })) n) n

theorem becomeSprout_suspended (s : State) (i k : Nat) :
    ((becomeSprout s i).lane k).suspended = (s.lane k).suspended := by
  unfold becomeSprout
  dsimp only
  by_cases hk : k = i / 16
  · subst hk
    split <;> simp
  · split <;> simp [State.setLane_lane_other _ _ hk]

theorem laneSprouts_suspended (s : State) (n k : Nat) :
    ((laneSprouts s n).lane k).suspended = (s.lane k).suspended :=
  keep_foldl (fun t : State => (t.lane k).suspended) fun s _ => becomeSprout_suspended s _ k

theorem sourceOn_suspended (s : State) (n : Nat) :
    ((sourceOn s n).lane n).suspended = (s.lane n).suspended := by
  cases ho : (s.lane n).offAt <;> simp only [sourceOn] <;> split <;> simp [ho]

/-- A lane that powers up is not suspended (R433, R435). -/
theorem powerLane_suspended (s : State) (n : Nat) : ((powerLane s n).lane n).suspended = false := by
  unfold powerLane
  cases cfgMode s n <;>
    simp [startClear, LaneState.forget, laneSprouts_suspended, sourceOn_suspended]

theorem tryPower_suspended {s : State} {n : Nat} (h : (s.lane n).suspended = false) :
    ((tryPower s n).lane n).suspended = false := by
  unfold tryPower
  split
  · exact powerLane_suspended s n
  · exact h

theorem restartLane_suspended (s : State) (n : Nat) : ((restartLane s n).lane n).suspended = false :=
  tryPower_suspended (by simp [laneSprouts_suspended])

theorem restartLane_lane_other (s : State) {n k : Nat} (hk : k ≠ n) : (restartLane s n).lane k = s.lane k := by
  rw [restartLane, tryPower_lane_other _ hk, laneSprouts_lane_other _ hk, State.onLane_eq,
    State.setLane_lane_other _ _ hk]

theorem restartLane_mode (s : State) (n : Nat) : (restartLane s n).mode = s.mode := by
  have hset : (restartLane s n).setting = s.setting := by simp [restartLane]
  exact congrArg (fun x => x.2.2.1) hset

/-- The state when VBAT has recovered, before its lanes restart. -/
def vbatGood (s : State) : State := s.onMode (fun m => { m with vbatSusp := false })

/-- The state after the lanes of VBAT have restarted. -/
def vbatRestarted (s : State) : State :=
  (vbatLanes (vbatGood s)).foldl restartLane (happenRegion (vbatGood s) (vbatLanes (vbatGood s)) 3 0)

theorem vbatRecovery_restarts {s u : State} {dt : Nat} (h : Arrives s dt u) (hsusp : u.mode.vbatSusp = true) :
    exec (.vbatRecovery dt) s = .next (vbatRestarted u) := by
  refine (exec_vbatRecovery dt s).trans ((run_arrives h _).trans ?_)
  rw [if_pos hsusp]
  rfl

theorem vbatRestarted_mode (s : State) : (vbatRestarted s).mode.vbatSusp = false := by
  have hmode : (vbatRestarted s).mode = (happenRegion (vbatGood s) (vbatLanes (vbatGood s)) 3 0).mode :=
    keep_foldl State.mode restartLane_mode
  rw [hmode]
  simp [vbatGood]

theorem vbatRestarted_suspended {s : State} {n : Nat} (h : n ∈ vbatLanes s) :
    ((vbatRestarted s).lane n).suspended = false :=
  foldl_lane_all (P := fun l => l.suspended = false) restartLane_suspended
    (fun s _ _ hk => restartLane_lane_other s hk) _ _ (.inl h)

/-- Settles O39, by suspension and recovery of a region and of the package's VBAT lanes. -/
theorem railsSuspendLanes : Obligations.RailsSuspendLanes := by
  unfold Obligations.RailsSuspendLanes
  refine ⟨fun s u dt g h hsecond => ⟨_, vlinkSecond_suspends h hsecond, ?_⟩,
    fun s u dt g h hsecond hiso => ⟨_, vlinkRecovery_resumes h hsecond hiso, ?_⟩,
    fun s u dt h hsusp => ⟨_, vbatSecond_suspends h hsusp, ?_⟩,
    fun s u dt h hsusp => ⟨_, vbatRecovery_restarts h hsusp, vbatRestarted_mode u,
      fun n hn => vbatRestarted_suspended hn⟩⟩
  · have hg : 8 + g.val < 24 := by
      have := g.isLt
      omega
    obtain ⟨hcfg, hgrid, hregion⟩ := railFallen_kept u (8 + g.val) g
    obtain ⟨hh, hm, htold⟩ := railFallen_shows u hg g
    obtain ⟨hhs, hms⟩ := suspendRegion_supply (railFallen u (8 + g.val) g) g
    obtain ⟨hsec, hstage, hpower⟩ := suspendRegion_region (railFallen u (8 + g.val) g) g
    refine ⟨hsec, hstage, by rw [hpower, hregion], by rw [hhs, hh], by rw [hms, hm],
      htold.of_mem (suspendRegion_cycleGrows _ _), suspendRegion_raised hcfg hgrid g, fun n hn => ?_⟩
    exact suspendRegion_suspends (vlinkLanes_cfg hcfg g ▸ hn)
  · refine ⟨?_, resumeRegion_raised (s := recovered u g) rfl rfl g, fun n hn =>
      resumeRegion_resumes (vlinkLanes_cfg (s := u) (t := recovered u g) rfl g ▸ hn)⟩
    rw [(resumeRegion_region _ _).1]
    simp [recovered]
  · obtain ⟨hh, hm, htold⟩ := railFallen_shows u (n := 6) (by decide) 8
    obtain ⟨hhs, hms, -⟩ := of_unlaned (vbatSuspended_unlaned u)
    refine ⟨?_, ?_, ?_, htold.of_mem fun e he => vbatSuspended_cycleGrows u e he, fun n hn => ?_⟩
    · exact (vbatSusp_of_unlaned (vbatSuspended_unlaned u)).trans (by simp [vbatFallen])
    · rw [hhs]
      exact hh
    · rw [hms]
      exact hm
    · obtain ⟨hsusp', -, hstate⟩ := vbatSuspended_suspends hn
      exact ⟨hsusp', hstate⟩

/-! ### Isolation (R434) -/

/-- The lanes of a region that are not OFF. -/
def usedLanes (s : State) (g : Nat) : List Nat := (regionLanes g).filter (fun n => cfgMode s n != .off)

/-- A region whose used lanes have lost their power, isolated. -/
def isolated (s : State) (g : Nat) : State :=
  ((usedLanes s g).foldl unpower (dropStage s g)).onRegion g (fun r => { r with iso := true, power := .isolated })

/-- A region's isolation before the faults of its lanes are noted. -/
def isolationTold (s : State) (g : Nat) : State :=
  setRegionBit (raise (happenRegion (isolated s g) (usedLanes s g) 2 1) 27 g 0) g 21

theorem isolateRegion_eq (s : State) (g : Nat) :
    isolateRegion s g = withFaults (regionLanes g) s (isolationTold s g) := rfl

theorem regionIsolated_isolates {s u : State} {dt : Nat} {g : Region} (h : Arrives s dt u)
    (hiso : (u.region g).iso = false) : exec (.regionIsolated dt g) s = .next (isolateRegion u g) := by
  refine (exec_regionIsolated dt g s).trans ((run_arrives h _).trans ?_)
  rw [if_neg (by simp [hiso])]

theorem isolateRegion_region (s : State) (g : Nat) : (isolateRegion s g).region g = (isolationTold s g).region g :=
  withFaults_keep (fun u => u.region g) (by simp) (by simp) _ _ _

theorem isolateRegion_table (s : State) (g : Nat) :
    (isolateRegion s g).h.region = (isolationTold s g).h.region ∧
      (isolateRegion s g).m.region = (isolationTold s g).m.region :=
  ⟨withFaults_keep (fun u => u.h.region) (by simp) (by simp) _ _ _,
    withFaults_keep (fun u => u.m.region) (by simp) (by simp) _ _ _⟩

theorem isolateRegion_cycle (s : State) (g : Nat) : (isolateRegion s g).cycle = (isolationTold s g).cycle :=
  withFaults_keep State.cycle (by simp) (by simp) _ _ _

theorem isolationTold_region (s : State) (g : Nat) :
    ((isolationTold s g).region g).iso = true ∧ ((isolationTold s g).region g).power = .isolated := by
  simp [isolationTold, isolated]

theorem isolated_keeps (s : State) (g : Nat) : (isolated s g).cfg = s.cfg ∧ (isolated s g).grid = s.grid := by
  obtain ⟨-, -, hcfg, hgrid, -⟩ := of_unlaned (keep_foldl (l := usedLanes s g) (s := dropStage s g) State.unlaned
    unpower_unlaned)
  exact ⟨hcfg, hgrid⟩

theorem isolateRegion_raised (s : State) (g : Nat) : Raised s (isolateRegion s g) 27 g 0 := by
  obtain ⟨hcfg, hgrid⟩ := isolated_keeps s g
  refine raised_of_cycle ((isolateRegion_cycle s g).trans (setRegionBit_leaves _ _ _).1) ?_ ?_
  · simp [hcfg]
  · simp [hgrid]

theorem isolateRegion_unpowered {s : State} {g n : Nat} (h : n ∈ usedLanes s g) :
    ((isolateRegion s g).lane n).lstate = .unpowered := by
  have hlane : (isolationTold s g).lane n = ((usedLanes s g).foldl unpower (dropStage s g)).lane n := by
    simp [isolationTold, isolated]
  rw [isolateRegion_eq, withFaults_lstate, hlane]
  exact foldl_lane_all (P := fun l => l.lstate = .unpowered) unpower_lstate
    (fun s _ _ hk => unpower_lane_other s hk) _ _ (.inl h)

/-- A region that has left isolation, before its stage. -/
def reconnected (s : State) (g : Nat) : State :=
  happenRegion (s.onRegion g (fun r => { r with iso := false, second := false })) (regionLanes g) 2 0

theorem reconnected_region (s : State) (g : Nat) :
    ((reconnected s g).region g).iso = false ∧ ((reconnected s g).region g).second = false := by
  simp [reconnected]

/-- The end of a region's isolation (R434). -/
theorem regionIsolationEnd_ends {s u : State} {dt : Nat} {g : Region} (h : Arrives s dt u)
    (hiso : (u.region g).iso = true) :
    ∃ t, exec (.regionIsolationEnd dt g) s = .next t ∧ (t.region g).iso = false ∧ (t.region g).second = false := by
  obtain ⟨hiso', hsecond'⟩ := reconnected_region u g
  refine ⟨_, (exec_regionIsolationEnd dt g s).trans (run_arrives h _), ?_⟩
  dsimp only
  rw [if_pos hiso]
  split
  · obtain ⟨hsecond, hiso⟩ := resumeRegion_region (reconnected u g) g
    exact ⟨hiso.trans hiso', hsecond.trans hsecond'⟩
  · obtain ⟨hsecond, hiso⟩ := requestStage_region (reconnected u g) g
    exact ⟨hiso.trans hiso', hsecond.trans hsecond'⟩

/-- Settles O40, by the isolation of a region and its end. -/
theorem regionsAreIsolated : Obligations.RegionsAreIsolated := by
  unfold Obligations.RegionsAreIsolated
  refine ⟨fun s u dt g h hiso => ⟨_, regionIsolated_isolates h hiso, ?_⟩,
    fun s u dt g => regionIsolationEnd_ends⟩
  obtain ⟨hiso', hpower⟩ := isolationTold_region u g
  obtain ⟨hh, hm⟩ := isolateRegion_table u g
  obtain ⟨hhb, hmb⟩ := setRegionBit_shows (raise (happenRegion (isolated u g) (usedLanes u g) 2 1) 27 g 0) g
    (n := 21) (by decide)
  rw [isolateRegion_region, hh, hm]
  refine ⟨hiso', hpower, hhb, hmb, isolateRegion_raised u g, fun n hn hmode => isolateRegion_unpowered ?_⟩
  exact List.mem_filter.2 ⟨hn, by simpa using hmode⟩

end Sys2Proof.Machine
end

section
/-!
SUPPORT. Endpoint requests (R363, R364): the request that GO writes, when it is refused at once, and its expiry.
-/

namespace Sys2Proof.Machine

theorem exec_goLinDiag (dt : Nat) (p : Port) (n : Lane) (s : State) :
    exec (.goLinDiag dt p n) s = goWith dt p n 3 0 0 s := rfl
theorem exec_expired (n : Lane) (s : State) : exec (.expired n) s = .next (expire s n.val) := rfl

/-- The word that a GO command writes to EA_REQ (R363). -/
def goWord (op pos addr : Nat) : Word := pack [(31, 1, 1), (28, 3, op), (24, 4, pos), (16, 8, addr)]

theorem goWord_toNat {op pos addr : Nat} (hop : op < 8) (hpos : pos < 16) (haddr : addr < 256) :
    (goWord op pos addr).toNat = 2147483648 + op * 268435456 + pos * 16777216 + addr * 65536 := by
  simp only [goWord, pack, List.foldl, BitVec.toNat_ofNat]
  omega

theorem goWord_fields {op pos addr : Nat} (hop : op < 8) (hpos : pos < 16) (haddr : addr < 256) :
    fld (goWord op pos addr) 30 28 = op ∧ fld (goWord op pos addr) 27 24 = pos ∧
      fld (goWord op pos addr) 23 16 = addr ∧ bit (goWord op pos addr) 31 = true := by
  simp only [fld, bit, beq_iff_eq, goWord_toNat hop hpos haddr]
  omega

/-- A lane's access group with its request's OP, POS and ADDR written (R363). -/
def asked (s : State) (n op pos addr : Nat) : State :=
  s.onLane n (fun l => { l with acc := { l.acc with
    op := BitVec.ofNat 3 op, pos := BitVec.ofNat 4 pos, addr := BitVec.ofNat 8 addr } })

theorem asked_acc (s : State) (n op pos addr : Nat) : ((asked s n op pos addr).lane n).acc = { (s.lane n).acc with
    op := BitVec.ofNat 3 op, pos := BitVec.ofNat 4 pos, addr := BitVec.ofNat 8 addr } := by
  simp [asked]

/-- GO on a lane whose request is not pending writes and submits the request (R363, R364). -/
theorem goWith_submits {s u : State} {dt : Nat} {p : Port} {n : Lane} {op pos addr : Nat}
    (h : FrameArrives s dt p u) (hp : p ≠ .u) (hdev : u.mode.dev ≠ .off) (hacc : (u.lane n).acc.rstate ≠ .pending)
    (hop : op < 8) (hpos : pos < 16) (haddr : addr < 256) :
    goWith dt p n op pos addr s = .next (submit (asked u n op pos addr) p n false) := by
  obtain ⟨hfop, hfpos, hfaddr, hgo⟩ := goWord_fields hop hpos haddr
  refine (hostWrite_arrives h hdev _).trans (congrArg Host.Outcome.next ?_)
  rw [if_neg hp]
  change accWrite u p n 0 (goWord op pos addr) false = _
  unfold accWrite
  dsimp only
  rw [if_neg hacc, if_pos rfl, if_pos hgo, hfop, hfpos, hfaddr]
  rfl

/-- A lane's request made pending. -/
def pendingRequest (s : State) (p : Port) (n : Nat) : State :=
  s.onLane n (fun l => { l with acc := { l.acc with
    rstate := .pending, goBusy := false, begun := false, port := BitVec.ofNat 2 p.bits, at_ := s.grid.now } })

/-- What a submitted request stands as: refused at once or pending (R364). -/
theorem submit_acc (s : State) (p : Port) (n : Nat) (secure : Bool) :
    ((submit s p n secure).lane n).acc = { (s.lane n).acc with
      rstate := if accRefused s n secure then .refused else .pending
      goBusy := false, begun := false, port := BitVec.ofNat 2 p.bits, at_ := s.grid.now } := by
  have hpend : ((pendingRequest s p n).lane n).acc = { (s.lane n).acc with
      rstate := .pending, goBusy := false, begun := false, port := BitVec.ofNat 2 p.bits, at_ := s.grid.now } := by
    simp [pendingRequest]
  unfold submit
  dsimp only
  split
  · refine (accComplete_acc (s := pendingRequest s p n) (by rw [hpend]) _ _ _).trans ?_
    simp [hpend]
  · refine (congrArg LaneState.acc (congrFun (congrArg State.lane (eq_of_offHoard (happen_offHoard
      (pendingRequest s p n) _ _ _ _ _))) n)).trans ?_
    simpa [State.lane] using hpend

/-- A request on a lane with its OP in place is refused where its lane and position cannot serve it (R363, R364). -/
theorem accRefused_asked {u : State} {n pos addr : Nat} {op : BitVec 3} (hpos : pos < 16) (hop : op = 0 ∨ op = 1 ∨ op = 2) :
    accRefused (asked u n op.toNat pos addr) n false = true ↔ ¬(cfgMode u n = .aknun ∧ descProto u (epIdx n pos) ≠ 0 ∧
      (op = 1 → descAttest u (epIdx n pos) = false)) := by
  have hmode : cfgMode (asked u n op.toNat pos addr) n = cfgMode u n := rfl
  have hproto : descProto (asked u n op.toNat pos addr) (epIdx n pos) = descProto u (epIdx n pos) := rfl
  have hattest : descAttest (asked u n op.toNat pos addr) (epIdx n pos) = descAttest u (epIdx n pos) := rfl
  unfold accRefused
  simp only [asked_acc, BitVec.toNat_ofNat, Nat.mod_eq_of_lt hpos, hmode, hproto, hattest]
  obtain rfl | rfl | rfl := hop <;> simp <;> tauto

theorem accRefused_diag (u : State) (n : Nat) :
    accRefused (asked u n 3 0 0) n false = true ↔ ¬(cfgMode u n = .lin ∧ fld (u.lane n).acc.data0 31 24 ≠ 0) := by
  have hmode : cfgMode (asked u n 3 0 0) n = cfgMode u n := rfl
  unfold accRefused
  simp only [asked_acc, hmode]
  simp
  tauto

/-- The request that expires is one that has not begun within 256 periods (R364). -/
theorem expire_expires {s : State} {n : Nat} (hpend : (s.lane n).acc.rstate = .pending)
    (hbegun : (s.lane n).acc.begun = false) (hdiag : diagBegun s n = false)
    (hdue : (s.lane n).acc.at_ + 256 * period s ≤ s.grid.now) : expire s n = accComplete s n .expired none none := by
  unfold expire
  dsimp only
  rw [if_pos ⟨hpend, by simp [hbegun], by simp [hdiag], hdue⟩]

/-- A request that completes is reported (R364). -/
theorem accComplete_raised {s : State} {n : Nat} (h : (s.lane n).acc.rstate = .pending) (st : AccState)
    (d0 d1 : Option Word) : Raised s (accComplete s n st d0 d1) 23 n (BitVec.ofNat 32 st.code) := by
  unfold accComplete
  dsimp only
  rw [if_pos h]
  have htold (f : LaneState → LaneState) :
      Raised s (raise (s.onLane n f) 23 n (BitVec.ofNat 32 st.code)) 23 n (BitVec.ofNat 32 st.code) :=
    raised_of_cycle (s := s.onLane n f) rfl rfl rfl
  split
  · exact (htold _).of_mem (raise_cycleGrows _ _ _ _)
  · exact htold _

/-- Settles O28, by GO with each OP and the expiry. -/
theorem endpointRequestsBegin : Obligations.EndpointRequestsBegin := by
  unfold Obligations.EndpointRequestsBegin
  refine ⟨fun s u dt p n h hp hdev hacc => ⟨fun pos addr c op hc => ?_, ?_⟩,
    fun s n hpend hbegun hdiag hdue => ⟨_, exec_expired n s, ?_⟩⟩
  · have hop : op = 0 ∨ op = 1 ∨ op = 2 := by
      obtain ⟨-, h⟩ | ⟨-, h⟩ | ⟨-, h, -⟩ := hc <;> simp [h]
    have hexec : exec c s = goWith dt p n op.toNat pos.val addr.toNat s := by
      obtain ⟨rfl, rfl⟩ | ⟨rfl, rfl⟩ | ⟨rfl, rfl, rfl⟩ := hc <;> rfl
    refine ⟨_, hexec.trans (goWith_submits h hp hdev hacc op.isLt pos.isLt addr.isLt), ?_⟩
    have hrefused := accRefused_asked (u := u) (n := n) (addr := addr.toNat) pos.isLt hop
    simp only [submit_acc, asked_acc, BitVec.ofNat_toNat, BitVec.setWidth_eq, hrefused]
    refine ⟨trivial, trivial, trivial, rfl, ?_⟩
    split <;> simp_all
  · refine ⟨_, (exec_goLinDiag dt p n s).trans (goWith_submits h hp hdev hacc (by decide) (by decide) (by decide)), ?_⟩
    simp only [submit_acc, asked_acc, accRefused_diag]
    refine ⟨rfl, ?_⟩
    split <;> simp_all
  · rw [expire_expires hpend hbegun hdiag hdue]
    refine ⟨by rw [accComplete_acc hpend], accComplete_raised hpend .expired none none⟩

end Sys2Proof.Machine
end

section
/-!
SUPPORT. A commit at its commit tick (R317 to R319): the values it takes, its checks, and its refusal or its wait.
-/

namespace Sys2Proof.Machine

theorem exec_commitTake (s : State) : exec .commitTake s = execCommitTake s := rfl

/-- The corrections that a commit of CG14 loads (R318). -/
def takenLoads (s : State) (gh gm : BitVec 16) : List (Nat × Word) :=
  if (gh ||| gm).getLsbD 14 then commitLoads s (candidate s s.commits (commitDiff s gh gm)) gh gm else []

/-- The commit that stands at its commit tick (R317, R318). -/
def takenRun (s : State) (gh gm : BitVec 16) : CommitRun :=
  let d := commitDiff s gh gm
  let sows := triggers s (gh ||| gm) d
  { cseq := s.cseq + 1, ports := BitVec.ofNat 2 (b2n (gh != 0) + 2 * b2n (gm != 0)), groups := gh ||| gm, diff := d
    tc := s.grid.tick, sow := if sows then coverage s d else 0, loads := takenLoads s gh gm
    kNew := BitVec.ofNat 3 (kAfter s d), eff := if sows then none else some (s.grid.tick + 8), sown := !sows }

/-- A commit that fails a check, a LOCK violation apart, ends as refused (R318). -/
theorem takeCommit_refused {s : State} {gh gm : BitVec 16} {r : Reason} (hrestart : s.mode.restarting = false)
    (h : commitCheck { s with cseq := s.cseq + 1 } (gh ||| gm) gh gm (commitDiff s gh gm) (takenLoads s gh gm) = some r)
    (hr : r.1 ≠ 0x0E) :
    takeCommit s gh gm = commitEnd { s with cseq := s.cseq + 1 } (takenRun s gh gm) .refused r := by
  unfold takeCommit
  dsimp only
  rw [if_neg (by simp [hrestart])]
  unfold takenLoads at h
  rw [h]
  exact if_neg hr

/-- The bits that a commit takes from the staging copies and the sessions (R300, R352). -/
def takeBits (s : State) (gh gm : BitVec 16) : State := takeLoad (takeLoad (takeSec (takeSec s .h gh) .m gm) .h gh) .m gm

@[simp] theorem takeBits_stores (s : State) (gh gm : BitVec 16) : (takeBits s gh gm).stores = s.stores := by
  simp [takeBits]

theorem takeSec_live (s : State) (p : Port) (g : BitVec 16) : (takeSec s p g).cfg.live = s.cfg.live :=
  (setSecStaged_kept s p _).1

theorem takeLoad_live (s : State) (p : Port) (g : BitVec 16) : (takeLoad s p g).cfg.live = s.cfg.live := by
  unfold takeLoad
  split
  · exact keep_foldl (fun u : State => u.cfg.live) fun u a => by
      split
      · exact (setStaged_kept u p a _).1
      · rfl
  · rfl

theorem takeBits_live (s : State) (gh gm : BitVec 16) : (takeBits s gh gm).cfg.live = s.cfg.live := by
  rw [takeBits, takeLoad_live, takeLoad_live, takeSec_live, takeSec_live]

/-- A commit that passes its checks, among the commits in flight. -/
def commitWaits (s : State) (gh gm : BitVec 16) : State :=
  { takeBits { s with cseq := s.cseq + 1 } gh gm with
    commits := (takeBits { s with cseq := s.cseq + 1 } gh gm).commits ++ [takenRun s gh gm] }

theorem commitWaits_kept (s : State) (gh gm : BitVec 16) :
    (commitWaits s gh gm).commits = s.commits ++ [takenRun s gh gm] ∧ (commitWaits s gh gm).creqs = s.creqs ∧
      (commitWaits s gh gm).cfg.live = s.cfg.live := by
  have hstores := takeBits_stores { s with cseq := s.cseq + 1 } gh gm
  refine ⟨congrArg (· ++ [takenRun s gh gm]) (congrArg State.commits hstores :), (congrArg State.creqs hstores :), ?_⟩
  exact takeBits_live _ gh gm

/-- A commit that waits leaves the words, the requests and the commits as they are and stands in COMMIT_STATUS. -/
theorem takeCommit_waits {s : State} {gh gm : BitVec 16} (hrestart : s.mode.restarting = false)
    (h : commitCheck { s with cseq := s.cseq + 1 } (gh ||| gm) gh gm (commitDiff s gh gm) (takenLoads s gh gm) = none) :
    takeCommit s gh gm = if triggers s (gh ||| gm) (commitDiff s gh gm) then
        setSowing (commitStatus (commitWaits s gh gm) (takenRun s gh gm) .sowing (0, 0)) (takenRun s gh gm) true
      else commitStatus (commitWaits s gh gm) (takenRun s gh gm) .pending (0, 0) := by
  unfold takeCommit
  dsimp only
  rw [if_neg (by simp [hrestart])]
  unfold takenLoads at h
  rw [h]
  rfl

/-- What a commit that waits shows. -/
structure CommitWaits (s t : State) (c : CommitRun) (st : CommitState) : Prop where
  commits : t.commits = s.commits ++ [c]
  creqs : t.creqs = s.creqs
  live : t.cfg.live = s.cfg.live
  state : t.cstat.state = st

theorem commitStatus_waits (s : State) (gh gm : BitVec 16) (st : CommitState) :
    CommitWaits s (commitStatus (commitWaits s gh gm) (takenRun s gh gm) st (0, 0)) (takenRun s gh gm) st := by
  obtain ⟨hcommits, hcreqs, hlive⟩ := commitWaits_kept s gh gm
  exact ⟨hcommits, hcreqs, hlive, rfl⟩

theorem setSowing_waits {s t : State} {c : CommitRun} {st : CommitState} (h : CommitWaits s t c st) :
    CommitWaits s (setSowing t c true) c st := by
  have hstores := setSowing_stores t c true
  obtain ⟨hcfg, hcommits, hstat⟩ := of_committed (setSowing_committed t c true)
  exact ⟨hcommits.trans h.commits, (congrArg State.creqs hstores :).trans h.creqs, by rw [hcfg, h.live],
    by rw [hstat, h.state]⟩

theorem takeCommit_shows {s : State} {gh gm : BitVec 16} (hrestart : s.mode.restarting = false)
    (h : commitCheck { s with cseq := s.cseq + 1 } (gh ||| gm) gh gm (commitDiff s gh gm) (takenLoads s gh gm) = none) :
    CommitWaits s (takeCommit s gh gm) (takenRun s gh gm)
      (if triggers s (gh ||| gm) (commitDiff s gh gm) then .sowing else .pending) := by
  rw [takeCommit_waits hrestart h]
  split
  · exact setSowing_waits (commitStatus_waits s gh gm .sowing)
  · exact commitStatus_waits s gh gm .pending

/-- Settles O29, by the check of R318: refused with its reason, or waiting. -/
theorem commitsAreTaken : Obligations.CommitsAreTaken := by
  unfold Obligations.CommitsAreTaken
  rintro s v _ _ _ _ _ hon hnow rfl hne hrestart hv rfl rfl rfl rfl
  have hexec : exec .commitTake s = .next (takeCommit v (dueGroups (s.creqs.filter fun r => decide (r.due ≤ s.grid.now)) .h)
      (dueGroups (s.creqs.filter fun r => decide (r.due ≤ s.grid.now)) .m)) := by
    subst hv
    exact (exec_commitTake s).trans (congrArg Host.Outcome.next (if_pos ⟨hon, hnow, by simpa using hne⟩))
  have hrestart' : v.mode.restarting = false := by rw [hv, hrestart]
  have hcseq : v.cseq = s.cseq := by rw [hv]
  have hcommits : v.commits = s.commits := by rw [hv]
  have hcfg : v.cfg = s.cfg := by rw [hv]
  have htick : v.grid.tick = s.grid.tick := by rw [hv]
  rw [← hcseq, ← hcommits, ← hcfg, ← htick, hexec]
  generalize dueGroups _ .h = gh
  generalize dueGroups _ .m = gm
  refine ⟨fun r hcheck hr => ⟨_, rfl, ?_⟩, fun hcheck => ⟨_, takenRun v gh gm, rfl, ?_⟩⟩
  · obtain ⟨hcfg', hstate, hreason, hitem, hcseq', hglb⟩ :=
      commitEnd_reports { v with cseq := v.cseq + 1 } (takenRun v gh gm) .refused r
    rw [takeCommit_refused hrestart' hcheck hr]
    exact ⟨hstate, hreason, hitem, hcseq', commitEnd_commits _ _ _ _, hcfg', hglb⟩
  · obtain ⟨hcommits', hcreqs', hlive', hstate'⟩ := takeCommit_shows hrestart' hcheck
    exact ⟨hcommits', rfl, rfl, rfl, rfl, hcreqs', hlive', hstate', rfl⟩

end Sys2Proof.Machine
end

section
/-!
SUPPORT. The end of BOOT (R410, R411, R455, R462, R505): what its steps before the start decision leave alone, and the
start with discovery or the boot ROM.
-/

namespace Sys2Proof.Machine

theorem exec_boot (shell : ShellTest) (test : SelfTest) (pins : BootPins) (bad : List (Fin 32 × Fin 6))
    (corrected : List (Fin 32)) (s : State) :
    exec (.boot shell test pins bad corrected) s = execBoot shell test pins bad corrected s := rfl

theorem fireAlarms_nil (s : State) : fireAlarms s [] = s := by
  unfold fireAlarms
  rfl

/-- BOOT whose shell test finds nothing goes on at once (R411, R455). -/
theorem boot_clean {s : State} (test : SelfTest) (pins : BootPins) (bad : List (Fin 32 × Fin 6))
    (corrected : List (Fin 32)) (hreset : s.mode.inReset = false) (hbooted : s.mode.booted = false)
    (hdev : s.mode.dev ≠ .off) (hrom : s.upd.romOnly = false) :
    exec (.boot ⟨false, false⟩ test pins bad corrected) s = .next (bootRest (takeLead s pins.lead) test pins.ref
      (bad.map (fun x => (x.1.val, x.2.val))) (corrected.map Fin.val)) := by
  rw [exec_boot, execBoot, if_neg (by simp [hreset, hbooted, hdev, hrom])]
  simp [shellSources, fireAlarms_nil]

/-! ### The steps before the start decision -/

theorem takeLead_booted (s : State) (lead : Bool) : (takeLead s lead).mode.booted = s.mode.booted := by
  unfold takeLead
  split <;> rfl

theorem noReference_booted (s : State) : (noReference s).mode.booted = s.mode.booted := by
  unfold noReference
  split
  · rfl
  · simp

theorem checkSlots_mode (s : State) (bad : List (Nat × Nat)) (corrected : List Nat) :
    (checkSlots s bad corrected).mode = s.mode :=
  keep_foldl State.mode fun s i => by
    dsimp only
    split <;> rfl

/-- The state that BOOT decides its start on. -/
def bootChecked (s : State) (test : SelfTest) (ref : Bool) (bad : List (Nat × Nat)) (corrected : List Nat) : State :=
  checkSlots (rebuildKek (testRng (if ref then s else noReference s) test.rng) test.puf) bad corrected

theorem bootChecked_booted (s : State) (test : SelfTest) (ref : Bool) (bad : List (Nat × Nat)) (corrected : List Nat) :
    (bootChecked s test ref bad corrected).mode.booted = s.mode.booted := by
  rw [bootChecked, checkSlots_mode]
  cases ref
  · exact noReference_booted s
  · rfl

section

variable {s : State} {test : SelfTest} {ref : Bool} {bad : List (Nat × Nat)} {corrected : List Nat}

theorem bootRest_warm (h : startWarm (bootChecked s test ref bad corrected) = true) :
    bootRest s test ref bad corrected = bootEnd (startBank (bootChecked s test ref bad corrected)) true := by
  unfold bootRest
  exact if_pos h

theorem bootRest_cold {v : State} (h : startWarm (bootChecked s test ref bad corrected) = false)
    (hcold : coldImage (bootChecked s test ref bad corrected) = some v) :
    bootRest s test ref bad corrected = bootEnd v false := by
  unfold bootRest
  rw [bootChecked] at h hcold
  dsimp only
  rw [if_neg (by simp [h]), hcold]

theorem bootRest_rom (h : startWarm (bootChecked s test ref bad corrected) = false)
    (hcold : coldImage (bootChecked s test ref bad corrected) = none) :
    bootRest s test ref bad corrected =
      (bootChecked s test ref bad corrected).onUpd (fun u => { u with romOnly := true }) := by
  unfold bootRest
  rw [bootChecked] at h hcold
  dsimp only
  rw [if_neg (by simp [h]), hcold, ← bootChecked]

end

theorem coldImage_isSome {s : State}
    (h : imgVerify s (s.bank s.nv.bootB) = 0 ∨ imgVerify s (s.bank !s.nv.bootB) = 0) : ∃ v, coldImage s = some v := by
  unfold coldImage
  dsimp only
  split
  next => exact ⟨_, rfl⟩
  next hfail => exact ⟨_, if_pos (h.resolve_left hfail)⟩

theorem coldImage_eq_none {s : State} (h : imgVerify s (s.bank s.nv.bootB) ≠ 0)
    (h' : imgVerify s (s.bank !s.nv.bootB) ≠ 0) : coldImage s = none := by
  unfold coldImage
  dsimp only
  rw [if_neg h, if_neg h']

/-! ### The start (R462, R505) -/

/-- A boot that has ended with discovery begun. -/
def Started (warm : Bool) (t : State) : Prop :=
  t.mode.booted = true ∧ t.mode.inDisc = true ∧ t.grid.on = true ∧ t.mode.warm = warm

theorem Started.of_eq {warm : Bool} {s t : State} (h : Started warm s) (hmode : t.mode = s.mode)
    (hgrid : t.grid = s.grid) : Started warm t := by
  rwa [Started, hmode, hgrid]

theorem startGrid_on (s : State) : (startGrid s).grid.on = true := by simp [startGrid]

theorem bootCommit_on (s : State) : (bootCommit s).grid.on = s.grid.on := by
  unfold bootCommit
  dsimp only
  split <;> split <;> simp [syncStaging]

/-- The mode in which discovery begins (R463, R464). -/
def discovering (s : State) (warm : Bool) : State :=
  s.onMode (fun m => { m with booted := true, warm := warm, inDisc := true })

theorem discovering_started {s : State} (h : s.grid.on = true) (warm : Bool) : Started warm (discovering s warm) :=
  ⟨rfl, rfl, h, rfl⟩

/-- The end of BOOT's image check begins discovery on a running grid, with a warm start or without (R462). -/
theorem bootEnd_started (s : State) (warm : Bool) : Started warm (bootEnd s warm) := by
  have hon : (startLanes (bootCommit (startGrid s)) warm).grid.on = true := by
    rw [startLanes_grid, bootCommit_on, startGrid_on]
  unfold bootEnd
  extract_lets a b c
  have hb : Started warm b := discovering_started hon warm
  clear_value b
  have hc : Started warm c := by
    simp only [c]
    split
    · exact hb.of_eq (by simp) (by simp)
    · exact hb
  clear_value c
  split
  · exact hc.of_eq (keep_foldl State.mode requestStage_mode) (keep_foldl State.grid requestStage_grid)
  · exact hc

/-- The boot ROM is left with the device as it was (R505). -/
theorem romOnly_shows {s : State} (h : s.mode.booted = false) :
    (s.onUpd (fun u => { u with romOnly := true })).upd.romOnly = true ∧
      (s.onUpd (fun u => { u with romOnly := true })).mode.booted = false ∧
      (s.onUpd (fun u => { u with romOnly := true })).grid.on = s.grid.on := ⟨rfl, h, rfl⟩

/-- Settles O3, by the start decision and the image check. -/
theorem bootEnds : Obligations.BootEnds := by
  unfold Obligations.BootEnds
  rintro s _ u test pins bad corrected hreset hbooted hdev hrom rfl hu
  refine ⟨_, boot_clean test pins bad corrected hreset hbooted hdev hrom, ?_⟩
  rw [← bootChecked, eq_comm] at hu
  subst hu
  refine ⟨fun h => ?_, fun hwarm hfail hfail' => ?_⟩
  · cases hwarm : startWarm (bootChecked (takeLead s pins.lead) test pins.ref
      (bad.map (fun x => (x.1.val, x.2.val))) (corrected.map Fin.val)) with
    | true =>
      rw [bootRest_warm hwarm]
      exact bootEnd_started _ true
    | false =>
      obtain ⟨v, hv⟩ := coldImage_isSome (h.resolve_left (by simp [hwarm]))
      rw [bootRest_cold hwarm hv]
      exact bootEnd_started v false
  · rw [bootRest_rom hwarm (coldImage_eq_none hfail hfail')]
    exact romOnly_shows ((bootChecked_booted _ _ _ _ _).trans ((takeLead_booted s pins.lead).trans hbooted))

end Sys2Proof.Machine
end

section
/-!
SUPPORT. Secure sessions (R393 to R396): a session that opens or closes is told, a challenge is drawn, and a response is
checked.
-/

namespace Sys2Proof.Machine

theorem exec_open (dt : Nat) (p : Port) (s : State) : exec (.open_ dt p) s = execOpen dt p s := rfl
theorem exec_close (dt : Nat) (p : Port) (s : State) : exec (.close dt p) s = execClose dt p s := rfl
theorem exec_sessionResponse (dt : Nat) (p : Port) (r : BitVec 64) (s : State) :
    exec (.sessionResponse dt p r) s = execSessionResponse dt p r s := rfl
theorem exec_challengeTimeout (dt : Nat) (p : Port) (s : State) :
    exec (.challengeTimeout dt p) s = execChallengeTimeout dt p s := rfl

/-! ### A session that opens or closes is told (R321, R395) -/

/-- A session's change is reported, changes the rules and starts or stops supervision. -/
def sessionTold (s : State) (p : Port) (d : Word) : State :=
  supervise (ruleChange (glbPort (raise s 47 p.code d) p 13)) p

theorem sessionTold_eq (s : State) (p : Port) (d : Word) : ∃ (x : PState) (a : Nat), sessionTold s p d =
    (ruleChange (glbPort (raise s 47 p.code d) p 13)).setPort p
      { s.port p with glb := sqSet (s.port p).glb (bit24 13), pstate := x, lastGood := a } := by
  obtain ⟨x, a, h, -⟩ := supervise_eq (ruleChange (glbPort (raise s 47 p.code d) p 13)) p
  exact ⟨x, a, h.trans (by simp [glbPort])⟩

theorem sqSet_shows {n : Nat} (r : SqReg) (h : n < 24) : (sqSet r (bit24 n)).bits.getLsbD n = true := by
  simp [bit24_getLsbD h]

/-- What the report leaves of the port. -/
theorem sessionTold_port (s : State) (p : Port) (d : Word) : ∃ (x : PState) (a : Nat),
    (sessionTold s p d).port p = { s.port p with
      glb := sqSet (s.port p).glb (bit24 13), pstate := x, lastGood := a } := by
  obtain ⟨x, a, h⟩ := sessionTold_eq s p d
  exact ⟨x, a, by rw [h, State.setPort_port]⟩

theorem sessionTold_cfg (s : State) (p : Port) (d : Word) : (sessionTold s p d).cfg = s.cfg := by
  obtain ⟨x, a, h⟩ := sessionTold_eq s p d
  rw [h]
  simp [glbPort]

theorem sessionTold_raised {u s : State} (hgrid : s.grid = u.grid) (p : Port) (d : Word) :
    Raised u (sessionTold s p d) 47 p.code d := by
  obtain ⟨x, a, h⟩ := sessionTold_eq s p d
  refine (raise_raised_always hgrid rfl d).of_mem fun e he => ?_
  rw [h, ruleChange_rest]
  simpa [glbPort] using he

theorem closeSession_opened {s : State} {p : Port} (h : (s.port p).sess = .opened) :
    closeSession s p = sessionTold ((discardSession s p).onPort p clearSession) p 2 := by
  unfold closeSession
  rw [h]
  rfl

/-- No value staged in a session is left when it has been discarded (R300). -/
theorem discardSession_secStaged (s : State) (p : Port) : (discardSession s p).secStaged p = [] := by
  unfold discardSession
  cases p <;> rfl

theorem secStaged_cfg {s t : State} (h : t.cfg = s.cfg) (p : Port) : t.secStaged p = s.secStaged p := by
  unfold State.secStaged
  rw [h]

/-- What a session that has been closed leaves of its port (R395). -/
theorem closeSession_cleared {s : State} {p : Port} (h : (s.port p).sess = .opened) :
    ((closeSession s p).port p).sess = .closed ∧ ((closeSession s p).port p).kF = [] ∧
      ((closeSession s p).port p).kT = [] ∧ ((closeSession s p).port p).pend = none ∧
      ((closeSession s p).port p).load = [] ∧ (closeSession s p).secStaged p = [] ∧
      Raised s (closeSession s p) 47 p.code 2 := by
  rw [closeSession_opened h]
  obtain ⟨hport, hgrid⟩ := discardSession_kept s p
  obtain ⟨x, a, htold⟩ := sessionTold_port ((discardSession s p).onPort p clearSession) p 2
  rw [htold, State.onPort_eq, State.setPort_port]
  refine ⟨rfl, rfl, rfl, rfl, rfl, ?_, sessionTold_raised (by simpa using hgrid) p 2⟩
  rw [secStaged_cfg (sessionTold_cfg _ _ _), ← discardSession_secStaged s p]
  exact secStaged_cfg (by simp) p

/-! ### A challenge (R393) -/

/-- A port that may open its session draws its challenge. -/
theorem openSession_challenges {s : State} {p : Port} (hp : p ≠ .u) (hvault : s.vault.state = .provisioned)
    (hlock : s.alarm.lockdown = false) (hrng : s.vault.rngFail = false) (hopen : vaultOpen s = true)
    (hfail : (s.port p).openFail = none) :
    ((openSession s p).port p).sess = .challenged ∧ ((openSession s p).port p).chalAt = s.grid.now ∧
      ((openSession s p).port p).pend = none ∧
      ∃ k, ((openSession s p).port p).words = fit 7 0 (bytesWords (beBytes 12 (Config.random k).toNat)) := by
  have hover := closeSession_over s p
  have hgrid : (abandonVault (closeSession s p) p).grid = s.grid := by simp [abandonVault, hover.grid]
  unfold openSession
  extract_lets recently v
  have hrecent : recently = false := by simp only [recently, hfail]
  rw [if_neg (by simp [hvault, hlock, hrng, hopen, hrecent, hp])]
  simp only [State.draw, State.onPort_eq, State.setPort_port]
  refine ⟨trivial, congrArg GridState.now hgrid, ?_, _, rfl⟩
  simp only [v, abandonVault]
  cases p <;> rfl

/-! ### A response (R393, R396) -/

/-- The session that a right response opens. -/
def opening (s : State) (p : Port) (key ctx : Bytes) : State :=
  s.onPort p (fun x => { x with
    sess := .opened, lastCtr := 0, nonce := cmac64 key ([0x00, 0x4E] ++ ctx)
    kF := cmac2 key (0x46 :: ctx), kT := cmac2 key (0x54 :: ctx)
    words := fit 7 0 ([0, 0, 0, 0, 0] ++ bytesWords (cmac64 key ([0x00, 0x44] ++ ctx))) })

/-- The session that a wrong response leaves closed. -/
def refusing (s : State) (p : Port) : State :=
  s.onPort p (fun x => { x with
    sess := .closed, words := [0, 0, 0, 0, 0, 0, 0], openFail := some s.grid.now })

section

variable {s : State} {p : Port} {key ctx : Bytes} (hempty : slotEmpty s (portSlot p) = false)
  (hkey : key = (s.slot (portSlot p)).key) (hne : key ≠ []) (hctx : ctx = wordBytes (s.port p).words 0 5 ++ [portByte p])

include hempty hkey hne hctx

theorem checkResponse_right (h : cmac64 key ([0x00, 0x4F] ++ ctx) = wordBytes (s.port p).words 5 2) :
    checkResponse s p = sessionTold (opening s p key ctx) p 1 := by
  unfold checkResponse
  dsimp only
  rw [hempty, if_neg Bool.false_ne_true, ← hkey, ← hctx]
  exact if_pos (by simpa [hne] using h)

theorem checkResponse_wrong (h : cmac64 key ([0x00, 0x4F] ++ ctx) ≠ wordBytes (s.port p).words 5 2) :
    checkResponse s p = sessionFailure (refusing s p) p := by
  unfold checkResponse
  dsimp only
  rw [hempty, if_neg Bool.false_ne_true, ← hkey, ← hctx]
  exact if_neg (by simpa [hne] using h)

end

/-- A session failure that is not the eighth within 1 s is told, and the session stays as it is (R396). -/
theorem sessionFailure_told {u s : State} {p : Port} (hgrid : s.grid = u.grid)
    (hfew : (recent s.grid.now second s.alarm.joint).length < 7) :
    ((sessionFailure s p).port p).sess = (s.port p).sess ∧ ((sessionFailure s p).port p).openFail = (s.port p).openFail ∧
      ((sessionFailure s p).port p).glb.bits.getLsbD 13 = true ∧ Raised u (sessionFailure s p) 47 p.code 3 := by
  obtain ⟨-, hport, hcycle⟩ := sessionFailure_quiet hfew p
  rw [hport]
  refine ⟨by simp [failureTold, glbPort], by simp [failureTold, glbPort], glbPort_bit _ _ (by decide),
    (raise_raised_always (s := s.setPort p { s.port p with
      fails := recent s.grid.now second (s.port p).fails ++ [s.grid.now] }) (by simpa using hgrid) rfl 3).of_mem
      fun e he => ?_⟩
  rw [hcycle]
  simpa [failureTold] using he

/-- The response that a port has written to its session words. -/
def withResponse (s : State) (p : Port) (r : BitVec 64) : State :=
  s.onPort p (fun x => { x with words := setWords x.words 5 (bytesWords (beBytes 8 r.toNat)) })

theorem sessionResponse_checks {s u : State} {dt : Nat} {p : Port} (r : BitVec 64) (h : FrameArrives s dt p u)
    (hdev : u.mode.dev ≠ .off) (hsess : (u.port p).sess = .challenged) :
    exec (.sessionResponse dt p r) s = .next (checkResponse (withResponse u p r) p) := by
  refine (exec_sessionResponse dt p r s).trans ((hostWrite_arrives h hdev _).trans ?_)
  rw [if_pos hsess]
  rfl

/-- Settles O32, by the challenge, its response, its time and CLOSE. -/
theorem sessionsOpenAndClose : Obligations.SessionsOpenAndClose := by
  unfold Obligations.SessionsOpenAndClose
  refine ⟨fun s u dt p h hp hdev hvault hlock hrng hopen hfail => ?_,
    fun s u dt p r ws key ctx h hdev hsess hws hempty hkey hne hctx => ⟨fun hright => ?_, fun hwrong hfew => ?_⟩,
    fun s u dt p h hsess hdue => ⟨_, (exec_challengeTimeout dt p s).trans (run_arrives h _), ?_⟩,
    fun s u dt p h hdev hsess => ⟨_, (exec_close dt p s).trans (hostWrite_arrives h hdev _), closeSession_cleared hsess⟩⟩
  · obtain ⟨hsess, hat, hpend, k, hk⟩ := openSession_challenges hp hvault hlock hrng hopen hfail
    exact ⟨_, k, (exec_open dt p s).trans (hostWrite_arrives h hdev _), hsess, hat, hpend, hk⟩
  · have hwords : ((withResponse u p r).port p).words = ws := by simp [withResponse, hws]
    have hempty' : slotEmpty (withResponse u p r) (portSlot p) = false := by cases p <;> exact hempty
    have hkey' : key = ((withResponse u p r).slot (portSlot p)).key := by cases p <;> exact hkey
    refine ⟨_, sessionResponse_checks r h hdev hsess, ?_⟩
    rw [checkResponse_right hempty' hkey' hne (hwords ▸ hctx) (hwords ▸ hright)]
    obtain ⟨x, a, htold⟩ := sessionTold_port (opening (withResponse u p r) p key ctx) p 1
    rw [htold]
    simp only [opening, State.onPort_eq, State.setPort_port]
    refine ⟨trivial, trivial, trivial, trivial, trivial, sqSet_shows _ (by decide), sessionTold_raised ?_ p 1⟩
    simp [withResponse]
  · have hwords : ((withResponse u p r).port p).words = ws := by simp [withResponse, hws]
    have hempty' : slotEmpty (withResponse u p r) (portSlot p) = false := by cases p <;> exact hempty
    have hkey' : key = ((withResponse u p r).slot (portSlot p)).key := by cases p <;> exact hkey
    refine ⟨_, sessionResponse_checks r h hdev hsess, ?_⟩
    rw [checkResponse_wrong hempty' hkey' hne (hwords ▸ hctx) (hwords ▸ hwrong)]
    obtain ⟨hsess', hfail, hglb, htold⟩ := sessionFailure_told (u := u) (s := refusing (withResponse u p r) p) (p := p)
      (by simp [refusing, withResponse]) (by simpa [refusing, withResponse] using hfew)
    refine ⟨hsess'.trans ?_, hfail.trans ?_, hglb, htold⟩ <;> simp [refusing, withResponse]
  · rw [challengeExpire, if_pos ⟨hsess, hdue⟩]
    simp [clearSession]

end Sys2Proof.Machine
end

section
/-!
SUPPORT. Session words as bytes (R394, R397, R399): words that bytes spell spell them back, and a CMAC has 16 bytes under
every key.
-/

namespace Sys2Proof.Machine

/-! ### Lists cut into pieces -/

/-- A list whose length is a multiple of `n` is cut into pieces of `n` that join to it again. -/
theorem chunks_spec {α : Type} {n : Nat} (hn : 0 < n) (k : Nat) {fuel : Nat} {xs : List α} (hlen : xs.length = n * k)
    (hfuel : k ≤ fuel) : (chunks n fuel xs).length = k ∧ (∀ c ∈ chunks n fuel xs, c.length = n) ∧
      (chunks n fuel xs).flatten = xs := by
  induction k generalizing fuel xs with
  | zero =>
    obtain rfl : xs = [] := List.length_eq_zero_iff.1 hlen
    cases fuel <;> simp [chunks]
  | succ k ih =>
    obtain ⟨fuel, rfl⟩ : ∃ f, fuel = f + 1 := ⟨fuel - 1, by omega⟩
    have hlen' : xs.length = n * k + n := hlen
    obtain ⟨x, xs, rfl⟩ : ∃ y ys, xs = y :: ys := List.exists_cons_of_length_pos (by omega)
    obtain ⟨hcount, hall, hjoin⟩ := ih (fuel := fuel) (xs := (x :: xs).drop n) (by rw [List.length_drop]; omega) (by omega)
    have hstep : chunks n (fuel + 1) (x :: xs) = (x :: xs).take n :: chunks n fuel ((x :: xs).drop n) := by
      cases n with
      | zero => exact absurd hn (Nat.lt_irrefl 0)
      | succ n => rfl
    rw [hstep]
    refine ⟨by simp [hcount], fun c hc => ?_, by simp [hjoin]⟩
    obtain rfl | hc := List.mem_cons.1 hc
    · rw [List.length_take]
      omega
    · exact hall c hc

theorem fit_length {α : Type} (n : Nat) (x : α) (xs : List α) : (fit n x xs).length = n := by
  simp only [fit, List.length_take, List.length_append, List.length_replicate]
  omega

theorem fit_of_length {α : Type} {n : Nat} (x : α) {xs : List α} (h : xs.length = n) : fit n x xs = xs := by
  simp [fit, ← h]

/-! ### Words and bytes (R8) -/

/-- Four bytes spell a word that spells them back. -/
theorem beBytes_beNat {c : Bytes} (h : c.length = 4) : beBytes 4 (BitVec.ofNat 32 (beNat c)).toNat = c := by
  match c, h with
  | [b0, b1, b2, b3], _ =>
    have h0 := b0.isLt
    have h1 := b1.isLt
    have h2 := b2.isLt
    have h3 := b3.isLt
    simp only [beNat, List.foldl, beBytes, BitVec.toNat_ofNat, List.cons.injEq, and_true]
    refine ⟨?_, ?_, ?_, ?_⟩ <;> refine BitVec.eq_of_toNat_eq ?_ <;> rw [BitVec.toNat_ofNat] <;> omega

/-- The words that bytes spell, and the bytes again. -/
theorem bytesWords_spec {k : Nat} {bs : Bytes} (h : bs.length = 4 * k) :
    (bytesWords bs).length = k ∧ (bytesWords bs).flatMap (fun w => beBytes 4 w.toNat) = bs := by
  obtain ⟨hcount, hall, hjoin⟩ := chunks_spec (by decide) k h (fuel := bs.length) (by omega)
  refine ⟨by rw [bytesWords, List.length_map, hcount], ?_⟩
  rw [bytesWords, List.flatMap_map, List.flatMap_def, List.map_congr_left fun c hc => beBytes_beNat (hall c hc),
    List.map_id', hjoin]

/-! ### Session words (R340) -/

theorem setWords_length (ws : List Word) (i : Nat) (xs : List Word) : (setWords ws i xs).length = 7 := fit_length _ _ _

section

variable {ws xs : List Word} {i : Nat} (hws : ws.length = 7) (hi : i + xs.length ≤ 7)

include hws hi

theorem setWords_eq : setWords ws i xs = ws.take i ++ (xs ++ ws.drop (i + xs.length)) := by
  rw [setWords, fit_of_length, List.append_assoc]
  simp only [List.length_append, List.length_take, List.length_drop]
  omega

/-- The words that were written. -/
theorem setWords_written : ((setWords ws i xs).drop i).take xs.length = xs := by
  have hlen : (ws.take i).length = i := by
    rw [List.length_take]
    omega
  rw [setWords_eq hws hi, List.drop_left' hlen, List.take_left' rfl]

/-- The words before those that were written. -/
theorem setWords_before {j n : Nat} (hn : j + n ≤ i) : ((setWords ws i xs).drop j).take n = (ws.drop j).take n := by
  rw [setWords_eq hws hi, List.take_drop, List.take_append_of_le_length, List.take_take, List.take_drop,
    Nat.min_eq_left (by omega)]
  rw [List.length_take]
  omega

end

theorem wordBytes_setWords {ws : List Word} {i k : Nat} {bs : Bytes} (hws : ws.length = 7) (hi : i + k ≤ 7)
    (hbs : bs.length = 4 * k) : wordBytes (setWords ws i (bytesWords bs)) i k = bs := by
  obtain ⟨hlen, hflat⟩ := bytesWords_spec hbs
  have hwritten := setWords_written (xs := bytesWords bs) hws (by rw [hlen]; exact hi)
  rw [hlen] at hwritten
  rw [wordBytes, hwritten, hflat]

/-! ### AES and CMAC (R298, R394) -/

theorem xorB_length {a b : List Nat} {n : Nat} (ha : a.length = n) (hb : b.length = n) : (xorB a b).length = n := by
  simp [xorB, ha, hb]

/-- The words of the key schedule have four bytes. -/
theorem aesExpand_words (fuel i rc : Nat) {ws : List (List Nat)} (hlen : ws.length = 8) (hws : ∀ w ∈ ws, w.length = 4) :
    (aesExpand fuel i rc ws).length = fuel ∧ ∀ w ∈ aesExpand fuel i rc ws, w.length = 4 := by
  induction fuel generalizing i rc ws with
  | zero => simp [aesExpand]
  | succ fuel ih =>
    have hget (k : Nat) (hk : k < 8) : (ws.getD k []).length = 4 := by
      rw [List.getD_eq_getElem _ _ (by omega)]
      exact hws _ (List.getElem_mem _)
    unfold aesExpand
    extract_lets t t' w
    have ht : t.length = 4 := hget 7 (by decide)
    have hw : w.length = 4 := by
      refine xorB_length (hget 0 (by decide)) ?_
      simp only [t']
      (repeat' split)
      · refine xorB_length ?_ rfl
        simp [ht]
      · simpa using ht
      · exact ht
    obtain ⟨hcount, hall⟩ := ih (i + 1) (if i % 8 = 0 then aesX rc else rc) (ws := ws.drop 1 ++ [w]) (by simp [hlen])
      fun x hx => by
        obtain hx | hx := List.mem_append.1 hx
        · exact hws x (List.mem_of_mem_drop hx)
        · rw [List.mem_singleton.1 hx, hw]
    refine ⟨by rw [List.length_cons, hcount], fun x hx => ?_⟩
    obtain rfl | hx := List.mem_cons.1 hx
    · exact hw
    · exact hall x hx

/-- The round keys of every key are 15 of 16 bytes each. -/
theorem aesKeys_spec (key : List Nat) : (aesKeys key).length = 15 ∧ ∀ k ∈ aesKeys key, k.length = 16 := by
  obtain ⟨hcount, hall, -⟩ := chunks_spec (n := 4) (by decide) 8 (fuel := 8) (fit_length 32 0 key) le_rfl
  obtain ⟨hmore, hwords⟩ := aesExpand_words 52 8 1 hcount hall
  obtain ⟨hkeys, hfour, hjoin⟩ := chunks_spec (n := 4) (by decide) 15 (fuel := 15)
    (xs := chunks 4 8 (fit 32 0 key) ++ aesExpand 52 8 1 (chunks 4 8 (fit 32 0 key)))
    (by rw [List.length_append, hcount, hmore]) le_rfl
  refine ⟨by simp only [aesKeys, List.length_map, hkeys], fun k hk => ?_⟩
  obtain ⟨c, hc, rfl⟩ := List.mem_map.1 hk
  have hword (w : List Nat) (hw : w ∈ c) : w.length = 4 := by
    obtain hw | hw := List.mem_append.1 (hjoin ▸ List.mem_flatten_of_mem hc hw)
    · exact hall w hw
    · exact hwords w hw
  match c, hfour c hc with
  | [w0, w1, w2, w3], _ =>
    simp [hword w0 (by simp), hword w1 (by simp), hword w2 (by simp), hword w3 (by simp)]

/-- The last round of a block leaves 16 bytes. -/
theorem aesRounds_length {ks : List (List Nat)} (hne : ks ≠ []) (hks : ∀ k ∈ ks, k.length = 16) (b : List Nat) :
    (aesRounds ks b).length = 16 := by
  induction ks generalizing b with
  | nil => exact absurd rfl hne
  | cons k ks ih =>
    cases ks with
    | nil => exact xorB_length (by simp [aesShift]) (hks k (by simp))
    | cons k' ks => exact ih (List.cons_ne_nil _ _) (fun x hx => hks x (List.mem_cons_of_mem _ hx)) _

theorem aesBlock_length (key blk : List Nat) : (aesBlock key blk).length = 16 := by
  obtain ⟨hcount, hall⟩ := aesKeys_spec key
  match hkeys : aesKeys key with
  | [] => simp [hkeys] at hcount
  | [k] => simp [hkeys] at hcount
  | k :: k' :: ks =>
    rw [hkeys] at hall
    unfold aesBlock
    rw [hkeys]
    exact aesRounds_length (List.cons_ne_nil _ _) (fun x hx => hall x (List.mem_cons_of_mem _ hx)) _

theorem cmac_length (key msg : List Byte) : (cmac key msg).length = 16 := by
  simp only [cmac, ofN, List.length_map, cmacN, cmacFold, List.foldl_append, List.foldl_cons, List.foldl_nil,
    aesBlock_length]

theorem cmac64_length (key msg : Bytes) : (cmac64 key msg).length = 8 := by
  rw [cmac64, List.length_take, cmac_length]
  rfl

end Sys2Proof.Machine
end

section
/-!
SUPPORT. Vault requests and their results (R397 to R400): what a request leaves in the session words, what each operation
leaves of its port, and what a result says.
-/

namespace Sys2Proof.Machine

/-! ### A request in an open session (R397, R399) -/

/-- The 16 bytes of a request. -/
def requestBytes (op sel arg : Nat) (operand : Bytes) : Bytes :=
  fit 16 0 ([byte op, byte sel, byte arg, 0] ++ fit 12 0 operand)

theorem requestBytes_eq (op sel arg : Byte) (operand : Bytes) :
    requestBytes op.toNat sel.toNat arg.toNat operand = op :: sel :: arg :: 0 :: fit 12 0 operand := by
  rw [requestBytes, fit_of_length]
  · simp [byte]
  · simp [fit_length]

/-- The request that stands in the session words. -/
def requestOf (s : State) (p : Port) (ctr : Option Word) : VaultReq :=
  let b := wordBytes (s.port p).words 3 4
  { op := b.getD 0 0, sel := b.getD 1 0, arg := b.getD 2 0, operand := b.drop 4, ctr := ctr
    keyPol := s.lock.getLsbD 2, streamId := streamIdOf s ((b.getD 1 0).toNat % 32), at_ := s.grid.now }

/-- A port whose request has been taken. -/
def requestTaken (s : State) (p : Port) (ctr : Option Word) : State :=
  s.onPort p (fun x => { x with words := setWords x.words 0 [0xFF000000], pend := some (requestOf s p ctr) })

/-- A request is taken where none is pending, and no lock is violated unless SET_POLICY is locked. -/
theorem takeRequest_taken {s : State} {p : Port} {ctr : Option Word} (hpend : (s.port p).pend = none)
    (hlock : (requestOf s p ctr).op ≠ 0x08 ∨ s.lock.getLsbD 2 = false) :
    takeRequest s p ctr = requestTaken s p ctr := by
  unfold takeRequest
  dsimp only
  rw [if_neg (by simp [hpend])]
  refine if_neg fun h => ?_
  simp only [Bool.and_eq_true, beq_iff_eq] at h
  obtain ⟨⟨⟨-, hop⟩, hkey⟩, -⟩ := h
  exact hlock.elim (fun hne => hne hop) fun hl => absurd (hl.symm.trans hkey) Bool.false_ne_true

/-- A request's counter and bytes put in place in the session words. -/
def requestPut (s : State) (p : Port) (ctr : Word) (bs : Bytes) : State :=
  (s.onPort p (fun x => { x with lastCtr := ctr })).onPort p
    (fun x => { x with words := setWords x.words 3 (bytesWords bs) })

theorem requestPut_port (s : State) (p : Port) (ctr : Word) (bs : Bytes) : (requestPut s p ctr bs).port p =
    { s.port p with lastCtr := ctr, words := setWords (s.port p).words 3 (bytesWords bs) } := by
  simp [requestPut]

theorem requestPut_kept (s : State) (p : Port) (ctr : Word) (bs : Bytes) :
    (requestPut s p ctr bs).lock = s.lock ∧ (requestPut s p ctr bs).grid = s.grid := by
  simp [requestPut]

/-- The request that 16 bytes in the session words spell. -/
theorem requestOf_put {s : State} {p : Port} (hlen : (s.port p).words.length = 7) (ctr : Word) (op sel arg : Byte)
    (operand : Bytes) : (requestOf (requestPut s p ctr (requestBytes op.toNat sel.toNat arg.toNat operand)) p (some ctr)) =
      { op := op, sel := sel, arg := arg, operand := fit 12 0 operand, ctr := some ctr
        keyPol := s.lock.getLsbD 2
        streamId := streamIdOf (requestPut s p ctr (requestBytes op.toNat sel.toNat arg.toNat operand)) (sel.toNat % 32)
        at_ := s.grid.now } := by
  have hbytes : wordBytes ((requestPut s p ctr (requestBytes op.toNat sel.toNat arg.toNat operand)).port p).words 3 4 =
      op :: sel :: arg :: 0 :: fit 12 0 operand := by
    rw [requestPut_port, ← requestBytes_eq]
    exact wordBytes_setWords hlen (by decide) (fit_length _ _ _)
  obtain ⟨hlock, hgrid⟩ := requestPut_kept s p ctr (requestBytes op.toNat sel.toNat arg.toNat operand)
  simp only [requestOf, hbytes, hlock, hgrid]
  rfl

/-- In an open session that takes a request, the request is taken (R299, R397). -/
theorem vaultRequest_takes {u : State} {p : Port} {ctr : Word} (h : SessionTakes u p ctr) (op sel arg : Byte)
    (operand : Bytes) (hlock : op ≠ 0x08 ∨ u.lock.getLsbD 2 = false) :
    vaultRequest u p ctr op.toNat sel.toNat arg.toNat operand =
      requestTaken (requestPut u p ctr (requestBytes op.toNat sel.toNat arg.toNat operand)) p (some ctr) := by
  obtain ⟨hp, hdev, hsess, hpend, hlen, hctr, hlast⟩ := h
  have hoff : ((u.onPort p (fun x => { x with lastCtr := ctr })).mode.dev == .off) = false := by
    simp [hdev]
  have htaken := takeRequest_taken
    (s := requestPut u p ctr (requestBytes op.toNat sel.toNat arg.toNat operand)) (p := p) (ctr := some ctr)
    (by rw [requestPut_port]; exact hpend)
    (by rw [requestOf_put hlen, (requestPut_kept _ _ _ _).1]; exact hlock)
  unfold vaultRequest
  rw [← htaken]
  dsimp only
  cases p with
  | u => exact absurd rfl hp
  | _ =>
    rw [hsess]
    simp only [acceptCtr, if_pos hctr, endSecure_of_ne hlast]
    rw [if_neg (by simp [hdev])]
    rfl

/-- A command that brings a vault request into an open session has it taken. -/
theorem requestTaken_of {c : Instr} {s u : State} {dt : Nat} {p : Port} {ctr : Word} (h : FrameArrives s dt p u)
    (hs : SessionTakes u p ctr) {op sel arg : Byte} {operand : Bytes}
    (hexec : exec c s = hostFrame dt p s (fun s => vaultRequest s p ctr op.toNat sel.toNat arg.toNat operand))
    (hlock : op ≠ 0x08 ∨ u.lock.getLsbD 2 = false) : RequestTaken c s u p ctr op sel arg operand := by
  obtain ⟨-, -, -, -, hlen, -⟩ := id hs
  refine ⟨_, requestOf (requestPut u p ctr (requestBytes op.toNat sel.toNat arg.toNat operand)) p (some ctr),
    hexec.trans (hostFrame_arrives h _), ?_⟩
  rw [vaultRequest_takes hs op sel arg operand hlock]
  simp only [requestTaken, requestOf_put hlen, State.onPort_eq, State.setPort_port, requestPut_port]
  exact ⟨trivial, trivial, trivial, trivial, trivial, trivial, trivial, trivial, rfl⟩

/-- Settles O34, by the request that each operation's command writes. -/
theorem vaultRequestsAreTaken : Obligations.VaultRequestsAreTaken := by
  unfold Obligations.VaultRequestsAreTaken
  intro s u dt p ctr h hs
  have hne {op : Byte} (hop : op ≠ 0x08) : op ≠ 0x08 ∨ u.lock.getLsbD 2 = false := .inl hop
  exact ⟨fun _ _ => requestTaken_of h hs rfl (hne (by decide)), fun _ => requestTaken_of h hs rfl (hne (by decide)),
    fun _ _ _ _ _ => requestTaken_of h hs rfl (hne (by decide)), fun _ _ => requestTaken_of h hs rfl (hne (by decide)),
    requestTaken_of h hs rfl (hne (by decide)), fun _ => requestTaken_of h hs rfl (hne (by decide)),
    fun _ => requestTaken_of h hs rfl (hne (by decide)), fun _ hlock => requestTaken_of h hs rfl (.inr hlock),
    fun _ => requestTaken_of h hs rfl (hne (by decide)), fun _ => requestTaken_of h hs rfl (hne (by decide)),
    fun _ => requestTaken_of h hs rfl (hne (by decide)), fun _ _ => requestTaken_of h hs rfl (hne (by decide)),
    requestTaken_of h hs rfl (hne (by decide)), fun _ _ => requestTaken_of h hs rfl (hne (by decide)),
    requestTaken_of h hs rfl (hne (by decide))⟩

end Sys2Proof.Machine
end

section
/-!
SUPPORT. Results of vault operations (R399, R400, R452, R510): what an operation leaves of its port, the session words
that a result fills, and the results of the operations that O35 names.
-/

namespace Sys2Proof.Machine

theorem exec_vaultResult (dt : Nat) (p : VaultEnd) (s : State) : exec (.vaultResult dt p) s = execVaultResult dt p s := rfl

/-! ### What an operation leaves of its port -/

/-- A port as a vault operation leaves it: its load buffer apart, as it was. -/
def SamePort (p : Port) (s t : State) : Prop := ∃ l, t.port p = { s.port p with load := l }

theorem SamePort.of_eq {p : Port} {s t : State} (h : t.port = s.port) : SamePort p s t := ⟨(s.port p).load, by rw [h]⟩

theorem SamePort.trans {p : Port} {s t u : State} (h : SamePort p s t) (h' : SamePort p t u) : SamePort p s u := by
  obtain ⟨l, hl⟩ := h
  obtain ⟨l', hl'⟩ := h'
  exact ⟨l', by rw [hl', hl]⟩

theorem opLoadPart_port (s : State) (p : Port) (r : VaultReq) : SamePort p s (opLoadPart s p r).2.2 := by
  unfold opLoadPart
  split
  · exact .of_eq rfl
  · exact ⟨_, by dsimp only; rw [State.onPort_eq, State.setPort_port]⟩

theorem opInstallMaster_port (s : State) (p : Port) (r : VaultReq) : (opInstallMaster s p r).2.2.port = s.port := by
  unfold opInstallMaster
  dsimp only
  (repeat' split) <;> rfl

theorem opInstallStreamKey_port (s : State) (r : VaultReq) : (opInstallStreamKey s r).2.2.port = s.port := by
  unfold opInstallStreamKey
  dsimp only
  (repeat' split) <;> rfl

theorem opInstallPairing_port (s : State) (p : Port) (r : VaultReq) : (opInstallPairing s p r).2.2.port = s.port := by
  unfold opInstallPairing
  dsimp only
  (repeat' split) <;> rfl

theorem opInstallHoard_port (s : State) (p : Port) : (opInstallHoard s p).2.2.port = s.port := by
  unfold opInstallHoard
  (repeat' split) <;> rfl

theorem opRotate_port (s : State) (p : Port) (r : VaultReq) : (opRotate s p r).2.2.port = s.port := by
  unfold opRotate
  dsimp only
  (repeat' split) <;> rfl

theorem opClearSlot_port (s : State) (r : VaultReq) : (opClearSlot s r).2.2.port = s.port := by
  unfold opClearSlot
  dsimp only
  (repeat' split) <;> rfl

theorem opSetPolicy_port (s : State) (r : VaultReq) : (opSetPolicy s r).2.2.port = s.port := by
  unfold opSetPolicy
  dsimp only
  split <;> rfl

theorem opReadAttr_port (s : State) (r : VaultReq) : (opReadAttr s r).2.2.port = s.port := by
  unfold opReadAttr
  dsimp only
  split <;> rfl

theorem opReadLog_port (s : State) (r : VaultReq) : (opReadLog s r).2.2.port = s.port := by
  unfold opReadLog
  split <;> rfl

theorem opSign_port (s : State) (r : VaultReq) : (opSign s r).2.2.port = s.port := by
  simp only [opSign, State.draw]
  (repeat' split) <;> rfl

theorem opReadOut_port (s : State) (r : VaultReq) : (opReadOut s r).2.2.port = s.port := by
  unfold opReadOut
  dsimp only
  (repeat' split) <;> rfl

theorem opSaveConfig_port (s : State) : (opSaveConfig s).2.2.port = s.port := by
  unfold opSaveConfig
  dsimp only
  (repeat' split) <;> rfl

theorem opProvPart_port (s : State) (r : VaultReq) : (opProvPart s r).2.2.port = s.port := by
  unfold opProvPart
  (repeat' split) <;> rfl

theorem opProvCommit_port (s : State) (puf : Bool) : (opProvCommit s puf).2.2.port = s.port := by
  simp only [opProvCommit, State.draw]
  (repeat' split) <;> rfl

theorem vaultRun_port (s : State) (p : Port) (r : VaultReq) (puf : Bool) : SamePort p s (vaultRun s p r puf).2.2 := by
  unfold vaultRun
  split
  · exact .of_eq rfl
  · split
    · exact opLoadPart_port s p r
    all_goals refine .of_eq ?_
    · exact opInstallMaster_port s p r
    · exact opInstallStreamKey_port s r
    · exact opInstallPairing_port s p r
    · exact opInstallHoard_port s p
    · exact opRotate_port s p r
    · exact opClearSlot_port s r
    · exact opSetPolicy_port s r
    · exact opReadAttr_port s r
    · exact opReadLog_port s r
    · exact opSign_port s r
    · exact opReadOut_port s r
    · exact opSaveConfig_port s
    · exact opProvPart_port s r
    · exact opProvCommit_port s puf
    · rfl

theorem zeroLoad_port (p : Port) (r : VaultReq) (s : State) : SamePort p s (zeroLoad p r s) := by
  unfold zeroLoad
  split
  · exact ⟨[], by rw [State.onPort_eq, State.setPort_port]⟩
  · exact .of_eq rfl

/-- The load buffer's end touches the port alone. -/
theorem zeroLoad_kept (p : Port) (r : VaultReq) (s : State) :
    (zeroLoad p r s).vault = s.vault ∧ (zeroLoad p r s).nv = s.nv := by
  unfold zeroLoad
  split <;> simp

/-! ### The result (R399) -/

/-- The 12 bytes of a result. -/
def opResultBytes (r : VaultReq) (st : Nat) (data : Bytes) : Bytes := fit 12 0 ([byte st, r.op] ++ data)

theorem beBytes_zero : beBytes 8 0 = [0, 0, 0, 0, 0, 0, 0, 0] := rfl

/-- The tag of a result. -/
def opResultTag (x : PortState) (p : Port) (r : VaultReq) (res : Bytes) : Bytes :=
  match r.ctr with
  | some c => cmac64 x.kF (x.nonce ++ [0x52, portByte p] ++ beBytes 4 c.toNat ++ res)
  | none => beBytes 8 0

theorem opResultTag_length (x : PortState) (p : Port) (r : VaultReq) (res : Bytes) : (opResultTag x p r res).length = 8 := by
  unfold opResultTag
  split
  · exact cmac64_length _ _
  · rfl

theorem writeResult_eq (s : State) (p : Port) (r : VaultReq) (st : Nat) (data : Bytes) :
    writeResult s p r st data = s.setPort p { s.port p with
      pend := none
      words := setWords (setWords (s.port p).words 0 (bytesWords (opResultBytes r st data))) 5
        (bytesWords (opResultTag (s.port p) p r (opResultBytes r st data))) } := by
  cases hctr : r.ctr <;> simp only [writeResult, opResultTag, opResultBytes, hctr, State.onPort_eq]

/-- A result stands in the session words with its tag. -/
theorem writeResult_shows {s t : State} {p : Port} (h : SamePort p s t) (hlen : (s.port p).words.length = 7)
    (r : VaultReq) (st : Nat) (data : Bytes) :
    ((writeResult t p r st data).port p).pend = none ∧
      wordBytes ((writeResult t p r st data).port p).words 0 3 = opResultBytes r st data ∧
      wordBytes ((writeResult t p r st data).port p).words 5 2 =
        opResultTag (s.port p) p r (opResultBytes r st data) := by
  obtain ⟨l, hl⟩ := h
  have htag : opResultTag (t.port p) p r (opResultBytes r st data) = opResultTag (s.port p) p r (opResultBytes r st data) := by
    rw [hl]
    rfl
  have hlen' : (t.port p).words.length = 7 := by rw [hl]; exact hlen
  rw [writeResult_eq, State.setPort_port, htag]
  refine ⟨rfl, ?_, wordBytes_setWords (setWords_length _ _ _) (by decide) (opResultTag_length _ _ _ _)⟩
  have hbytes := (bytesWords_spec (k := 2) (opResultTag_length (s.port p) p r (opResultBytes r st data))).1
  rw [wordBytes, setWords_before (setWords_length _ _ _) (by rw [hbytes]) (by decide), ← wordBytes]
  exact wordBytes_setWords hlen' (by decide) (fit_length _ _ _)

/-- The state after an operation that has run. -/
def vaultAnswered (s : State) (p : Port) (r : VaultReq) (puf : Bool) : State :=
  writeResult (zeroLoad p r (vaultRun s p r puf).2.2) p r (vaultRun s p r puf).1 (vaultRun s p r puf).2.1

/-- A pending operation that may run completes. -/
theorem vaultComplete_answers {s : State} {p : Port} {r : VaultReq} (puf : Bool) (hpend : (s.port p).pend = some r)
    (hwaits : vaultWaits s p r = false) (hopen : vaultOpen s = true) (hrestart : s.mode.restarting = false) :
    vaultComplete s p puf = vaultAnswered s p r puf := by
  unfold vaultComplete
  rw [hpend]
  dsimp only
  rw [if_neg (by simp [hwaits, hopen, hrestart])]
  rfl

theorem vaultAnswered_shows {s : State} {p : Port} {r : VaultReq} (hlen : (s.port p).words.length = 7) (puf : Bool) :
    ((vaultAnswered s p r puf).port p).pend = none ∧
      wordBytes ((vaultAnswered s p r puf).port p).words 0 3 =
        opResultBytes r (vaultRun s p r puf).1 (vaultRun s p r puf).2.1 ∧
      wordBytes ((vaultAnswered s p r puf).port p).words 5 2 =
        opResultTag (s.port p) p r (opResultBytes r (vaultRun s p r puf).1 (vaultRun s p r puf).2.1) :=
  writeResult_shows ((vaultRun_port s p r puf).trans (zeroLoad_port p r _)) hlen r _ _

theorem vaultAnswered_kept (s : State) (p : Port) (r : VaultReq) (puf : Bool) :
    (vaultAnswered s p r puf).vault = (vaultRun s p r puf).2.2.vault ∧
      (vaultAnswered s p r puf).nv = (vaultRun s p r puf).2.2.nv := by
  obtain ⟨hvault, hnv⟩ := zeroLoad_kept p r (vaultRun s p r puf).2.2
  rw [vaultAnswered, writeResult_eq]
  simp [hvault, hnv]

/-! ### Operations by their code (R400) -/

section

variable {s : State} {p : Port} {r : VaultReq} (puf : Bool)

theorem vaultRun_badOp (hctr : r.ctr = none) (hop : opOpen r.op.toNat = false) : vaultRun s p r puf = (1, [], s) :=
  if_pos (by simp [hctr, hop])

theorem vaultRun_setPolicy (hctr : r.ctr ≠ none) (hop : r.op = 0x08) : vaultRun s p r puf = opSetPolicy s r := by
  unfold vaultRun
  rw [if_neg (by simp [hctr]), hop]
  rfl

theorem vaultRun_readLog (hop : r.op = 0x0A) : vaultRun s p r puf = opReadLog s r := by
  unfold vaultRun
  rw [hop, if_neg (by simp [opOpen])]
  rfl

theorem vaultRun_saveConfig (hctr : r.ctr ≠ none) (hop : r.op = 0x0D) : vaultRun s p r puf = opSaveConfig s := by
  unfold vaultRun
  rw [if_neg (by simp [hctr]), hop]
  rfl

end

theorem opSetPolicy_unlocked (s : State) {r : VaultReq} (h : r.keyPol = false) :
    opSetPolicy s r = (0, [r.operand.getD 0 0 &&& 0x0F], s.onVault (fun x => { x with
      policy := r.operand.getD 0 0 &&& 0x0F })) := by
  unfold opSetPolicy
  exact if_neg (by simp [h])

theorem opReadLog_entry {s : State} {r : VaultReq} {e : LogEntry} (h : s.alarm.log[r.sel.toNat]? = some e) :
    opReadLog s r = (0, logBytes e, s) := by
  unfold opReadLog
  rw [h]

/-! ### SAVE_CONFIG (R452, R510) -/

/-- The copy that SAVE_CONFIG writes. -/
def savedCopy (s : State) : CfgCopy :=
  { format := s.upd.cfgFormat, tick := s.grid.tick, words := s.cfg.live, hop := s.grid.pkg
    followers := if s.grid.lead then s.grid.joinedCnt else 0, converted := s.nv.oldCfg, valid := true }

/-- The non-volatile areas with the copy saved. -/
def savedNv (s : State) : NvState :=
  if saveToA s.nv.oldCfg CfgCopy.converted CfgCopy.tick CfgCopy.valid s.nv.cfgA s.nv.cfgB = true
  then { s.nv with cfgA := some (savedCopy s) } else { s.nv with cfgB := some (savedCopy s) }

theorem opSaveConfig_saves {s : State} (h : s.upd.migrating = false) :
    opSaveConfig s = (0, [], { s with nv := savedNv s }) := by
  unfold opSaveConfig savedNv
  rw [if_neg (by simp [h])]
  dsimp only
  split <;> rfl

/-- The newer valid copy is the one that a save outside a migration leaves (R452). -/
theorem newer_saveToA {α : Type} {conv : α → Bool} {tick : α → BitVec 48} {valid : α → Bool} {a b : Option α} {c : α}
    (h : newer tick valid a b = some c) : a = some c ∧ saveToA false conv tick valid a b = false ∨
      b = some c ∧ saveToA false conv tick valid a b = true := by
  cases a with
  | none =>
    cases b with
    | none => simp [newer] at h
    | some b => cases hb : valid b <;> simp_all [newer, saveToA]
  | some a =>
    cases b with
    | none => cases ha : valid a <;> simp_all [newer, saveToA]
    | some b =>
      cases ha : valid a <;> cases hb : valid b <;> simp only [newer, saveToA, ha, hb] at h ⊢
      · simp at h
      · simp_all
      · simp_all
      · (repeat' split at h) <;> simp_all

/-- The newer valid copy stays where no migration runs (R452). -/
theorem savedNv_keepsNewer {s : State} (hold : s.nv.oldCfg = false) {c : CfgCopy} (hc : newerCfg s = some c) :
    (savedNv s).cfgA = some c ∨ (savedNv s).cfgB = some c := by
  unfold savedNv
  rw [hold]
  obtain ⟨hcopy, hsave⟩ | ⟨hcopy, hsave⟩ := newer_saveToA (conv := CfgCopy.converted) hc
  · exact .inl (by simpa [hsave] using hcopy)
  · exact .inr (by simpa [hsave] using hcopy)

/-- The copy that no migration converted stays while OLD_CFG is 1 and the other one is converted (R510). -/
theorem savedNv_keepsOld {s : State} (hold : s.nv.oldCfg = true) {a b : CfgCopy} (ha : s.nv.cfgA = some a)
    (hb : s.nv.cfgB = some b) (hne : a.converted ≠ b.converted) :
    (a.converted = false → (savedNv s).cfgA = some a) ∧ (b.converted = false → (savedNv s).cfgB = some b) := by
  have hsave : saveToA s.nv.oldCfg CfgCopy.converted CfgCopy.tick CfgCopy.valid s.nv.cfgA s.nv.cfgB = a.converted := by
    rw [ha, hb]
    unfold saveToA
    exact if_pos (by simp [hold, hne])
  unfold savedNv
  rw [hsave]
  refine ⟨fun h => ?_, fun h => ?_⟩
  · simpa [h] using ha
  · simpa [show a.converted = true by simpa [h] using hne] using hb

/-- Settles O35, by the result's words and the operations that it names. -/
theorem vaultResultsAnswer : Obligations.VaultResultsAnswer := by
  unfold Obligations.VaultResultsAnswer
  refine ⟨fun s u dt p puf r h hpend hwaits hopen hrestart hlen => ?_, fun s u dt p puf h hpend => ?_⟩
  · obtain ⟨hdone, hres, htag⟩ := vaultAnswered_shows (r := r) hlen puf
    obtain ⟨hvault, hnv⟩ := vaultAnswered_kept u p r puf
    refine ⟨vaultAnswered u p r puf, (vaultRun u p r puf).1, (vaultRun u p r puf).2.1,
      (exec_vaultResult dt ⟨p, puf⟩ s).trans ((run_arrives h _).trans
        (congrArg Host.Outcome.next (vaultComplete_answers puf hpend hwaits hopen hrestart))), hdone, hres, ?_,
      fun hctr hop => ?_, fun hctr hop hkey => ?_, fun hop e he => ?_, fun hctr hop hmig => ?_⟩
    · rw [htag]
      cases hctr : r.ctr with
      | none => simp only [opResultTag, hctr, beBytes_zero]
      | some c => simp only [opResultTag, hctr, opResultBytes]
    · rw [hvault, hnv, vaultRun_badOp puf hctr hop]
      exact ⟨rfl, rfl, rfl, rfl⟩
    · rw [hvault, vaultRun_setPolicy puf hctr hop, opSetPolicy_unlocked u hkey]
      exact ⟨rfl, rfl⟩
    · rw [vaultRun_readLog puf hop, opReadLog_entry he]
      exact ⟨rfl, rfl⟩
    · rw [hnv, vaultRun_saveConfig puf hctr hop, opSaveConfig_saves hmig]
      exact ⟨rfl, ⟨savedCopy u, rfl, rfl, rfl, rfl, rfl⟩, fun hold c => savedNv_keepsNewer hold,
        fun hold a b ha hb hne => savedNv_keepsOld hold ha hb hne⟩
  · refine (exec_vaultResult dt ⟨p, puf⟩ s).trans ((run_arrives h _).trans (congrArg Host.Outcome.next ?_))
    unfold vaultComplete
    rw [hpend]

end Sys2Proof.Machine
end

section
/-!
SUPPORT. What an alarm's responses keep (R420 to R422): status bits that are set, events that are raised, the alarm log,
the non-volatile areas, closed sessions and abandoned operations.
-/

namespace Sys2Proof.Machine

/-! ### What stays through the responses -/

/-- A port whose status bits stay, and whose session and operation do not come back. -/
structure PortKept (x y : PortState) : Prop where
  alarm : ∀ n, x.alarm.bits.getLsbD n = true → y.alarm.bits.getLsbD n = true
  glb : ∀ n, x.glb.bits.getLsbD n = true → y.glb.bits.getLsbD n = true
  sess : x.sess = .closed → y.sess = .closed
  pend : x.pend = none → y.pend = none

theorem PortKept.of_eq {x y : PortState} (h : y = x) : PortKept x y := h ▸ ⟨fun _ h => h, fun _ h => h, id, id⟩

theorem PortKept.trans {x y z : PortState} (h : PortKept x y) (h' : PortKept y z) : PortKept x z :=
  ⟨fun n hn => h'.alarm n (h.alarm n hn), fun n hn => h'.glb n (h.glb n hn), fun hs => h'.sess (h.sess hs),
    fun hp => h'.pend (h.pend hp)⟩

theorem sqSet_keeps {n : Nat} {r : SqReg} (m : BitVec 24) (h : r.bits.getLsbD n = true) :
    (sqSet r m).bits.getLsbD n = true := by
  rw [sqSet_bits, BitVec.getLsbD_or, h, Bool.true_or]

/-- A state that keeps what an alarm has shown, logged and ended. -/
structure AlarmKept (s t : State) : Prop where
  h : PortKept s.h t.h
  m : PortKept s.m t.m
  cycle : CycleGrows s t
  log : t.alarm.log = s.alarm.log
  lockdown : s.alarm.lockdown = true → t.alarm.lockdown = true
  nv : t.nv = s.nv

theorem AlarmKept.trans {s t u : State} (h : AlarmKept s t) (h' : AlarmKept t u) : AlarmKept s u :=
  ⟨h.h.trans h'.h, h.m.trans h'.m, h.cycle.trans h'.cycle, h'.log.trans h.log, fun hl => h'.lockdown (h.lockdown hl),
    h'.nv.trans h.nv⟩

/-- A change that leaves the stores alone, as the alarm sees it. -/
theorem AlarmKept.of_stores {s t : State} (hh : PortKept s.h t.h) (hm : PortKept s.m t.m) (hc : CycleGrows s t)
    (hs : t.stores = s.stores) : AlarmKept s t := by
  have halarm : t.alarm = s.alarm := (congrArg State.alarm hs :)
  exact ⟨hh, hm, hc, congrArg AlarmState.log halarm, fun hl => halarm ▸ hl, (congrArg State.nv hs :)⟩

theorem AlarmKept.of_eq {s t : State} (hh : t.h = s.h) (hm : t.m = s.m) (hc : t.cycle = s.cycle)
    (halarm : t.alarm = s.alarm) (hnv : t.nv = s.nv) : AlarmKept s t :=
  ⟨.of_eq hh, .of_eq hm, .of_eq hc, by rw [halarm], fun hl => halarm ▸ hl, hnv⟩

theorem AlarmKept.refl (s : State) : AlarmKept s s := .of_eq rfl rfl rfl rfl rfl

theorem AlarmKept.foldl {α : Type} {f : State → α → State} (h : ∀ s a, AlarmKept s (f s a)) (l : List α) (s : State) :
    AlarmKept s (l.foldl f s) := by
  induction l generalizing s with
  | nil => exact .refl s
  | cons a l ih => exact (h s a).trans (ih _)

theorem raise_alarmKept (s : State) (src origin : Nat) (data : Word) : AlarmKept s (raise s src origin data) :=
  .of_stores (.of_eq (by simp)) (.of_eq (by simp)) (raise_cycleGrows _ _ _ _) (by simp)

theorem glb_alarmKept (s : State) (n : Nat) : AlarmKept s (glb s n) :=
  .of_stores ⟨fun _ h => h, fun _ h => sqSet_keeps _ h, id, id⟩ ⟨fun _ h => h, fun _ h => sqSet_keeps _ h, id, id⟩
    (.of_eq rfl) (by simp)

theorem setPort_alarmKept (s : State) (p : Port) {x : PortState} (h : PortKept (s.port p) x) :
    AlarmKept s (s.setPort p x) := by
  cases p with
  | h => exact ⟨h, .of_eq rfl, .of_eq rfl, rfl, id, rfl⟩
  | m => exact ⟨.of_eq rfl, h, .of_eq rfl, rfl, id, rfl⟩
  | u => exact .of_eq rfl rfl rfl rfl rfl

theorem setAlarm_alarmKept (s : State) (n : Nat) : AlarmKept s (setAlarm s n) := by
  have hset : AlarmKept s (s.onHM (fun x => { x with alarm := sqSet x.alarm (bit24 n) })) :=
    ⟨⟨fun _ h => sqSet_keeps _ h, fun _ h => h, id, id⟩, ⟨fun _ h => sqSet_keeps _ h, fun _ h => h, id, id⟩, .of_eq rfl, rfl, id,
      rfl⟩
  exact hset.trans (glb_alarmKept _ 23)

theorem onMode_alarmKept (s : State) (f : ModeState → ModeState) : AlarmKept s (s.onMode f) := .of_eq rfl rfl rfl rfl rfl

theorem onVault_alarmKept (s : State) (f : VaultMem → VaultMem) : AlarmKept s (s.onVault f) := .of_eq rfl rfl rfl rfl rfl

/-! ### Sessions and operations (R395, R421, R425) -/

theorem clearSession_portKept (x : PortState) : PortKept x (clearSession x) :=
  ⟨fun _ h => h, fun _ h => h, fun _ => rfl, fun _ => rfl⟩

theorem discardSession_alarmKept (s : State) (p : Port) : AlarmKept s (discardSession s p) := by
  rw [discardSession_rest]
  exact .of_eq rfl rfl rfl rfl rfl

theorem ruleChange_alarmKept (s : State) : AlarmKept s (ruleChange s) := by
  rw [ruleChange_rest]
  exact .of_eq rfl rfl rfl rfl rfl

theorem supervise_alarmKept (s : State) (p : Port) : AlarmKept s (supervise s p) := by
  obtain ⟨x, a, h, -⟩ := supervise_eq s p
  rw [h]
  exact setPort_alarmKept s p ⟨fun _ h => h, fun _ h => h, id, id⟩

theorem sessionTold_alarmKept (s : State) (p : Port) (d : Word) : AlarmKept s (sessionTold s p d) := by
  have hglb : AlarmKept (raise s 47 p.code d) (glbPort (raise s 47 p.code d) p 13) := by
    rw [glbPort, State.onPort_eq]
    exact setPort_alarmKept _ p ⟨fun _ h => h, fun _ h => sqSet_keeps _ h, id, id⟩
  exact (raise_alarmKept s _ _ _).trans (hglb.trans ((ruleChange_alarmKept _).trans (supervise_alarmKept _ p)))

theorem closeSession_alarmKept (s : State) (p : Port) : AlarmKept s (closeSession s p) := by
  cases hsess : (s.port p).sess with
  | closed => simpa [closeSession, hsess] using AlarmKept.refl s
  | challenged =>
    simp only [closeSession, hsess, State.onPort_eq]
    exact setPort_alarmKept s p (clearSession_portKept _)
  | opened =>
    rw [closeSession_opened hsess, State.onPort_eq]
    exact (discardSession_alarmKept s p).trans
      ((setPort_alarmKept _ p (clearSession_portKept _)).trans (sessionTold_alarmKept _ p 2))

theorem abandonVault_alarmKept (s : State) (p : Port) : AlarmKept s (abandonVault s p) := by
  rw [abandonVault, State.onPort_eq]
  exact setPort_alarmKept s p ⟨fun _ h => h, fun _ h => h, id, fun _ => rfl⟩

theorem closeBoth_alarmKept (s : State) : AlarmKept s (closeBoth s) :=
  (closeSession_alarmKept s .h).trans ((closeSession_alarmKept _ .m).trans
    ((abandonVault_alarmKept _ .h).trans (abandonVault_alarmKept _ .m)))

/-- Both ports without a session and without an operation. -/
def BothEnded (t : State) : Prop := t.h.sess = .closed ∧ t.m.sess = .closed ∧ t.h.pend = none ∧ t.m.pend = none

theorem BothEnded.after {s t : State} (h : BothEnded s) (hk : AlarmKept s t) : BothEnded t := by
  obtain ⟨hh, hm, hph, hpm⟩ := h
  exact ⟨hk.h.sess hh, hk.m.sess hm, hk.h.pend hph, hk.m.pend hpm⟩

theorem closeBoth_ended (s : State) : BothEnded (closeBoth s) := by
  have hh := (closeSession_alarmKept (closeSession s .h) .m).h.sess (closeSession_over s .h).sess
  have hm := (closeSession_over (closeSession s .h) .m).sess
  exact ⟨hh, hm, rfl, rfl⟩

theorem closeSession_mode (s : State) (p : Port) : (closeSession s p).mode = s.mode := by
  cases hsess : (s.port p).sess with
  | closed => simp [closeSession, hsess]
  | challenged => simp [closeSession, hsess]
  | opened =>
    obtain ⟨x, a, h⟩ := sessionTold_eq ((discardSession s p).onPort p clearSession) p 2
    rw [closeSession_opened hsess, h, discardSession_rest]
    simp [glbPort]

theorem closeBoth_mode (s : State) : (closeBoth s).mode = s.mode := by
  simp [closeBoth, abandonVault, closeSession_mode]

/-! ### The other steps (R421) -/

theorem refuseMode_alarmKept (s : State) : AlarmKept s (refuseMode s) := by
  unfold refuseMode
  split
  · exact .of_eq rfl rfl rfl rfl rfl
  · exact .refl s

theorem lockStreams_alarmKept (s : State) : AlarmKept s (lockStreams s) :=
  .foldl (fun s k => by
    have hset : AlarmKept s (s.setStream k { (s.stream k).dropWaiting with sstate := .lockdown }) :=
      .of_eq rfl rfl rfl rfl rfl
    dsimp only
    split
    · exact hset
    · exact hset.trans (glb_alarmKept _ 7)) _ s

theorem eraseStreamKeys_alarmKept (s : State) : AlarmKept s (eraseStreamKeys s) :=
  .foldl (fun s k => by
    extract_lets x st y s'
    have hset : AlarmKept s s' := .of_eq rfl rfl rfl rfl rfl
    split
    · exact hset
    · exact hset.trans (glb_alarmKept _ 7)) _ s

theorem setHState_alarmKept (s : State) (x : HState) : AlarmKept s (setHState s x) := by
  unfold setHState
  split
  · exact .refl s
  · have hset : AlarmKept s (s.onHoard fun h => { h with hstate := x }) := .of_eq rfl rfl rfl rfl rfl
    exact hset.trans ((raise_alarmKept _ _ _ _).trans (glb_alarmKept _ 10))

theorem stopExport_alarmKept (s : State) : AlarmKept s (stopExport s) := by
  unfold stopExport
  split
  · exact (setHState_alarmKept s _).trans (.of_eq rfl rfl rfl rfl rfl)
  · exact .refl s

theorem setUState_alarmKept (s : State) (x : UState) : AlarmKept s (setUState s x) := by
  unfold setUState
  split
  · exact .refl s
  · have hset : AlarmKept s (s.onUpd fun u => { u with ustate := x }) := .of_eq rfl rfl rfl rfl rfl
    exact hset.trans ((raise_alarmKept _ _ _ _).trans (glb_alarmKept _ 11))

theorem abandonActivation_alarmKept (s : State) : AlarmKept s (abandonActivation s) := by
  unfold abandonActivation
  split
  · exact (setUState_alarmKept s _).trans (.of_eq rfl rfl rfl rfl rfl)
  · exact .refl s

theorem setDev_alarmKept (s : State) {d : DevState} (hd : d ≠ .run) : AlarmKept s (setDev s d) := by
  unfold setDev
  split
  · exact .refl s
  · have hset : AlarmKept s (s.onMode fun m => { m with dev := d }) := .of_eq rfl rfl rfl rfl rfl
    dsimp only
    exact hset.trans ((raise_alarmKept _ _ _ _).trans (glb_alarmKept _ 5))

theorem leaveDev_alarmKept (s : State) {d : DevState} (hd : d ≠ .run) : AlarmKept s (leaveDev s d) := by
  have hlane (u : State) (n : Nat) (f : LaneState → LaneState) : AlarmKept u (u.onLane n f) := .of_eq rfl rfl rfl rfl rfl
  have hregion (u : State) (g : Nat) (f : RegionState → RegionState) : AlarmKept u (u.onRegion g f) :=
    .of_eq rfl rfl rfl rfl rfl
  have hcfg (c : CfgState) : AlarmKept s { s with cfg := c } := .of_eq rfl rfl rfl rfl rfl
  unfold leaveDev
  dsimp only
  refine .trans ?_ (setDev_alarmKept _ hd)
  split
  · refine .trans (hcfg _) (.trans (.foldl (fun u n => ?_) _ _) (.foldl (fun u g => hregion u g _) _ _))
    split
    · exact .refl u
    · exact hlane u n _
  · exact .refl s

theorem zeroSlot_alarmKept (s : State) (i : Nat) : AlarmKept s (zeroSlot s i) := .of_eq rfl rfl rfl rfl rfl

theorem abandonProv_alarmKept (s : State) : AlarmKept s (abandonProv s) := by
  unfold abandonProv
  extract_lets hit f
  have hport (x : PortState) : PortKept x (f x) := by
    simp only [f]
    split
    · exact ⟨fun _ h => h, fun _ h => h, id, fun _ => rfl⟩
    · exact .of_eq rfl
  split
  · exact ⟨hport s.h, hport s.m, .of_eq rfl, rfl, id, rfl⟩
  · exact .refl s

/-! ### LOCKDOWN (R421) -/

/-- LOCKDOWN before the device state changes. -/
def locking (s : State) : State :=
  abandonActivation (stopExport (lockStreams (refuseMode (closeBoth { s with alarm := { s.alarm with lockdown := true } }))))

theorem locking_alarmKept (s : State) : AlarmKept (closeBoth { s with alarm := { s.alarm with lockdown := true } }) (locking s) :=
  (refuseMode_alarmKept _).trans ((lockStreams_alarmKept _).trans
    ((stopExport_alarmKept _).trans (abandonActivation_alarmKept _)))

theorem refuseMode_dev (s : State) :
    (refuseMode s).mode.dev = s.mode.dev ∧ (refuseMode s).mode.entering = s.mode.entering := by
  unfold refuseMode
  split
  · simp
  · exact ⟨rfl, rfl⟩

theorem locking_dev (s : State) :
    (locking s).mode.dev = s.mode.dev ∧ (locking s).mode.entering = s.mode.entering := by
  have hmode (u : State) : (abandonActivation (stopExport (lockStreams u))).mode = u.mode := by
    have hlock : (lockStreams u).mode = u.mode := keep_foldl State.mode fun v k => by
      dsimp only
      split <;> simp
    rw [(abandonActivation_kept _).1, ← hlock]
    unfold stopExport
    split <;> simp
  rw [locking, hmode]
  obtain ⟨hdev, hentering⟩ := refuseMode_dev (closeBoth { s with alarm := { s.alarm with lockdown := true } })
  exact ⟨hdev.trans (by rw [closeBoth_mode]), hentering.trans (by rw [closeBoth_mode])⟩

theorem lockdownActions_eq (s : State) : lockdownActions s =
    if (locking s).mode.dev = .off ∨ (locking s).mode.entering then locking s
    else if (locking s).mode.dev = .sentinel then
      (locking s).onMode (fun m => { m with leaving := some ((locking s).grid.now, .lockdown) })
    else leaveDev (locking s) .lockdown := by
  unfold lockdownActions locking
  rfl

theorem lockdownActions_alarmKept (s : State) : AlarmKept (locking s) (lockdownActions s) := by
  rw [lockdownActions_eq]
  split
  · exact .refl _
  · split
    · exact onMode_alarmKept _ _
    · exact leaveDev_alarmKept _ (by decide)

/-- What LOCKDOWN keeps, and what it ends. -/
theorem lockdownActions_shows (s : State) : AlarmKept s (lockdownActions s) ∧
    (lockdownActions s).alarm.lockdown = true ∧ BothEnded (lockdownActions s) := by
  have hflag : AlarmKept s { s with alarm := { s.alarm with lockdown := true } } :=
    ⟨.of_eq rfl, .of_eq rfl, .of_eq rfl, rfl, fun _ => rfl, rfl⟩
  have hclose := closeBoth_alarmKept { s with alarm := { s.alarm with lockdown := true } }
  have hrest := (locking_alarmKept s).trans (lockdownActions_alarmKept s)
  exact ⟨hflag.trans (hclose.trans hrest), (hclose.trans hrest).lockdown rfl, (closeBoth_ended _).after hrest⟩

theorem lockdownActions_dev {s : State} (hoff : s.mode.dev ≠ .off) (hentering : s.mode.entering = false)
    (hsentinel : s.mode.dev ≠ .sentinel) : (lockdownActions s).mode.dev = .lockdown := by
  obtain ⟨hdev, hent⟩ := locking_dev s
  rw [lockdownActions_eq, if_neg (by simp [hdev, hent, hoff, hentering]), if_neg (by rwa [hdev]), leaveDev, setDev_mode]

/-! ### ERASE-1 (R421) -/

/-- Streams taken one by one: what each turn leaves of its own stream holds of all of them at the end. -/
theorem foldl_stream_all {P : StreamState → Prop} {f : State → Nat → State} (hown : ∀ s n, P ((f s n).stream n))
    (hother : ∀ s n k, k ≠ n → (f s n).stream k = s.stream k) (ns : List Nat) (s : State) {n : Nat}
    (h : n ∈ ns ∨ P (s.stream n)) : P ((ns.foldl f s).stream n) := by
  induction ns generalizing s with
  | nil => exact h.resolve_left List.not_mem_nil
  | cons m ns ih =>
    refine ih _ ?_
    by_cases hm : n = m
    · exact .inr (hm ▸ hown s m)
    · exact h.imp (fun hn => (List.mem_cons.1 hn).resolve_left hm) fun hP => by rwa [hother s m n hm]

theorem eraseStreamKeys_erases (s : State) {k : Nat} (hk : k < 32) :
    ((eraseStreamKeys s).stream k).key = none ∧ ((eraseStreamKeys s).stream k).pend = none := by
  refine foldl_stream_all (P := fun x => x.key = none ∧ x.pend = none) (fun s n => ?_) (fun s n k hk => ?_) _ s
    (.inl (List.mem_range.2 hk))
  · extract_lets x st y s'
    split <;> simp [s']
  · extract_lets x st y s'
    split <;> simp [s', State.setStream_stream_other _ _ hk]

theorem zeroSlot_slot (s : State) (i : Nat) : ((zeroSlot s i).slot i).typ = 0 ∧ ((zeroSlot s i).slot i).key = [] := by
  simp [zeroSlot, State.slot, Tbl.get_set_same]

theorem zeroSlot_slot_other (s : State) {i k : Nat} (hk : k ≠ i) : (zeroSlot s i).slot k = s.slot k := by
  simp [zeroSlot, State.slot, Tbl.get_set_other _ _ _ hk]

theorem stopExport_kept (s : State) :
    (∀ k, (stopExport s).slot k = s.slot k) ∧ ∀ k, (stopExport s).stream k = s.stream k := by
  unfold stopExport
  split <;> simp

/-- The slots that ERASE-1 zeroises, zeroised. -/
def erasing (s : State) : State := zeroSlot (zeroSlot (zeroSlot (eraseStreamKeys (closeBoth s)) 8) 9) 10

theorem erase1Actions_shows (s : State) : AlarmKept s (erase1Actions s) ∧ BothEnded (erase1Actions s) := by
  have hrest : AlarmKept (closeBoth s) (erase1Actions s) :=
    (eraseStreamKeys_alarmKept _).trans ((zeroSlot_alarmKept _ 8).trans ((zeroSlot_alarmKept _ 9).trans
      ((zeroSlot_alarmKept _ 10).trans ((stopExport_alarmKept (erasing s)).trans (setAlarm_alarmKept _ 21)))))
  exact ⟨(closeBoth_alarmKept s).trans hrest, (closeBoth_ended s).after hrest⟩

theorem erase1Actions_slot (s : State) {k : Nat} (hk : k = 8 ∨ k = 9 ∨ k = 10) :
    ((erase1Actions s).slot k).typ = 0 ∧ ((erase1Actions s).slot k).key = [] := by
  have hslot : (erase1Actions s).slot k = (erasing s).slot k := by
    simp [erase1Actions, erasing, (stopExport_kept _).1]
  rw [hslot, erasing]
  obtain rfl | rfl | rfl := hk
  · rw [zeroSlot_slot_other _ (by decide), zeroSlot_slot_other _ (by decide)]
    exact zeroSlot_slot _ 8
  · rw [zeroSlot_slot_other _ (by decide)]
    exact zeroSlot_slot _ 9
  · exact zeroSlot_slot _ 10

theorem erase1Actions_stream (s : State) {k : Nat} (hk : k < 32) :
    ((erase1Actions s).stream k).key = none ∧ ((erase1Actions s).stream k).pend = none := by
  have hstream : (erase1Actions s).stream k = (eraseStreamKeys (closeBoth s)).stream k := by
    simp [erase1Actions, (stopExport_kept _).2, zeroSlot]
  rw [hstream]
  exact eraseStreamKeys_erases _ hk

/-! ### ERASE-2 (R421) -/

/-- The erased vault before the device resets. -/
def erased (s : State) : State :=
  (setAlarm (eraseStreamKeys (lockdownActions s)) 22).onVault (fun v => { v with
    slots := [], nonces := [], policy := 0, helper := 0, state := .unprovisioned, idPub := [] })

theorem erased_shows (s : State) : AlarmKept s (erased s) ∧ BothEnded (erased s) := by
  obtain ⟨hkept, -, hended⟩ := lockdownActions_shows s
  have hrest : AlarmKept (lockdownActions s) (erased s) :=
    (eraseStreamKeys_alarmKept _).trans ((setAlarm_alarmKept _ 22).trans (onVault_alarmKept _ _))
  exact ⟨hkept.trans hrest, hended.after hrest⟩

theorem saveRunning_of_pend {s : State} {p : Port} (h : (s.port p).pend = none) : saveRunning s p = false := by
  unfold saveRunning
  rw [h]

theorem deviceReset_erased {s : State} (h : BothEnded s) (lead : Bool) :
    (deviceReset s 2 lead).nv = s.nv := by
  obtain ⟨-, -, hh, hm⟩ := h
  have hrun : (saveRunning s .h || saveRunning s .m) = false := by
    rw [saveRunning_of_pend (p := .h) hh, saveRunning_of_pend (p := .m) hm]
    rfl
  exact if_neg (by simp [hrun])

/-- The state after ERASE-2's reset of a device. -/
def resetOf (s : State) : State :=
  (deviceReset s 2 s.grid.lead).onMode (fun m => { m with leadOwed := true })

theorem resetOf_shows (s : State) : (resetOf s).mode.dev = .boot ∧ (resetOf s).mode.cause = 2 ∧
    (resetOf s).vault.slots = s.vault.slots ∧ (resetOf s).vault.state = s.vault.state ∧ (resetOf s).lock = 0 ∧
    (resetOf s).nv = (deviceReset s 2 s.grid.lead).nv := ⟨rfl, rfl, rfl, rfl, rfl, rfl⟩

theorem erase2Actions_eq (s : State) : erase2Actions s = resetOf (erased s) := by
  simp only [erase2Actions, erased, resetOf]

theorem erased_vault (s : State) : (erased s).vault.slots = [] ∧ (erased s).vault.state = .unprovisioned := by
  simp [erased]

theorem erase2Actions_shows (s : State) :
    (erase2Actions s).mode.dev = .boot ∧ (erase2Actions s).mode.cause = 2 ∧ (erase2Actions s).vault.slots = [] ∧
      (erase2Actions s).vault.state = .unprovisioned ∧ (erase2Actions s).lock = 0 ∧ (erase2Actions s).nv = s.nv := by
  obtain ⟨hkept, hended⟩ := erased_shows s
  obtain ⟨hslots, hstate⟩ := erased_vault s
  obtain ⟨hdev, hcause, hslots', hstate', hlock, hnv⟩ := resetOf_shows (erased s)
  rw [erase2Actions_eq]
  exact ⟨hdev, hcause, hslots'.trans hslots, hstate'.trans hstate, hlock,
    hnv.trans ((deviceReset_erased hended _).trans hkept.nv)⟩

end Sys2Proof.Machine
end

section
/-!
SUPPORT. An alarm source that fires (R419 to R424): its NOTICE actions, its log entry, and its response.
-/

namespace Sys2Proof.Machine

theorem exec_testAccess (dt : Nat) (how : TestTry) (s : State) :
    exec (.testAccess dt how) s = execTestAccess dt how s := rfl

/-- Every alarm command fires its source when it arrives (R419). -/
theorem alarmRows_fire {s u : State} {dt : Nat} (h : Arrives s dt u) {x : Nat × Instr} (hx : x ∈ alarmRows dt) :
    exec x.2 s = .next (fireAlarm u x.1) ∧ x.1 < 24 := by
  have hsensor (n : Nat) : sensor dt n s = .next (fireAlarm u n) := run_arrives h _
  simp only [alarmRows, List.mem_cons, List.not_mem_nil, or_false] at hx
  obtain rfl | rfl | rfl | rfl | rfl | rfl | rfl | rfl | rfl := hx <;> exact ⟨hsensor _, by simp⟩

/-! ### The log entry (R422, R424) -/

/-- The entry of a source that fires, where no source of a higher code stands before it. -/
def alarmEntry (s : State) (n resp : Nat) : LogEntry :=
  { number := s.alarm.count, tick := s.grid.tick, source := BitVec.ofNat 8 n
    stateResp := BitVec.ofNat 8 (s.mode.dev.code * 16 + resp), at_ := s.grid.now }

/-- A source that was never logged gets the entry at the head of the log, where no source of a higher code was logged
within the last microsecond (R422, R424). -/
theorem logAlarm_first {s : State} {n : Nat} (resp : Nat) (hlast : Tbl.get (fun _ => none) s.alarm.lastAt n = none)
    (hhead : ∀ y, s.alarm.log.head? = some y → s.grid.now ≤ y.at_ + 400 → y.source.toNat ≤ n) :
    (logAlarm s n resp).alarm.log = (alarmEntry s n resp :: s.alarm.log).take 256 := by
  have habove : s.alarm.log.takeWhile
      (fun x => decide ((s.grid.now : Int) ≤ x.at_ + 400 ∧ n < x.source.toNat)) = [] := by
    cases hlog : s.alarm.log with
    | nil => rfl
    | cons y ys =>
      refine List.takeWhile_cons_of_neg ?_
      have hy := hhead y (by rw [hlog]; rfl)
      simp only [decide_eq_true_eq, not_and]
      intro hnow
      have := hy hnow
      omega
  unfold logAlarm
  rw [hlast]
  simp only [logAlarm.add, habove]
  simp [alarmEntry]

/-- What logging an entry leaves alone. -/
theorem logAlarm_kept (s : State) (n resp : Nat) :
    (logAlarm s n resp).cfg = s.cfg ∧ (logAlarm s n resp).grid = s.grid ∧ (logAlarm s n resp).mode = s.mode ∧
      (logAlarm s n resp).nv = s.nv := by
  unfold logAlarm
  dsimp only
  (repeat' split) <;> simp [logAlarm.add]

/-! ### NOTICE (R420, R421) -/

/-- What an alarm shows whatever its response. -/
structure AlarmShown (n resp : Nat) (u t : State) : Prop where
  h : t.h.alarm.bits.getLsbD n = true
  m : t.m.alarm.bits.getLsbD n = true
  glb : t.glbHas 23 = true
  told : Raised u t 40 n (BitVec.ofNat 32 resp)

theorem AlarmShown.after {n resp : Nat} {u s t : State} (h : AlarmShown n resp u s) (hk : AlarmKept s t) :
    AlarmShown n resp u t := by
  have hglb := h.glb
  rw [State.glbHas, Bool.and_eq_true] at hglb
  refine ⟨hk.h.alarm n h.h, hk.m.alarm n h.m, ?_, h.told.of_mem hk.cycle⟩
  rw [State.glbHas, hk.h.glb 23 hglb.1, hk.m.glb 23 hglb.2]
  rfl

/-- The bits and the event of an alarm, without its flag on the grid link. -/
def alarmTold (s : State) (n resp : Nat) : State :=
  raise (setAlarm (logAlarm s n resp) n) 40 n (BitVec.ofNat 32 resp)

theorem setAlarm_shows {n : Nat} (s : State) (h : n < 24) :
    (setAlarm s n).h.alarm.bits.getLsbD n = true ∧ (setAlarm s n).m.alarm.bits.getLsbD n = true ∧
      (setAlarm s n).glbHas 23 = true :=
  ⟨by simp [setAlarm, bit24_getLsbD h], by simp [setAlarm, bit24_getLsbD h], glb_glbHas (by decide)⟩

theorem alarmTold_shown (s : State) {n : Nat} (resp : Nat) (hn : n < 24) : AlarmShown n resp s (alarmTold s n resp) := by
  obtain ⟨hcfg, hgrid, -⟩ := logAlarm_kept s n resp
  obtain ⟨hh, hm, hglb⟩ := setAlarm_shows (logAlarm s n resp) hn
  exact ⟨by simpa [alarmTold] using hh, by simpa [alarmTold] using hm,
    glbHas_of_ports (by simp [alarmTold]) (by simp [alarmTold]) hglb,
    raised_of_cycle (s := setAlarm (logAlarm s n resp) n) rfl (by simp [hcfg]) (by simp [hgrid])⟩

/-- The state that an alarm's NOTICE actions leave, with a pending PROV_COMMIT abandoned (R420, R425). -/
def noticed (s : State) (n : Nat) : State := abandonProv (alarmNotice s n (alarmResponse s n))

theorem fireAlarm_eq (s : State) (n : Nat) : fireAlarm s n = alarmAction (noticed s n) (alarmResponse s n) := rfl

theorem fireAlarm_of_lockdown {s : State} {n : Nat} (h : alarmResponse s n = 1) :
    fireAlarm s n = lockdownActions (noticed s n) := by rw [fireAlarm_eq, h, alarmAction]
theorem fireAlarm_of_erase1 {s : State} {n : Nat} (h : alarmResponse s n = 2) :
    fireAlarm s n = erase1Actions (noticed s n) := by rw [fireAlarm_eq, h, alarmAction]
theorem fireAlarm_of_erase2 {s : State} {n : Nat} (h : alarmResponse s n = 3) :
    fireAlarm s n = erase2Actions (noticed s n) := by rw [fireAlarm_eq, h, alarmAction]

theorem alarmNotice_alarmKept (s : State) (n resp : Nat) : AlarmKept (alarmTold s n resp) (alarmNotice s n resp) := by
  have hgrid (t : State) (f : GridState → GridState) : AlarmKept t (t.onGrid f) := .of_eq rfl rfl rfl rfl rfl
  unfold alarmNotice
  dsimp only
  rw [← alarmTold]
  split
  · exact .refl _
  · exact hgrid _ _

theorem noticed_alarmKept (s : State) (n : Nat) : AlarmKept (alarmTold s n (alarmResponse s n)) (noticed s n) :=
  (alarmNotice_alarmKept s n _).trans (abandonProv_alarmKept _)

theorem alarmTold_kept (s : State) (n resp : Nat) : (alarmTold s n resp).alarm = (logAlarm s n resp).alarm ∧
    (alarmTold s n resp).mode = s.mode ∧ (alarmTold s n resp).nv = s.nv := by
  obtain ⟨-, -, hmode, hnv⟩ := logAlarm_kept s n resp
  simp [alarmTold, hmode, hnv]

theorem noticed_mode (s : State) (n : Nat) : (noticed s n).mode = s.mode := by
  have hprov (t : State) : (abandonProv t).mode = t.mode := by
    unfold abandonProv
    dsimp only
    split <;> rfl
  rw [noticed, hprov, ← (alarmTold_kept s n (alarmResponse s n)).2.1]
  unfold alarmNotice
  dsimp only
  rw [← alarmTold]
  split <;> simp

/-! ### The responses (R421) -/

/-- A response other than ERASE-2 keeps what NOTICE has shown. -/
theorem alarmAction_alarmKept {resp : Nat} (h : resp ≠ 3) (s : State) : AlarmKept s (alarmAction s resp) := by
  unfold alarmAction
  split
  next => exact (lockdownActions_shows s).1
  next => exact (erase1Actions_shows s).1
  next => exact absurd rfl h
  next => exact .refl s

/-- What a source that fires with a response other than ERASE-2 shows and logs. -/
theorem fireAlarm_shown {s : State} {n : Nat} (hn : n < 24) (h : alarmResponse s n ≠ 3) :
    AlarmShown n (alarmResponse s n) s (fireAlarm s n) ∧
      (fireAlarm s n).alarm.log = (logAlarm s n (alarmResponse s n)).alarm.log := by
  have hkept := (noticed_alarmKept s n).trans (alarmAction_alarmKept h _)
  rw [fireAlarm_eq, hkept.log, (alarmTold_kept s n (alarmResponse s n)).1]
  exact ⟨(alarmTold_shown s _ hn).after hkept, rfl⟩

section

variable {s : State} {n : Nat}

/-- The LOCKDOWN response of a source that fires. -/
theorem fireAlarm_lockdown (h : alarmResponse s n = 1) : (fireAlarm s n).alarm.lockdown = true ∧
    (fireAlarm s n).h.sess = .closed ∧ (fireAlarm s n).m.sess = .closed ∧
      (s.mode.dev ≠ .off → s.mode.entering = false → s.mode.dev ≠ .sentinel → (fireAlarm s n).mode.dev = .lockdown) := by
  obtain ⟨-, hlock, hh, hm, -⟩ := lockdownActions_shows (noticed s n)
  rw [fireAlarm_of_lockdown h]
  refine ⟨hlock, hh, hm, fun hoff hentering hsentinel => ?_⟩
  have hmode := noticed_mode s n
  exact lockdownActions_dev (by rwa [hmode]) (by rwa [hmode]) (by rwa [hmode])

/-- The ERASE-1 response of a source that fires. -/
theorem fireAlarm_erase1 (h : alarmResponse s n = 2) : (fireAlarm s n).h.sess = .closed ∧
    (fireAlarm s n).m.sess = .closed ∧
    (∀ k, k = 8 ∨ k = 9 ∨ k = 10 → ((fireAlarm s n).slot k).typ = 0 ∧ ((fireAlarm s n).slot k).key = []) ∧
    ∀ k, k < 32 → ((fireAlarm s n).stream k).key = none ∧ ((fireAlarm s n).stream k).pend = none := by
  obtain ⟨-, hh, hm, -⟩ := erase1Actions_shows (noticed s n)
  rw [fireAlarm_of_erase1 h]
  exact ⟨hh, hm, fun k => erase1Actions_slot _, fun k => erase1Actions_stream _⟩

/-- The ERASE-2 response of a source that fires. -/
theorem fireAlarm_erase2 (h : alarmResponse s n = 3) : (fireAlarm s n).mode.dev = .boot ∧
    (fireAlarm s n).mode.cause = 2 ∧ (fireAlarm s n).vault.slots = [] ∧
    (fireAlarm s n).vault.state = .unprovisioned ∧ (fireAlarm s n).lock = 0 ∧ (fireAlarm s n).nv = s.nv := by
  obtain ⟨hdev, hcause, hslots, hstate, hlock, hnv⟩ := erase2Actions_shows (noticed s n)
  rw [fireAlarm_of_erase2 h]
  exact ⟨hdev, hcause, hslots, hstate, hlock,
    hnv.trans ((noticed_alarmKept s n).nv.trans (alarmTold_kept s n (alarmResponse s n)).2.2)⟩

end

/-- Settles O36, by NOTICE, each response, and the test registers. -/
theorem alarmsFire : Obligations.AlarmsFire := by
  unfold Obligations.AlarmsFire
  refine ⟨fun s u dt x h hx => ?_, fun s u dt h => ⟨fun hdev => ?_, fun hdev => ?_⟩⟩
  · obtain ⟨hexec, hn⟩ := alarmRows_fire h hx
    refine ⟨_, hexec, fun hresp => ?_, fun hresp hlast hhead => ?_, fireAlarm_lockdown, fireAlarm_erase1, fireAlarm_erase2⟩
    · obtain ⟨hshown, -⟩ := fireAlarm_shown hn hresp
      exact ⟨hshown.h, hshown.m, hshown.glb, hshown.told⟩
    · obtain ⟨-, hlog⟩ := fireAlarm_shown hn hresp
      exact ⟨alarmEntry u x.1 (alarmResponse u x.1), hlog.trans (logAlarm_first _ hlast hhead), rfl, rfl, rfl⟩
  · refine (exec_testAccess dt .register s).trans ((run_arrives h _).trans ?_)
    dsimp only
    rw [if_pos hdev]
  · rw [exec_testAccess, exec_testAccess, execTestAccess, execTestAccess, run_arrives h, run_arrives h]
    dsimp only
    rw [if_neg hdev]

end Sys2Proof.Machine
end

section
/-!
SUPPORT. Device states that are entered (R438, R439, R444, R445): the change at a tick, the end of the entry to OFF and to
SENTINEL, and the exit from SENTINEL.
-/

namespace Sys2Proof.Machine

theorem exec_modeChange (s : State) : exec .modeChange s = execModeChange s := rfl
theorem exec_offEntry (dt : Nat) (s : State) : exec (.offEntry dt) s = execOffEntry dt s := rfl
theorem exec_sentinelEntry (dt : Nat) (s : State) : exec (.sentinelEntry dt) s = execSentinelEntry dt s := rfl
theorem exec_sentinelExit (dt : Nat) (s : State) : exec (.sentinelExit dt) s = execSentinelExit dt s := rfl

/-! ### The change of state (R374, R438) -/

/-- A change of DEV_STATE is reported with the state before it (R374). -/
theorem setDev_raised {u s : State} {d : DevState} (hgrid : s.grid = u.grid) (hne : s.mode.dev ≠ d) :
    Raised u (setDev s d) 44 d.code (BitVec.ofNat 32 s.mode.dev.code) := by
  unfold setDev
  rw [if_neg hne]
  dsimp only
  refine (raise_raised_always (u := u) ?_ rfl _).glb 5
  split
  · rw [runLanes_rest]
    exact hgrid
  · exact hgrid

/-- A state left before the next one is set: TEST and REPLAY lose their calibration control (R212, R438). -/
def leftDev (s : State) (d : DevState) : State :=
  if (s.mode.dev = .test ∨ s.mode.dev = .replay) ∧ s.mode.dev ≠ d then
    let drop := fun (t : Tbl Word) => t.filter (fun e => !isCalCtl e.1)
    let s := { s with cfg := { s.cfg with live := drop s.cfg.live, stgH := drop s.cfg.stgH, stgM := drop s.cfg.stgM } }
    let s := (List.range 512).foldl (fun s n =>
      if (s.lane n).cal.steps = 0 then s else s.onLane n (fun l => { l with cal := { l.cal with steps := 0 } })) s
    (List.range 8).foldl (fun s g => s.onRegion g (fun r => { r with steps := 0 })) s
  else s

theorem leaveDev_eq (s : State) (d : DevState) : leaveDev s d = setDev (leftDev s d) d := rfl

theorem leftDev_keep {γ : Type} (v : State → γ) (hcfg : ∀ s c, v { s with cfg := c } = v s)
    (hlane : ∀ (s : State) n, v (s.onLane n fun l => { l with cal := { l.cal with steps := 0 } }) = v s)
    (hregion : ∀ (s : State) g, v (s.onRegion g fun r => { r with steps := 0 }) = v s) (s : State) (d : DevState) :
    v (leftDev s d) = v s := by
  unfold leftDev
  split
  · dsimp only
    rw [keep_foldl v fun u g => hregion u g, keep_foldl v fun u n => by
      split
      · rfl
      · exact hlane u n, hcfg]
  · rfl

theorem leftDev_mode (s : State) (d : DevState) : (leftDev s d).mode = s.mode :=
  leftDev_keep State.mode (fun _ _ => rfl) (by simp) (by simp) s d

theorem leftDev_grid (s : State) (d : DevState) : (leftDev s d).grid = s.grid :=
  leftDev_keep State.grid (fun _ _ => rfl) (by simp) (by simp) s d

theorem leftDev_lstate (s : State) (d : DevState) (k : Nat) : ((leftDev s d).lane k).lstate = (s.lane k).lstate :=
  leftDev_keep (fun u => (u.lane k).lstate) (fun _ _ => rfl) (fun u n => by
    by_cases hk : k = n
    · subst hk
      simp
    · simp [State.setLane_lane_other _ _ hk]) (by simp) s d

theorem leaveDev_mode (s : State) (d : DevState) : (leaveDev s d).mode = { s.mode with dev := d } := by
  rw [leaveDev_eq, setDev_mode, leftDev_mode]

theorem leaveDev_lstate (s : State) {d : DevState} (hd : d ≠ .run) (k : Nat) :
    ((leaveDev s d).lane k).lstate = (s.lane k).lstate := by
  have hlanes := setDev_lanes (leftDev s d) d hd
  rw [leaveDev_eq, State.lane, hlanes, ← State.lane, leftDev_lstate]

theorem leaveDev_raised (s : State) {d : DevState} (hne : d ≠ s.mode.dev) :
    Raised s (leaveDev s d) 44 d.code (BitVec.ofNat 32 s.mode.dev.code) := by
  rw [leaveDev_eq]
  have h := setDev_raised (leftDev_grid s d) (d := d) (by rw [leftDev_mode]; exact hne.symm)
  rwa [leftDev_mode] at h

/-- A state that a request has entered, before replayed lanes return and the hoard gives way. -/
def requestDone (s : State) (d : DevState) : State :=
  (leaveDev s d).onMode (fun m => { m with result := .done, req := none })

theorem reconnect_kept (s : State) : (reconnect s).mode = s.mode ∧ (reconnect s).cycle = s.cycle := by
  unfold reconnect
  dsimp only
  constructor
  · rw [keep_foldl State.mode fun u g => by split <;> simp, keep_foldl State.mode fun u n => by simp]
  · rw [keep_foldl State.cycle fun u g => by split <;> simp, keep_foldl State.cycle fun u n => by simp]

theorem hoardToReplay_mode (s : State) : (hoardToReplay s).mode = s.mode := by simp [hoardToReplay]

theorem hoardToReplay_cycleGrows (s : State) : CycleGrows s (hoardToReplay s) := by
  unfold hoardToReplay
  refine CycleGrows.trans ?_ (setHState_alarmKept _ _).cycle
  exact .of_eq rfl

/-- What a change of state leaves of its mode and its events. -/
theorem enterState_kept (s : State) (d : DevState) : (enterState s d).mode = (requestDone s d).mode ∧
    CycleGrows (requestDone s d) (enterState s d) := by
  unfold enterState
  extract_lets from_ a b
  obtain ⟨hmode, hcycle⟩ := reconnect_kept a
  have hb : b.mode = a.mode ∧ CycleGrows a b := by
    simp only [b]
    split
    · exact ⟨hmode, .of_eq hcycle⟩
    · exact ⟨rfl, .of_eq rfl⟩
  split
  · exact ⟨(hoardToReplay_mode b).trans hb.1, hb.2.trans (hoardToReplay_cycleGrows b)⟩
  · exact hb

theorem enterState_replay {s : State} {d : DevState} (h : d = .replay) : (enterState s d).replay = {} := by
  unfold enterState
  dsimp only
  rw [if_pos h]

/-- A request that is due takes effect at its tick (R438). -/
theorem modeChange_enters {s : State} {d : DevState} {due : Nat} (hon : s.grid.on = true)
    (hnow : s.grid.now = s.grid.tickAt) (hreq : s.mode.req = some (d, due)) (hdue : due ≤ s.grid.now)
    (htick : tickState s d = true) (hperm : permitted s.mode.dev d = true) :
    exec .modeChange s = .next (enterState s d) := by
  refine (exec_modeChange s).trans (congrArg Host.Outcome.next ?_)
  unfold modeChange
  rw [hreq]
  exact if_pos ⟨hon, hnow, hdue, htick, hperm⟩

theorem enterState_enters (s : State) (d : DevState) : (enterState s d).mode.dev = d ∧
    (enterState s d).mode.result = .done ∧ (enterState s d).mode.req = none ∧
      (d ≠ s.mode.dev → Raised s (enterState s d) 44 d.code (BitVec.ofNat 32 s.mode.dev.code)) := by
  obtain ⟨hmode, hcycle⟩ := enterState_kept s d
  have hdone : (requestDone s d).mode = { s.mode with dev := d, result := .done, req := none } := by
    simp [requestDone, leaveDev_mode]
  rw [hmode, hdone]
  exact ⟨rfl, rfl, rfl, fun hne => (leaveDev_raised s hne).of_mem fun e he => hcycle e (by simpa [requestDone] using he)⟩

/-! ### Lanes that go down (R162, R428) -/

theorem linSleep_lane_other (s : State) {n k : Nat} (hk : k ≠ n) : (linSleep s n).lane k = s.lane k := by
  unfold linSleep linStop
  dsimp only
  split <;> simp [State.setLane_lane_other _ _ hk]

/-- What one lane's turn in the shutdown does. -/
def laneDown (s : State) (n : Nat) : State :=
  if (s.lane n).lstate = .unpowered ∧ (s.lane n).modeAt = none ∧ (s.lane n).coldWait = false then s
  else unpower (linSleep s n) n

theorem lanesDown_eq (s : State) (ns : List Nat) : lanesDown s ns = ns.foldl laneDown s := rfl

theorem laneDown_lstate (s : State) (n : Nat) : ((laneDown s n).lane n).lstate = .unpowered := by
  unfold laneDown
  split
  next h => exact h.1
  next => exact unpower_lstate _ _

theorem laneDown_lane_other (s : State) {n k : Nat} (hk : k ≠ n) : (laneDown s n).lane k = s.lane k := by
  unfold laneDown
  split
  · rfl
  · rw [unpower_lane_other _ hk, linSleep_lane_other _ hk]

theorem lanesDown_unpowered (s : State) {ns : List Nat} {n : Nat} (h : n ∈ ns) :
    ((lanesDown s ns).lane n).lstate = .unpowered :=
  foldl_lane_all (P := fun l => l.lstate = .unpowered) laneDown_lstate (fun s _ _ hk => laneDown_lane_other s hk) ns s
    (.inl h)

/-- An uplink that has powered down. -/
theorem parkUplink_kept (s : State) (u : Ul) : (parkUplink s u).mode = s.mode ∧ (parkUplink s u).grid = s.grid ∧
    (parkUplink s u).alarm = s.alarm ∧ ∀ k, (parkUplink s u).lane k = s.lane k := by
  simp [parkUplink]

theorem parked_up (s : State) : (parkUplink (parkUplink s .ul0) .ul1).ul0.up = false ∧
    (parkUplink (parkUplink s .ul0) .ul1).ul1.up = false := ⟨rfl, rfl⟩

theorem refreshStreams_kept (s : State) : (refreshStreams s).mode = s.mode ∧ (refreshStreams s).lanes = s.lanes := by
  have hdrop (u : State) (k : Nat) : (dropStopped u k).mode = u.mode ∧ (dropStopped u k).lanes = u.lanes := by
    unfold dropStopped
    split
    · exact ⟨rfl, rfl⟩
    split
    · exact ⟨rfl, rfl⟩
    dsimp only
    split <;> simp
  have hone (u : State) (k : Nat) : (refreshStream u k).mode = u.mode ∧ (refreshStream u k).lanes = u.lanes := by
    unfold refreshStream
    dsimp only
    (repeat' split) <;> simp [hdrop]
  exact ⟨keep_foldl State.mode fun u k => (hone u k).1, keep_foldl State.lanes fun u k => (hone u k).2⟩

theorem refreshStreams_up (s : State) :
    (refreshStreams s).ul0.up = s.ul0.up ∧ (refreshStreams s).ul1.up = s.ul1.up := by
  obtain ⟨-, hlink⟩ := of_links (refreshStreams_links s)
  exact ⟨congrArg UplinkState.up (hlink .ul0), congrArg UplinkState.up (hlink .ul1)⟩

/-! ### OFF (R439) -/

/-- Every lane down and every stage dropped. -/
def lanesOff (s : State) : State := (List.range 8).foldl dropStage (lanesDown (calSaveEntry s) (List.range 512))

/-- The device on its way to OFF with everything down. -/
def shutDown (s : State) : State := refreshStreams (parkUplink (parkUplink (lanesOff s) .ul0) .ul1)

theorem shutDown_unpowered (s : State) {n : Nat} (hn : n < 512) : ((shutDown s).lane n).lstate = .unpowered := by
  rw [shutDown, State.lane, (refreshStreams_kept _).2, ← State.lane, (parkUplink_kept _ _).2.2.2,
    (parkUplink_kept _ _).2.2.2, lanesOff, keep_foldl (fun u : State => u.lane n) fun u g => (dropStage_kept u g).2.2.2.2.2 n]
  exact lanesDown_unpowered _ (List.mem_range.2 hn)

theorem shutDown_up (s : State) : (shutDown s).ul0.up = false ∧ (shutDown s).ul1.up = false := by
  obtain ⟨h0, h1⟩ := refreshStreams_up (parkUplink (parkUplink (lanesOff s) .ul0) .ul1)
  obtain ⟨hp0, hp1⟩ := parked_up (lanesOff s)
  rw [shutDown]
  exact ⟨h0.trans hp0, h1.trans hp1⟩

/-- OFF entered with its request done. -/
def offDone (s : State) : State :=
  (leaveDev s .off).onMode (fun m => { m with
    result := .done, req := none, entering := false, wakeOut := false, leaving := none, resume := none })

theorem offDone_mode (s : State) : (offDone s).mode.dev = .off ∧ (offDone s).mode.result = .done ∧
    (offDone s).mode.req = none ∧ (offDone s).mode.entering = false ∧ (offDone s).mode.wakeOut = false := by
  simp [offDone, leaveDev_mode]

theorem offDone_uplinks (s : State) : (offDone s).ul0 = s.ul0 ∧ (offDone s).ul1 = s.ul1 := by
  have hstores := leaveDev_stores s .off
  exact ⟨(congrArg State.ul0 hstores :), (congrArg State.ul1 hstores :)⟩

theorem offDone_lstate (s : State) (k : Nat) : ((offDone s).lane k).lstate = (s.lane k).lstate := by
  rw [← leaveDev_lstate s (d := .off) (by decide)]
  simp [offDone]

theorem enterOff_eq (s : State) : enterOff s =
    if (shutDown s).mode.dev = .replay then
      (List.range 512).foldl (fun s n =>
        if (s.lane n).replayed then s.onLane n (fun l => { l with replayed := false }) else s) (offDone (shutDown s))
    else offDone (shutDown s) := by
  unfold enterOff offDone shutDown lanesOff
  rfl

theorem enterOff_keep {γ : Type} (v : State → γ)
    (hlane : ∀ (s : State) n, v (s.onLane n fun l => { l with replayed := false }) = v s) (s : State) :
    v (enterOff s) = v (offDone (shutDown s)) := by
  rw [enterOff_eq]
  split
  · exact keep_foldl v fun u n => by
      split
      · exact hlane u n
      · rfl
  · rfl

theorem enterOff_mode (s : State) : (enterOff s).mode = (offDone (shutDown s)).mode := enterOff_keep State.mode (by simp) s

theorem enterOff_uplinks (s : State) : (enterOff s).ul0.up = false ∧ (enterOff s).ul1.up = false := by
  obtain ⟨h0, h1⟩ := offDone_uplinks (shutDown s)
  rw [enterOff_keep State.ul0 (by simp), enterOff_keep State.ul1 (by simp), h0, h1]
  exact shutDown_up s

theorem enterOff_unpowered (s : State) {n : Nat} (hn : n < 512) : ((enterOff s).lane n).lstate = .unpowered := by
  rw [enterOff_keep (fun u => (u.lane n).lstate) (fun u k => by
    by_cases hk : n = k
    · subst hk
      simp
    · simp [State.setLane_lane_other _ _ hk]), offDone_lstate]
  exact shutDown_unpowered s hn

theorem offEntry_enters {s u : State} {dt : Nat} (h : Arrives s dt u) (hdone : entryDone u .off = true) :
    exec (.offEntry dt) s = .next (enterOff u) := by
  refine (exec_offEntry dt s).trans ((run_arrives h _).trans ?_)
  rw [if_pos hdone]

/-! ### SENTINEL (R444) -/

theorem alarm_of_stores {s t : State} (h : t.stores = s.stores) : t.alarm = s.alarm := (congrArg State.alarm h :)

theorem polls_of_unlaned {s t : State} (h : t.unlaned = s.unlaned) : t.mode.polls = s.mode.polls :=
  (congrArg (fun x : State => x.mode.polls) h :)

/-- A polled lane on the way into SENTINEL: its pass switches open, or its LIN schedule stops. -/
def pollReady (s : State) (x : Nat × Nat) : State :=
  match (s.lane x.1).mode with
  | .aknun =>
    match (pollSources s x.1).getLast? with
    | some p => if p < (s.lane x.1).enumN then openedAt (openPass s x.1 p []) x.1 p else s
    | none => s
  | .lin => linStop s x.1
  | _ => s

theorem openPass_lane (s : State) (n p : Nat) (missed : List (Fin 16 × Bool)) (k : Nat) :
    (openPass s n p missed).lane k = s.lane k := by
  rw [openPass, chainSettle_lane]
  unfold atAwake atPos
  split <;> rfl

theorem pollReady_lane_other (s : State) {x : Nat × Nat} {k : Nat} (hk : k ≠ x.1) :
    (pollReady s x).lane k = s.lane k := by
  unfold pollReady
  (repeat' split) <;> simp [openedAt, linStop, State.setLane_lane_other _ _ hk, openPass_lane]

theorem openPass_kept (s : State) (n p : Nat) (missed : List (Fin 16 × Bool)) :
    (openPass s n p missed).mode = s.mode ∧ (openPass s n p missed).alarm = s.alarm := by
  have hpos : (atAwake s n p missed (fun e => { e with pass := false })).mode = s.mode := by
    unfold atAwake atPos
    split <;> rfl
  have hset := chainSettle_setting (atAwake s n p missed (fun e => { e with pass := false })) n s.grid.now
  have hstores := openPass_stores s n p missed
  exact ⟨((of_setting hset).2.2.1).trans hpos, (congrArg State.alarm hstores :)⟩

theorem pollReady_kept (s : State) (x : Nat × Nat) :
    (pollReady s x).mode = s.mode ∧ (pollReady s x).alarm = s.alarm := by
  unfold pollReady
  (repeat' split) <;> simp [openedAt, linStop, openPass_kept]

/-- The lanes on the way into SENTINEL: those that are not polled go down, the others get ready. -/
def lanesReady (s : State) : State :=
  let s := calSaveEntry s
  let s := lanesDown s ((List.range 512).filter (fun n => !polled s n))
  s.mode.polls.foldl pollReady s

/-- Regions without a polled lane drop their stages. -/
def stagesReady (s : State) : State :=
  (List.range 8).foldl (fun s g => if (regionLanes g).any (polled s) then s else dropStage s g) (lanesReady s)

/-- The clocks and the mode of SENTINEL, from the state in which the uplinks are down. -/
def clockedDown (s : State) : State := (changeFreq s 100).onGrid (fun g => { g with standbyOk := false })

/-- SENTINEL entered with its request done. -/
def sentinelDone (s : State) : State :=
  refreshStreams (setDev (s.onMode (fun m => { m with
    result := .done, req := none, entering := false, wakeOwed := false, pollFrom := s.grid.now })) .sentinel)

/-- A wake that was owed, and a LOCKDOWN that waits. -/
def sentinelEntered (s : State) (owed : Bool) : State :=
  let s := if owed then wakeCond s else s
  if s.alarm.lockdown then
    s.onMode (fun m => { m with result := .refused, leaving := some (s.grid.now, .lockdown) })
  else s

/-- The device on its way to SENTINEL with its clocks and uplinks down. -/
def standDown (s : State) : State := clockedDown (parkUplink (parkUplink (stagesReady s) .ul0) .ul1)

theorem enterSentinel_eq (s : State) : enterSentinel s =
    sentinelEntered (sentinelDone (standDown s)) (standDown s).mode.wakeOwed := by
  unfold enterSentinel
  extract_lets a b c d e f owed g h i
  have hb : b = lanesDown (calSaveEntry s) ((List.range 512).filter (fun n => !polled (calSaveEntry s) n)) := rfl
  clear_value b
  have hc : lanesReady s = c := by
    have hfold : c = b.mode.polls.foldl pollReady b := rfl
    rw [hfold, hb, lanesReady]
  clear_value c
  subst hc
  have hd : stagesReady s = d := rfl
  clear_value d
  subst hd
  have hf : standDown s = f := rfl
  clear_value f
  subst hf
  have howed : (standDown s).mode.wakeOwed = owed := rfl
  clear_value owed
  have hh : sentinelDone (standDown s) = h := rfl
  clear_value h
  have hi : (if owed then wakeCond h else h) = i := rfl
  clear_value i
  rw [howed, hh, sentinelEntered, hi]

theorem wakeCond_kept (s : State) : (wakeCond s).mode.dev = s.mode.dev ∧ (wakeCond s).mode.req = s.mode.req ∧
    (wakeCond s).mode.entering = s.mode.entering ∧ (wakeCond s).mode.result = s.mode.result ∧
    (wakeCond s).grid = s.grid ∧ (wakeCond s).lanes = s.lanes ∧ (wakeCond s).ul0 = s.ul0 ∧ (wakeCond s).ul1 = s.ul1 ∧
    (wakeCond s).alarm = s.alarm := by
  unfold wakeCond
  (repeat' split) <;> simp

/-- What SENTINEL's entry shows at its end. -/
structure InSentinel (s t : State) (lockdown : Bool) : Prop where
  dev : t.mode.dev = .sentinel
  entering : t.mode.entering = false
  req : t.mode.req = none
  result : t.mode.result = if lockdown then .refused else .done
  grid : t.grid = s.grid
  lanes : t.lanes = s.lanes
  up0 : t.ul0.up = s.ul0.up
  up1 : t.ul1.up = s.ul1.up

/-- The mode of SENTINEL with its request done. -/
def sentinelMode (s : State) : State :=
  s.onMode (fun m => { m with
    result := .done, req := none, entering := false, wakeOwed := false, pollFrom := s.grid.now })

theorem sentinelDone_eq (s : State) : sentinelDone s = refreshStreams (setDev (sentinelMode s) .sentinel) := rfl

theorem sentinelDone_shows (s : State) : InSentinel s (sentinelDone s) false ∧ (sentinelDone s).alarm = s.alarm := by
  obtain ⟨hmode, hlanes⟩ := refreshStreams_kept (setDev (sentinelMode s) .sentinel)
  obtain ⟨h0, h1⟩ := refreshStreams_up (setDev (sentinelMode s) .sentinel)
  have hmode' : (sentinelDone s).mode = { (sentinelMode s).mode with dev := .sentinel } := by
    rw [sentinelDone_eq, hmode, setDev_mode]
  have hstores : (sentinelDone s).stores = s.stores := by
    rw [sentinelDone_eq, refreshStreams_stores, setDev_stores]
    rfl
  rw [← sentinelDone_eq] at hlanes h0 h1
  refine ⟨⟨by rw [hmode'], by rw [hmode']; rfl, by rw [hmode']; rfl, by rw [hmode']; rfl, ?_, ?_, ?_, ?_⟩,
    alarm_of_stores hstores⟩
  · simp [sentinelDone_eq, sentinelMode]
  · rw [hlanes, setDev_lanes _ _ (by decide)]
    rfl
  · rw [h0]
    simp [sentinelMode]
  · rw [h1]
    simp [sentinelMode]

theorem sentinelEntered_shows {s t : State} (h : InSentinel s t false) (owed : Bool) :
    InSentinel s (sentinelEntered t owed) t.alarm.lockdown := by
  obtain ⟨v, hv, hshown, halarm⟩ : ∃ v, v = (if owed then wakeCond t else t) ∧ InSentinel s v false ∧
      v.alarm = t.alarm := by
    refine ⟨_, rfl, ?_⟩
    cases owed with
    | false => exact ⟨h, rfl⟩
    | true =>
      obtain ⟨hdev, hreq, hent, hres, hgrid, hlanes, hul0, hul1, halarm⟩ := wakeCond_kept t
      exact ⟨⟨hdev.trans h.dev, hent.trans h.entering, hreq.trans h.req, hres.trans h.result, hgrid.trans h.grid,
        hlanes.trans h.lanes, (congrArg UplinkState.up hul0).trans h.up0, (congrArg UplinkState.up hul1).trans h.up1⟩, halarm⟩
  obtain ⟨hdev, hent, hreq, hres, hgrid, hlanes, hup0, hup1⟩ := hshown
  unfold sentinelEntered
  dsimp only
  rw [← hv, halarm]
  split
  next hl => exact ⟨hdev, hent, hreq, by simp [hl], hgrid, hlanes, hup0, hup1⟩
  next hl => exact ⟨hdev, hent, hreq, by simpa [hl] using hres, hgrid, hlanes, hup0, hup1⟩

theorem lanesReady_kept (s : State) : (lanesReady s).alarm = s.alarm := by
  unfold lanesReady
  dsimp only
  rw [keep_foldl State.alarm fun u x => (pollReady_kept u x).2]
  have hdown := lanesDown_stores (calSaveEntry s) ((List.range 512).filter fun n => !polled (calSaveEntry s) n)
  rw [alarm_of_stores hdown]
  unfold calSaveEntry calStore
  dsimp only
  split <;> rfl

theorem laneDown_polls (s : State) (n : Nat) : (laneDown s n).mode.polls = s.mode.polls := by
  unfold laneDown
  split
  · rfl
  · rw [polls_of_unlaned (unpower_unlaned (linSleep s n) n)]
    unfold linSleep linStop
    dsimp only
    split <;> simp

theorem calSaveEntry_polls (s : State) : (calSaveEntry s).mode.polls = s.mode.polls := by
  unfold calSaveEntry calStore
  dsimp only
  split <;> rfl

/-- A lane that is not polled goes down on the way into SENTINEL. -/
theorem lanesReady_unpowered (s : State) {n : Nat} (hn : n < 512) (hpoll : polled s n = false) :
    ((lanesReady s).lane n).lstate = .unpowered := by
  have hcal : polled (calSaveEntry s) n = false := by rw [polled, calSaveEntry_polls, ← polled, hpoll]
  have hdown := lanesDown_unpowered (calSaveEntry s) (ns := (List.range 512).filter fun n => !polled (calSaveEntry s) n)
    (List.mem_filter.2 ⟨List.mem_range.2 hn, by simp [hcal]⟩)
  unfold lanesReady
  dsimp only
  refine List.foldlRecOn (motive := fun u : State => (u.lane n).lstate = .unpowered) _ _ hdown fun u hu x hx => ?_
  have hpolls : x ∈ s.mode.polls := by
    rwa [lanesDown_eq, keep_foldl (fun u : State => u.mode.polls) laneDown_polls, calSaveEntry_polls] at hx
  have hne : n ≠ x.1 := fun heq => by
    have hany : polled s n = true := List.any_eq_true.2 ⟨x, hpolls, by simp [heq]⟩
    simp [hany] at hpoll
  rw [pollReady_lane_other u hne, hu]

theorem stagesReady_keep {γ : Type} (v : State → γ) (hdrop : ∀ s g, v (dropStage s g) = v s) (s : State) :
    v (stagesReady s) = v (lanesReady s) :=
  keep_foldl v fun u g => by
    split
    · rfl
    · exact hdrop u g

theorem clockedDown_shows (s : State) : (clockedDown s).grid.coreMhz = 100 ∧ (clockedDown s).grid.clk = .reference ∧
    (clockedDown s).grid.standbyOk = false ∧ (clockedDown s).ul0 = s.ul0 ∧ (clockedDown s).ul1 = s.ul1 ∧
    (clockedDown s).alarm = s.alarm ∧ ∀ k, (clockedDown s).lane k = s.lane k := ⟨rfl, rfl, rfl, rfl, rfl, rfl, fun _ => rfl⟩

theorem dropStage_alarm (s : State) (g : Nat) : (dropStage s g).alarm = s.alarm := rfl

theorem standDown_shows (s : State) : (standDown s).grid.coreMhz = 100 ∧ (standDown s).grid.clk = .reference ∧
    (standDown s).grid.standbyOk = false ∧ (standDown s).ul0.up = false ∧ (standDown s).ul1.up = false ∧
    (standDown s).alarm = s.alarm := by
  obtain ⟨hmhz, hclk, hstandby, hul0, hul1, halarm, -⟩ :=
    clockedDown_shows (parkUplink (parkUplink (stagesReady s) .ul0) .ul1)
  obtain ⟨hup0, hup1⟩ := parked_up (stagesReady s)
  rw [standDown, hul0, hul1, halarm, (parkUplink_kept _ _).2.2.1, (parkUplink_kept _ _).2.2.1,
    stagesReady_keep State.alarm dropStage_alarm, lanesReady_kept]
  exact ⟨hmhz, hclk, hstandby, hup0, hup1, rfl⟩

theorem standDown_unpowered (s : State) {n : Nat} (hn : n < 512) (hpoll : polled s n = false) :
    ((standDown s).lane n).lstate = .unpowered := by
  rw [standDown, (clockedDown_shows _).2.2.2.2.2.2, (parkUplink_kept _ _).2.2.2, (parkUplink_kept _ _).2.2.2,
    stagesReady_keep (fun u => u.lane n) fun u g => (dropStage_kept u g).2.2.2.2.2 n]
  exact lanesReady_unpowered s hn hpoll

theorem sentinelEntry_enters {s u : State} {dt : Nat} (h : Arrives s dt u) (hdone : entryDone u .sentinel = true) :
    exec (.sentinelEntry dt) s = .next (enterSentinel u) := by
  refine (exec_sentinelEntry dt s).trans ((run_arrives h _).trans ?_)
  rw [if_pos hdone]

theorem enterSentinel_shows (s : State) : InSentinel (standDown s) (enterSentinel s) s.alarm.lockdown := by
  obtain ⟨hdone, halarm⟩ := sentinelDone_shows (standDown s)
  have h := sentinelEntered_shows hdone (standDown s).mode.wakeOwed
  rwa [halarm, (standDown_shows s).2.2.2.2.2, ← enterSentinel_eq] at h

/-! ### The exit from SENTINEL (R445) -/

/-- The clocks and uplinks on their way back. -/
def clockedUp (s : State) : State :=
  (((changeFreq s 400).onGrid (fun g => { g with standbyOk := true })).onUplink .ul0
    (fun x => { x with parked := false })).onUplink .ul1 (fun x => { x with parked := false })

theorem clockedUp_shows (s : State) : (clockedUp s).grid.coreMhz = 400 ∧ (clockedUp s).grid.standbyOk = true ∧
    (clockedUp s).ul0.parked = false ∧ (clockedUp s).ul1.parked = false := ⟨rfl, rfl, rfl, rfl⟩

theorem oweWakes_kept (s : State) (n : Nat) : (oweWakes s n).grid = s.grid ∧ (oweWakes s n).ul0 = s.ul0 ∧
    (oweWakes s n).ul1 = s.ul1 := by
  unfold oweWakes
  split
  · exact ⟨rfl, rfl, rfl⟩
  · exact ⟨keep_foldl State.grid fun u p => by split <;> rfl, keep_foldl State.ul0 fun u p => by split <;> rfl,
      keep_foldl State.ul1 fun u p => by split <;> rfl⟩

theorem leaveSentinel_leaves {s : State} (hdev : s.mode.dev = .sentinel) (hleave : s.mode.leaving ≠ none)
    (hresume : s.mode.resume = none) : (leaveSentinel s).grid.coreMhz = 400 ∧ (leaveSentinel s).grid.standbyOk = true ∧
      (leaveSentinel s).ul0.parked = false ∧ (leaveSentinel s).ul1.parked = false ∧
      ∃ k, (leaveSentinel s).mode.resume = some k := by
  obtain ⟨x, hx⟩ := Option.ne_none_iff_exists'.1 hleave
  obtain ⟨hmhz, hstandby, hul0, hul1⟩ := clockedUp_shows s
  unfold leaveSentinel
  rw [hx]
  dsimp only
  rw [if_pos ⟨hdev, hresume⟩, ← clockedUp]
  have hgrid : ((clockedUp s).mode.polls.foldl (fun s x => oweWakes s x.1) (clockedUp s)).grid = (clockedUp s).grid :=
    keep_foldl State.grid fun u x => (oweWakes_kept u x.1).1
  have h0 : ((clockedUp s).mode.polls.foldl (fun s x => oweWakes s x.1) (clockedUp s)).ul0 = (clockedUp s).ul0 :=
    keep_foldl State.ul0 fun u x => (oweWakes_kept u x.1).2.1
  have h1 : ((clockedUp s).mode.polls.foldl (fun s x => oweWakes s x.1) (clockedUp s)).ul1 = (clockedUp s).ul1 :=
    keep_foldl State.ul1 fun u x => (oweWakes_kept u x.1).2.2
  generalize (clockedUp s).mode.polls.foldl (fun s x => oweWakes s x.1) (clockedUp s) = v at hgrid h0 h1
  rw [← hgrid] at hmhz hstandby
  rw [← h0] at hul0
  rw [← h1] at hul1
  exact ⟨hmhz, hstandby, hul0, hul1, _, rfl⟩

end Sys2Proof.Machine
end

section
/-!
SUPPORT. A poll of a lane in SENTINEL (R442): its frames leave the words alone, so its sources stay the same, and each
source's record keeps the tick's number at the lane.
-/

namespace Sys2Proof.Machine

theorem cfg_of_setting {s t : State} (h : t.setting = s.setting) : t.cfg = s.cfg := (of_setting h).1

theorem cfg_of_evRest {s t : State} (h : t.evRest = s.evRest) : t.cfg = s.cfg := (congrArg State.cfg h :)

/-! ### Packets -/

theorem collect_cfg (s : State) (p : Packet) : (collect s p).cfg = s.cfg := by
  have hover (u : State) (g data : Nat) : (overflow u g data).cfg = u.cfg := cfg_of_evRest (overflow_evRest u g data)
  unfold collect writeOnTime writeLate stagePacket
  dsimp only
  (repeat' split) <;> simp [hover]

theorem handOver_cfg (s : State) (n : Nat) (num : BitVec 48) (at_ : Int) (ran : Bool) (base : Int) (es : List Entry)
    (slot : Option Nat) : (handOver s n num at_ ran base es slot).cfg = s.cfg := collect_cfg _ _

/-! ### Frames of an Aknun lane -/

theorem tempoSample_cfg (s : State) (n p : Nat) (q : DecodeWith) (d : Decoded) : (tempoSample s n p q d).1.cfg = s.cfg := by
  unfold tempoSample jumpSuspect
  split
  · rfl
  · dsimp only
    split
    · exact cfg_of_setting (swapSuspect_setting _ _ _)
    · rfl

theorem lineAfter_cfg (s : State) (n : Nat) (cut : Bool) : (lineAfter s n cut).cfg = s.cfg := rfl

theorem accessFrame_cfg (s : State) (n : Nat) (num : BitVec 48) (at_ : Int) (c : CmdFrame) (addr : Nat)
    (w : FrameWire) : (accessFrame s n num at_ c addr w).1.cfg = s.cfg := by
  unfold accessFrame
  extract_lets s1 before q0 q1
  split
  extract_lets seeded s2 s3 a1 sent s4 q2 d
  have h2 : s2.cfg = s.cfg := cfg_of_setting (frameBoundary_setting s n num)
  have h4 : s4.cfg = s.cfg := by
    simp only [s4, s3]
    rw [cfg_of_setting (missFrame_setting _ _ _)]
    split
    · rw [cfg_of_setting (stepLane_setting _ _), h2]
    · exact h2
  split
  next s5 recs low seeds h =>
  have h5 : s5.cfg = s4.cfg := by
    clear_value s4 d
    cases d with
    | none =>
      cases h
      rfl
    | some d =>
      dsimp only at h
      cases h
      split
      · rw [cfg_of_setting (answerMonitors_setting _ _ _ _)]
      · rw [tempoSample_cfg]
        exact cfg_of_setting (answerMonitors_setting _ _ _ _)
  extract_lets a2 a3 s6 s7
  have h7 : s7.cfg = s.cfg := (cfg_of_setting (traceFrame_setting _ _ _ _ _ _ _ _ _ _ _ _ _)).trans (h5.trans h4)
  clear_value s7
  rw [lineAfter_cfg, cfg_of_setting (aknunBoundary_setting _ _ _ _ _ _ _ _)]
  exact h7

theorem atPos_cfg (s : State) (n pos : Nat) (missed : List (Fin 16 × Bool)) (f : Endpoint → Endpoint) :
    (atPos s n pos missed f).cfg = s.cfg := by
  unfold atPos
  split <;> rfl

theorem wakeCond_cfg (s : State) : (wakeCond s).cfg = s.cfg := cfg_of_evRest (wakeCond_evRest s)

theorem wakeAnswer_cfg (s : State) (n p : Nat) (wake : Bool) (missed : List (Fin 16 × Bool)) (d : Option Decoded) :
    (wakeAnswer s n p wake missed d).cfg = s.cfg := by
  have hwake (u : State) (c : Prop) [Decidable c] : (if c then wakeCond u else u).cfg = u.cfg := by
    split
    · exact wakeCond_cfg u
    · rfl
  unfold wakeAnswer
  dsimp only
  split
  · rw [hwake]
    split
    · rw [atPos_cfg, cfg_of_setting (becomeSprout_setting _ _)]
      rfl
    · rfl
  · rfl

theorem afterCut_cfg (s : State) (n : Nat) : (afterCut s n).1.cfg = s.cfg := rfl

theorem pollPings_cfg (s : State) (n : Nat) (num : BitVec 48) (at_ : Nat) (t : Int) (pings : List (Pos × FrameWire)) :
    (pollPings s n num at_ t pings).1.cfg = s.cfg := by
  unfold pollPings
  refine keep_foldl_at State.cfg Prod.fst (b := (s, t)) fun a p => ?_
  split
  · split
    · dsimp only
      rw [afterCut_cfg, wakeAnswer_cfg, accessFrame_cfg]
    · rfl
  · rfl

/-! ### Frames of a bus lane -/

theorem busBoundary_cfg (s : State) (n : Nat) (before : LaneCal) (step : Bool) :
    (busBoundary s n before step).cfg = s.cfg := by
  unfold busBoundary
  extract_lets s1 step' s2 s3 s4
  have h3 : s3.cfg = s.cfg := by
    simp only [s3]
    split
    · exact (cfg_of_setting (stepLane_setting _ _)).trans (cfg_of_setting (applyLoad_setting s n before))
    · exact cfg_of_setting (applyLoad_setting s n before)
  rw [cfg_of_setting (enterSprouts_setting s4 n none)]
  exact (keep_foldl State.cfg fun u p => cfg_of_setting (sproutExit_setting _ _)).trans h3

theorem unstick_cfg (s : State) (n : Nat) : (unstick s n).cfg = s.cfg := by
  unfold unstick
  dsimp only
  split
  · exact cfg_of_setting (happenLine_setting _ _ _ _)
  · rfl

theorem serialStep_cfg (s : State) (n st : Nat) : (serialStep s n st).1.cfg = s.cfg := by
  unfold serialStep
  dsimp only
  (repeat' split) <;> simp [storeMessage]

theorem sentTake_cfg (s : State) (n : Nat) (num : BitVec 48) (at_ : Int) (w : SentWire) :
    (sentTake s n num at_ w).1.cfg = s.cfg := by
  unfold sentTake
  extract_lets i falls ivs lcal good frame ok e s1
  have h1 : s1.cfg = s.cfg := by
    simp only [s1]
    split
    · exact cfg_of_setting (nibbleDevs_setting _ _ _ _)
    · rfl
  split
  next s2 jump hpulse =>
  have h2 : s2.cfg = s.cfg := by
    clear_value s1 good
    rw [← h1]
    split at hpulse
    · rw [← cfg_of_setting (sentPulse_keeps s1 n lcal).2.1, hpulse]
    · cases hpulse
      rfl
  extract_lets s3 s4 s5 inst
  have h5 : s5.cfg = s.cfg := h2
  clear_value s5 frame
  cases frame with
  | some ns =>
    have h6 : (serialStep (unstick s5 n) n (ns.headD 0)).1.cfg = s5.cfg := by rw [serialStep_cfg, unstick_cfg]
    exact h6.trans h5
  | none => exact h5

theorem sentEnd_cfg (s : State) (n : Nat) (before : LaneCal) (hi lo : Nat) :
    (sentEnd s n before hi lo).cfg = s.cfg := by
  unfold sentEnd
  dsimp only
  rw [busBoundary_cfg]
  exact cfg_of_setting (lineCounts_setting _ _)

theorem leaveNow_cfg (s : State) (n : Nat) : (leaveNow s n).cfg = s.cfg := by
  unfold leaveNow
  split
  · exact (of_committed (leaveMode_committed _ _ _)).1
  · rfl

theorem traceEdges_cfg (s : State) (n : Nat) (num : BitVec 48) (at_ : Int) (edges all : List Int) (a b : Int) :
    (traceEdges s n num at_ edges all a b).cfg = s.cfg := cfg_of_setting (traceEdges_setting _ _ _ _ _ _ _ _)

theorem sentReceive_cfg (s : State) (n : Nat) (num : BitVec 48) (at_ : Int) (w : SentWire) :
    (sentReceive s n num at_ w).cfg = s.cfg := by
  unfold sentReceive
  extract_lets s1 before edges base
  have h1 : s1.cfg = s.cfg :=
    (cfg_of_setting (frameBoundary_setting _ _ _)).trans (cfg_of_setting (enterSprouts_setting _ _ _))
  split
  next s2 entries htake =>
  have h2 : s2.cfg = s.cfg := (congrArg (fun x => x.1.cfg) htake).symm.trans ((sentTake_cfg _ _ _ _ _).trans h1)
  dsimp only
  rw [leaveNow_cfg, sentEnd_cfg]
  split
  · rw [handOver_cfg, traceEdges_cfg, h2]
  · rw [traceEdges_cfg, h2]

theorem tellOuts_cfg (s : State) (n fid : Nat) (num : BitVec 48) : (tellOuts s n fid num).cfg = s.cfg := by
  unfold tellOuts
  refine keep_foldl State.cfg fun u p => ?_
  dsimp only
  split
  · rw [eq_of_offHoard (happen_offHoard _ _ _ _ _ _)]
    rfl
  · rfl

/-- One node's entry of a LIN frame slot. -/
def linEntry (n : Nat) (num : BitVec 48) (at_ brk : Int) (publish ok : Bool) (bytes : Bytes) (a : State × List Entry)
    (p : Nat) : State × List Entry :=
  let i := epIdx n p
  let e := a.1.ep i
  let s := cleanStep a.1 i ok ok
  if ok then
    let s := s.onEp i (fun e => { e with stepped := false })
    let inst := at_ + brk - (if publish then 0 else descLatency s i)
    (s, a.2 ++ [busEntry s n p num (linRaw s n p bytes) inst false e.sprout e.stepped])
  else (s, a.2)

theorem linEntry_cfg (n : Nat) (num : BitVec 48) (at_ brk : Int) (publish ok : Bool) (bytes : Bytes)
    (a : State × List Entry) (p : Nat) : (linEntry n num at_ brk publish ok bytes a p).1.cfg = a.1.cfg := by
  unfold linEntry
  dsimp only
  split <;> rfl

theorem linReceive_cfg (s : State) (n fid : Nat) (num : BitVec 48) (at_ : Int) (w : LinWire) :
    (linReceive s n fid num at_ w).cfg = s.cfg := by
  unfold linReceive
  extract_lets p0 len publish s1 s2 before s3 bytes sound ok s4 s5 s6 brk ps
  have h2 : s2.cfg = s.cfg :=
    (cfg_of_setting (frameBoundary_setting _ _ _)).trans (cfg_of_setting (enterSprouts_setting _ _ _))
  have h3 : s3.cfg = s.cfg := by
    simp only [s3]
    split
    · rw [tellOuts_cfg, h2]
    · exact h2
  have h6 : s6.cfg = s.cfg := by
    have h5 : s5.cfg = s4.cfg := by
      simp only [s5]
      split <;> rfl
    exact h5.trans h3
  clear_value s6
  split
  next s7 es hfold =>
  have h7 : s7.cfg = s6.cfg := by
    have hkeep := keep_foldl_at State.cfg Prod.fst (b := (s6, [])) (l := ps)
      (linEntry_cfg n num at_ brk publish ok bytes)
    exact (congrArg (fun x => x.1.cfg) hfold).symm.trans hkeep
  dsimp only
  unfold linEnd
  rw [busBoundary_cfg]
  refine Eq.trans ?_ (h7.trans h6)
  exact (handOver_cfg _ _ _ _ _ _ _ _).trans (traceEdges_cfg _ _ _ _ _ _ _ _)

theorem pollBus_cfg (s : State) (n : Nat) (num : BitVec 48) (at_ : Nat) {f : State → State}
    (hf : ∀ u, (f u).cfg = u.cfg) : (pollBus s n num at_ f).1.cfg = s.cfg := by
  unfold pollBus
  exact hf _

/-! ### The poll -/

theorem pollLane_cfg (s : State) (n : Nat) (num : BitVec 48) (at_ : Nat) (w : HarvestWire)
    (pings : List (Pos × FrameWire)) (sent : Option SentWire) (lin : List (BitVec 6 × LinWire)) :
    (pollLane s n num at_ w pings sent lin).st.cfg = s.cfg := by
  unfold pollLane
  dsimp only
  split
  · rfl
  split
  · split
    · dsimp only
      rw [pollPings_cfg, afterCut_cfg]
      exact cfg_of_setting (harvestFrame_setting _ _ _ _ _ _ _ _)
    · rfl
  · split
    · dsimp only
      rw [pollBus_cfg _ _ _ _ fun u => sentReceive_cfg u _ _ _ _]
      rfl
    · rfl
  · refine keep_foldl_at State.cfg Prod.fst (b := (s, [])) fun a x => ?_
    split
    · dsimp only
      rw [pollBus_cfg _ _ _ _ fun u => linReceive_cfg u _ _ _ _ _]
    · rfl
  · rfl

theorem pollSources_of_cfg {s t : State} (h : t.cfg = s.cfg) (n : Nat) : pollSources t n = pollSources s n := by
  unfold pollSources routesOn rtAction rtSrc routeEn rtW
  simp only [State.inForce, h]

theorem raise_lanes (s : State) (src origin : Nat) (data : Word) : (raise s src origin data).lanes = s.lanes := by simp

theorem threshold_lanes (s : State) (i : Nat) (st : RecState) (v : Word) : (threshold s i st v).lanes = s.lanes := by
  unfold threshold
  dsimp only
  split
  · rfl
  · exact raise_lanes _ _ _ _

/-- A source's record of a poll keeps the tick's number at its lane. -/
theorem pollRec_lastTag (s : State) (n p : Nat) (num : BitVec 48) (at_ : Nat) (ran : Bool) (es : List Entry) :
    ((pollRec s n p num at_ ran es).1.lane n).lastTag = some num := by
  unfold pollRec
  extract_lets i on asleep
  split
  next st src bits hrec =>
  split
  next v a hva =>
  dsimp only
  rw [State.lane, threshold_lanes, ← State.lane]
  simp only [State.onLane_eq, State.setLane_lane]

theorem wakeCond_lanes (s : State) : (wakeCond s).lanes = s.lanes := (wakeCond_kept s).2.2.2.2.2.1

theorem rtAction_of_cfg {s t : State} (h : t.cfg = s.cfg) (r : Nat) : rtAction t r = rtAction s r := by
  unfold rtAction rtW
  rw [State.inForce, h, ← State.inForce]

/-- A WAKE route evaluated at the end of a poll touches no lane. -/
theorem routeEval_lanes {s : State} {r : Nat} (h : rtAction s r = 2) (x : Option Rec) :
    (routeEval s r x).lanes = s.lanes := by
  have hfire (u : State) (v : Word) (hu : rtAction u r = 2) : (routeFire u r v).lanes = u.lanes := by
    unfold routeFire
    dsimp only
    have hact : rtAction (raise (u.onRoute r (fun x => { x with fires := satInc x.fires })) 37 r v) r = 2 := by
      rw [← hu]
      exact rtAction_of_cfg (cfg_of_setting (raise_setting _ _ _ _)) r
    rw [hact]
    exact (wakeCond_lanes _).trans (raise_lanes _ _ _ _)
  unfold routeEval
  dsimp only
  cases x with
  | none => rfl
  | some y =>
    dsimp only
    split
    · rfl
    split
    · split
      · exact hfire _ _ h
      · rfl
    · rfl

theorem pollRoutes_lanes (s : State) (n : Nat) (recs : List Rec) : (pollRoutes s n recs).lanes = s.lanes := by
  unfold pollRoutes
  refine keep_foldl State.lanes fun u r => ?_
  split
  next h =>
    obtain ⟨hact, -⟩ := Bool.and_eq_true_iff.1 h
    exact routeEval_lanes (beq_iff_eq.1 hact) _
  next => rfl

/-- What the last step of a fold leaves, it leaves at its end. -/
theorem foldl_last {α β : Type} {P : β → Prop} {f : β → α → β} (h : ∀ b a, P (f b a)) {l : List α} (hl : l ≠ []) (b : β) :
    P (l.foldl f b) := by
  rw [← List.dropLast_append_getLast hl, List.foldl_append]
  exact h _ _

theorem poll_lastTag {s : State} {n : Nat} {w : HarvestWire} {pings : List (Pos × FrameWire)} {sent : Option SentWire}
    {lin : List (BitVec 6 × LinWire)} (hsrc : pollSources s n ≠ [])
    (hover : (pollLane s n (pollNum s n) (pollAt s n) w pings sent lin).over_ ≤ s.grid.now) :
    ((poll s n w pings sent lin).lane n).lastTag = some (pollNum s n) := by
  unfold poll
  extract_lets num at_ d
  have hd : pollSources d.st n = pollSources s n := pollSources_of_cfg (pollLane_cfg s n num at_ w pings sent lin) n
  rw [if_neg (Int.not_lt.2 hover), hd]
  split
  next t rs hfold =>
  have hlast : (t.lane n).lastTag = some num := by
    refine (congrArg (fun x => (x.1.lane n).lastTag) hfold).symm.trans ?_
    refine foldl_last (P := fun a : State × List Rec => (a.1.lane n).lastTag = some num) (fun a p => ?_) hsrc _
    exact pollRec_lastTag a.1 n p num at_ d.ran d.entries
  rw [State.lane, pollRoutes_lanes, ← State.lane, hlast]

theorem exec_sentinelPoll (dt : Nat) (n : Lane) (w : HarvestWire) (pings : List (Pos × FrameWire))
    (sent : Option SentWire) (lin : List (BitVec 6 × LinWire)) (s : State) :
    exec (.sentinelPoll dt n w pings sent lin) s = execSentinelPoll dt n w pings sent lin s := rfl

theorem exec_sentinelExit_arrives {s u : State} {dt : Nat} (h : Arrives s dt u) :
    exec (.sentinelExit dt) s = .next (leaveSentinel u) := (exec_sentinelExit dt s).trans (run_arrives h _)

theorem sentinelPoll_polls {s u : State} {dt : Nat} {n : Lane} (h : Arrives s dt u) (hdue : pollDue u n = true)
    (w : HarvestWire) (pings : List (Pos × FrameWire)) (sent : Option SentWire) (lin : List (BitVec 6 × LinWire)) :
    exec (.sentinelPoll dt n w pings sent lin) s = .next (poll u n w pings sent lin) := by
  refine (exec_sentinelPoll dt n w pings sent lin s).trans ((run_arrives h _).trans ?_)
  rw [if_pos hdue]

/-- Settles O42, by what each entry, each poll and the exit leaves of the mode, the clocks, the uplinks and the lanes. -/
theorem deviceStatesChange : Obligations.DeviceStatesChange := by
  unfold Obligations.DeviceStatesChange
  refine ⟨?_, ?_, ?_, ?_, ?_⟩
  · intro s d due hon hnow hreq hdue htick hperm
    obtain ⟨hdev, hres, hreq', hraised⟩ := enterState_enters s d
    exact ⟨_, modeChange_enters hon hnow hreq hdue htick hperm, hdev, hres, hreq', hraised, enterState_replay⟩
  · intro s u dt h hdone
    obtain ⟨hdev, hres, hreq, hent, hwake⟩ := offDone_mode (shutDown u)
    rw [← enterOff_mode] at hdev hres hreq hent hwake
    obtain ⟨h0, h1⟩ := enterOff_uplinks u
    exact ⟨_, offEntry_enters h hdone, hdev, hres, hreq, hent, hwake, h0, h1, fun n hn => enterOff_unpowered u hn⟩
  · intro s u dt h hdone
    obtain ⟨hdev, hent, hreq, hres, hgrid, hlanes, hup0, hup1⟩ := enterSentinel_shows u
    obtain ⟨hmhz, hclk, hstandby, h0, h1, -⟩ := standDown_shows u
    refine ⟨_, sentinelEntry_enters h hdone, hdev, hent, hreq, hres, ?_, ?_, ?_, hup0.trans h0, hup1.trans h1, ?_⟩
    · rw [hgrid, hmhz]
    · rw [hgrid, hclk]
    · rw [hgrid, hstandby]
    · intro n hn hpoll
      rw [State.lane, hlanes, ← State.lane]
      exact standDown_unpowered u hn hpoll
  · intro s u dt n w pings sent lin h hdue hsrc hover
    exact ⟨_, sentinelPoll_polls h hdue w pings sent lin, poll_lastTag hsrc hover⟩
  · intro s u dt h hdev hleave hresume
    obtain ⟨hmhz, hstandby, hul0, hul1, k, hk⟩ := leaveSentinel_leaves hdev hleave hresume
    exact ⟨_, k, exec_sentinelExit_arrives h, hmhz, hstandby, hul0, hul1, hk⟩

end Sys2Proof.Machine
end

section
/-!
SUPPORT. The hoard's states (R347, R474, R477): its controls, which no block and no checkpoint changes, the ring that
an arming starts, the freeze, and the end of POST.
-/

namespace Sys2Proof.Machine

theorem exec_hoardArm (s : State) : exec .hoardArm s = execHoardArm s := rfl
theorem exec_hoardFreeze (dt : Nat) (p : Port) (s : State) : exec (.hoardFreeze dt p) s = execHoardFreeze dt p s := rfl
theorem exec_hoardExport (s : State) : exec .hoardExport s = execHoardExport s := rfl
theorem exec_hoardFrozen (dt : Nat) (s : State) : exec (.hoardFrozen dt) s = execHoardFrozen dt s := rfl

/-! ### Bits of a word -/

theorem bit_eq_getLsbD (w : Word) (k : Nat) : bit w k = w.getLsbD k := by
  rw [bit, BitVec.getLsbD, Nat.testBit_eq_decide_div_mod_eq]
  rfl

/-- A write of FREEZE keeps the other bits of HOARD_CTL (R347). -/
theorem bit_merge_freeze (w : Word) (k : Nat) :
    bit (merge (w ||| 0x40000000) 0x40000000 0x40000000) k = (bit w k || k == 30) := by
  have hmask : (0x40000000 : Word) = BitVec.twoPow 32 30 := by decide
  rw [bit_eq_getLsbD, bit_eq_getLsbD, merge, hmask]
  simp only [BitVec.getLsbD_or, BitVec.getLsbD_and, BitVec.getLsbD_not, BitVec.getLsbD_twoPow]
  by_cases hk : k = 30
  · subst hk
    simp
  · by_cases hlt : k < 32
    · simp [hk, Ne.symm hk, hlt]
    · simp [hk, Ne.symm hk, hlt, BitVec.getLsbD_of_ge w k (by omega)]

/-! ### The controls of the hoard -/

/-- The hoard without what it has recorded. -/
def HoardState.controls (h : HoardState) : HoardState :=
  { h with seq := 0, gapNext := false, gap := false, drops := 0, ring := [], postLeft := 0, stream := [], owe := [] }

/-- The parts of equal controls. -/
theorem of_controls {h k : HoardState} (e : k.controls = h.controls) :
    k.hstate = h.hstate ∧ k.arm = h.arm ∧ k.expo = h.expo ∧ k.ctlNext = h.ctlNext ∧ k.freezeNext = h.freezeNext ∧
      k.pre = h.pre ∧ k.preNow = h.preNow ∧ k.lanes = h.lanes ∧ k.startTick = h.startTick ∧
      k.freezeTick = h.freezeTick :=
  ⟨(congrArg HoardState.hstate e :), (congrArg HoardState.arm e :), (congrArg HoardState.expo e :),
    (congrArg HoardState.ctlNext e :), (congrArg HoardState.freezeNext e :), (congrArg HoardState.pre e :),
    (congrArg HoardState.preNow e :), (congrArg HoardState.lanes e :), (congrArg HoardState.startTick e :),
    (congrArg HoardState.freezeTick e :)⟩

theorem hoardBlock_controls (s : State) (typ lane : Nat) (body : Bytes) :
    (hoardBlock s typ lane body).hoard.controls = s.hoard.controls := by
  unfold hoardBlock
  dsimp only
  (repeat' split) <;> rfl

theorem checkpoint_controls (s : State) (n : Nat) (num : BitVec 48) :
    (checkpoint s n num).hoard.controls = s.hoard.controls := hoardBlock_controls _ _ _ _

theorem checkpointAll_controls (s : State) : (checkpointAll s).hoard.controls = s.hoard.controls :=
  keep_foldl (fun u : State => u.hoard.controls) fun u n => checkpoint_controls u n _

/-! ### An arming (R474) -/

/-- What recording in a state that records begins with: the tick that it starts at, and its first blocks. -/
theorem beginBlocks_shows (s : State) : (beginBlocks s).hoard.hstate = s.hoard.hstate ∧
    (beginBlocks s).hoard.arm = s.hoard.arm ∧ (beginBlocks s).hoard.expo = s.hoard.expo ∧
      (beginBlocks s).hoard.ctlNext = s.hoard.ctlNext ∧ (beginBlocks s).hoard.freezeNext = s.hoard.freezeNext ∧
      (beginBlocks s).hoard.pre = s.hoard.pre ∧ (beginBlocks s).hoard.lanes = s.hoard.lanes ∧
      (s.hoard.hstate = .armed → s.hoard.startOwed = true → recordsIn s.mode.dev = true →
        (beginBlocks s).hoard.startTick = s.grid.tick) := by
  unfold beginBlocks
  split
  next h =>
    extract_lets info s1 s2
    have h2 : s2.hoard.controls = s1.hoard.controls := by
      simp only [s2]
      split
      · exact hoardBlock_controls _ _ _ _
      · rfl
    have hall := (checkpointAll_controls (hoardBlock s2 0x20 0xFFFF
      (tickBody s2 (s2.grid.gridNum == s2.grid.tick) (gapTick s2) none))).trans ((hoardBlock_controls _ _ _ _).trans h2)
    obtain ⟨hst, harm, hexpo, hctl, hfreeze, hpre, -, hlanes, hstart, -⟩ := of_controls hall
    exact ⟨hst, harm, hexpo, hctl, hfreeze, hpre, hlanes, fun _ _ _ => hstart⟩
  next h =>
    exact ⟨rfl, rfl, rfl, rfl, rfl, rfl, rfl, fun hst howed hrec => absurd (by simp [howed, hrec, hst]) h⟩

/-- The hoard with the word of an arming taken and the lanes that it selects. -/
def armTaken (s : State) (w : Word) (sel : List Nat) : State :=
  s.onHoard (fun h => { h with
    arm := true, gap := false, expo := bit w 29, expoPort := bit w 28, hmode := BitVec.ofNat 2 (fld w 27 26)
    pre := BitVec.ofNat 8 (fld w 23 16), hmodeNow := hmodeOf w, preNow := BitVec.ofNat 8 (fld w 23 16)
    sel := sel, ctlNext := none })

theorem arm_eq (s : State) (w : Word) : arm s w =
    if bit w 29 then startExport (armTaken s w (hoardSelected s)) else startRing (armTaken s w (hoardSelected s)) := rfl

/-- The ring that starts before its first blocks. -/
def ringBegun (s : State) (w : Word) (sel : List Nat) : State :=
  setHState (beginTrace (armTaken s w sel) (sel.take (laneLimit (hmodeOf w == 1) false))) .armed

theorem startRing_eq (s : State) (w : Word) (sel : List Nat) :
    startRing (armTaken s w sel) = beginBlocks (ringBegun s w sel) := rfl

theorem hmodeOf_beq (w : Word) : (hmodeOf w == 1) = (fld w 27 26 == 1) := by
  unfold hmodeOf
  by_cases h : fld w 27 26 = 1 <;> simp [h]

/-- What an arming without EXPORT leaves: the ring of the lanes given, ARMED with the freeze that waits. -/
structure RingStarts (w : Word) (lanes : List Nat) (freezeNext : Option (Option Item)) (h : HoardState) : Prop where
  hstate : h.hstate = .armed
  armed : h.arm = true
  expo : h.expo = bit w 29
  ctlNext : h.ctlNext = none
  freezeNext : h.freezeNext = freezeNext
  pre : h.pre = BitVec.ofNat 8 (fld w 23 16)
  lanes : h.lanes = lanes

/-- The lanes of a ring that an arming starts (R472). -/
def ringLanes (w : Word) (sel : List Nat) : List Nat := sel.take (laneLimit (fld w 27 26 == 1) false)

theorem ringBegun_starts (s : State) (w : Word) (sel : List Nat) :
    RingStarts w (ringLanes w sel) s.hoard.freezeNext (ringBegun s w sel).hoard ∧
      (ringBegun s w sel).hoard.startOwed = true := by
  unfold ringLanes
  rw [ringBegun, setHState_hoard, ← hmodeOf_beq]
  exact ⟨⟨rfl, rfl, rfl, rfl, rfl, rfl, rfl⟩, rfl⟩

theorem ringBegun_tick (s : State) (w : Word) (sel : List Nat) :
    (ringBegun s w sel).mode = s.mode ∧ (ringBegun s w sel).grid = s.grid := by
  simp [ringBegun, beginTrace, armTaken]

theorem arm_ring (s : State) {w : Word} (h : bit w 29 = false) :
    RingStarts w (ringLanes w (hoardSelected s)) s.hoard.freezeNext (arm s w).hoard ∧
      (recordsIn s.mode.dev = true → (arm s w).hoard.startTick = s.grid.tick) := by
  rw [arm_eq, h]
  generalize hoardSelected s = sel
  obtain ⟨hring, howed⟩ := ringBegun_starts s w sel
  obtain ⟨hmode, hgrid⟩ := ringBegun_tick s w sel
  obtain ⟨hst, harm, hexpo, hctl, hfreeze, hpre, hlanes, hstart⟩ :=
    beginBlocks_shows (ringBegun s w sel)
  rw [if_neg (by simp), startRing_eq]
  have htick := hstart hring.hstate howed
  rw [hmode, hgrid] at htick
  exact ⟨⟨hst.trans hring.hstate, harm.trans hring.armed, hexpo.trans hring.expo, hctl.trans hring.ctlNext,
    hfreeze.trans hring.freezeNext, hpre.trans hring.pre, hlanes.trans hring.lanes⟩, htick⟩

/-! ### The freeze -/

theorem beginTrace_exportKeyOk (s : State) (lanes : List Nat) : exportKeyOk (beginTrace s lanes) = exportKeyOk s := rfl

/-- What a freeze in ARMED leaves: POST, with what PRE left over still to be recorded. -/
structure Freezes (s : State) (t : State) : Prop where
  hstate : t.hoard.hstate = .post
  freezeTick : t.hoard.freezeTick = s.grid.tick
  postLeft : t.hoard.postLeft = (256 - s.hoard.preNow.toNat) * 8192
  glb : t.glbHas 10 = true

/-- The hoard's controls that a freeze keeps. -/
structure FreezeKeeps (h k : HoardState) : Prop where
  arm : k.arm = h.arm
  expo : k.expo = h.expo
  ctlNext : k.ctlNext = h.ctlNext
  pre : k.pre = h.pre
  lanes : k.lanes = h.lanes
  startTick : k.startTick = h.startTick

theorem setHState_glbHas {s : State} {h : HState} (hne : s.hoard.hstate ≠ h) : (setHState s h).glbHas 10 = true := by
  unfold setHState
  rw [if_neg hne]
  exact glb_glbHas (by decide)

theorem freeze_keeps (s : State) (it : Option Item) : FreezeKeeps s.hoard (freeze s it).hoard := by
  unfold freeze
  split
  · exact ⟨rfl, rfl, rfl, rfl, rfl, rfl⟩
  · obtain ⟨-, harm, hexpo, hctl, -, hpre, -, hlanes, hstart, -⟩ :=
      of_controls (hoardBlock_controls s 0x3F 0xFFFF (freezeBody s it))
    dsimp only
    rw [setHState_hoard]
    exact ⟨harm, hexpo, hctl, hpre, hlanes, hstart⟩

theorem freeze_armed {s : State} (h : s.hoard.hstate = .armed) (it : Option Item) : Freezes s (freeze s it) := by
  obtain ⟨hst, -, -, -, -, -, hpre, -⟩ := of_controls (hoardBlock_controls s 0x3F 0xFFFF (freezeBody s it))
  have hgrid : (hoardBlock s 0x3F 0xFFFF (freezeBody s it)).grid = s.grid := hoardBlock_grid _ _ _ _
  unfold freeze
  rw [if_neg (by simp [h])]
  dsimp only
  generalize hoardBlock s 0x3F 0xFFFF (freezeBody s it) = u at hst hpre hgrid
  refine ⟨by rw [setHState_hoard], ?_, ?_, setHState_glbHas ?_⟩
  · rw [setHState_hoard, ← hgrid]
    rfl
  · rw [setHState_hoard, ← hpre]
    rfl
  · simp [hst, h]

theorem freeze_unarmed {s : State} (h : s.hoard.hstate ≠ .armed) (it : Option Item) :
    (freeze s it).hoard.hstate = s.hoard.hstate := by
  unfold freeze
  rw [if_pos h]
  rfl

/-- Whether a freeze acts at a tick with the word `w`. -/
def freezesNow (s : State) (w : Word) : Prop := bit w 30 = true ∨ s.hoard.freezeNext ≠ none

theorem freezeTick_cases (s : State) (w : Word) :
    (∃ it, freezesNow s w ∧ freezeTick s w = freeze s it) ∨ (¬ freezesNow s w ∧ freezeTick s w = s) := by
  unfold freezesNow freezeTick
  cases hf : s.hoard.freezeNext with
  | some it => exact .inl ⟨it, .inr (by simp), rfl⟩
  | none =>
    dsimp only
    split
    next hb => exact .inl ⟨none, .inl hb, rfl⟩
    next hb => exact .inr ⟨by simp [hb], rfl⟩

theorem freezeTick_keeps (s : State) (w : Word) : FreezeKeeps s.hoard (freezeTick s w).hoard := by
  obtain ⟨it, -, h⟩ | ⟨-, h⟩ := freezeTick_cases s w
  · rw [h]
    exact freeze_keeps s it
  · rw [h]
    exact ⟨rfl, rfl, rfl, rfl, rfl, rfl⟩

theorem freezeTick_unarmed {s : State} (h : s.hoard.hstate ≠ .armed) (w : Word) :
    (freezeTick s w).hoard.hstate = s.hoard.hstate := by
  obtain ⟨it, -, hf⟩ | ⟨-, hf⟩ := freezeTick_cases s w
  · rw [hf, freeze_unarmed h]
  · rw [hf]

/-- A freeze that acts with an arming finds the ring that it starts (R499). -/
theorem freezeTick_ring {s t : State} {w : Word} {lanes : List Nat}
    (h : RingStarts w lanes s.hoard.freezeNext t.hoard) :
    (freezeTick t w).hoard.hstate = if bit w 30 = true ∨ s.hoard.freezeNext ≠ none then .post else .armed := by
  have hf := h.freezeNext
  obtain ⟨it, hnow, ht⟩ | ⟨hnot, ht⟩ := freezeTick_cases t w
  · rw [if_pos (by rwa [freezesNow, hf] at hnow), ht, (freeze_armed h.hstate it).hstate]
  · rw [if_neg (by rwa [freezesNow, hf] at hnot), ht, h.hstate]

theorem freezeTick_freezes {s : State} {w : Word} (h : s.hoard.hstate = .armed) (hnow : freezesNow s w) :
    Freezes s (freezeTick s w) := by
  obtain ⟨it, -, hf⟩ | ⟨hnot, -⟩ := freezeTick_cases s w
  · rw [hf]
    exact freeze_armed h it
  · exact absurd hnow hnot

/-! ### The rows -/

theorem hoardArm_arms {s : State} {w : Word} (hctl : s.hoard.ctlNext = some w) (hon : s.grid.on = true)
    (hnow : s.grid.now = s.grid.tickAt) (hrise : bit w 31 = true) (harm : s.hoard.arm = false)
    (hdev : s.mode.dev ≠ .replay) : exec .hoardArm s = .next (freezeTick (arm s w) w) := by
  refine (exec_hoardArm s).trans (congrArg Host.Outcome.next ?_)
  rw [hctl]
  exact if_pos ⟨hon, hnow, hrise, by simp [harm], hdev⟩

theorem hoardExport_changes {s : State} {w : Word} (hctl : s.hoard.ctlNext = some w) (hon : s.grid.on = true)
    (hnow : s.grid.now = s.grid.tickAt) (hset : bit w 31 = true) (harm : s.hoard.arm = true)
    (hne : bit w 29 ≠ s.hoard.expo) (hdev : s.mode.dev ≠ .replay) :
    exec .hoardExport s = .next (freezeTick (exportChange s w) w) := by
  refine (exec_hoardExport s).trans (congrArg Host.Outcome.next ?_)
  rw [hctl]
  exact if_pos ⟨hon, hnow, hset, harm, hne, hdev⟩

theorem startExport_stopped {s : State} (h : exportKeyOk s = false) : (startExport s).hoard =
    { (beginTrace s (s.hoard.sel.take (laneLimit (s.hoard.hmodeNow == 1) true))).hoard with hstate := .exportStopped } := by
  unfold startExport
  dsimp only
  rw [if_neg (by rw [beginTrace_exportKeyOk, h]; simp), setHState_hoard]

theorem startExport_keeps (s : State) : (startExport s).hoard.arm = s.hoard.arm ∧
    (startExport s).hoard.ctlNext = s.hoard.ctlNext ∧ (startExport s).hoard.pre = s.hoard.pre := by
  unfold startExport
  dsimp only
  split
  · obtain ⟨-, harm, -, hctl, -, hpre, -⟩ := beginBlocks_shows
      ((setHState (beginTrace s (s.hoard.sel.take (laneLimit (s.hoard.hmodeNow == 1) true))) .exporting).onHoard
        (fun h => { h with startNext := true, segIdx := 0 }))
    rw [harm, hctl, hpre]
    simp [beginTrace]
  · simp [beginTrace]

theorem arm_export (s : State) {w : Word} (h : bit w 29 = true) : (arm s w).hoard.arm = true ∧
    (arm s w).hoard.ctlNext = none ∧ (arm s w).hoard.pre = BitVec.ofNat 8 (fld w 23 16) := by
  rw [arm_eq, if_pos h]
  generalize hoardSelected s = sel
  obtain ⟨harm, hctl, hpre⟩ := startExport_keeps (armTaken s w sel)
  exact ⟨harm, hctl, hpre⟩

/-- An arming with EXPORT and no key that it can use stands stopped (R476). -/
theorem arm_stopped {s : State} {w : Word} (h : bit w 29 = true) (hkey : exportKeyOk s = false) :
    (arm s w).hoard.hstate = .exportStopped := by
  rw [arm_eq, if_pos h]
  generalize hoardSelected s = sel
  have hstop := startExport_stopped (s := armTaken s w sel) hkey
  generalize startExport (armTaken s w sel) = t at hstop
  rw [hstop]

theorem bit_or_freeze (w : Word) : bit (w ||| 0x40000000) 30 = true := by
  rw [bit_eq_getLsbD, BitVec.getLsbD_or]
  simp

theorem hoardWrite_of_freeze (s : State) {w : Word} (h : bit w 30 = true) :
    (hoardWrite s w).hoard = { s.hoard with ctlNext := some (merge w 0x40000000 0x40000000) } := by
  have hone : pack [(30, 1, b2n true)] = 0x40000000 := by decide
  unfold hoardWrite
  dsimp only
  rw [h, Bool.true_or, hone]
  rfl

theorem freeze_mode (s : State) (it : Option Item) : (freeze s it).mode = s.mode := by
  have hblock : (hoardBlock s 0x3F 0xFFFF (freezeBody s it)).mode = s.mode := (of_setting (hoardBlock_setting _ _ _ _)).2.2.1
  unfold freeze
  split
  · rfl
  · dsimp only
    rw [← hblock]
    simp

theorem freezeTick_mode (s : State) (w : Word) : (freezeTick s w).mode = s.mode := by
  obtain ⟨it, -, h⟩ | ⟨-, h⟩ := freezeTick_cases s w
  · rw [h, freeze_mode]
  · rw [h]

/-- The fields of HOARD_CTL that a tick takes over beside an ARM and an EXPORT that stand (R347). -/
def ctlTaken (w : Word) (h : HoardState) : HoardState :=
  { h with expoPort := bit w 28, hmode := BitVec.ofNat 2 (fld w 27 26), pre := BitVec.ofNat 8 (fld w 23 16), ctlNext := none }

/-- A write of FREEZE beside an ARM and an EXPORT that stand (R347). -/
theorem hoardCtlTick_freezes {s : State} {w : Word} (hctl : s.hoard.ctlNext = some w) (hset : bit w 31 = true)
    (harm : s.hoard.arm = true) (hexpo : bit w 29 = s.hoard.expo) (hdev : s.mode.dev ≠ .replay) :
    hoardCtlTick s = (freezeTick s w).onHoard (ctlTaken w) := by
  have hrows : (bit w 31 && (!s.hoard.arm || bit w 29 != s.hoard.expo) && s.mode.dev != .replay) = false := by
    simp [harm, hexpo]
  have hmode : (freezeTick s w).mode.dev = s.mode.dev := by
    rw [freezeTick_mode]
  unfold hoardCtlTick
  rw [hctl]
  dsimp only
  rw [hrows]
  simp only [hset, hmode, hdev, Bool.false_eq_true, Bool.not_true, if_false]
  rfl

theorem hoardFrozen_holds {s u : State} {dt : Nat} (h : Arrives s dt u) (hst : u.hoard.hstate = .post)
    (hleft : u.hoard.postLeft = 0) :
    exec (.hoardFrozen dt) s = .next (setHState (u.onHoard (fun h => { h with held := true })) .frozen) := by
  refine (exec_hoardFrozen dt s).trans ((run_arrives h _).trans ?_)
  rw [if_pos ⟨hst, hleft⟩]

/-- Settles O44, by the controls that blocks and freezes keep, and by the state that each row leaves. -/
theorem hoardRecords : Obligations.HoardRecords := by
  unfold Obligations.HoardRecords
  refine ⟨?_, ?_, ?_, ?_, ?_⟩
  · intro s w hctl hon hnow hrise harm hdev
    refine ⟨_, hoardArm_arms hctl hon hnow hrise harm hdev, ?_⟩
    have hkeep := freezeTick_keeps (arm s w) w
    cases hb : bit w 29 with
    | false =>
      obtain ⟨hring, hstart⟩ := arm_ring s hb
      refine ⟨hkeep.arm.trans hring.armed, hkeep.ctlNext.trans hring.ctlNext, hkeep.pre.trans hring.pre,
        fun _ => ⟨freezeTick_ring hring, fun hrec => hkeep.startTick.trans (hstart hrec), hkeep.lanes.trans hring.lanes⟩,
        fun h => by simp at h⟩
    | true =>
      obtain ⟨harm', hctl', hpre⟩ := arm_export s hb
      refine ⟨hkeep.arm.trans harm', hkeep.ctlNext.trans hctl', hkeep.pre.trans hpre, fun h => by simp at h,
        fun _ hkey => ?_⟩
      have hstop := arm_stopped hb hkey
      exact (freezeTick_unarmed (by simp [hstop]) w).trans hstop
  · intro s u dt p h hp hdev
    have hwrite : exec (.hoardFreeze dt p) s = .next (hoardWrite u (hoardCtl u ||| 0x40000000)) :=
      (exec_hoardFreeze dt p s).trans ((hostWrite_arrives h hdev _).trans (by rw [if_neg hp]))
    refine ⟨_, _, hwrite, hoardWrite_of_freeze u (bit_or_freeze _), ?_, fun k _ hk => ?_⟩
    · rw [bit_merge_freeze]
      simp
    · rw [bit_merge_freeze]
      simp [hk]
  · intro s w hctl hst hfreeze hset harm hexpo hdev
    have hpost := freezeTick_freezes hst (.inl hfreeze)
    rw [hoardCtlTick_freezes hctl hset harm hexpo hdev]
    exact ⟨hpost.hstate, hpost.freezeTick, hpost.postLeft, rfl, hpost.glb⟩
  · intro s w hctl hon hnow hset harm hb hexpo hdev
    have hchange : exec .hoardExport s = .next (freezeTick (exportChange s w) w) :=
      hoardExport_changes hctl hon hnow hset harm (by simp [hb, hexpo]) hdev
    rw [exportChange, if_neg (by simp [hb])] at hchange
    obtain ⟨hring, -⟩ := arm_ring s hb
    have hkeep := freezeTick_keeps (arm s w) w
    exact ⟨_, hchange, hkeep.expo.trans (hring.expo.trans hb), hkeep.ctlNext.trans hring.ctlNext, freezeTick_ring hring⟩
  · intro s u dt h hst hleft
    exact ⟨_, hoardFrozen_holds h hst hleft, by rw [setHState_hoard], by rw [setHState_hoard]; rfl,
      setHState_glbHas (by simp [hst])⟩

end Sys2Proof.Machine
end

section
/-!
SUPPORT. Firmware update (R502 to R504, R506 to R512): what a take and a verification leave of the engine and of the
inactive bank, what an activation and a rollback leave, and the stores that a migration converts.
-/

namespace Sys2Proof.Machine

theorem exec_takeBlock (dt : Nat) (b : Byte) (s : State) : exec (.takeBlock dt b) s = execTakeBlock dt b s := rfl
theorem exec_verify (dt : Nat) (s : State) : exec (.verify dt) s = execVerify dt s := rfl
theorem exec_takeComplete (dt : Nat) (ok : Bool) (s : State) : exec (.takeComplete dt ok) s = execTakeComplete dt ok s := rfl
theorem exec_verifyComplete (dt : Nat) (s : State) : exec (.verifyComplete dt) s = execVerifyComplete dt s := rfl
theorem exec_abort (dt : Nat) (p : Port) (s : State) : exec (.abort dt p) s = execAbort dt p s := rfl
theorem exec_activate (dt : Nat) (p : Port) (s : State) : exec (.activate dt p) s = execActivate dt p s := rfl
theorem exec_rollback (dt : Nat) (p : Port) (s : State) : exec (.rollback dt p) s = execRollback dt p s := rfl
theorem exec_confirm (dt : Nat) (p : Port) (s : State) : exec (.confirm dt p) s = execConfirm dt p s := rfl
theorem exec_activationPause (dt : Nat) (s : State) : exec (.activationPause dt) s = execActivationPause dt s := rfl
theorem exec_activationPauseEnd (dt : Nat) (s : State) : exec (.activationPauseEnd dt) s = execActivationPauseEnd dt s := rfl
theorem exec_migrationComplete (dt : Nat) (w : MigWrite) (s : State) :
    exec (.migrationComplete dt w) s = execMigrationComplete dt w s := rfl

/-! ### The banks and the block buffer -/

theorem State.setBank_bank (s : State) (isB : Bool) (b : ImgBank) : (s.setBank isB b).bank isB = b := by cases isB <;> rfl
theorem State.setBank_upd (s : State) (isB : Bool) (b : ImgBank) : (s.setBank isB b).upd = s.upd := by cases isB <;> rfl
theorem State.onUpd_bank (s : State) (f : UpdState → UpdState) (isB : Bool) : (s.onUpd f).bank isB = s.bank isB := rfl
theorem setUState_bank (s : State) (x : UState) (isB : Bool) : (setUState s x).bank isB = s.bank isB := by simp [State.bank]
theorem noteError_bank (s : State) (e : BitVec 5) (isB : Bool) : (noteError s e).bank isB = s.bank isB := rfl

theorem noteError_upd (s : State) (e : BitVec 5) :
    (noteError s e).upd = { s.upd with error := if s.upd.error = 0 then e else s.upd.error } := rfl

theorem bufferBytes_of_buffer {s t : State} (h : t.upd.buffer = s.upd.buffer) :
    bufferBytes t = bufferBytes s ∧ trailer t = trailer s := by
  unfold bufferBytes trailer
  rw [h]
  exact ⟨rfl, rfl⟩

/-! ### A take (R502, R503) -/

/-- A take that ends, before its block is judged: the digest record outside RECEIVING goes, and IDLE begins a new
count. -/
def takeBegun (s : State) : State :=
  (if s.upd.ustate = .receiving then s else
    s.setBank (inactiveB s) { s.bank (inactiveB s) with digest := none }).onUpd
      (fun u => { u with taking := none, taken := if s.upd.ustate == .idle then [] else u.taken })

theorem takeBegun_upd (s : State) : (takeBegun s).upd =
    { s.upd with taking := none, taken := if s.upd.ustate == .idle then [] else s.upd.taken } := by
  unfold takeBegun
  split
  · rfl
  · cases h : inactiveB s <;> rfl

theorem takeBegun_bank (s : State) : ((takeBegun s).bank (inactiveB s)).blocks = (s.bank (inactiveB s)).blocks ∧
    (s.upd.ustate ≠ .receiving → ((takeBegun s).bank (inactiveB s)).digest = none) := by
  unfold takeBegun
  rw [State.onUpd_bank]
  split
  next h => exact ⟨rfl, fun hne => absurd h hne⟩
  next h =>
    rw [State.setBank_bank]
    exact ⟨rfl, fun _ => rfl⟩

/-- A block written to the inactive bank. -/
def blockWritten (s : State) (isB : Bool) (block : Byte) (bytes : Bytes) : State :=
  s.setBank isB { s.bank isB with blocks := Tbl.set (fun _ => []) (s.bank isB).blocks block.toNat bytes }

/-- A written block counted, where it reads back (R503). -/
def blockCounted (s : State) (block : Byte) (ok : Bool) : State :=
  if ok then
    s.onUpd (fun u => { u with
      lastBlock := block, taken := if u.taken.contains block.toNat then u.taken else u.taken ++ [block.toNat] })
  else noteError (s.onUpd (fun u => { u with taken := u.taken.filter (· != block.toNat) })) 0x02

theorem endTake_eq (s : State) (block : Byte) (ok : Bool) : endTake s block ok = setUState
    (if crc32 (bufferBytes s) ≠ trailer s then noteError (takeBegun s) 0x01
      else blockCounted (blockWritten (takeBegun s) (inactiveB s) block (bufferBytes s)) block ok) .receiving := by
  obtain ⟨hbuf, htrail⟩ := bufferBytes_of_buffer (s := s) (t := takeBegun s) (by rw [takeBegun_upd])
  have h : endTake s block ok = setUState
      (if crc32 (bufferBytes (takeBegun s)) ≠ trailer (takeBegun s) then noteError (takeBegun s) 0x01
        else blockCounted (blockWritten (takeBegun s) (inactiveB s) block (bufferBytes (takeBegun s))) block ok)
          .receiving := rfl
  rw [h, hbuf, htrail]

theorem blockWritten_bank (s : State) (isB : Bool) (block : Byte) (bytes : Bytes) :
    Tbl.get (fun _ => []) ((blockWritten s isB block bytes).bank isB).blocks block.toNat = bytes ∧
      ((blockWritten s isB block bytes).bank isB).digest = (s.bank isB).digest := by
  rw [blockWritten, State.setBank_bank]
  exact ⟨Tbl.get_set_same _ _ _ _, rfl⟩

theorem blockCounted_bank (s : State) (block : Byte) (ok isB : Bool) : (blockCounted s block ok).bank isB = s.bank isB := by
  cases ok <;> rfl

theorem blockCounted_taking (s : State) (block : Byte) (ok : Bool) : (blockCounted s block ok).upd.taking = s.upd.taking := by
  cases ok <;> rfl

theorem blockCounted_readBack (s : State) (block : Byte) : (blockCounted s block true).upd.lastBlock = block ∧
    block.toNat ∈ (blockCounted s block true).upd.taken := by
  refine ⟨rfl, ?_⟩
  change block.toNat ∈ (if s.upd.taken.contains block.toNat then s.upd.taken else s.upd.taken ++ [block.toNat])
  split
  next h => exact List.contains_iff_mem.1 h
  next h => simp

theorem blockCounted_differs (s : State) (block : Byte) : block.toNat ∉ (blockCounted s block false).upd.taken ∧
    (s.upd.error = 0 → (blockCounted s block false).upd.error = 2) := by
  refine ⟨?_, fun h => ?_⟩
  · change block.toNat ∉ s.upd.taken.filter (· != block.toNat)
    simp
  · change (if s.upd.error = 0 then 2 else s.upd.error) = 2
    rw [if_pos h]

theorem blockWritten_upd (s : State) (isB : Bool) (block : Byte) (bytes : Bytes) :
    (blockWritten s isB block bytes).upd = s.upd := State.setBank_upd _ _ _

theorem takeComplete_ends {s u : State} {dt : Nat} {b : Byte} (h : Arrives s dt u) (htake : u.upd.taking = some b)
    (ok : Bool) : exec (.takeComplete dt ok) s = .next (endTake u b ok) := by
  refine (exec_takeComplete dt ok s).trans ((run_arrives h _).trans ?_)
  rw [htake]

theorem endTake_bad {s : State} (h : crc32 (bufferBytes s) ≠ trailer s) (block : Byte) (ok : Bool) :
    endTake s block ok = setUState (noteError (takeBegun s) 0x01) .receiving := by rw [endTake_eq, if_pos h]

theorem endTake_good {s : State} (h : crc32 (bufferBytes s) = trailer s) (block : Byte) (ok : Bool) :
    endTake s block ok = setUState
      (blockCounted (blockWritten (takeBegun s) (inactiveB s) block (bufferBytes s)) block ok) .receiving := by
  rw [endTake_eq, if_neg (not_not.2 h)]

theorem endTake_shows (s : State) (block : Byte) (ok : Bool) : (endTake s block ok).upd.ustate = .receiving ∧
    (endTake s block ok).upd.taking = none ∧
      (s.upd.ustate ≠ .receiving → ((endTake s block ok).bank (inactiveB s)).digest = none) := by
  obtain ⟨-, hdigest⟩ := takeBegun_bank s
  by_cases h : crc32 (bufferBytes s) = trailer s
  · rw [endTake_good h, setUState_upd, setUState_bank, blockCounted_taking, blockCounted_bank, blockWritten_upd,
      takeBegun_upd, (blockWritten_bank _ _ _ _).2]
    exact ⟨rfl, rfl, hdigest⟩
  · rw [endTake_bad h, setUState_upd, setUState_bank, noteError_bank, noteError_upd, takeBegun_upd]
    exact ⟨rfl, rfl, hdigest⟩

theorem endTake_discards {s : State} (h : crc32 (bufferBytes s) ≠ trailer s) (block : Byte) (ok : Bool) :
    ((endTake s block ok).bank (inactiveB s)).blocks = (s.bank (inactiveB s)).blocks ∧
      (s.upd.error = 0 → (endTake s block ok).upd.error = 1) := by
  rw [endTake_bad h, setUState_upd, setUState_bank, noteError_bank, noteError_upd, takeBegun_upd]
  exact ⟨(takeBegun_bank s).1, fun he => if_pos he⟩

theorem endTake_writes {s : State} (h : crc32 (bufferBytes s) = trailer s) (block : Byte) (ok : Bool) :
    Tbl.get (fun _ => []) ((endTake s block ok).bank (inactiveB s)).blocks block.toNat = bufferBytes s := by
  rw [endTake_good h, setUState_bank, blockCounted_bank, (blockWritten_bank _ _ _ _).1]

theorem endTake_counts {s : State} (h : crc32 (bufferBytes s) = trailer s) (block : Byte) :
    (endTake s block true).upd.lastBlock = block ∧ block.toNat ∈ (endTake s block true).upd.taken := by
  rw [endTake_good h, setUState_upd]
  exact blockCounted_readBack _ block

theorem endTake_differs {s : State} (h : crc32 (bufferBytes s) = trailer s) (block : Byte) :
    block.toNat ∉ (endTake s block false).upd.taken ∧ (s.upd.error = 0 → (endTake s block false).upd.error = 2) := by
  obtain ⟨hnot, herr⟩ := blockCounted_differs (blockWritten (takeBegun s) (inactiveB s) block (bufferBytes s)) block
  rw [endTake_good h, setUState_upd]
  refine ⟨hnot, fun he => herr ?_⟩
  rw [blockWritten_upd, takeBegun_upd]
  exact he

/-! ### Verification and ABORT (R503, R504) -/

theorem endVerify_failed {s : State} (h : verifyChecks s ≠ 0) :
    endVerify s = setUState (s.onUpd (fun u => { u with error := BitVec.ofNat 5 (verifyChecks s) })) .failed := if_pos h

theorem endVerify_ready {s : State} (h : verifyChecks s = 0) (hrom : s.upd.romOnly = false) : endVerify s = setUState
    (s.setBank (inactiveB s) { s.bank (inactiveB s) with digest := digestRecord s (s.bank (inactiveB s)) }) .ready := by
  unfold endVerify
  dsimp only
  rw [if_neg (not_not.2 h), State.setBank_upd, if_neg (by simp [hrom])]

theorem verifyComplete_ends {s u : State} {dt : Nat} (h : Arrives s dt u) (hst : u.upd.ustate = .verifying) :
    exec (.verifyComplete dt) s = .next (endVerify u) := by
  refine (exec_verifyComplete dt s).trans ((run_arrives h _).trans ?_)
  rw [if_pos hst]

theorem abortWrite_discards {s : State} (h : s.upd.ustate = .receiving ∨ s.upd.ustate = .verifying ∨
    s.upd.ustate = .ready ∨ s.upd.ustate = .failed) :
    abortWrite s = setUState (s.onUpd (fun u => { u with taking := none, taken := [], error := 0 })) .idle := by
  unfold abortWrite
  obtain h | h | h | h := h <;> rw [h]

/-- Settles O46, by what a take, a verification and an ABORT leave of the engine and of the inactive bank. -/
theorem updatesAreTransferred : Obligations.UpdatesAreTransferred := by
  unfold Obligations.UpdatesAreTransferred
  refine ⟨?_, ?_, ?_, ?_⟩
  · intro s u dt h hopen
    refine ⟨fun b => ⟨takeWrite u b, ?_, rfl, rfl⟩, verifyWrite u, ?_, ?_⟩
    · exact (exec_takeBlock dt b s).trans ((hostFrame_arrives h _).trans (by rw [if_pos hopen]))
    · exact (exec_verify dt s).trans ((hostFrame_arrives h _).trans (by rw [if_pos hopen]))
    · rw [verifyWrite, setUState_upd]
      exact ⟨rfl, rfl⟩
  · intro s u dt ok b h htake
    obtain ⟨hst, htaking, hdigest⟩ := endTake_shows u b ok
    refine ⟨_, takeComplete_ends h htake ok, hst, htaking, hdigest, fun hcrc => endTake_discards hcrc b ok, fun hcrc =>
      ⟨endTake_writes hcrc b ok, ?_, ?_⟩⟩
    · rintro rfl
      exact endTake_counts hcrc b
    · rintro rfl
      exact endTake_differs hcrc b
  · intro s u dt h hst hrom
    refine ⟨_, verifyComplete_ends h hst, ?_⟩
    split
    next hok =>
      rw [endVerify_ready hok hrom, setUState_upd, setUState_bank, State.setBank_bank]
      exact ⟨rfl, rfl⟩
    next hbad =>
      rw [endVerify_failed hbad, setUState_upd]
      exact ⟨rfl, rfl⟩
  · intro s u dt p h hdev hst
    refine ⟨_, (exec_abort dt p s).trans (hostWrite_arrives h hdev _), ?_⟩
    rw [abortWrite_discards hst, setUState_upd]
    exact ⟨rfl, rfl, rfl, rfl⟩

end Sys2Proof.Machine
end

section
/-!
SUPPORT. Activation, rollback and migration (R506 to R512): the engine and the non-volatile store that each of them
leaves.
-/

namespace Sys2Proof.Machine

/-! ### ACTIVATE, ROLLBACK and CONFIRM -/

theorem activateWrite_upd (s : State) (rolling : Bool) : (activateWrite s rolling).upd =
    { s.upd with activateAt := some (s.grid.now + 400000), rolling := rolling, ustate := .activating } := by
  rw [activateWrite, setUState_upd]
  rfl

theorem confirmWrite_nv (s : State) : (confirmWrite s).upd.ustate = .idle ∧ (confirmWrite s).nv.unconfirmed = false ∧
    (confirmWrite s).nv.oldCfg = false ∧
      (confirmWrite s).nv.rollback = if s.nv.rollback.toNat < imgNat (s.bank s.upd.bankB) 16 4 then
        BitVec.ofNat 32 (imgNat (s.bank s.upd.bankB) 16 4) else s.nv.rollback := by
  rw [confirmWrite]
  simp

theorem raisedIndex_toNat (r : Word) (b : ImgBank) :
    (if r.toNat < imgNat b 16 4 then BitVec.ofNat 32 (imgNat b 16 4) else r).toNat = max r.toNat (imgNat b 16 4) := by
  have hlt := imgNat_four_lt b 16
  split
  next h => rw [BitVec.toNat_ofNat, Nat.mod_eq_of_lt hlt, Nat.max_eq_right h.le]
  next h => rw [Nat.max_eq_left (Nat.not_lt.1 h)]

/-! ### The pause (R507) -/

theorem beginPause_upd (s : State) (a : Nat) : (beginPause s a).upd =
    { s.upd with pauseA := some a, activateAt := none, pauseSpan := some (a - 8000, a + 100000) } := rfl

theorem activationPause_begins {s u : State} {dt a : Nat} (h : Arrives s dt u) (hact : u.upd.activateAt = some a)
    (hon : u.grid.on = true) (hlt : u.grid.gridAt < a) (hle : a ≤ (nextInstant u).2)
    (heq : (nextInstant u).2 = u.grid.now + 8000) :
    exec (.activationPause dt) s = .next (beginPause u (nextInstant u).2) := by
  refine (exec_activationPause dt s).trans ((run_arrives h _).trans ?_)
  rw [hact]
  exact congrArg Host.Outcome.next (if_pos ⟨hon, hlt, hle, heq⟩)

theorem activationPauseEnd_ends {s u : State} {dt a : Nat} (h : Arrives s dt u) (hpause : u.upd.pauseA = some a)
    (hover : a + 100000 ≤ u.grid.now) : exec (.activationPauseEnd dt) s = .next (endPause u) := by
  refine (exec_activationPauseEnd dt s).trans ((run_arrives h _).trans ?_)
  rw [hpause]
  exact congrArg Host.Outcome.next (if_pos hover)

/-- What the other bank runs with. -/
structure OtherRuns (s t : State) : Prop where
  pauseA : t.upd.pauseA = none
  bankB : t.upd.bankB = inactiveB s
  bootB : t.nv.bootB = inactiveB s
  unconfirmed : t.nv.unconfirmed = !s.upd.rolling

theorem endPause_runs (s : State) : OtherRuns s (endPause s) := by
  unfold endPause
  dsimp only
  split
  · refine ⟨?_, ?_, ?_, ?_⟩ <;> simp [runningImage]
  · exact ⟨rfl, rfl, rfl, rfl⟩

theorem endPause_rolled {s : State} (h : s.upd.rolling = true) : (endPause s).upd.ustate = .idle := by
  unfold endPause
  dsimp only
  rw [if_pos h, setUState_upd]

theorem endPause_migrates {s : State} (h : s.upd.rolling = false) : (endPause s).upd.migrating = true := by
  unfold endPause
  dsimp only
  rw [if_neg (by simp [h])]
  rfl

/-! ### Migration (R509) -/

/-- The configuration store with a converted copy in the place that is not the newer one's. -/
theorem migrateCfg_due {s : State} (h : cfgDue s = true) (ok : Bool) :
    ∃ c, ((migrateCfg s ok).nv.cfgA = some c ∨ (migrateCfg s ok).nv.cfgB = some c) ∧ c.format = s.upd.cfgFormat ∧
      c.converted = true ∧ c.valid = ok := by
  unfold cfgDue at h
  unfold migrateCfg
  cases hc : newerCfg s with
  | none => simp [hc] at h
  | some c =>
    rw [hc] at h
    dsimp only at h ⊢
    rw [if_neg (by simp [h])]
    cases newerIsA CfgCopy.tick CfgCopy.valid s.nv.cfgA s.nv.cfgB with
    | false => exact ⟨_, .inl rfl, rfl, rfl, rfl⟩
    | true => exact ⟨_, .inr rfl, rfl, rfl, rfl⟩

theorem migrateCal_due {s : State} (h : calDue s = true) (ok : Bool) :
    ∃ c, ((migrateCal s ok).nv.calA = some c ∨ (migrateCal s ok).nv.calB = some c) ∧ c.format = s.upd.cfgFormat ∧
      c.converted = true ∧ c.valid = ok := by
  unfold calDue at h
  unfold migrateCal
  cases hc : newerCal s with
  | none => simp [hc] at h
  | some c =>
    rw [hc] at h
    dsimp only at h ⊢
    rw [if_neg (by simp [h])]
    cases newerIsA CalCopy.tick CalCopy.valid s.nv.calA s.nv.calB with
    | false => exact ⟨_, .inl rfl, rfl, rfl, rfl⟩
    | true => exact ⟨_, .inr rfl, rfl, rfl, rfl⟩

theorem migrateCfg_settled {s : State} (h : cfgDue s = false) (ok : Bool) : migrateCfg s ok = s := by
  unfold cfgDue at h
  unfold migrateCfg
  cases hc : newerCfg s with
  | none => rfl
  | some c =>
    rw [hc] at h
    dsimp only at h ⊢
    rw [if_pos (by simp [h])]

theorem migrateCal_settled {s : State} (h : calDue s = false) (ok : Bool) : migrateCal s ok = s := by
  unfold calDue at h
  unfold migrateCal
  cases hc : newerCal s with
  | none => rfl
  | some c =>
    rw [hc] at h
    dsimp only at h ⊢
    rw [if_pos (by simp [h])]

/-- The configuration store's conversion leaves the calibration store and the engine alone, and the other way round. -/
theorem migrateCfg_kept (s : State) (ok : Bool) : (migrateCfg s ok).upd = s.upd ∧ (migrateCfg s ok).nv.calA = s.nv.calA ∧
    (migrateCfg s ok).nv.calB = s.nv.calB ∧ calDue (migrateCfg s ok) = calDue s := by
  unfold migrateCfg
  split
  · exact ⟨rfl, rfl, rfl, rfl⟩
  · dsimp only
    split
    · exact ⟨rfl, rfl, rfl, rfl⟩
    · exact ⟨rfl, rfl, rfl, rfl⟩

theorem migrateCal_kept (s : State) (ok : Bool) : (migrateCal s ok).upd = s.upd ∧ (migrateCal s ok).nv.cfgA = s.nv.cfgA ∧
    (migrateCal s ok).nv.cfgB = s.nv.cfgB := by
  unfold migrateCal
  split
  · exact ⟨rfl, rfl, rfl⟩
  · dsimp only
    split <;> exact ⟨rfl, rfl, rfl⟩

/-- Both stores converted. -/
def storesMigrated (s : State) (w : MigWrite) : State := migrateCal (migrateCfg s w.cfgOk) w.calOk

/-- Whether a store that was to be converted could not be written (R509). -/
def writeFails (s : State) (w : MigWrite) : Bool := cfgDue s && !w.cfgOk || calDue s && !w.calOk

theorem endMigration_eq (s : State) (w : MigWrite) : endMigration s w = setUState
    ((if writeFails s w then noteError (storesMigrated s w) 0x0D else storesMigrated s w).onUpd
      (fun u => { u with migrating := false })) .unconfirmed := rfl

theorem endMigration_nv (s : State) (w : MigWrite) : (endMigration s w).nv = (storesMigrated s w).nv := by
  rw [endMigration_eq]
  simp only [setUState_kept]
  split <;> rfl

theorem endMigration_upd (s : State) (w : MigWrite) : (endMigration s w).upd.ustate = .unconfirmed ∧
    (endMigration s w).upd.migrating = false ∧
      (writeFails s w = true → s.upd.error = 0 → (endMigration s w).upd.error = 0x0D) := by
  have hupd : (storesMigrated s w).upd = s.upd := by rw [storesMigrated, (migrateCal_kept _ _).1, (migrateCfg_kept _ _).1]
  rw [endMigration_eq, setUState_upd]
  refine ⟨rfl, rfl, fun hbad herr => ?_⟩
  rw [if_pos hbad]
  rw [← hupd] at herr
  exact if_pos herr

theorem storesMigrated_cfg (s : State) (w : MigWrite) : (storesMigrated s w).nv.cfgA = (migrateCfg s w.cfgOk).nv.cfgA ∧
    (storesMigrated s w).nv.cfgB = (migrateCfg s w.cfgOk).nv.cfgB := (migrateCal_kept _ _).2

theorem migrationComplete_ends {s u : State} {dt : Nat} (h : Arrives s dt u) (hmig : u.upd.migrating = true)
    (hrest : u.mode.restarting = false) (w : MigWrite) :
    exec (.migrationComplete dt w) s = .next (endMigration u w) := by
  refine (exec_migrationComplete dt w s).trans ((run_arrives h _).trans ?_)
  rw [if_pos ⟨hmig, by simp [hrest]⟩]

/-- Settles O47, by the engine after each write and after the pause, and by one lemma for each store that is converted. -/
theorem updatesActivate : Obligations.UpdatesActivate := by
  unfold Obligations.UpdatesActivate
  refine ⟨?_, ?_, ?_, ?_⟩
  · intro s u dt p h hp hdev hsess
    refine ⟨fun hok => ⟨activateWrite u false, ?_, ?_⟩, fun hok => ⟨activateWrite u true, ?_, ?_⟩,
      fun hst => ⟨confirmWrite u, ?_, ?_⟩⟩
    · exact (exec_activate dt p s).trans ((hostWrite_arrives h hdev _).trans (by rw [if_pos ⟨hsess, hp, hok⟩]))
    · rw [activateWrite_upd]
      exact ⟨rfl, rfl, rfl⟩
    · exact (exec_rollback dt p s).trans ((hostWrite_arrives h hdev _).trans (by rw [if_pos ⟨hsess, hp, hok⟩]))
    · rw [activateWrite_upd]
      exact ⟨rfl, rfl, rfl⟩
    · exact (exec_confirm dt p s).trans ((hostWrite_arrives h hdev _).trans (by rw [if_pos ⟨hsess, hp, hst⟩]))
    · obtain ⟨hidle, hunconf, hold, hroll⟩ := confirmWrite_nv u
      exact ⟨hidle, hunconf, hold, by rw [hroll, raisedIndex_toNat]⟩
  · intro s u dt a h hact hon hlt hle heq
    refine ⟨_, activationPause_begins h hact hon hlt hle heq, ?_⟩
    rw [portBusy, beginPause_upd]
    exact ⟨rfl, rfl, Bool.or_true _⟩
  · intro s u dt a h hpause hover
    obtain ⟨hpauseA, hbank, hboot, hunconf⟩ := endPause_runs u
    exact ⟨_, activationPauseEnd_ends h hpause hover, hpauseA, hbank, hboot, hunconf, endPause_rolled, endPause_migrates⟩
  · intro s u dt w h hmig hrest
    obtain ⟨hst, hdone, herr⟩ := endMigration_upd u w
    obtain ⟨hA, hB⟩ := storesMigrated_cfg u w
    obtain ⟨hupd, hcalA, hcalB, hcalDue⟩ := migrateCfg_kept u w.cfgOk
    refine ⟨_, migrationComplete_ends h hmig hrest w, hst, hdone, ?_, ?_, ?_, ?_, ?_⟩
    · rintro hbad
      refine herr ?_
      simpa [writeFails] using hbad
    · intro hno
      rw [endMigration_nv, hA, hB, migrateCfg_settled hno]
      exact ⟨rfl, rfl⟩
    · intro hno
      rw [endMigration_nv, storesMigrated, migrateCal_settled (hcalDue.trans hno)]
      exact ⟨hcalA, hcalB⟩
    · intro hdue
      rw [endMigration_nv, hA, hB]
      exact migrateCfg_due hdue w.cfgOk
    · intro hdue
      rw [endMigration_nv, storesMigrated, ← hupd]
      exact migrateCal_due (hcalDue.trans hdue) w.calOk

end Sys2Proof.Machine
end

section
/-!
SUPPORT. What carrying out a trace leaves of the device (R496): every block acts on the replayed lanes alone, whose state
comes back into the replay, so the endpoints and the configuration of the device and the lanes of the replay stay.
-/

namespace Sys2Proof.Machine

/-! ### What a block keeps -/

/-- The endpoints, the words and the lanes of the replay stay, and a replay that has begun does not load again. -/
structure Replays (s t : State) : Prop where
  eps : t.eps = s.eps
  cfg : t.cfg = s.cfg
  lanes : t.replay.lanes = s.replay.lanes
  lastAt : t.replay.lastAt = s.replay.lastAt
  rstate : s.replay.rstate ≠ .loading → t.replay.rstate ≠ .loading

theorem Replays.refl (s : State) : Replays s s := ⟨rfl, rfl, rfl, rfl, id⟩

theorem Replays.trans {s t u : State} (h : Replays s t) (k : Replays t u) : Replays s u :=
  ⟨k.eps.trans h.eps, k.cfg.trans h.cfg, k.lanes.trans h.lanes, k.lastAt.trans h.lastAt, fun x => k.rstate (h.rstate x)⟩

theorem Replays.foldl {α : Type} {f : State → α → State} (h : ∀ s a, Replays s (f s a)) (l : List α) (s : State) :
    Replays s (l.foldl f s) :=
  List.foldlRecOn (motive := Replays s) l f (.refl s) fun t ht a _ => ht.trans (h t a)

theorem Replays.ite {c : Prop} [Decidable c] {s t u : State} (ht : c → Replays s t) (hu : ¬ c → Replays s u) :
    Replays s (if c then t else u) := by
  split
  next h => exact ht h
  next h => exact hu h

/-- The run of the replay changes without its lanes, its time and its state. -/
theorem onReplay_replays (s : State) {f : ReplayRun → ReplayRun} (hlanes : (f s.replay).lanes = s.replay.lanes)
    (hlast : (f s.replay).lastAt = s.replay.lastAt) (hstate : (f s.replay).rstate = s.replay.rstate) :
    Replays s (s.onReplay f) := ⟨rfl, rfl, hlanes, hlast, fun h => hstate ▸ h⟩

theorem replayAbsorb_replays (s v : State) : Replays s (replayAbsorb s v) := by
  unfold replayAbsorb
  extract_lets s1 s2
  have h2 : Replays s s2 := ⟨rfl, rfl, rfl, rfl, id⟩
  refine h2.trans (.foldl (fun u n => ?_) _ _)
  exact ⟨rfl, rfl, rfl, rfl, id⟩

theorem onReplayed_replays (s : State) (f : State → State) : Replays s (onReplayed s f) := replayAbsorb_replays _ _

theorem replayStop_replays (s : State) {st : ReplayState} (h : st ≠ .loading) (reason : Byte) :
    Replays s (replayStop s st reason) := ⟨rfl, rfl, rfl, rfl, fun _ => h⟩

theorem abandon_replays (s : State) (reason : Byte) : Replays s (abandon s reason) :=
  replayStop_replays s (by decide) reason

/-! ### Checkpoints, commits and happenings -/

theorem replayWord_replays (s : State) (a : Nat) (w : Word) : Replays s (replayWord s a w) :=
  onReplay_replays s rfl rfl rfl

theorem replayWords_replays (s : State) (a : Nat) (ws : List Word) : Replays s (replayWords s a ws) :=
  .foldl (fun _ _ => replayWord_replays _ _ _) _ _

theorem replayLaneCfg_replays (s : State) (n : Nat) (parts : Bytes) (pos : List Nat) (desc : Nat → Bytes) :
    Replays s (replayLaneCfg s n parts pos desc) := by
  unfold replayLaneCfg
  extract_lets c s1 s2
  have h2 : Replays s s2 := (replayWords_replays s _ _).trans (.ite (fun _ => replayWords_replays _ _ _)
    fun _ => .ite (fun _ => replayWords_replays _ _ _) fun _ => .refl _)
  exact h2.trans (.foldl (fun _ _ => replayWords_replays _ _ _) _ _)

theorem lanesStarted_replays (s : State) : Replays s (lanesStarted s) := by
  unfold lanesStarted
  dsimp only
  split
  · exact .refl s
  · exact onReplay_replays s rfl rfl rfl

theorem replayCheckpoint_replays (s : State) (b : Block) : Replays s (replayCheckpoint s b) := by
  unfold replayCheckpoint
  dsimp only
  refine .ite (fun _ => .refl s) fun _ => .ite (fun _ => ?_) fun _ => ?_
  · exact Replays.trans (replayLaneCfg_replays _ _ _ _ _) (replayStop_replays _ (by decide) 5)
  · refine Replays.trans ?_ (lanesStarted_replays _)
    refine Replays.trans ?_ (onReplay_replays _ rfl rfl rfl)
    exact Replays.trans (replayLaneCfg_replays _ _ _ _ _) (onReplayed_replays _ _)

theorem replayCommit_replays (s : State) (b : Block) : Replays s (replayCommit s b) := by
  unfold replayCommit
  dsimp only
  refine .ite (fun _ => .refl s) fun _ => ?_
  refine Replays.trans (Replays.trans ?_ (replayLaneCfg_replays _ _ _ _ _)) (onReplayed_replays _ _)
  refine .ite (fun _ => ?_) fun _ => ?_
  · refine Replays.trans ?_ (replayWord_replays _ _ _)
    refine Replays.trans ?_ (replayWord_replays _ _ _)
    refine Replays.trans ?_ (replayWord_replays _ _ _)
    exact Replays.trans (onReplay_replays _ rfl rfl rfl) (replayWord_replays _ _ _)
  · exact Replays.trans (onReplay_replays _ rfl rfl rfl) (replayWord_replays _ _ _)

theorem replayHappening_replays (s : State) (b : Block) : Replays s (replayHappening s b) := by
  unfold replayHappening
  dsimp only
  exact .ite (fun _ => .refl s) fun _ => .ite (fun _ => by exact onReplay_replays s rfl rfl rfl) fun _ => onReplayed_replays _ _

/-! ### Frames -/

theorem afterFrame_replays (s : State) (n : Nat) (num : BitVec 48) (cut : Bool) : Replays s (afterFrame s n num cut) := by
  unfold afterFrame
  exact Replays.trans (onReplayed_replays s _) (onReplay_replays _ rfl rfl rfl)

/-- A frame of a replayed lane that has been run. -/
theorem frameRun_replays (s v : State) (n : Nat) (num : BitVec 48) (cut : Bool) :
    Replays s (afterFrame (replayAbsorb s v) n num cut) := (replayAbsorb_replays s v).trans (afterFrame_replays _ _ _ _)

theorem replayAknun_replays (s : State) (b : Block) : Replays s (replayAknun s b) := by
  unfold replayAknun
  dsimp only
  refine .ite (fun _ => frameRun_replays _ _ _ _ _) fun _ => .ite (fun _ => frameRun_replays _ _ _ _ _) fun _ => ?_
  split
  · exact abandon_replays s 6
  · exact .ite (fun _ => abandon_replays s 6) fun _ => frameRun_replays _ _ _ _ _

theorem replayEdges_replays (s : State) (b : Block) : Replays s (replayEdges s b) := frameRun_replays _ _ _ _ _

/-! ### Raw edges -/

theorem keepTail_replays (n : Nat) (s : State) (es : List Int) : Replays s (rawFrames.keepTail n s es) :=
  onReplayed_replays s _

theorem rawFrames_replays (n : Nat) (stop : Int) (tail : List Int) (fuel : Nat) (ps : List Pulse)
    (levs : List (Nat × Nat)) (s : State) : Replays s (rawFrames n stop tail fuel ps levs s) := by
  induction fuel generalizing ps levs s with
  | zero => exact .refl s
  | succ fuel ih =>
    cases ps with
    | nil => exact keepTail_replays n s tail
    | cons p ps =>
      simp only [rawFrames]
      refine .ite (fun _ => (frameRun_replays _ _ _ _ _).trans (ih _ _ _)) fun _ =>
        .ite (fun _ => onReplayed_replays _ _) fun _ => ?_
      split
      · exact .refl s
      · exact .ite (fun _ => abandon_replays s 6) fun _ => (frameRun_replays _ _ _ _ _).trans (ih _ _ _)

theorem rawSent_replays (n fuel : Nat) (xs : List Int) (levs : List (Nat × Nat)) (s : State) :
    Replays s (rawSent n fuel xs levs s) := by
  induction fuel generalizing xs levs s with
  | zero => exact .refl s
  | succ fuel ih =>
    simp only [rawSent]
    split
    · exact onReplayed_replays s _
    · exact ih _ _ _
    · exact (frameRun_replays _ _ _ _ _).trans (ih _ _ _)

theorem rawRuns_replays (s : State) (n : Nat) (edges : List Int) (levs : List (Nat × Nat)) :
    Replays s (rawRuns s n edges levs) := .foldl (fun _ _ => frameRun_replays _ _ _ _ _) _ _

theorem replayRaw_replays (s : State) (b : Block) : Replays s (replayRaw s b) := by
  unfold replayRaw
  dsimp only
  split
  · exact (onReplayed_replays s _).trans (rawFrames_replays _ _ _ _ _ _ _)
  · exact rawSent_replays _ _ _ _ _
  · exact rawRuns_replays _ _ _ _
  · exact rawRuns_replays _ _ _ _
  · exact .refl s

/-! ### The replay snapshot -/

theorem replayDigest_replays (s : State) (b : Block) : Replays s (replayDigest s b) := by
  unfold replayDigest
  dsimp only
  split
  · refine .ite (fun _ => ?_) fun _ => replayAbsorb_replays s _
    have hlost (u : State) : Replays s (replayAbsorb s u) := replayAbsorb_replays s u
    split
    · refine .ite (fun _ => ?_) fun _ => ?_
      · refine Replays.trans ?_ (onReplay_replays _ rfl rfl rfl)
        exact Replays.trans (hlost _) (onReplay_replays _ rfl rfl rfl)
      · exact Replays.trans (hlost _) (onReplay_replays _ rfl rfl rfl)
    · exact Replays.trans (hlost _) (onReplay_replays _ rfl rfl rfl)
  · exact replayAbsorb_replays s _

/-! ### A trace tick -/

theorem replayGap_replays (s : State) (n : Nat) : Replays s (replayGap s n) := onReplay_replays s rfl rfl rfl

theorem replayBlockType_replays (s : State) (b : Block) : Replays s (replayBlockType s b) := by
  unfold replayBlockType
  split
  · exact replayCheckpoint_replays s b
  · exact replayCommit_replays s b
  · exact (onReplayed_replays s _).trans (onReplay_replays _ rfl rfl rfl)
  · exact replayHappening_replays s b
  · exact replayDigest_replays s b
  · exact .ite (fun _ => replayAknun_replays s b) fun _ => .refl s
  · exact .ite (fun _ => replayEdges_replays s b) fun _ => .refl s
  · exact .ite (fun _ => replayRaw_replays s b) fun _ => .refl s
  · exact .refl s

theorem replayBlock_replays (s : State) (b : Block) : Replays s (replayBlock s b) := by
  unfold replayBlock
  dsimp only
  refine .ite (fun _ => abandon_replays s 3) fun _ => .ite (fun _ => abandon_replays s 4) fun _ => ?_
  refine Replays.trans ?_ (replayBlockType_replays _ b)
  refine .ite (fun _ => ?_) fun _ => ?_
  · exact Replays.trans (onReplay_replays _ rfl rfl rfl) (replayGap_replays _ _)
  · exact onReplay_replays _ rfl rfl rfl

theorem replayBlocks_replays (fuel n : Nat) (s : State) : Replays s (replayBlocks fuel n s) := by
  induction fuel generalizing n s with
  | zero => exact .refl s
  | succ fuel ih =>
    simp only [replayBlocks]
    refine .ite (fun _ => .refl s) fun _ => Replays.trans (Replays.trans ?_ (replayBlock_replays _ _)) (ih _ _)
    exact onReplay_replays s rfl rfl rfl

end Sys2Proof.Machine
end

section
/-!
SUPPORT. The words of a trace, its beginning and its end (R479, R494, R495, R497).
-/

namespace Sys2Proof.Machine

theorem exec_replayInject (dt off : Nat) (d : Word) (s : State) :
    exec (.replayInject dt off d) s = execReplayInject dt off d s := rfl
theorem exec_traceStart (s : State) : exec .traceStart s = execTraceStart s := rfl
theorem exec_replayTick (s : State) : exec .replayTick s = execReplayTick s := rfl
theorem exec_replayEnd (dt : Nat) (s : State) : exec (.replayEnd dt) s = execReplayEnd dt s := rfl

/-! ### Words of the trace (R335, R494) -/

/-- The access check of a word of the trace: IND_STATUS begins again, with a COUNT of one. -/
def wordJudged (s : State) : State := noteCount (clearInd s .u) .u 1

theorem wordJudged_kept (s : State) : (wordJudged s).replay = s.replay ∧ (wordJudged s).mode = s.mode ∧
    (wordJudged s).u.indStat = { count := 1 } := ⟨rfl, rfl, rfl⟩

theorem replayInject_judges {s u : State} {dt : Nat} (h : FrameArrives s dt .u u) (off : Nat) (d : Word) :
    exec (.replayInject dt off d) s = .next (
      if u.mode.dev = .replay ∧ off = u.replay.taken ∧ u.replay.buffer.length + 4 ≤ 1048576 then injectWord (wordJudged u) d
      else noteDenied (wordJudged u) .u (0x400000 + off % 0x400000)) :=
  (exec_replayInject dt off d s).trans (hostFrame_arrives h _)

theorem injectWord_replay (s : State) (d : Word) : (injectWord s d).replay =
    { s.replay with
      taken := s.replay.taken + 4, buffer := s.replay.buffer ++ beBytes 4 d.toNat
      rstate := if s.replay.rstate = .waiting then .loading else s.replay.rstate } := rfl

theorem noteDenied_trace (s : State) (off : Nat) (hclear : s.u.indStat = { count := 1 }) :
    (noteDenied s .u (0x400000 + off)).replay = s.replay ∧
      (noteDenied s .u (0x400000 + off)).u.indStat.denied = true ∧
        (noteDenied s .u (0x400000 + off)).u.indStat.first =
          BitVec.ofNat 22 ((0x400000 + s.replay.taken % 0x400000) / 4) := by
  have hport : s.port .u = s.u := rfl
  unfold noteDenied
  dsimp only
  rw [if_pos ⟨rfl, Nat.le_add_right _ _⟩]
  generalize 0x400000 + s.replay.taken % 0x400000 = a
  refine ⟨rfl, rfl, ?_⟩
  change (noteFirst s.u.indStat a).first = _
  rw [hclear]
  rfl

/-! ### The beginning of a trace (R479, R495) -/

/-- Whether the map block at the front of the input is this device's and this firmware's (R495). -/
def ownTrace (s : State) (x : Bytes) : Bool :=
  fieldN x 12 2 == s.upd.fwVersion.toNat && fieldN x 8 3 == devId.toNat / 256

/-- What a map block that passes the device check fixes (R495). -/
def traceTaken (x : Bytes) (r : ReplayRun) : ReplayRun :=
  { r with
    buffer := r.buffer.drop (blockLen r.buffer), lanes := mapLanes x, checked := true, starting := true, raw := fieldN x 15 1 == 1
    digest := BitVec.ofNat 32 (fieldN x 36 4)
    cfg := { live := cfgSet [] kGridCtl (BitVec.ofNat 32 (fieldN x 32 4)) }
    asmR := { stopped := none }
    grid := { on := true, tstate := .locked, ownNum := false, unlocked := false
              now := replayEpoch, tickAt := replayEpoch, gridAt := replayEpoch
              pkg := BitVec.ofNat 2 (fieldN x 14 1) } }

theorem traceTaken_shows (x : Bytes) (r : ReplayRun) : (traceTaken x r).checked = true ∧
    (traceTaken x r).starting = true ∧ (traceTaken x r).lanes = mapLanes x ∧
      (traceTaken x r).raw = (fieldN x 15 1 == 1) := by simp only [traceTaken, and_self]

theorem replayStart_eq (s : State) {b : Block} (hb : b = blockAt s.replay.buffer) : replayStart s =
    if !knownType b.typ then s.onReplay (fun r => { r with buffer := r.buffer.drop (blockLen r.buffer) })
    else if b.typ ≠ 0x10 ∨ b.body.length ≠ 128 then replayStop s .refused 1
    else if !b.crcOk then abandon s 3
    else if !ownTrace s b.body then replayStop s .refused 2
    else s.onReplay (traceTaken b.body) := by
  subst hb
  rfl

theorem traceStart_starts {s : State} (hdev : s.mode.dev = .replay) (hload : s.replay.rstate = .loading)
    (hcheck : s.replay.checked = false) (hrest : s.mode.restarting = false) (htyp : fieldN s.replay.buffer 0 1 ≠ 0)
    (hready : blockReady s.replay.buffer = true) : exec .traceStart s = .next (replayStart s) := by
  refine (exec_traceStart s).trans (congrArg Host.Outcome.next ?_)
  exact if_pos ⟨hdev, hload, by simp [hcheck], by simp [hrest], htyp, hready⟩

theorem knownType_map : knownType 0x10 = true := by decide

theorem replayStart_own {s : State} {b : Block} (hb : b = blockAt s.replay.buffer) (htyp : b.typ = 0x10)
    (hlen : b.body.length = 128) (hcrc : b.crcOk = true) : replayStart s =
      if ownTrace s b.body then s.onReplay (traceTaken b.body) else replayStop s .refused 2 := by
  rw [replayStart_eq s hb, if_neg (by simp [htyp, knownType_map]), if_neg (by simp [htyp, hlen]), if_neg (by simp [hcrc])]
  cases ownTrace s b.body <;> rfl

/-! ### A tick of the trace (R496) -/

theorem replayTick_advances {s : State} {k : Nat} (hspan : nextSpan s = some k) (hgo : replayGoing s = true)
    (hnow : s.grid.now = s.grid.tickAt) (hlast : s.replay.lastAt ≠ some s.grid.tickAt) :
    exec .replayTick s = .next (replayBlocks (k / 12 + 1) k
      (s.onReplay (fun r => { r with rstate := .running, lastAt := some s.grid.tickAt }))) := by
  refine (exec_replayTick s).trans (congrArg Host.Outcome.next ?_)
  rw [hspan]
  exact if_pos ⟨hgo, hnow, hlast⟩

/-! ### The end of a trace (R497) -/

/-- Whether a block breaks the sequence (R497). -/
def breaksSeq (s : State) (b : Block) : Bool :=
  match s.replay.seq with
  | some q => q != b.seq && !b.gap
  | none => false

theorem replayEnd_judges {s u : State} {dt : Nat} (h : Arrives s dt u) (hopen : replayOpen u = true)
    (hlen : 8 ≤ u.replay.buffer.length) : exec (.replayEnd dt) s = .next (
      if fieldN u.replay.buffer 0 1 = 0 then replayStop u .done 0
      else if replayGoing u ∧ blockReady u.replay.buffer then
        if !(blockAt u.replay.buffer).crcOk then abandon u 3
        else if breaksSeq u (blockAt u.replay.buffer) then abandon u 4 else u
      else u) := by
  refine (exec_replayEnd dt s).trans ((run_arrives h _).trans ?_)
  exact congrArg Host.Outcome.next (if_pos ⟨hopen, hlen⟩)

/-- Settles O45, by what the access check, the first block, the blocks of a tick and the end of a trace leave of the
replay. -/
theorem replaysRun : Obligations.ReplaysRun := by
  unfold Obligations.ReplaysRun
  refine ⟨?_, ?_, ?_, ?_⟩
  · intro s u dt off d h
    have hjudge := replayInject_judges h off d
    obtain ⟨hrun, -, hstat⟩ := wordJudged_kept u
    refine ⟨fun hdev hoff hroom => ?_, fun hno => ?_⟩
    · rw [if_pos ⟨hdev, hoff, hroom⟩] at hjudge
      refine ⟨_, hjudge, ?_⟩
      rw [injectWord_replay, hrun]
      exact ⟨rfl, rfl, fun hwait => if_pos hwait⟩
    · rw [if_neg fun ⟨hdev, hoff, hroom⟩ => hno.elim (· hdev) (·.elim (· hoff) (Nat.not_lt.2 hroom))] at hjudge
      obtain ⟨hkeep, hden, hfirst⟩ := noteDenied_trace (wordJudged u) (off % 0x400000) hstat
      rw [hrun] at hkeep hfirst
      exact ⟨_, hjudge, hkeep, hden, hfirst⟩
  · intro s b hdev hload hcheck hrest htyp0 hready hb
    have hstart := traceStart_starts hdev hload hcheck hrest htyp0 hready
    refine ⟨fun hknown => ?_, fun hknown hfmt => ?_, fun htyp hlen hcrc => ?_, fun htyp hlen hcrc => ?_⟩
    · rw [replayStart_eq s hb, if_pos (by simp [hknown])] at hstart
      exact ⟨_, hstart, rfl⟩
    · rw [replayStart_eq s hb, if_neg (by simp [hknown]), if_pos hfmt] at hstart
      exact ⟨_, hstart, rfl, rfl⟩
    · rw [replayStart_eq s hb, if_neg (by simp [htyp, knownType_map]), if_neg (by simp [htyp, hlen]),
        if_pos (by simp [hcrc])] at hstart
      exact ⟨_, hstart, rfl, rfl⟩
    · rw [replayStart_own hb htyp hlen hcrc] at hstart
      refine ⟨fun hother => ?_, fun hfw hid => ?_⟩
      · rw [if_neg (by simp only [ownTrace, Bool.and_eq_true, beq_iff_eq]; tauto)] at hstart
        exact ⟨_, hstart, rfl, rfl⟩
      · rw [if_pos (by simp [ownTrace, hfw, hid])] at hstart
        exact ⟨_, hstart, traceTaken_shows b.body s.replay⟩
  · intro s k hspan hgo hnow hlast
    obtain ⟨heps, hcfg, hlanes, hat, hstate⟩ := replayBlocks_replays (k / 12 + 1) k
      (s.onReplay (fun r => { r with rstate := .running, lastAt := some s.grid.tickAt }))
    exact ⟨_, replayTick_advances hspan hgo hnow hlast, hat, hstate (by simp), heps, hcfg, hlanes⟩
  · intro s u dt h hopen hlen
    have hend := replayEnd_judges h hopen hlen
    refine ⟨fun hdone => ?_, fun hne hcheck hready => ?_⟩
    · rw [if_pos hdone] at hend
      exact ⟨_, hend, rfl, rfl⟩
    · rw [if_neg hne, if_pos ⟨by simp [replayGoing, hopen, hcheck], hready⟩] at hend
      refine ⟨fun hcrc => ?_, fun q hcrc hgap hseq hq => ?_⟩
      · rw [if_pos (by simp [hcrc])] at hend
        exact ⟨_, hend, rfl, rfl⟩
      · rw [if_neg (by simp [hcrc]), if_pos (by simp [breaksSeq, hseq, hgap, hq])] at hend
        exact ⟨_, hend, rfl, rfl⟩

end Sys2Proof.Machine
end
